-- ==== Sys2Proof/Word.lean ====
section
/-! DEFINITION. The word types of the TVX-2812 and their plainest arithmetic: bytes, 32-bit registers, 64-bit
counters, little-endian packing (R18) and the canonical sorted key lists that sparse state is held in. -/

namespace Sys2Proof

/-- One byte of any memory of the device (R18). -/
abbrev Byte := BitVec 8
/-- One control-space register (R18: every register is 32 bits wide). -/
abbrev Word := BitVec 32
/-- One 64-bit counter or pair of registers (R21, R33). -/
abbrev DWord := BitVec 64

/-- Bits `[lo + n - 1 : lo]` of a value, as a number. -/
def field {w : Nat} (v : BitVec w) (lo n : Nat) : Nat := (v.toNat >>> lo) % 2 ^ n

/-- Bit `i` of a value, as a Boolean. -/
def bitAt {w : Nat} (v : BitVec w) (i : Nat) : Bool := v.getLsbD i

/-- The Boolean as a number: 1 for true. -/
def b2n (b : Bool) : Nat := if b then 1 else 0

/-- A register value with field `x` placed at bit `lo`. -/
def put (lo : Nat) (x : Nat) : Nat := x <<< lo

/-- The `n` bytes of a number, least significant first (R18). -/
def leBytes : Nat → Nat → List Byte
  | 0, _ => []
  | n + 1, v => BitVec.ofNat 8 v :: leBytes n (v / 256)

/-- The number that bytes spell, least significant first (R18). -/
def ofLe : List Byte → Nat
  | [] => 0
  | b :: bs => b.toNat + 256 * ofLe bs

/-- The `n` bytes of a number, most significant first (signatures and digests). -/
def beBytes (n v : Nat) : List Byte := (leBytes n v).reverse

/-- The number that bytes spell, most significant first. -/
def ofBe (bs : List Byte) : Nat := ofLe bs.reverse

/-- `n` zero bytes. -/
def zeros (n : Nat) : List Byte := List.replicate n 0

/-- Bytes `off` to `off + n - 1` of a byte list. -/
def slice (bs : List Byte) (off n : Nat) : List Byte := (bs.drop off).take n

/-- `v` clipped to the signed value that `w` bits hold. -/
def toSigned (w v : Nat) : Int := if v % 2 ^ w < 2 ^ (w - 1) then (v % 2 ^ w : Nat) else (v % 2 ^ w : Nat) - (2 ^ w : Nat)

/-- `ceil (a / b)`. -/
def ceilDiv (a b : Nat) : Nat := (a + b - 1) / b

/-- A list with element `i` replaced, unchanged where there is none. -/
def setAt {α : Type} : List α → Nat → α → List α
  | [], _, _ => []
  | _ :: xs, 0, v => v :: xs
  | x :: xs, n + 1, v => x :: setAt xs n v

/-- A list with element `i` changed by `f`. -/
def modAt {α : Type} : List α → Nat → (α → α) → List α
  | [], _, _ => []
  | x :: xs, 0, f => f x :: xs
  | x :: xs, n + 1, f => x :: modAt xs n f

/-- A sparse table: entries by rising number, no two alike. -/
abbrev Tbl (α : Type) := List (Nat × α)

/-- Entry `k` of a sparse table. -/
def Tbl.get? {α : Type} : Tbl α → Nat → Option α
  | [], _ => none
  | (i, v) :: t, k => if i = k then some v else Tbl.get? t k

/-- The table with entry `k` set to `v`. -/
def Tbl.set {α : Type} : Tbl α → Nat → α → Tbl α
  | [], k, v => [(k, v)]
  | (i, x) :: t, k, v =>
    if k < i then (k, v) :: (i, x) :: t
    else if k = i then (k, v) :: t
    else (i, x) :: Tbl.set t k v

/-- The table without entry `k`. -/
def Tbl.erase {α : Type} (t : Tbl α) (k : Nat) : Tbl α := t.filter (fun e => e.1 != k)

/-- A sorted list of numbers with `k` in it. -/
def insSorted : List Nat → Nat → List Nat
  | [], k => [k]
  | i :: t, k => if k < i then k :: i :: t else if k = i then i :: t else i :: insSorted t k

/-- A vector with element `i` changed by `f`. -/
def upd {α : Type} {n : Nat} (v : Vector α n) (i : Fin n) (f : α → α) : Vector α n := v.set i (f (v.get i))

/-- Every number below `n` as an index. -/
def allFin (n : Nat) : List (Fin n) := List.finRange n

end Sys2Proof
end

