-- ==== Sys2Proof/Types.lean ====
section
/-! DEFINITION. What the commands of the TVX-2812 carry: requester paths (R21), vanes (R285), packets and flits (R307,
R313), slipstream frames (R246), the tables a plan holds, and what the board and the fuses answer in a bring-up. -/

namespace Sys2Proof

/-- A requester path of R21. -/
inductive Path where
  /-- Host port function 0. -/
  | f0
  /-- Host port function 1. -/
  | f1
  /-- The management port. -/
  | mb
  /-- The peer of a Trade link. -/
  | peer (link : Fin 36)
  /-- A core. -/
  | core (c : Fin 4)
deriving DecidableEq, Repr

/-- How a write of control space arrives (R18): its width in bytes, and the byte enables of a PCIe write; and the array, if one,
whose row comparison of a cross-check falls in the same handshake (R26, R95). (DESIGN CHOICE, log entry 151) -/
structure Form where
  width : Nat
  enables : BitVec 4
  met : Option (Fin 8)
deriving DecidableEq, Repr

/-- A write of one whole register. -/
def Form.whole (f : Form) : Bool := f.width == 4 && f.enables == 0xF#4

/-- Another command that reaches the same command register in the handshake (R32): its path, its opcode and its TAG.
(DEDUCED, log entry 143) -/
structure Rival where
  path : Path
  op : Nat
  tag : BitVec 16
deriving DecidableEq, Repr

/-- What comes with a command written to a command register (R32): its TAG, and the other commands that reach the register in
the same handshake. (DEDUCED, log entry 143) -/
structure Call where
  tag : BitVec 16
  rivals : List Rival
deriving DecidableEq, Repr

/-- A read of a register (R18): the offset it names and its width in bytes. -/
structure Access where
  off : Nat
  width : Nat
deriving DecidableEq, Repr

/-- What a write brings to a register (R18): its data and its form. -/
structure Put where
  data : Word
  form : Form
deriving DecidableEq, Repr

/-- The order of precedence of the requester paths at a command register (R32). -/
def Path.rank : Path → Nat
  | .mb => 0
  | .f1 => 1
  | .f0 => 2
  | .peer l => 3 + l.val
  | .core c => 39 + c.val

/-- The other commands of a handshake stand in order of precedence behind the one that is taken (R32). -/
def rivalsFollow (p : Path) : List Rival → Bool
  | [] => true
  | r :: rs => p.rank < r.path.rank && rivalsFollow r.path rs

/-- A vane of the device (R285): a core vane of a core, or a chain vane. -/
inductive VaneId where
  | core (c : Fin 4) (k : Fin 48)
  | chain (k : Fin 64)
deriving DecidableEq, Repr

/-- A packet as it is delivered (R313): the header's fields and the payload. -/
structure Packet where
  type : Nat
  vl : Nat
  poisoned : Bool
  src : Nat
  dst : Nat
  pseq : Nat
  addr : Nat
  req : Nat
  aux : Nat
  mask : Nat
  payload : List Byte
deriving DecidableEq, Repr

/-- The fields of a flit (R307), without the CRC that its bytes end with. -/
structure Flit where
  ftype : Nat
  vl : Nat
  seq : Nat
  ack : Nat
  creditVl : Nat
  creditCount : Nat
  payload : List Byte
deriving DecidableEq, Repr

/-- A slipstream frame (R246): the header's fields and the payload. -/
structure Frame where
  type : Nat
  version : Nat
  srcDev : Nat
  step : Nat
  stack : Nat
  kind : Nat
  group : Nat
  chunk : Nat
  offset : Nat
  seq : Nat
  attempt : Nat
  payload : List Byte
deriving DecidableEq, Repr

/-- The program of one context and what the plan says of it (R97, R100, R221, R346). -/
structure CtxProg where
  ctx : Nat
  first : Nat
  len : Nat
  prio : Nat
  stepEntry : Option Nat
  takeEntry : Option Nat
deriving DecidableEq, Repr

/-- One store ring of a core (R112). `base` is a core-store offset. -/
structure RingCfg where
  base : Nat
  slotSize : Nat
  slots : Nat
  specAllowed : Bool
  stepScoped : Bool
deriving DecidableEq, Repr

/-- What the plan states of one vane (R293, R294). -/
structure VaneCfg where
  initial : Nat
  stepScoped : Bool
deriving DecidableEq, Repr

/-- The fence settings of one core (R221). -/
structure FenceCfg where
  fenceVane : Fin 48
  fenceCount : Nat
  stepVane : Fin 48
deriving DecidableEq, Repr

/-- A predictor slot (R179), with the DRAIN_FMT and ROUND of its chains (R184). -/
structure PredSlot where
  groups : Nat
  rank : Nat
  predT : Word
  inactiveT : Word
  fill : Word
  drainFmt : Nat
  round : Nat
deriving DecidableEq, Repr

/-- A routing layer entry (R186): the 192 fixed bytes and the expert records of 32 bytes. -/
structure RouteEntry where
  head : BitVec 1536
  experts : List (BitVec 256)
deriving DecidableEq, Repr

/-- The cross-check settings of one core (R89, R92, R213). -/
structure XchkCfg where
  enable : Bool
  log2 : Nat
  key : Nat
  ctx : Option Nat
deriving DecidableEq, Repr

/-- What a plan holds for one core. -/
structure PlanCore where
  progs : List CtxProg
  ops : Tbl (BitVec 128)
  tensors : Tbl (BitVec 512)
  descs : Tbl (BitVec 512)
  gust : Tbl (BitVec 256)
  funcs : Tbl (List Byte)
  rowBins : Tbl (List Byte)
  routing : Tbl RouteEntry
  rings : Tbl RingCfg
  preds : Tbl PredSlot
  recompute : List (BitVec 128)
  vanes : Tbl VaneCfg
  fence : Option FenceCfg
  defaultBound : Nat
  xchk : XchkCfg
  /-- Feeder depths in bays (R81): row A, column A, row B, column B. -/
  depths : List Nat
  /-- Bytes of the store that tensor buffers and cross-check residency take besides the rings: (offset, size). -/
  buffers : List (Nat × Nat)
deriving DecidableEq, Repr

/-- A core to which the plan gives nothing. -/
def PlanCore.empty : PlanCore :=
  { progs := [], ops := [], tensors := [], descs := [], gust := [], funcs := [], rowBins := [], routing := []
    rings := [], preds := [], recompute := [], vanes := [], fence := none, defaultBound := 0
    xchk := ⟨false, 0, 0, none⟩, depths := [], buffers := [] }

/-- What a plan holds for one stack's Foehn unit (R233 to R235, R346). -/
structure PlanStack where
  groups : Tbl (BitVec 512)
  takeGroups : Tbl (BitVec 512)
  scheds : Tbl (List (BitVec 192))
  funcs : Tbl (List Byte)
deriving DecidableEq, Repr

/-- A Foehn unit to which the plan gives nothing. -/
def PlanStack.empty : PlanStack := { groups := [], takeGroups := [], scheds := [], funcs := [] }

/-- The twin that a plan names (R326). -/
structure TwinCfg where
  dev : Nat
  digest : List Byte
  hbPeriod : Nat
  hbLimit : Nat
  pairBound : Nat
deriving DecidableEq, Repr

/-- A twin pair as the plan of the fence root knows it (R329). -/
structure PairCfg where
  devA : Nat
  devB : Nat
  namesStore : Bool
deriving DecidableEq, Repr

/-- A root of a step that the plan names (R231, R344): the device, the step and the 48 bytes. -/
structure NamedRoot where
  dev : Nat
  step : Nat
  root : List Byte
deriving DecidableEq, Repr

/-- The health settings of a plan (R414 to R417). -/
structure HealthCfg where
  vmin : Nat
  vmax : Nat
  marginLow : Nat
  marginHigh : Nat
  tempWarn : Nat
  avsSettle : Nat
deriving DecidableEq, Repr

/-- The plan: every table that bring-up loads. -/
structure Plan where
  chainId : Nat
  startStep : Nat
  startEpoch : Nat
  cores : Vector PlanCore 4
  foehns : Vector PlanStack 12
  chainVanes : Tbl VaneCfg
  regions : List (BitVec 256)
  loads : List (BitVec 128)
  hostRoot : Option (List Byte)
  roots : List NamedRoot
  foehnKey : DWord
  stateEvery : Nat
  storeLag : Nat
  shadowLinks : Nat
  storeDev : Option Nat
  twin : Option TwinCfg
  pairs : List PairCfg
  routes : List (BitVec 128)
  usedLinks : BitVec 36
  /-- Receive allotments: entry 8 × link + lane, in flits (R312). -/
  allot : Tbl Nat
  laneLimit : Nat
  fenceParent : Option (Fin 36)
  fenceChildren : List (Fin 36)
  takeChildren : List (Fin 36)
  /-- The twin's own fence parent, to which a survivor in its place reports; none where the twin is the root (R347).
  (DESIGN CHOICE, log entry 106) -/
  takeParent : Option (Fin 36)
  fenceBound : Nat
  settle : Nat
  watchdog : Nat
  wcAge : Nat
  windows : List (BitVec 128)
  ingest : List (BitVec 256)
  /-- The CHECKPOINT slot (R376). -/
  ckptSlot : Option Nat
  keepBytes : Nat
  health : HealthCfg
  /-- The region that holds the partner image (R402): device address and length. -/
  partnerImage : Option (Nat × Nat)
deriving DecidableEq, Repr

/-- The plan tables before any plan is read. -/
def Plan.empty : Plan :=
  { chainId := 0, startStep := 0, startEpoch := 0, cores := Vector.replicate 4 PlanCore.empty
    foehns := Vector.replicate 12 PlanStack.empty, chainVanes := [], regions := [], loads := [], hostRoot := none
    roots := [], foehnKey := 0, stateEvery := 0, storeLag := 0, shadowLinks := 0, storeDev := none, twin := none
    pairs := [], routes := [], usedLinks := 0, allot := [], laneLimit := 0, fenceParent := none, fenceChildren := []
    takeChildren := [], takeParent := none, fenceBound := 0, settle := 0, watchdog := 0, wcAge := 0, windows := [], ingest := []
    ckptSlot := none, keepBytes := 0, health := ⟨0, 0, 0, 0, 0, 0⟩, partnerImage := none }

/-- The fused fields of R355. -/
inductive FuseField where
  | lifecycle | serial | identity | storage | ownerHash
deriving DecidableEq, Repr

/-- A copy of a fused field whose check fails (R357); `second` is true for the second copy. -/
structure BadCopy where
  field : FuseField
  second : Bool
deriving DecidableEq, Repr

/-- What comes with a command that programs fuses (R32, R357): its TAG, the other commands of its handshake, and the copies
whose check fails when they are read back. -/
structure FuseCall where
  tag : BitVec 16
  rivals : List Rival
  bad : List BadCopy
deriving DecidableEq, Repr

/-- What phase 2 meets (R357, R374, R398, R361): the fused copies whose check fails, whether the boot ROM passed and the noise
source passed, and the key slots of which a keep-store word cannot be corrected. (DESIGN CHOICE, log entry 130) -/
structure Phase2Env where
  badCopies : List BadCopy
  bootRomOk : Bool
  entropyOk : Bool
  lostSlots : List (Fin 16)
deriving DecidableEq, Repr

/-- The strap lands as the board ties them (R397). -/
structure Straps where
  bootSel : BitVec 2
  paceSel : BitVec 2
  twinSide : Bool
deriving DecidableEq, Repr

/-- What phase 4 reads (R400, R401, R402): the image bytes of a configuration memory with the length its byte 0 holds
(`none` where the read cannot complete), and the tables that the image's body holds once it is opened. The manual gives
the body no byte layout, so the tables stand beside the bytes. (DESIGN CHOICE, log entries 6, 130) -/
structure Phase4Env where
  memory : Option (List Byte)
  failedLinks : List (Fin 36)
  body : Plan
deriving DecidableEq, Repr

/-- What phase 5 finds (R272, R278): the stacks and stash devices that fail training, and the devices that answer.
(DESIGN CHOICE, log entry 130) -/
structure Phase5Env where
  failedStacks : List (Fin 12)
  fitted : List (Fin 16)
  failedStash : List (Fin 16)
deriving DecidableEq, Repr

/-- What phase 6 finds on the links (R304, R326): the links that fail training, and the peer that each of the others meets
(device, its link number), with the receive allotments of each peer, entry 8 × link + lane in flits (R312).
(DESIGN CHOICE, log entries 100, 130; DEDUCED, log entries 113, 140) -/
structure Phase6Env where
  failedLinks : List (Fin 36)
  peers : List (Fin 36 × Nat × Nat)
  allots : Tbl Nat
  /-- The twin is found TAKEN_OVER, having run this device's shard since the device was lost (R336). -/
  twinTaken : Bool
  /-- The twin is found to have the same TWIN_SIDE (R327), which no message carries (R371). -/
  sameSide : Bool
deriving DecidableEq, Repr

/-- What the self-test of one array gives (R87): the lowest-numbered tile whose dataflows differed, and whether the
signature matched. (DESIGN CHOICE, log entry 131) -/
structure SelfTest where
  array : Fin 8
  firstFail : Option (Fin 4096)
  signatureOk : Bool
deriving DecidableEq, Repr

/-- One measurement of the canary lines (R412, R413): the slack of each line, −1 to 63, in line order, and the highest
junction temperature. (DESIGN CHOICE, log entry 132) -/
structure Measurement where
  slacks : Vector Int 128
  temp : Int
deriving DecidableEq, Repr

/-- What the arrays and the ageing monitor give in phase 7. (DESIGN CHOICE, log entry 130) -/
structure Phase7Env where
  fails : List SelfTest
  meas : Measurement
deriving DecidableEq, Repr

/-- What phase 1 finds in the keep store and the backup domain (R406, R411, R421, R431): whether the backup domain's integrity
word holds, the keep-store words whose check finds an error that is corrected, those that cannot be corrected, and, after a loss
of VKEEP that stopped a fault flush, the pulses of each of its records that had ended. (DESIGN CHOICE, log entry 130) -/
structure Phase1Env where
  backupOk : Bool
  fixedWords : List Nat
  lostWords : List Nat
  flushCut : List (Nat × Nat)
deriving DecidableEq, Repr

/-- The scope of a reset (R389). -/
inductive Scope where
  | cold | warm | core
deriving DecidableEq, Repr

/-- What a private test instruction asks (R382, R389): a reset of a scope, or another access to internal state. -/
inductive TestOp where
  | reset (scope : Scope)
  | internal (code : Nat)
deriving DecidableEq, Repr

/-- A fault that strikes in service (R335, R343): of a stack, of a core, or of a stash device. -/
inductive ServiceFault where
  | stack (n : Fin 12)
  | core (c : Fin 4)
  | stash (n : Fin 8) (second : Bool)
deriving DecidableEq, Repr

/-- A reference clock of R439, by what it serves. -/
inductive RefClock where
  /-- TL_REFCLK pair of a link: the links it serves. -/
  | links (l : List (Fin 36))
  /-- MEM_REFCLK of the west (`false`) or east (`true`) compute die. -/
  | memory (east : Bool)
  /-- HP_REFCLK. -/
  | host
deriving DecidableEq, Repr

/-- How a drawn restore or shard chunk arrives (R344): its frame position, its bytes and its proof. -/
structure ChunkProof where
  srcDev : Nat
  step : Nat
  stack : Fin 12
  kind : Nat
  group : Nat
  chunk : Nat
  length : Nat
  leafIndex : Nat
  leaves : Nat
  full : Bool
  /-- Sibling nodes from the leaf up, `none` where an unpaired node rises (R248). -/
  path : List (Option (List Byte))
deriving DecidableEq, Repr

/-- Where a restored chunk comes from (R344, R375, R376). -/
inductive ChunkSource where
  /-- The twin's shadow or a SHARD transfer: plaintext. -/
  | twin (bytes : List Byte)
  /-- The store: a sealed chunk record. -/
  | store (record : List Byte)
deriving DecidableEq, Repr

end Sys2Proof
end

