-- ==== Sys2Proof/Syntax.lean ====
section
/-! DEFINITION. The commands of the TVX-2812: one constructor per row of spec/opcode_table.json, with what the command
carries. A stream operation carries its core and context alone: what it does is in the program store (R97), which State
holds. -/

namespace Sys2Proof

/-- One command: a step of the device, whole and indivisible (spec/95_what_each_step_holds.md). -/
inductive Instr where
  /-- REGISTER_WRITE (R20): A write to a control-space register that has no row of its own sets, clears or ignores its fields according to their access codes. -/
  | registerWrite (p : Path) (off : Nat) (v : Word) (f : Form)
  /-- LO_READ (R21): A read of a _LO register returns bits [31:0] and latches bits [63:32] for the requester path. -/
  | loRead (p : Path) (a : Access)
  /-- HI_READ (R21): A read of a _HI register returns the half latched by the path's last _LO read, or the live high half if there has been none. -/
  | hiRead (p : Path) (a : Access)
  /-- LO_WRITE (R21): A write to a writable _LO register is held for the path and does not yet take effect. -/
  | loWrite (p : Path) (off : Nat) (w : Put)
  /-- HI_WRITE (R21): A write to a _HI register applies the held _LO value and the high half at once, or applies the high half alone if nothing is held. -/
  | hiWrite (p : Path) (off : Nat) (w : Put)
  /-- VIO_STATUS_CLEAR (R29): Writing 1 to VIO_STATUS.VALID releases the violation log for the next capture. -/
  | vioStatusClear (p : Path) (v : Word)
  /-- HP_APERTURE_WRITE (R24): A write to HP_F0_APERTURE or HP_F1_APERTURE moves that function's BAR2 aperture for accesses that arrive afterwards. -/
  | hpApertureWrite (p : Path) (fn : Fin 2) (v : Word)
  /-- BAR2_READ (R368): A host BAR2 read is checked against the address map and then against the access windows, and reaches memory only inside a granting window. -/
  | bar2Read (fn : Fin 2) (off len : Nat)
  /-- BAR2_WRITE (R368): A host BAR2 write is checked against the address map and reaches memory only inside a FREE ingest buffer or the phase-4 staging area. -/
  | bar2Write (fn : Fin 2) (off : Nat) (data : List Byte)
  /-- STAGING_LENGTH_WRITE (R401): In phase 4 with the host port as plan source, a write of the image length to BAR2 offset 0x600_0000 starts the seal check. -/
  | stagingLengthWrite (fn : Fin 2) (len : Word)
  /-- MB_REG_READ (R25): The management port REG_READ command reads a control-space register and returns its 4 data bytes and a status byte. -/
  | mbRegRead (off : Nat)
  /-- MB_REG_WRITE (R25): The management port REG_WRITE command writes a control-space register. -/
  | mbRegWrite (off : Nat) (v : Word)
  /-- MB_LAST_STATUS (R25): The management port LAST_STATUS command returns the status byte of the most recent REG_WRITE. -/
  | mbLastStatus
  /-- MB_BAD_COMMAND (R440): A management port command code other than 0x10-0x12 is not acknowledged, has no effect and is counted. -/
  | mbBadCommand (code : Byte)
  /-- MB_PEC_ERROR (R441): A management port transfer whose packet error code does not match is ignored and counted. -/
  | mbPecError
  /-- CLOCK_LOW_TIMEOUT (R440): The SMBus clock-low timeout expires and ends the current management port transfer. -/
  | clockLowTimeout
  /-- ALERT_RESPONSE (R440): While MB_ALERT_N is low, the management port answers the Alert Response Address with its own address. -/
  | alertResponse
  /-- PERF_CLEAR_CORES (R33): DEV_PERF_CLEAR.CORES clears, in one handshake, every core-block performance counter and its overflow bits. -/
  | perfClearCores (p : Path)
  /-- PERF_CLEAR_DRAUGHT (R33): DEV_PERF_CLEAR.DRAUGHT clears the DRT_ counters and their overflow bits. -/
  | perfClearDraught (p : Path)
  /-- PERF_CLEAR_MEMORY (R33): DEV_PERF_CLEAR.MEMORY clears the MEM_ and FHN_ counters and their overflow bits. -/
  | perfClearMemory (p : Path)
  /-- PERF_CLEAR_STASH (R33): DEV_PERF_CLEAR.STASH clears the STC_ counters and their overflow bits. -/
  | perfClearStash (p : Path)
  /-- PERF_CLEAR_LINKS (R33): DEV_PERF_CLEAR.LINKS clears the TL_ counters and their overflow bits. -/
  | perfClearLinks (p : Path)
  /-- PERF_CLEAR_SLIPSTREAM (R33): DEV_PERF_CLEAR.SLIPSTREAM clears the SLP_ counters and their overflow bits. -/
  | perfClearSlipstream (p : Path)
  /-- PERF_CLEAR_VIOLATIONS (R33): DEV_PERF_CLEAR.VIOLATIONS clears VIO_COUNT and VIO_STATUS.OVF. -/
  | perfClearViolations (p : Path)
  /-- FETCH_OPERATION (R118): A fetch engine fetches the next operation of a context into its queue and performs it there if it is fetch-side. -/
  | fetchOperation (c : Fin 4) (k : Fin 8)
  /-- NOP (R106): NOP issues and does nothing. -/
  | nop (c : Fin 4) (k : Fin 8)
  /-- END (R110): END issues and waits for every earlier operation of its context to complete. -/
  | endOp (c : Fin 4) (k : Fin 8)
  /-- END_COMPLETE (R110): END completes once every earlier operation has completed, and the context becomes ENDED. -/
  | endComplete (c : Fin 4) (k : Fin 8)
  /-- TILE (R69): TILE starts or continues an accumulation chain on a Gale array. -/
  | tile (c : Fin 4) (k : Fin 8)
  /-- FILL_ROW (R116): FILL_ROW claims a row-feeder bay, subject to feeder ownership, and fills it with groups of its source. -/
  | fillRow (c : Fin 4) (k : Fin 8)
  /-- FILL_COL (R116): FILL_COL claims a column-feeder bay, subject to feeder ownership, and fills it with groups of its source. -/
  | fillCol (c : Fin 4) (k : Fin 8)
  /-- GATHER (R150): GATHER copies the slices named by an index tensor into the destination. -/
  | gather (c : Fin 4) (k : Fin 8)
  /-- SCATTER (R150): SCATTER writes source slices to the destination positions named by an index tensor. -/
  | scatter (c : Fin 4) (k : Fin 8)
  /-- MERGE (R153): MERGE combines source slices into indexed destination slices in position order. -/
  | merge (c : Fin 4) (k : Fin 8)
  /-- COMPACT (R170): COMPACT fills both feeders of an array with the retained groups of a row bin of a sparse matrix. -/
  | compact (c : Fin 4) (k : Fin 8)
  /-- EXPAND (R175): EXPAND writes drained rows from the expand buffer to their places in ROWS, MASKED or PRED mode. -/
  | expand (c : Fin 4) (k : Fin 8)
  /-- EDDY_TILE (R177): EDDY_TILE computes a small tile product on the merge array. -/
  | eddyTile (c : Fin 4) (k : Fin 8)
  /-- PREDICT (R180): PREDICT forms the predictor mask of a slot's token tile on the merge array. -/
  | predict (c : Fin 4) (k : Fin 8)
  /-- PREDICT_COMPLETE (R180): PREDICT completes: its mask becomes complete and PACK_VANE is signalled with the packed-tile count. -/
  | predictComplete (c : Fin 4)
  /-- VERIFY (R183): VERIFY bounds every inactive row group, writes FILL to certified groups and makes up missed groups exactly. -/
  | verify (c : Fin 4) (k : Fin 8)
  /-- TCOPY (R148): TCOPY copies a tensor with one pair of its dimensions exchanged. -/
  | tcopy (c : Fin 4) (k : Fin 8)
  /-- PCOPY (R148): PCOPY copies a tensor with its dimensions permuted. -/
  | pcopy (c : Fin 4) (k : Fin 8)
  /-- COPY (R147): COPY moves a tensor between layouts as if it were read whole before it is written. -/
  | copy (c : Fin 4) (k : Fin 8)
  /-- CONVERT (R447): CONVERT converts each source element to the destination format. -/
  | convert (c : Fin 4) (k : Fin 8)
  /-- VEC_ADD (R447): VEC_ADD adds elementwise in binary32. -/
  | vecAdd (c : Fin 4) (k : Fin 8)
  /-- VEC_SUB (R447): VEC_SUB subtracts elementwise in binary32. -/
  | vecSub (c : Fin 4) (k : Fin 8)
  /-- VEC_MUL (R447): VEC_MUL multiplies elementwise under R61. -/
  | vecMul (c : Fin 4) (k : Fin 8)
  /-- VEC_FMA (R447): VEC_FMA computes a times b plus c elementwise, rounded once. -/
  | vecFma (c : Fin 4) (k : Fin 8)
  /-- VEC_FUNC (R447): VEC_FUNC evaluates a function table elementwise. -/
  | vecFunc (c : Fin 4) (k : Fin 8)
  /-- VEC_MAX (R447): VEC_MAX takes the elementwise maximum, or reduces along dimension 0 when SRC1 is 0. -/
  | vecMax (c : Fin 4) (k : Fin 8)
  /-- VEC_MIN (R447): VEC_MIN takes the elementwise minimum, or reduces along dimension 0 when SRC1 is 0. -/
  | vecMin (c : Fin 4) (k : Fin 8)
  /-- VEC_SUM (R448): VEC_SUM reduces along dimension 0 by the group sum definition. -/
  | vecSum (c : Fin 4) (k : Fin 8)
  /-- VEC_DOT (R448): VEC_DOT forms dot products along dimension 0. -/
  | vecDot (c : Fin 4) (k : Fin 8)
  /-- VEC_SELECT (R447): VEC_SELECT selects elementwise between two sources by whether a selector is zero. -/
  | vecSelect (c : Fin 4) (k : Fin 8)
  /-- VEC_DROPOUT (R214): VEC_DROPOUT keeps and scales, or drops, each element by a Gust word. -/
  | vecDropout (c : Fin 4) (k : Fin 8)
  /-- VECTOR_OPERATION_COMPLETE (R450): A vector unit operation completes after its occupancy and its results are written. -/
  | vectorOperationComplete (c : Fin 4)
  /-- ROUTE (R190): ROUTE scores the tokens of a micro-batch in index order and decides admission for each expert. -/
  | route (c : Fin 4) (k : Fin 8)
  /-- DISPATCH_PAIR (R193): An admitted pair at the head of the dispatch queue has its row and list entry written on the expert's home core. -/
  | dispatchPair (c : Fin 4)
  /-- ROUTE_COMPLETE (R194): After all dispatch writes, ROUTE writes admit tables, updates counts, signals DONE_VANE, updates PREV and completes. -/
  | routeComplete (c : Fin 4)
  /-- VEER_HIST_SEL_WRITE (R21): A write to VEER_HIST_SEL selects, for the path, the expert whose counters the histogram window shows. -/
  | veerHistSelWrite (p : Path) (c : Fin 4) (v : Word)
  /-- VANE_SIGNAL (R291): VANE_SIGNAL issues a signal to a core vane or chain vane, in effect at issue or after earlier writes. -/
  | vaneSignal (c : Fin 4) (k : Fin 8)
  /-- VANE_SIGNAL_TAKES_EFFECT (R287): A signal takes effect on its vane: the count rises, and waiters are then served in order. -/
  | vaneSignalTakesEffect (v : VaneId)
  /-- VANE_WAIT (R288): VANE_WAIT consumes its count at issue if reached; otherwise it queues as a waiter and the context becomes WAITING. -/
  | vaneWait (c : Fin 4) (k : Fin 8)
  /-- VANE_TEST (R297): VANE_TEST writes the vane count to a loop counter without consuming it. -/
  | vaneTest (c : Fin 4) (k : Fin 8)
  /-- WAIT_BOUND_EXPIRY (R299): A wait bound expires: the waiter is removed, its context is STOPPED, and escalation or the lost-device path follows. -/
  | waitBoundExpiry (c : Fin 4) (k : Fin 8)
  /-- DRAUGHT (R158): DRAUGHT places a descriptor at the tail of an engine queue once a queue entry and all ring claims are available. -/
  | draught (c : Fin 4) (k : Fin 8)
  /-- LOOP_SET (R109): LOOP_SET loads a loop counter. -/
  | loopSet (c : Fin 4) (k : Fin 8)
  /-- LOOP_NEXT (R109): LOOP_NEXT decrements a loop counter above 1 and branches, or sets it to 0 and falls through. -/
  | loopNext (c : Fin 4) (k : Fin 8)
  /-- BRANCH_VANE (R120): BRANCH_VANE branches when a vane's count is at least THRESHOLD. -/
  | branchVane (c : Fin 4) (k : Fin 8)
  /-- JUMP (R109): JUMP branches unconditionally to its target. -/
  | jump (c : Fin 4) (k : Fin 8)
  /-- GALE_BROADCAST (R67): In one array step, the feeders broadcast one k of A and B, and every cell forms its product. -/
  | galeBroadcast (g : Fin 8)
  /-- GALE_STALL (R83): An array step with a pending tile and no broadcast counts exactly one stall. -/
  | galeStall (g : Fin 8)
  /-- GROUP_ENTERS_REDUCER (R72): A closed group enters the group reducer once the reducer is empty. -/
  | groupEntersReducer (g : Fin 8)
  /-- GROUP_SUM_ADD (R72): A group sum is added to its bank once the bank can take adds, and the reducer empties. -/
  | groupSumAdd (g : Fin 8)
  /-- DRAIN_ROW_READ (R74): The drain path reads one row of a bank, converting it to DRAIN_FMT. -/
  | drainRowRead (g : Fin 8)
  /-- DRAIN_ROW_WRITE (R74): A drained row is written to its destination once the destination can accept it. -/
  | drainRowWrite (g : Fin 8)
  /-- ACC_LOAD_ROW (R70): A LOAD reads one binary32 row from the core store into a free bank over the drain path. -/
  | accLoadRow (g : Fin 8)
  /-- BAY_FILL_COMPLETE (R82): A bay's fill completes in claim order and the bay becomes FULL. -/
  | bayFillComplete (g : Fin 8) (col : Bool)
  /-- XCHK_ISSUE (R92): A queued cross-check issues on the cross-check context as a weight-stationary chain on the partner array. -/
  | xchkIssue (g : Fin 8)
  /-- XCHK_ROW_COMPARE (R92): A result row leaving the weight-stationary array is converted and compared bit for bit with the stored result. -/
  | xchkRowCompare (g : Fin 8)
  /-- MOVE (R156): A MOVE descriptor starts copying its source to one or more destinations. -/
  | move (e : Fin 8) (i : Fin 4)
  /-- MX_STORE (R156): An MX_STORE descriptor starts encoding its source into an MX format with separate scales. -/
  | mxStore (e : Fin 8) (i : Fin 4)
  /-- COMPRESS (R156): A COMPRESS descriptor starts encoding a rank-2 source into BITMAP form. -/
  | compress (e : Fin 8) (i : Fin 4)
  /-- DRAUGHT_DESC_COMPLETE (R159): A descriptor completes in queue order: its ring slots may become FULL, its DONE vane is signalled and it retires. -/
  | draughtDescComplete (e : Fin 8)
  /-- LOCAL_FENCE (R223): The device reaches its local fence once all four conditions hold, and it reports on the fence route. -/
  | localFence
  /-- COMMIT (R224): The device commits: s advances, halves swap, step vanes are signalled and the commit records are made. -/
  | commit
  /-- FENCE_BOUND_EXPIRY (R226): The fence bound expires after the local fence: BOUND_EXPIRED is set and a FENCE_TIMEOUT REPORT is sent. -/
  | fenceBoundExpiry
  /-- LOAD_COMPLETE (R231): When every load of the device has completed, each core's step vane is signalled and step s begins. -/
  | loadComplete
  /-- GROUP_UPDATE_COMPLETE (R237): A Foehn group completes its update and, with DONE_EN, signals DONE_VANE. -/
  | groupUpdateComplete (n : Fin 12) (group : Fin 256)
  /-- CHUNK_SEND (R246): The slipstream sends a chunk as DATA frames followed by a CHUNK_END to each destination. -/
  | chunkSend (n : Fin 12) (group : Fin 256) (kind : Fin 3) (chunk : Nat)
  /-- DATA (R246): A destination receives a DATA frame and takes its bytes into the chunk being received. -/
  | dataFrame (l : Fin 36) (pkt : Packet) (frame : Frame)
  /-- CHUNK_END (R247): A destination receives CHUNK_END, compares the digest and answers CHUNK_ACK or CHUNK_NAK. -/
  | chunkEnd (l : Fin 36) (pkt : Packet) (frame : Frame)
  /-- CHUNK_ACK (R247): The slipstream receives CHUNK_ACK, and the chunk may leave the buffer once both destinations have acknowledged it. -/
  | chunkAck (l : Fin 36) (pkt : Packet) (frame : Frame)
  /-- CHUNK_NAK (R247): The slipstream receives CHUNK_NAK and resends the chunk, setting FAILED after 3 resends. -/
  | chunkNak (l : Fin 36) (pkt : Packet) (frame : Frame)
  /-- STEP_END_SEND (R249): When every Foehn unit has completed the step, the slipstream sends STEP_END with the root to both destinations. -/
  | stepEndSend
  /-- STEP_END (R249): The shadow receives STEP_END, rebuilds the root and sends STEP_ACK when the roots agree. -/
  | stepEnd (l : Fin 36) (pkt : Packet) (frame : Frame)
  /-- STEP_ACK (R249): The slipstream receives STEP_ACK from the shadow or the store and records the acknowledged step. -/
  | stepAck (l : Fin 36) (pkt : Packet) (frame : Frame)
  /-- ABORT (R251): A destination receives ABORT for a step and discards everything it has received for that step. -/
  | abortFrame (l : Fin 36) (pkt : Packet) (frame : Frame)
  /-- HBM_READ (R268): A stack controller serves a read of a line, decoding the outer code and returning the line's poison. -/
  | hbmRead (addr : Nat) (upset : List Byte) (flags : BitVec 16)
  /-- HBM_WRITE (R270): A stack controller takes a write, either writing whole lines directly or merging partial lines into write-combining entries. -/
  | hbmWrite (addr : Nat) (data : List Byte) (poison : Bool)
  /-- CORRECTION_WRITE_BACK (R260): The corrected codeword of a line is written back, unless a newer write to the line has already been accepted. -/
  | correctionWriteBack (n : Fin 12) (line : Nat)
  /-- WC_ENTRY_FINISH (R271): A write-combining entry is finished by read-modify-write on age, pressure, commit or self-refresh. -/
  | wcEntryFinish (unit : Fin 20) (line : Nat)
  /-- CHECK_LINE_EVICT (R269): A check line evicted from the check cache is written back to the DRAM. -/
  | checkLineEvict (unit : Fin 20) (group : Nat)
  /-- REFRESH (R274): A channel is refreshed as the standard requires, doubled above 85 C. -/
  | refresh (n : Fin 12) (channel : Fin 32) (hot : Bool)
  /-- STACK_FAULT (R335): A stack or core becomes FAILED in service, and the device halts as a lost device. -/
  | stackFault (what : ServiceFault)
  /-- STASH_READ (R277): A stash controller serves a read of a line with CRC retry, decryption and outer-code decoding. -/
  | stashRead (addr : Nat) (upset : List Byte) (crcFails : Fin 5)
  /-- STASH_WRITE (R284): A stash controller takes a write, merging partial lines as plaintext and encrypting whole lines. -/
  | stashWrite (addr : Nat) (data : List Byte) (poison : Bool) (crcFails : Fin 5)
  /-- LANE_SPARE (R305): A failing lane's traffic moves onto the spare lane; with the spare already in use, the link fails. -/
  | laneSpare (l : Fin 36) (lane : Fin 8)
  /-- FLIT_RECEIVE (R309): A receiver takes a flit: it accepts or discards it by sequence number and takes its ACK and credits. -/
  | flitReceive (l : Fin 36) (wire : List Byte)
  /-- NAK (R310): A sender receives a NAK and resends every held flit from the one that ACK names. -/
  | nak (l : Fin 36) (ack : BitVec 24)
  /-- ACK_TIMEOUT (R310): No progress of ACK for 512 flit times makes the sender resend its held flits. -/
  | ackTimeout (l : Fin 36)
  /-- RETRAIN_COMPLETE (R310): A retrain completes and the held flits are resent with new sequence numbers. -/
  | retrainComplete (l : Fin 36)
  /-- PACKET_FORWARD (R319): A packet for another device is forwarded in the link die by the route table. -/
  | packetForward (l : Fin 36) (pkt : Packet)
  /-- WRITE (R316): A remote WRITE packet lands at its destination with its poison, and a WRITE_ACK or ERROR is returned. -/
  | writePacket (l : Fin 36) (pkt : Packet)
  /-- WRITE_ACK (R316): A WRITE_ACK ends a remote write's wait, so its descriptor may complete. -/
  | writeAck (l : Fin 36) (pkt : Packet)
  /-- READ_REQ (R316): A remote READ_REQ is served at its destination and answered with READ_DATA or ERROR. -/
  | readReq (l : Fin 36) (pkt : Packet)
  /-- READ_DATA (R316): READ_DATA delivers the data that answers a remote read. -/
  | readData (l : Fin 36) (pkt : Packet)
  /-- SIGNAL (R292): A chain vane SIGNAL packet is applied to its target chain vane, or discarded after a freeze. -/
  | signalPacket (l : Fin 36) (pkt : Packet)
  /-- ERROR (R316): An ERROR packet ends the write, read or signal that it answers, poisoning or withholding DONE as its kind requires. -/
  | errorPacket (l : Fin 36) (pkt : Packet)
  /-- PEER_REG_READ (R316): A link peer reads a control-space register with the rights of its path and receives REG_RESP. -/
  | peerRegRead (l : Fin 36) (pkt : Packet)
  /-- PEER_REG_WRITE (R316): A link peer writes a control-space register with the rights of its path and receives REG_RESP. -/
  | peerRegWrite (l : Fin 36) (pkt : Packet)
  /-- REG_RESP (R313): A REG_RESP returns the data or status of a peer register access. -/
  | regResp (l : Fin 36) (pkt : Packet)
  /-- FENCE_REPORT (R324): A FENCE_REPORT from a child is taken, and the parent reports or closes once all its conditions hold. -/
  | fenceReport (l : Fin 36) (pkt : Packet)
  /-- FENCE_CLOSE (R324): A FENCE_CLOSE is passed to every child, and the device commits in the handshake of receipt. -/
  | fenceClose (l : Fin 36) (pkt : Packet)
  /-- REPORT (R339): The root takes a STEP_ABANDON REPORT and retries, settles, halts or discards it. -/
  | report (first : Fin 36 × Packet) (more : List (Fin 36 × Packet))
  /-- REPORT_RESEND (R338): A device resends its REPORT every SETTLE ticks until a RETRY or HALT with a higher attempt arrives. -/
  | reportResend
  /-- SETTLE_WINDOW_CLOSE (R339): The root's settle window ends and RETRY is ordered with every takeover granted meanwhile. -/
  | settleWindowClose
  /-- RETRY (R340): A device receives RETRY: it passes it on, applies takeovers, aborts the slipstream, retries and sends RETRY_DONE. -/
  | retryOrder (l : Fin 36) (pkt : Packet)
  /-- RETRY_DONE (R340): A parent receives RETRY_DONE from a child and stops discarding that child's fence reports. -/
  | retryDone (l : Fin 36) (pkt : Packet)
  /-- HALT (R341): A device receives HALT, makes its fatal stop, holds its links DOWN and becomes HALTED. -/
  | haltOrder (l : Fin 36) (pkt : Packet)
  /-- MEMBER_REQ_ATTACH (R331): The root takes an ATTACH request and places it into the next FENCE_CLOSE. -/
  | memberReqAttach (first : Fin 36 × Packet) (more : List (Fin 36 × Packet))
  /-- MEMBER_REQ_DETACH (R331): The root takes a DETACH request and places it into the next FENCE_CLOSE. -/
  | memberReqDetach (first : Fin 36 × Packet) (more : List (Fin 36 × Packet))
  /-- MEMBER_REQ_TAKEOVER (R329): The root grants the first TAKEOVER of a twin pair and denies the others. -/
  | memberReqTakeover (first : Fin 36 × Packet) (more : List (Fin 36 × Packet))
  /-- MEMBER_GRANT (R331): A device receives the grant of its membership request. -/
  | memberGrant (l : Fin 36) (pkt : Packet)
  /-- MEMBER_DENY (R330): A device receives the refusal of its membership request, and its command fails or it halts. -/
  | memberDeny (l : Fin 36) (pkt : Packet)
  /-- ATTACH (R330): The TL_CHAIN_CMD ATTACH command sends MEMBER_REQ ATTACH, and ROLE becomes JOINING. -/
  | attach (p : Path) (call : Call)
  /-- DETACH (R330): The TL_CHAIN_CMD DETACH command sends MEMBER_REQ DETACH, and ROLE becomes LEAVING. -/
  | detach (p : Path) (call : Call)
  /-- HEARTBEAT_SEND (R328): Every HB_PERIOD ticks, a paired twin sends HEARTBEAT on every UP twin-port link. -/
  | heartbeatSend
  /-- HEARTBEAT (R328): A HEARTBEAT from the twin arrives and restarts the silence timer. -/
  | heartbeat (l : Fin 36) (pkt : Packet)
  /-- TWIN_SILENT (R328): No heartbeat for HB_LIMIT periods: the twin is LOST and takeover arbitration starts. -/
  | twinSilent
  /-- HELLO (R326): A PAIR HELLO of a pairing or session handshake is received and checked. -/
  | hello (l : Fin 36) (pkt : Packet)
  /-- REPLY (R326): A PAIR REPLY is received and checked. -/
  | reply (l : Fin 36) (pkt : Packet)
  /-- CONFIRM (R326): A PAIR CONFIRM is received and checked. -/
  | confirm (l : Fin 36) (pkt : Packet)
  /-- FINISH (R326): A PAIR FINISH is received, and the link takes its session keys. -/
  | finish (l : Fin 36) (pkt : Packet)
  /-- PAIR_BOUND_EXPIRY (R327): No HELLO or REPLY within PAIR_BOUND: the twin is absent and the device comes up OUTSIDE. -/
  | pairBoundExpiry
  /-- SHARD (R332): SHARD packets carry a joiner's shard, or a partner image, from its twin. -/
  | shard (l : Fin 36) (pkt : Packet) (proof : Option ChunkProof)
  /-- RESTORE_CHUNK (R344): A restored chunk is accepted against the reference root, or refused. -/
  | restoreChunk (proof : ChunkProof) (src : ChunkSource)
  /-- NONCE (R360): The NONCE command draws fresh bytes into the path's nonce. -/
  | nonce (p : Path) (call : Call)
  /-- SESSION (R360): The SESSION command opens an owner or service session by token. -/
  | session (p : Path) (call : Call)
  /-- END_SESSION (R360): The END_SESSION command ends the path's session. -/
  | endSession (p : Path) (call : Call)
  /-- SESSION_EXPIRY (R354): A session's SESSION_TICKS pass and the session ends. -/
  | sessionExpiry (p : Path)
  /-- SHIP (R360): The SHIP command fuses the identity key and storage secret, and the lifecycle becomes SHIPPED. -/
  | ship (p : Path) (call : FuseCall)
  /-- FUSE_OWNER (R360): The FUSE_OWNER command fuses the owner key hash, and the lifecycle becomes OWNED. -/
  | fuseOwner (p : Path) (call : FuseCall)
  /-- KEY_LOAD (R362): The KEY_LOAD command unwraps a key and loads it into a key slot. -/
  | keyLoad (p : Path) (call : Call)
  /-- KEY_DELETE (R363): The KEY_DELETE command empties a key slot that is not in use. -/
  | keyDelete (p : Path) (call : Call)
  /-- POLICY (R364): The POLICY command sets the pending policy, and MIN_GRANT at once. -/
  | policy (p : Path) (call : Call)
  /-- ENDORSE (R360): The ENDORSE command stores a verified owner endorsement. -/
  | endorse (p : Path) (call : Call)
  /-- DEBUG_UNLOCK (R383): The DEBUG_UNLOCK command writes ZEROISE, halts the device, discards sessions and starts zeroisation. -/
  | debugUnlock (p : Path) (call : Call)
  /-- UNLOCK_COMPLETE (R383): Zeroisation ends: ZEROISE is cleared, DEBUG_OPEN is set and DONE is answered. -/
  | unlockComplete
  /-- SUBMIT (R379): The SEC_INGEST_CMD SUBMIT command takes an ingest buffer for checking or decryption in place. -/
  | submit (p : Path) (chan : Fin 8) (call : Call)
  /-- INGEST_BUFFER_READY (R379): A submitted buffer is found good: it becomes READY and its vane is signalled; on a tag failure it returns to FREE. -/
  | ingestBufferReady
  /-- ENTROPY_FAIL (R374): The noise source fails its health test, and every draw is refused. -/
  | entropyFail
  /-- EXTEST (R443): The EXTEST instruction drives the lands while RESET_N is low, and acts as BYPASS otherwise. -/
  | extest
  /-- CLAMP (R443): The CLAMP instruction takes effect while RESET_N is low, and acts as BYPASS otherwise. -/
  | clamp
  /-- HIGHZ (R443): The HIGHZ instruction takes effect while RESET_N is low, and acts as BYPASS otherwise. -/
  | highz
  /-- EXTEST_PULSE (R443): The EXTEST_PULSE instruction takes effect while RESET_N is low, and acts as BYPASS otherwise. -/
  | extestPulse
  /-- EXTEST_TRAIN (R443): The EXTEST_TRAIN instruction takes effect while RESET_N is low, and acts as BYPASS otherwise. -/
  | extestTrain
  /-- SAMPLE_PRELOAD (R443): The SAMPLE/PRELOAD instruction samples the boundary cells without disturbing anything. -/
  | samplePreload
  /-- IDCODE (R443): The IDCODE instruction returns the part and stepping identification. -/
  | idcode
  /-- BYPASS (R443): The BYPASS instruction passes TDI to TDO through one cell. -/
  | bypass
  /-- PRIVATE_TEST_INSTRUCTION (R382): A private test instruction reaches internal state only while DEBUG_OPEN is set. -/
  | privateTestInstruction (op : TestOp)
  /-- POWER_ON_RESET (R389): Every rail within its window with the clocks running is recognised as a cold reset. -/
  | powerOnReset
  /-- PIN_RESET (R392): RESET_N held low is recognised as a cold reset. -/
  | pinReset
  /-- RESET_RELEASE (R392): The reset pin has been high for 1 us, and the device leaves reset hold. -/
  | resetRelease (twin : Bool)
  /-- COLD (R389): The RST_CMD COLD command requests a cold reset. -/
  | coldReset (p : Path) (call : Call)
  /-- WARM (R389): The RST_CMD WARM command requests a warm reset. -/
  | warmReset (p : Path) (call : Call)
  /-- CORE (R396): The RST_CMD CORE command requests a core reset, refused in BRING_UP or SAFE. -/
  | coreReset (p : Path) (call : Call)
  /-- TWIN_RESET (R389): TWIN_RST_IN_N held low is recognised as a warm reset. -/
  | twinReset
  /-- WATCHDOG_EXPIRY (R389): No commit, RETRY or HALT within RST_WDT.TICKS: a warm watchdog reset. -/
  | watchdogExpiry
  /-- THERMAL_TRIP (R389): A junction sensor at 110 C or more: a cold reset held until every sensor is below 95 C. -/
  | thermalTrip (sensor : Fin 12) (temp : Int)
  /-- THERMAL_TRIP_RELEASE (R394): Every sensor reads below 95 C, and the held thermal reset proceeds. -/
  | thermalTripRelease (temps : Vector Int 12)
  /-- SUPPLY_MONITOR_RESET (R389): A monitored rail is outside its window for more than 10 us: a cold reset. -/
  | supplyMonitorReset
  /-- RESET_TAKE (R394): Once pending pulses, fuse programming and any commit have ended, the device flushes, applies the scope and begins phase 1. -/
  | resetTake
  /-- PHASE_1 (R407): Phase 1 checks the backup domain, counts RST_COUNT, writes the reset history and resumes record SEQ. -/
  | phase1 (env : Phase1Env)
  /-- PHASE_2 (R357): Phase 2 reads the fuses, self-checks the boot ROM, seeds the DRBG and unseals the key slots. -/
  | phase2 (env : Phase2Env)
  /-- PHASE_3 (R397): Phase 3 samples the straps, or takes them from the latch. -/
  | phase3 (straps : Straps)
  /-- PHASE_4 (R400): Phase 4 reads the plan from the selected source and checks its seal. -/
  | phase4 (env : Phase4Env)
  /-- PHASE_5 (R272): Phase 5 trains HBM and the stash tier and zero-fills them as the scope requires. -/
  | phase5 (env : Phase5Env)
  /-- PHASE_6 (R304): Phase 6 trains the links, runs the session handshakes and pairs the twins. -/
  | phase6 (env : Phase6Env)
  /-- PHASE_7 (R87): Phase 7 runs the Gale self-test and an ageing measurement. -/
  | phase7 (env : Phase7Env)
  /-- PHASE_8 (R127): Phase 8 checks that the plan fits the device, or refuses it. -/
  | phase8
  /-- PHASE_9 (R231): Phase 9 starts the plan in RUN, or in TAKEOVER. -/
  | phase9
  /-- PHASE_BOUND_EXPIRY (R398): A phase bound expires and the bring-up fails. -/
  | phaseBoundExpiry
  /-- FAILED_BRING_UP_WAIT_EXPIRY (R403): The 2^24-tick wait after a failed bring-up ends and a fatal-error reset is taken. -/
  | failedBringUpWaitExpiry
  /-- HP_PERST (R438): HP_PERST_N low holds the host port in reset, returns both apertures to 0 and ends their sessions. -/
  | hpPerst
  /-- FUNCTION_LEVEL_RESET (R438): A PCIe function-level reset sets that function's aperture to 0 and ends its session. -/
  | functionLevelReset (fn : Fin 2)
  /-- PWR_FAIL (R423): PWR_FAIL_N falls: a POWER_FAIL record is made and a fault flush begins. -/
  | pwrFail
  /-- PWR_FAIL_RISE (R432): PWR_FAIL_N rises again with every rail in its window, and the device runs on. -/
  | pwrFailRise
  /-- FAULT_FLUSH_END (R423): A fault flush ends once its last record's word 0 is written. -/
  | faultFlushEnd
  /-- ROUTINE_FLUSH (R422): The routine flush writes the next unkept record to its keep-store slot using idle pulses. -/
  | routineFlush
  /-- SEQ_MARK_WRITE_END (R421): Both copies of a new SEQ mark are written, and records held at the old mark may proceed. -/
  | seqMarkWriteEnd
  /-- RECORD_ALLOWANCE_RISE (R420): Every 256 device ticks the record allowance rises by 1. -/
  | recordAllowanceRise
  /-- EVR_CURSOR_WRITE (R424): A write to EVR_CURSOR selects the record that the path's windows show and clears GONE. -/
  | evrCursorWrite (p : Path) (lo hi : Word)
  /-- RST_HIST_SEL_WRITE (R408): A write to RST_HIST_SEL selects the reset record that the path's window shows. -/
  | rstHistSelWrite (p : Path) (v : Word)
  /-- HLT_CANARY_SEL_WRITE (R416): A write to HLT_CANARY_SEL selects the canary line that the path sees. -/
  | hltCanarySelWrite (p : Path) (v : Word)
  /-- MEASUREMENT_START (R413): When DEV_TICK[31:0] wraps, an ageing measurement of every canary line starts. -/
  | measurementStart
  /-- MEASUREMENT_COMPLETE (R413): A measurement completes: its margins are recorded, and a margin of -1 escalates. -/
  | measurementComplete (m : Measurement)
  /-- AVS_SETTLED (R415): The regulator reports the requested voltage within 5 mV, and the request has settled. -/
  | avsSettled (vread : Nat)
  /-- AVS_SETTLE_TIMEOUT (R415): An AVSBus request does not settle within AVS_SETTLE ticks, and the failure is counted and recorded. -/
  | avsSettleTimeout (vread : Nat)
  /-- TEMP_WARN (R417): A junction sensor rises to TEMP_WARN and makes one THERMAL record. -/
  | tempWarn (sensor : Fin 12) (temp : Int)
  /-- EDDY_OPERATION_COMPLETE (R102): A GATHER, SCATTER, MERGE, COMPACT, EXPAND, EDDY_TILE or VERIFY on the Eddy engine completes after its occupancy, its writes land and the engine frees for the next operation. -/
  | eddyOperationComplete (c : Fin 4)
  /-- COPY_OPERATION_COMPLETE (R147): A COPY, TCOPY or PCOPY on the copy path completes once its destination is written. -/
  | copyOperationComplete (c : Fin 4)
  /-- LINK_RETRAIN_FAILURE (R310): A retrain or training that cannot bring up 8 working lanes within its bound leaves the link FAILED. -/
  | linkRetrainFailure (l : Fin 36)
  /-- REFERENCE_CLOCK_LOSS (R439): A reference clock stops or leaves its tolerance while the device runs, and the links or memories it serves retrain and then fail. -/
  | referenceClockLoss (clock : RefClock)
  /-- PCIE_LINK_LOSS (R354): The PCIe link is lost, ending function 1's session and leaving ingest waiting while the port is down. -/
  | pcieLinkLoss
  /-- HP_PERST_RELEASE (R438): HP_PERST_N rises and the host port leaves reset, so its functions become reachable again. -/
  | hpPerstRelease
  /-- TWIN_RST_OUT_RELEASE (R389): The 10 us low drive of TWIN_RST_OUT_N after a takeover ends and the output is released. -/
  | twinRstOutRelease
  /-- TEMP_WARN_REARM (R417): A junction sensor that warned falls 5 C below TEMP_WARN and is re-armed to warn again. -/
  | tempWarnRearm (sensor : Fin 12) (temp : Int)
deriving DecidableEq, Repr

end Sys2Proof
end

