-- ==== Sys2Proof/Decode.lean ====
section
/-! DEFINITION. The command that a word spells by the table's bits. The device is a block: its commands are steps, no row
of spec/opcode_table.json gives its command any bits, and so no word spells a command. -/

namespace Sys2Proof

/-- No row gives bits: no word spells a command. (DESIGN CHOICE, log entry 4) -/
def decodeTableWord (nbits w : Nat) : Option Instr :=
  match nbits, w with
  | _, _ => none

end Sys2Proof
end

