-- ==== Sys2Proof/Config.lean ====
section
/-! DEFINITION. What the specification leaves to an implementation or to chance: free values, random draws and the
primitives of public-key and block cryptography, each an opaque constant of which nothing can be proved. The hash of R245,
R248 and R370 is no such primitive: it is computed in Machine/Sha. -/

namespace Sys2Proof.Config

/-- A value the specification leaves undefined: the `n`-th one that a run meets. (DESIGN CHOICE, log entry 12) -/
opaque freeNat (n : Nat) : Nat

/-- The scale byte of an MX block of a generic operand, which no operand names: that of the block at an address, in the
`n`-th operation that meets free values. (DESIGN CHOICE, log entry 36) -/
opaque freeScale (n addr : Nat) : Nat

/-- Byte `i` of draw `n` of the deterministic random bit generator (R374). -/
opaque drawByte (n i : Nat) : Byte

/-- One 64-byte line under AES-256-XTS with the key of draw `key` and a tweak (R280). -/
opaque xtsEncrypt (key tweak : Nat) (line : List Byte) : List Byte

/-- The inverse of `xtsEncrypt`; no law relates the two. -/
opaque xtsDecrypt (key tweak : Nat) (line : List Byte) : List Byte

/-- ECDSA over P-384 with SHA-384: does the signature verify under the public key over the message? -/
opaque ecdsaVerify (key msg sig : List Byte) : Bool

/-- ECDSA over P-384: the signature that the private key of draw `priv` makes over a message. -/
opaque ecdsaSign (priv : Nat) (msg : List Byte) : List Byte

/-- The public P-384 key of a private key drawn in draw `priv`, 96 bytes. -/
opaque publicKey (priv : Nat) : List Byte

/-- The ECDH shared secret of a private key drawn in draw `priv` and a public key. -/
opaque ecdh (priv : Nat) (pub : List Byte) : List Byte

/-- The ML-KEM-1024 encapsulation key of a decapsulation key made from draw `priv`. -/
opaque kemPublic (priv : Nat) : List Byte

/-- ML-KEM-1024 encapsulation under an encapsulation key with the randomness of a draw: ciphertext and shared secret. -/
opaque kemEncaps (pub : List Byte) (draw : Nat) : List Byte × List Byte

/-- ML-KEM-1024 decapsulation. -/
opaque kemDecaps (priv : Nat) (ct : List Byte) : List Byte

/-- AES-256-GCM encryption under a key, a 96-bit nonce and associated data: ciphertext and tag. -/
opaque gcmSeal (key nonce aad plain : List Byte) : List Byte × List Byte

/-- AES-256-GCM decryption; none where the tag fails. -/
opaque gcmOpen (key nonce aad cipher tag : List Byte) : Option (List Byte)

/-- The device ticks that a fuse programming takes (R357 bounds it in time alone). (DESIGN CHOICE, log entry 142) -/
opaque fuseTicks : Nat

/-- The SHA-384 hash of the vendor key that the boot ROM holds (R351). -/
opaque vendorHash : List Byte

/-- Bytes of the keep store that the owner security state allots to a plan (R127, code 0x0A): the manual states no number.
(DESIGN CHOICE, log entry 73) -/
opaque keepQuota : Nat

/-- The manufacturer field of IDCODE (R443): the manual states no number. (PRESUMED, log entry 31) -/
opaque manufacturer : Nat

end Sys2Proof.Config
end

