-- ==== Sys2Proof/Machine/Formats.lean ====
section
/-! DEFINITION. Number formats and the exact dot product (spec/02_number_formats.md, R36 to R64, and the semiring terms
of R77 and R78): decoding to the common form, products, the group sum, binary32 arithmetic, conversion on output, MX
blocks, and the Gust generator of R212. -/

namespace Sys2Proof.Machine

/-- The element formats of R36 and binary32 as a storage format. -/
inductive Elem where
  | fp32 | fp16 | bf16 | e4m3 | e5m2 | int8 | e2m3 | e3m2 | e2m1 | mxint8
deriving DecidableEq, Repr

/-- A format as a format code names it (R107): an element format and whether an E8M0 scale goes with its blocks. -/
structure Fmt where
  elem : Elem
  mx : Bool
deriving DecidableEq, Repr

/-- FMT codes of R107; `none` for a reserved code. -/
def Fmt.ofCode : Nat → Option Fmt
  | 0 => some ⟨.fp16, false⟩
  | 1 => some ⟨.bf16, false⟩
  | 2 => some ⟨.e4m3, false⟩
  | 3 => some ⟨.e5m2, false⟩
  | 4 => some ⟨.int8, false⟩
  | 5 => some ⟨.e4m3, true⟩
  | 6 => some ⟨.e5m2, true⟩
  | 7 => some ⟨.e2m3, true⟩
  | 8 => some ⟨.e3m2, true⟩
  | 9 => some ⟨.e2m1, true⟩
  | 10 => some ⟨.mxint8, true⟩
  | 11 => some ⟨.fp32, false⟩
  | _ => none

/-- DRAIN_FMT codes of R107; `none` for a reserved code. -/
def Fmt.ofDrain : Nat → Option Fmt
  | 0 => some ⟨.fp32, false⟩
  | 1 => some ⟨.bf16, false⟩
  | 2 => some ⟨.fp16, false⟩
  | 3 => some ⟨.e4m3, false⟩
  | 4 => some ⟨.e5m2, false⟩
  | _ => none

/-- Width of one element in bits (R36). -/
def Elem.bits : Elem → Nat
  | .fp32 => 32
  | .fp16 | .bf16 => 16
  | .e4m3 | .e5m2 | .int8 | .mxint8 => 8
  | .e2m3 | .e3m2 => 6
  | .e2m1 => 4

/-- Significand field width of a floating-point element (R38). -/
def Elem.mbits : Elem → Nat
  | .fp32 => 23
  | .fp16 => 10
  | .bf16 => 7
  | .e4m3 | .e2m3 => 3
  | .e5m2 | .e3m2 => 2
  | .e2m1 => 1
  | .int8 | .mxint8 => 0

/-- Exponent field width of a floating-point element (R38). -/
def Elem.ebits : Elem → Nat
  | .fp32 | .bf16 => 8
  | .fp16 | .e5m2 => 5
  | .e4m3 => 4
  | .e3m2 => 3
  | .e2m3 | .e2m1 => 2
  | .int8 | .mxint8 => 0

/-- Exponent bias of a floating-point element (R38). -/
def Elem.bias : Elem → Int
  | .fp32 | .bf16 => 127
  | .fp16 | .e5m2 => 15
  | .e4m3 => 7
  | .e3m2 => 3
  | .e2m3 | .e2m1 => 1
  | .int8 | .mxint8 => 0

/-- The class of a common-form value (R37). -/
inductive Cls where
  | zero | finite | inf | nan
deriving DecidableEq, Repr

/-- The common form of R37: a finite value is (−1)^s × m × 2^(e − 11), bit 11 of m set. -/
structure CF where
  cls : Cls
  s : Bool
  m : Nat
  e : Int
deriving DecidableEq, Repr

/-- `+0` in the common form. -/
def CF.zero : CF := ⟨.zero, false, 0, 0⟩

/-- Decode an element under scale byte `x8` (R38, R39, and the decode pseudocode). -/
def decode (f : Fmt) (bits x8 : Nat) : CF :=
  if f.mx && x8 == 255 then ⟨.nan, false, 0, 0⟩ else
  let sc : Int := if f.mx then (x8 : Int) - 127 else 0
  let fin (s : Bool) (mag : Nat) (e0 : Int) : CF :=
    if mag = 0 then ⟨.zero, s, 0, 0⟩
    else
      let p := Nat.log2 mag
      ⟨.finite, s, if p ≤ 11 then mag <<< (11 - p) else mag >>> (p - 11), e0 + p + sc⟩
  match f.elem with
  | .int8 | .mxint8 =>
    let i := toSigned 8 bits
    fin (i < 0) i.natAbs (if f.elem = .mxint8 then -6 else 0)
  | el =>
    let mm := bits % 2 ^ el.mbits
    let ee := (bits >>> el.mbits) % 2 ^ el.ebits
    let s := bits.testBit (el.mbits + el.ebits)
    let top := 2 ^ el.ebits - 1
    let special := el = .fp32 || el = .fp16 || el = .bf16 || el = .e5m2
    if special && ee == top then
      if mm = 0 then ⟨.inf, s, 0, 0⟩ else ⟨.nan, s, 0, 0⟩
    else if el = .e4m3 && ee == 15 && mm == 7 then ⟨.nan, s, 0, 0⟩
    else if ee = 0 then fin s mm (1 - el.bias - el.mbits)
    else fin s (2 ^ el.mbits + mm) (ee - el.bias - el.mbits)

/-- The rounding that a conversion selects (R49): to nearest even, or stochastic with a 16-bit Gust word (R52). -/
inductive Round where
  | rne
  | sr (g : Nat)
deriving DecidableEq, Repr

/-- `m × 2^e / 2^q` rounded to a whole number (R51, R52). -/
def roundTo (r : Round) (m : Nat) (e q : Int) : Nat :=
  if q ≤ e then m <<< (e - q).toNat
  else
    let sh := (q - e).toNat
    let k := m >>> sh
    match r with
    | .rne =>
      let rem := m % 2 ^ sh
      let half := 2 ^ (sh - 1)
      if half < rem || (rem == half && k % 2 == 1) then k + 1 else k
    | .sr g =>
      let f16 := ((m <<< 16) >>> sh) % 65536
      if 65536 ≤ f16 + g then k + 1 else k

/-- Magnitude code of `m × 2^e` in a floating-point element, before the overflow rules: the exponent and significand
fields as one number, carries running into the exponent. -/
def magCode (el : Elem) (r : Round) (m : Nat) (e : Int) : Nat :=
  if m = 0 then 0
  else
    let qmin : Int := 1 - el.bias - el.mbits
    let q := max ((Nat.log2 m : Int) + e - el.mbits) qmin
    (q - qmin).toNat * 2 ^ el.mbits + roundTo r m e q

/-- Largest finite magnitude code of a floating-point element (R38). -/
def Elem.maxCode : Elem → Nat
  | .fp32 => 0x7F7FFFFF
  | .fp16 => 0x7BFF
  | .bf16 => 0x7F7F
  | .e4m3 => 0x7E
  | .e5m2 => 0x7B
  | .e3m2 => 0x1F
  | .e2m3 => 0x1F
  | .e2m1 => 0x7
  | .int8 | .mxint8 => 127

/-- The canonical NaN of the arithmetic (R45). (DESIGN CHOICE, log entry 35) -/
def f32NaN : Word := 0x7FC00000#32
/-- Binary32 infinity of a sign. -/
def f32Inf (s : Bool) : Word := if s then 0xFF800000#32 else 0x7F800000#32
/-- Binary32 zero of a sign. -/
def f32Zero (s : Bool) : Word := if s then 0x80000000#32 else 0#32

/-- `(−1)^s × m × 2^e` rounded once to binary32 by round-to-nearest-even, subnormals kept, overflow to infinity
(R42 step 5, R45). -/
def toF32 (s : Bool) (m : Nat) (e : Int) : Word :=
  let c := magCode .fp32 .rne m e
  if Elem.fp32.maxCode < c then f32Inf s
  else BitVec.ofNat 32 (c + (if s then 0x80000000 else 0))

/-- A binary32 value taken apart exactly: class, sign, significand and weight of its least significant bit. -/
structure Ex where
  cls : Cls
  s : Bool
  m : Nat
  e : Int
deriving DecidableEq, Repr

/-- The exact value of a binary32 word. -/
def exOf (w : Word) : Ex :=
  let s := bitAt w 31
  let ee := field w 23 8
  let mm := field w 0 23
  if ee = 255 then (if mm = 0 then ⟨.inf, s, 0, 0⟩ else ⟨.nan, s, 0, 0⟩)
  else if ee = 0 then (if mm = 0 then ⟨.zero, s, 0, 0⟩ else ⟨.finite, s, mm, -149⟩)
  else ⟨.finite, s, 2 ^ 23 + mm, (ee : Int) - 150⟩

/-- The exact sum of two finite signed magnitudes, rounded once to binary32; an exact zero sum is +0 unless both terms
are negative (IEEE 754, round-to-nearest-even). -/
def addExact (s1 : Bool) (m1 : Nat) (e1 : Int) (s2 : Bool) (m2 : Nat) (e2 : Int) : Word :=
  let e := min e1 e2
  let a : Int := ((m1 <<< (e1 - e).toNat : Nat) : Int)
  let b : Int := ((m2 <<< (e2 - e).toNat : Nat) : Int)
  let t := (if s1 then -a else a) + (if s2 then -b else b)
  if t = 0 then f32Zero (s1 && s2) else toF32 (t < 0) t.natAbs e

/-- IEEE 754 binary32 addition with round-to-nearest-even, special values by R45 (R44, R61). -/
def fadd (a b : Word) : Word :=
  let x := exOf a
  let y := exOf b
  if x.cls = .nan || y.cls = .nan then f32NaN
  else if x.cls = .inf then (if y.cls = .inf && x.s != y.s then f32NaN else f32Inf x.s)
  else if y.cls = .inf then f32Inf y.s
  else addExact x.s x.m x.e y.s y.m y.e

/-- The negation of a binary32 word: its sign bit turned. -/
def fneg (a : Word) : Word := a ^^^ 0x80000000#32

/-- IEEE 754 binary32 subtraction (R61). -/
def fsub (a b : Word) : Word := fadd a (fneg b)

/-- A binary32 value rounded to the common form (R60). -/
def roundCommon (w : Word) : CF :=
  let x := exOf w
  match x.cls with
  | .nan => ⟨.nan, false, 0, 0⟩
  | .inf => ⟨.inf, x.s, 0, 0⟩
  | .zero => ⟨.zero, x.s, 0, 0⟩
  | .finite =>
    let p := Nat.log2 x.m
    let q : Int := (p : Int) - 11
    let k := roundTo .rne x.m 0 q
    if k = 4096 then ⟨.finite, x.s, 2048, x.e + p + 1⟩ else ⟨.finite, x.s, k, x.e + p⟩

/-- A product term of R40, R42 and R45: zero, infinity, NaN, or sign, significand P and exponent e_p, of value
(−1)^s × P × 2^(e_p − 22). -/
structure Term where
  cls : Cls
  s : Bool
  p : Nat
  ep : Int
deriving DecidableEq, Repr

/-- The product of two common-form values (R40, R45). -/
def product (a b : CF) : Term :=
  if a.cls = .nan || b.cls = .nan then ⟨.nan, false, 0, 0⟩
  else if (a.cls = .inf && b.cls = .zero) || (a.cls = .zero && b.cls = .inf) then ⟨.nan, false, 0, 0⟩
  else
    let s := a.s != b.s
    if a.cls = .inf || b.cls = .inf then ⟨.inf, s, 0, 0⟩
    else if a.cls = .zero || b.cls = .zero then ⟨.zero, s, 0, 0⟩
    else ⟨.finite, s, a.m * b.m, a.e + b.e⟩

/-- The largest product exponent among the finite terms (R42 step 1). -/
def emaxOf : List Term → Option Int
  | [] => none
  | t :: ts =>
    match emaxOf ts, t.cls with
    | none, .finite => some t.ep
    | some m, .finite => some (max m t.ep)
    | r, _ => r

/-- The aligned, truncated, signed magnitude of one term in the window of `emax` (R42 steps 2 to 4). -/
def alignTerm (emax : Int) (t : Term) : Int :=
  if t.cls = .finite then
    let d := (emax - t.ep).toNat
    let a : Nat := if d ≤ 25 then t.p <<< (25 - d) else t.p >>> (d - 25)
    if t.s then -(a : Int) else (a : Int)
  else 0

/-- The sum of one group, as a binary32 value (R42, R43, R45). -/
def groupSum (ts : List Term) : Word :=
  let hasInf (s : Bool) := ts.any (fun t => t.cls = .inf && t.s == s)
  if ts.any (fun t => t.cls = .nan) then f32NaN
  else if hasInf false && hasInf true then f32NaN
  else if hasInf false then f32Inf false
  else if hasInf true then f32Inf true
  else
    match emaxOf ts with
    | none => 0#32
    | some em =>
      let r := ts.foldl (fun acc t => acc + alignTerm em t) 0
      if r = 0 then 0#32 else toF32 (r < 0) r.natAbs (em - 47)

/-- `n` elements at a time. -/
def chunksOf {α : Type} (n : Nat) : Nat → List α → List (List α)
  | 0, _ => []
  | k + 1, xs => if xs.isEmpty then [] else xs.take n :: chunksOf n k (xs.drop n)

/-- A dot product over terms in groups of 32, each group sum added to the accumulator in order (R41, R44). -/
def dotTerms (acc : Word) (ts : List Term) : Word :=
  (chunksOf 32 ts.length ts).foldl (fun a g => fadd a (groupSum g)) acc

/-- A binary32 element as a product term of a sum reduction (R47). -/
def sumTerm (w : Word) : Term :=
  let x := exOf w
  ⟨x.cls, x.s, x.m, x.e + 22⟩

/-- A vector multiplication of two common-form values, rounded once to binary32 (R61). -/
def cfMul (a b : CF) : Word :=
  let t := product a b
  match t.cls with
  | .nan => f32NaN
  | .inf => f32Inf t.s
  | .zero => f32Zero t.s
  | .finite => toF32 t.s t.p (t.ep - 22)

/-- A vector multiplication (R61). -/
def fmul (a b : Word) : Word := cfMul (roundCommon a) (roundCommon b)

/-- A vector multiply-add on operands already in the common form: the exact product plus a binary32 addend, rounded
once (R61). -/
def cfFma (a b : CF) (c : Word) : Word :=
  let t := product a b
  let y := exOf c
  if t.cls = .nan || y.cls = .nan then f32NaN
  else if t.cls = .inf then (if y.cls = .inf && y.s != t.s then f32NaN else f32Inf t.s)
  else if y.cls = .inf then f32Inf y.s
  else addExact t.s t.p (t.ep - 22) y.s y.m y.e

/-- A vector multiply-add (R61). -/
def ffma (a b c : Word) : Word := cfFma (roundCommon a) (roundCommon b) c

/-- The place of a binary32 value that is no NaN in the IEEE 754 order, −0 and +0 alike. -/
def f32Key (w : Word) : Int := if bitAt w 31 then -((field w 0 31 : Nat) : Int) else (field w 0 31 : Nat)

/-- A binary32 word is a NaN. -/
def isNaN (w : Word) : Bool := field w 23 8 == 255 && field w 0 23 != 0
/-- A binary32 word is +0 or −0. -/
def isZero (w : Word) : Bool := field w 0 31 == 0
/-- A binary32 word is finite. -/
def isFinite (w : Word) : Bool := field w 23 8 != 255

/-- IEEE 754 `a > b`, false where either is a NaN. -/
def fgt (a b : Word) : Bool := !isNaN a && !isNaN b && decide (f32Key b < f32Key a)
/-- IEEE 754 `a ≥ b`, false where either is a NaN. -/
def fge (a b : Word) : Bool := !isNaN a && !isNaN b && decide (f32Key b ≤ f32Key a)

/-- VEC_MAX and the max of MERGE (R447, R153): canonical NaN where either is a NaN, a tie keeps `a`. -/
def fmax (a b : Word) : Word := if isNaN a || isNaN b then f32NaN else if fgt b a then b else a
/-- VEC_MIN and the min of MERGE (R447, R153). -/
def fmin (a b : Word) : Word := if isNaN a || isNaN b then f32NaN else if fgt a b then b else a

/-- A common-form value as binary32; exact but for a magnitude beyond the range, which is infinity (R50). -/
def cfToF32 (c : CF) : Word :=
  match c.cls with
  | .nan => f32NaN
  | .inf => f32Inf c.s
  | .zero => f32Zero c.s
  | .finite => toF32 c.s c.m (c.e - 11)

/-- A storage element decoded to binary32 (R50). A binary32 element stands as it is, its NaN made canonical. -/
def decodeF32 (f : Fmt) (bits x8 : Nat) : Word :=
  if f.elem = .fp32 then
    let w := BitVec.ofNat 32 bits
    if isNaN w then f32NaN else w
  else cfToF32 (decode f bits x8)

/-- A magnitude rounded to a whole number of units and limited to a signed byte (R51, R52, R53, R56). -/
def intCode (r : Round) (s : Bool) (m : Nat) (e q : Int) : Nat :=
  let k := roundTo r m e q
  if s then (256 - min k 128) % 256 else min k 127

/-- A binary32 value converted to a storage format that is no MX format (R49, R51 to R53).
(DESIGN CHOICE, log entry 35) -/
def convert (el : Elem) (r : Round) (w : Word) : Nat :=
  let x := exOf w
  let sgn : Nat := if x.s then 2 ^ (el.bits - 1) else 0
  match el, x.cls with
  | .int8, .nan | .mxint8, .nan => 0
  | .int8, .inf | .mxint8, .inf => if x.s then 0x80 else 127
  | .int8, .zero | .mxint8, .zero => 0
  | .int8, .finite | .mxint8, .finite => intCode r x.s x.m x.e 0
  | .fp32, .nan => 0x7FC00000
  | .fp32, _ => w.toNat
  | .fp16, .nan => 0x7E00
  | .bf16, .nan => 0x7FC0
  | .e5m2, .nan => 0x7E
  | .e4m3, .nan => 0x7F
  | .e4m3, .inf => 0x7F
  | .e3m2, .nan | .e2m3, .nan | .e2m1, .nan => 0
  | .e3m2, .inf | .e2m3, .inf | .e2m1, .inf => sgn + el.maxCode
  | el, .inf => sgn + el.maxCode + 1
  | _, .zero => sgn
  | el, .finite =>
    let c := magCode el r x.m x.e
    if el.maxCode < c then
      (if el = .fp16 || el = .bf16 || el = .e5m2 then sgn + el.maxCode + 1 else sgn + el.maxCode)
    else sgn + c

/-- Largest power of two of an MX element format (R55). -/
def Elem.emax : Elem → Int
  | .e4m3 => 8
  | .e5m2 => 15
  | .e3m2 => 4
  | .e2m3 => 2
  | .e2m1 => 2
  | _ => 0

/-- One MX block encoded (R55 to R58): the scale byte and the element codes. `rs` gives each element's rounding. -/
def mxEncode (el : Elem) (rs : List Round) (ws : List Word) : Nat × List Nat :=
  let xs := ws.map exOf
  let bad := xs.any (fun x => x.cls = .nan || (x.cls = .inf && el ≠ .e5m2))
  if bad then (255, ws.map (fun _ => 0))
  else
    let expo : Ex → Int := fun x => (Nat.log2 x.m : Int) + x.e
    let tops := (xs.filter (fun x => x.cls = .finite)).map expo
    let sgn (s : Bool) : Nat := if s then 2 ^ (el.bits - 1) else 0
    match tops with
    | [] => (127, xs.map (fun x => if el = .mxint8 then 0 else sgn x.s + (if x.cls = .inf then 0x7C else 0)))
    | t :: ts =>
      let top := ts.foldl max t
      let sx := max (-127) (min 127 (top - el.emax))
      let one (r : Round) (x : Ex) : Nat :=
        match x.cls with
        | .finite =>
          if el = .mxint8 then intCode r x.s x.m (x.e - sx) (-6)
          else sgn x.s + min (magCode el r x.m (x.e - sx)) el.maxCode
        | .inf => sgn x.s + 0x7C
        | _ => if el = .mxint8 then 0 else sgn x.s
      ((sx + 127).toNat, (rs.zip xs).map (fun p => one p.1 p.2))

/-- An element of a block is underflowed (R59): finite and not zero, and stored as zero or subnormal. -/
def underflowed (el : Elem) (scale code : Nat) (w : Word) : Bool :=
  scale != 255 && isFinite w && !isZero w &&
    (if el = .mxint8 then code == 0 else (code >>> el.mbits) % 2 ^ el.ebits == 0)

/-- The exact difference of two common-form values rounded to the common form (R77, R78). -/
def cfDiff (a b : CF) : CF :=
  if a.cls = .nan || b.cls = .nan then ⟨.nan, false, 0, 0⟩
  else if a.cls = .inf && b.cls = .inf && a.s == b.s then ⟨.nan, false, 0, 0⟩
  else if a.cls = .inf then ⟨.inf, a.s, 0, 0⟩
  else if b.cls = .inf then ⟨.inf, !b.s, 0, 0⟩
  else
    let e := min a.e b.e
    let x : Int := ((a.m <<< (a.e - e).toNat : Nat) : Int)
    let y : Int := ((b.m <<< (b.e - e).toNat : Nat) : Int)
    let d := (if a.s then -x else x) - (if b.s then -y else y)
    if d = 0 then CF.zero
    else
      let m := d.natAbs
      let p := Nat.log2 m
      let k := roundTo .rne m 0 ((p : Int) - 11)
      -- m × 2^(e − 11), its top bit p: exponent e + p − 11
      if k = 4096 then ⟨.finite, d < 0, 2048, e + p - 11 + 1⟩ else ⟨.finite, d < 0, k, e + p - 11⟩

/-- The modes of a tile operation (R69, R77), by code. -/
inductive TMode where
  | mac | l2 | l1 | maxplus | minplus | eqcount
deriving DecidableEq, Repr

/-- MODE codes of TILE. -/
def TMode.ofCode : Nat → Option TMode
  | 0 => some .mac
  | 1 => some .l2
  | 2 => some .l1
  | 3 => some .maxplus
  | 4 => some .minplus
  | 5 => some .eqcount
  | _ => none

/-- The code of a mode. -/
def TMode.code : TMode → Nat
  | .mac => 0 | .l2 => 1 | .l1 => 2 | .maxplus => 3 | .minplus => 4 | .eqcount => 5

/-- The mode works in groups of 32 through the group register (R77). (DESIGN CHOICE, log entry 44) -/
def TMode.grouped : TMode → Bool
  | .mac | .l2 | .l1 => true
  | _ => false

/-- The identity of a mode (R70). -/
def TMode.identity : TMode → Word
  | .maxplus => 0xFF800000#32
  | .minplus => 0x7F800000#32
  | _ => 0#32

/-- The term that one position k adds to a group (R40, R77). -/
def groupTerm (mode : TMode) (a b : CF) : Term :=
  match mode with
  | .l2 => let d := cfDiff a b; product d d
  | .l1 =>
    let d := cfDiff a b
    ⟨d.cls, false, d.m <<< 11, d.e⟩
  | _ => product a b

/-- The exact sum of two common-form values rounded once to binary32 (R77, R78). -/
def cfSum (a b : CF) : Word :=
  if a.cls = .nan || b.cls = .nan then f32NaN
  else if a.cls = .inf then (if b.cls = .inf && a.s != b.s then f32NaN else f32Inf a.s)
  else if b.cls = .inf then f32Inf b.s
  else addExact a.s a.m (a.e - 11) b.s b.m (b.e - 11)

/-- Equality of EQCOUNT (R78). -/
def cfEq (a b : CF) : Bool :=
  match a.cls, b.cls with
  | .nan, _ | _, .nan => false
  | .zero, .zero => true
  | .inf, .inf => a.s == b.s
  | .finite, .finite => a.s == b.s && a.m == b.m && a.e == b.e
  | _, _ => false

/-- One broadcast of an accumulate-at-once mode on one accumulator (R77, R78). (DESIGN CHOICE, log entry 44) -/
def accStep (mode : TMode) (a b : CF) (acc : Word) : Word :=
  match mode with
  | .maxplus =>
    let t := cfSum a b
    if isNaN acc || isNaN t then f32NaN else if fgt t acc then t else acc
  | .minplus =>
    let t := cfSum a b
    if isNaN acc || isNaN t then f32NaN else if fgt acc t then t else acc
  | .eqcount => if cfEq a b && acc != 0xFFFFFFFF#32 then acc + 1 else acc
  | _ => acc

/-- The bits that a decimal position `x` takes in a function table of R62, decoded. -/
structure FuncTab where
  degree : Nat
  posInf : Word
  negInf : Word
  bounds : List Word
  segs : List (Word × List Word)
deriving DecidableEq, Repr

/-- A function table read from its bytes (R62). -/
def FuncTab.parse (bs : List Byte) : FuncTab :=
  let w (off : Nat) : Word := BitVec.ofNat 32 (ofLe (slice bs off 4))
  let n := ((bs[0]?).getD 0).toNat
  let d := ((bs[1]?).getD 0).toNat
  let segAt (i : Nat) : Word × List Word :=
    let o := 16 + 4 * (n - 1) + 4 * i * (d + 2)
    (w o, (List.range (d + 1)).map (fun k => w (o + 4 + 4 * k)))
  ⟨d, w 4, w 8, (List.range (n - 1)).map (fun j => w (16 + 4 * j)), (List.range n).map segAt⟩

/-- A function evaluated (R64). (DESIGN CHOICE, log entry 54) -/
def FuncTab.eval (t : FuncTab) (x : Word) : Word :=
  if isNaN x then f32NaN
  else if x = f32Inf false then t.posInf
  else if x = f32Inf true then t.negInf
  else
    let i := (t.bounds.filter (fun b => fge x b)).length
    match t.segs[i]? with
    | none => f32NaN
    | some (a, cs) =>
      let tt := roundCommon (fsub x a)
      match cs.reverse with
      | [] => f32NaN
      | c :: rest => rest.foldl (fun p ck => cfFma (roundCommon p) tt ck) c

/-- A left rotation of a 32-bit word (R212). -/
def rotl (x : Word) (n : Nat) : Word := x.rotateLeft n

/-- One round of the Gust block function (R212). -/
def gustRound (key0 key1 : Word) (rnd : Nat) (x : Word × Word × Word × Word) : Word × Word × Word × Word :=
  let a := key0 + BitVec.ofNat 32 rnd * 0x9e3779b9#32
  let b := key1 + BitVec.ofNat 32 rnd * 0x6a09e667#32
  let x0 := x.1 + (x.2.1 ^^^ a)
  let x3 := rotl (x.2.2.2 ^^^ x0) 16
  let x2 := x.2.2.1 + (x3 ^^^ b)
  let x1 := rotl (x.2.1 ^^^ x2) 12
  let x0 := x0 + x1
  let x3 := rotl (x3 ^^^ x0) 8
  let x2 := x2 + x3
  let x1 := rotl (x1 ^^^ x2) 7
  (x1, x2, x3, x0)

/-- The Gust block function: eight 16-bit words from a key and a counter (R212). -/
def gustBlock (key0 key1 c0 c1 c2 c3 : Word) : List Nat :=
  let y := (List.range 10).foldl (fun x r => gustRound key0 key1 r x) (c0, c1, c2, c3)
  let w (v : Word) : List Nat := [field v 0 16, field v 16 16]
  w (y.1 + c0) ++ w (y.2.1 + c1) ++ w (y.2.2.1 + c2) ++ w (y.2.2.2 + c3)

/-- A Gust word (R211, R212): keys, stream, domain, training step, micro-batch, tile and flat index. -/
def gustWord (key0 key1 : Word) (stream domain s m t f : Nat) : Nat :=
  let e := (t * 2 ^ 32 + f) % 2 ^ 64
  let q := e / 8
  let c2 := m % 65536 * 65536 + domain * 256 + stream
  ((gustBlock key0 key1 (BitVec.ofNat 32 q) (BitVec.ofNat 32 (q / 2 ^ 32)) (BitVec.ofNat 32 c2)
    (BitVec.ofNat 32 s))[e % 8]?).getD 0

end Sys2Proof.Machine
end

