-- ==== Sys2Proof/Machine/CoreTypes.lean ====
section
/-! DEFINITION. The state of one core: contexts and their fetch and execute engines, store rings, vanes, Gale arrays, the
Eddy engine with its Veer router, the vector unit and the copy path (spec/03, 04, 05, 06, 07, 08, 11, 13). -/

namespace Sys2Proof.Machine

/-- A bank of 64-bit performance counters with the sticky overflow bits of its block (R33). -/
structure Bank (n : Nat) where
  ctr : Vector DWord n
  ovf : Word
deriving DecidableEq, Repr

/-- A bank after a reset or a clear. -/
def Bank.zero (n : Nat) : Bank n := ⟨Vector.replicate n 0, 0⟩

/-- Health codes of GALE_STATUS and CORE_STATUS. -/
inductive Health where
  | ok | suspect | failed
deriving DecidableEq, Repr

/-- Context states (R99). A context is held as `ready` whether its head can issue or not: BLOCKED and its cause follow from
the rest of the state (Issue.lean). (DEDUCED, log entry 46) -/
inductive CtxSt where
  | idle | ready | blocked | waiting | ended | stopped
deriving DecidableEq, Repr

/-- Slots of a store ring (R112). -/
inductive SlotSt where
  | empty | filling | full
deriving DecidableEq, Repr

/-- One slot: its state, its flags, and whether the writes of the producer that claimed it have completed (R113). -/
structure Slot where
  st : SlotSt
  spec : Bool
  poison : Bool
  written : Bool
deriving DecidableEq, Repr

/-- A slot that holds nothing. -/
def Slot.none : Slot := ⟨.empty, false, false, false⟩

/-- A store ring as it runs (R112): the plan's form, the pointers and the slots. -/
structure Ring where
  cfg : RingCfg
  head : Nat
  tail : Nat
  headWrap : Bool
  tailWrap : Bool
  slots : List Slot
deriving DecidableEq, Repr

/-- A waiter of a vane (R288, R289): a context of a core, or a group of a stack's Foehn unit. -/
inductive Waiter where
  | ctx (c : Fin 4) (k : Fin 8)
  | foehn (stack : Fin 12) (group : Nat)
deriving DecidableEq, Repr

/-- A vane (R285): its count and its waiters with what each awaits, in the order in which they began to wait. -/
structure Vane where
  count : Nat
  waiters : List (Waiter × Nat)
  assigned : Bool
  stepScoped : Bool
deriving DecidableEq, Repr

/-- A vane after a reset. -/
def Vane.zero : Vane := ⟨0, [], false, false⟩

/-- What a WAITING context waits on (CTX_WAIT), with the bound in force and the tick it began at (R298). -/
structure Wait where
  chain : Bool
  vane : Nat
  count : Nat
  bound : Nat
  since : Nat
deriving DecidableEq, Repr

/-- One fetched operation in a context's queue (R111). `serial` numbers the fetched operations of the context;
`performed` says that the fetch engine has performed it and no open speculation point covers it; `dsts` and `reads` are the
bytes that an execute-side operation may write and reads (R118 condition 4), with the loop counters of its fetch; `wild` says
that an execute-only counter places some of them, so that they are not known before it issues (R109).
(DESIGN CHOICE, log entry 144) -/
structure QEntry where
  idx : Nat
  serial : Nat
  performed : Bool
  dsts : List (Nat × Nat)
  reads : List (Nat × Nat)
  wild : Bool
deriving DecidableEq, Repr

/-- One speculative item (R123, R125): the position in the predicted order that it belongs to, the bay it claimed with
the LAST of its fill, or the engine and the ring slots of its descriptor, and the fetch engine's position, serial
number, loop counters and most recent PREDICT after it. -/
structure SpecItem where
  key : Nat
  bay : Option (Fin 8 × Bool)
  last : Bool
  slots : List (Fin 4 × Nat × Nat)
  desc : Option (Fin 8)
  /-- Address of a violation held back (R124). -/
  vio : Option Nat
  /-- The bytes it reads, whose lines count as read once it is confirmed (R123). -/
  reads : List (Nat × Nat)
  /-- The array's owner and packed tile before the fill (R117, R125, R181). -/
  before : Option (Fin 8) × Option (Nat × Nat)
  posAfter : Nat
  serialAfter : Nat
  lcAfter : Vector Word 8
  predAfter : Option (Nat × Nat × Nat)
deriving DecidableEq, Repr

/-- An open speculation point (R122): past a ROUTE (layer and serial number) or a PRED operation, by the PREDICT whose mask
it waits for (predictor slot, token tile, serial number). -/
structure SpecPoint where
  route : Option (Nat × Nat)
  pred : Option (Nat × Nat × Nat)
  predicted : List Nat
  items : List SpecItem
  pos : Nat
  serial : Nat
  lc : Vector Word 8
  /-- The most recent PREDICT when the point opened. -/
  predAt : Option (Nat × Nat × Nat)
  descBase : Nat
deriving DecidableEq, Repr

/-- An operation of a context that has been issued or performed and has not completed (R103, R291): its serial number
and the byte ranges (address, length) it reads and writes. -/
structure Flight where
  ctx : Fin 8
  serial : Nat
  reads : List (Nat × Nat)
  dsts : List (Nat × Nat)
deriving DecidableEq, Repr

/-- One context (R97 to R122): positions, queue, loop counters, waiting, speculation and counters. -/
structure Ctx where
  defined : Bool
  first : Nat
  len : Nat
  prio : Nat
  st : CtxSt
  stopCause : Nat
  fetchPos : Nat
  execPos : Nat
  queue : List QEntry
  highWater : Nat
  serial : Nat
  lcF : Vector Word 8
  lcX : Vector Word 8
  wait : Option Wait
  endFetched : Bool
  branchOpen : Bool
  /-- A TILE, COMPACT or other operation is at issue and waits for earlier ones: END has issued (R110). -/
  ending : Bool
  spec : Option SpecPoint
  /-- Draught descriptors left to perform for the experts of a ROUTE (R125, R197). -/
  routeTodo : List Nat
  /-- The serial number of a ROUTE with PREDICT_DESC that opened no point: the fetch engine stands past it until it completes
  (R122, R197). -/
  routeWait : Option Nat
  /-- The fill at the fetch position has been counted as waiting for ownership (R117). -/
  ownStalled : Bool
  stepEntry : Option Nat
  takeEntry : Option Nat
  /-- The wait at the step entry has completed in the current step (R227). -/
  entered : Bool
  captured : Vector Word 8
  /-- Predictor slot, token tile and serial number of the most recent PREDICT at the fetch engine, and the same at the execute
  engine (R178). -/
  predF : Option (Nat × Nat × Nat)
  predX : Option (Nat × Nat)
  predXSerial : Nat
  bank : Bank 11
deriving DecidableEq, Repr

/-- A context to which the plan gives no program. -/
def Ctx.idle : Ctx :=
  { defined := false, first := 0, len := 0, prio := 0, st := .idle, stopCause := 0, fetchPos := 0
    execPos := 0, queue := [], highWater := 0, serial := 0, lcF := Vector.replicate 8 0, lcX := Vector.replicate 8 0
    wait := none, endFetched := false, branchOpen := false, ending := false, spec := none, routeTodo := [], routeWait := none, ownStalled := false
    stepEntry := none, takeEntry := none, entered := false, captured := Vector.replicate 8 0, predF := none
    predX := none, predXSerial := 0, bank := Bank.zero 11 }

/-- A tensor descriptor's fields. -/
structure TDesc where
  base : Nat
  ring : Bool
  ringIdx : Nat
  ringCore : Fin 4
  ringOff : Nat
  grouped : Bool
  layout : Nat
  fmt : Nat
  rank : Nat
  ext : List Nat
  stride : List Nat
  adv : List Nat
deriving DecidableEq, Repr

/-- An operand as an operation uses it: its descriptor, effective base (R136), the ring slot it stands in, RELEASE. -/
structure Opd where
  d : TDesc
  base : Nat
  slot : Option (Fin 4 × Nat × Nat)
  release : Bool
deriving DecidableEq, Repr

/-- Bay states of a feeder (R80). -/
inductive BaySt where
  | empty | filling | full | active
deriving DecidableEq, Repr

/-- Where a group of a bay was read: format, device address of its first group-row, group-rows read, address of its first
scale byte. A group gathered from several places, by COMPACT or for a packed tile, has no `addr`: `kept` holds what its
rows were when it was broadcast, and `reads` the bytes that they were gathered from. (DESIGN CHOICE, log entry 41) -/
structure GroupSrc where
  fmt : Nat
  addr : Option Nat
  rows : Nat
  scale : Option Nat
  kept : List (List Nat × Nat)
  reads : List (Nat × Nat)
deriving DecidableEq, Repr

/-- One group of a bay: for each row (or column) held, the 32 element codes and the scale byte. Rows beyond the list are
+0 (R107's fills). -/
structure BayGroup where
  rows : List (List Nat × Nat)
  src : GroupSrc
deriving DecidableEq, Repr

/-- A bay (R79, R80): its state and flags, the format, the groups not yet broadcast, the context that filled it, and what
its chain's rows are: packed tile p of a token tile (0, slot × 8 + tile, p), or bin b of a row-bin table (1, table, b). -/
structure Bay where
  st : BaySt
  spec : Bool
  poison : Bool
  fmt : Nat
  groups : List BayGroup
  ctx : Fin 8
  serial : Nat
  tag : Option (Nat × Nat × Nat)
deriving DecidableEq, Repr

/-- A bay that holds nothing. -/
def Bay.none : Bay :=
  { st := .empty, spec := false, poison := false, fmt := 0, groups := [], ctx := 0, serial := 0, tag := Option.none }

/-- A feeder: its ring of bays (R81). Depth is 0 until the plan runs. -/
structure Feeder where
  depth : Nat
  head : Nat
  tail : Nat
  headWrap : Bool
  tailWrap : Bool
  bays : List Bay
deriving DecidableEq, Repr

/-- A feeder before the plan runs. -/
def Feeder.none : Feeder := ⟨0, 0, 0, false, false, []⟩

/-- Where the stochastic rounding of an operation takes its words (R54, R209, R211): the key entry, the micro-batch and
tile indices, and the training step. -/
structure GustRef where
  key0 : Word
  key1 : Word
  stream : Nat
  m : Nat
  t : Nat
  s : Nat
deriving DecidableEq, Repr

/-- The parameters that all operations of a chain share, those of its draining operation (R69, R70), and what the
cross-check needs of it (R91). (DESIGN CHOICE, log entry 39) -/
structure Chain where
  ctx : Fin 8
  serial : Nat
  bank : Bool
  mode : TMode
  m : Nat
  n : Nat
  load : Option Opd
  dest : Option Opd
  /-- DEST lies in no range of R137: its rows are not written, and it is poisoned (R27). -/
  badDest : Bool
  /-- LOAD_SRC lies in no range of R137: its values are free, and the chain is poisoned. -/
  badLoad : Bool
  /-- The slot that the drain has claimed in a ring destination (R74, R113). -/
  claimed : Bool
  destEddy : Bool
  drain : Bool
  drainFmt : Nat
  round : Bool
  gust : Option GustRef
  eligible : Bool
  /-- Groups broadcast so far, with the valid positions of each. -/
  srcA : List GroupSrc
  srcB : List GroupSrc
  valid : List Nat
  init : List (List Word)
  poison : Bool
  /-- What the chain's rows are, as its bays say (R170, R181). -/
  tag : Option (Nat × Nat × Nat)
  /-- Serial number of the operation with DRAIN = 1. -/
  drainSerial : Nat
deriving DecidableEq, Repr

/-- The tile operation that the array is running: positions broadcast of its KG × 32 (R67, R77). -/
structure TileRun where
  op : BitVec 128
  serial : Nat
  ctx : Fin 8
  kDone : Nat
  half : Bool
deriving DecidableEq, Repr

/-- A group of product terms of a chain: for each position, the decoded elements of A and of B that were broadcast, in k
order (R67). `last` marks the chain's last group. -/
structure TermGroup where
  chain : Chain
  pairs : List (List CF × List CF)
  closed : Bool
  last : Bool
deriving DecidableEq, Repr

/-- States of an accumulator bank (GALE_BANKS). -/
inductive BankSt where
  | free | loading | accumulating | waitingDrain | draining | weights | partials
deriving DecidableEq, Repr

/-- An accumulator bank (R65, R70): its state, its poison flag, its accumulators and the chain it holds. -/
structure AccBank where
  st : BankSt
  poison : Bool
  acc : List (List Word)
  chain : Option Chain
deriving DecidableEq, Repr

/-- A free bank. -/
def AccBank.none : AccBank := ⟨.free, false, [], Option.none⟩

/-- A row that the drain path has read and not yet written (R74), with the chain it belongs to.
(DEDUCED, log entry 37) -/
structure HeldRow where
  chain : Chain
  row : Nat
  codes : List Nat
  last : Bool
deriving DecidableEq, Repr

/-- A running cross-check (R86, R92): the chain, the array whose result it checks, what bank 0 holds of B in the last
pass (for each group and column its 32 elements) and that pass's first group, the next row, whether a row has differed, and
whether an operand carried poison when it was read. -/
structure XchkRun where
  chain : Chain
  owner : Fin 8
  weights : List (List (List CF))
  first : Nat
  row : Nat
  bad : Bool
  poison : Bool
deriving DecidableEq, Repr

/-- One Gale array (spec/03). -/
structure Gale where
  health : Health
  ws : Bool
  opMode : Nat
  mismatch : Bool
  xchkSkip : Bool
  poisonSeen : Bool
  row : Feeder
  col : Feeder
  owner : Option (Fin 8)
  /-- Packed tile that the fills of the open PRED chain use (R181), with its predictor slot. -/
  packed : Option (Nat × Nat)
  run : Option TileRun
  opened : Option Chain
  lastBank : Bool
  group : Option TermGroup
  reducer : Option TermGroup
  bank0 : AccBank
  bank1 : AccBank
  /-- Banks that wait for the drain path, in its order; true for a LOAD (R74). -/
  drainOrder : List (Bool × Bool)
  /-- Chains with ACC = LOAD whose bank is not free yet, oldest first (R74). -/
  loadWait : List Chain
  drainBank : Bool
  drainRow : Nat
  /-- Rows read and not yet written, oldest first: a row is written within two steps of its read (R74). -/
  held : List HeldRow
  candidates : Nat
  xqueue : List Chain
  xhigh : Nat
  check : Option XchkRun
  mmAddr : Nat
  mmRow : Nat
  mmCol : Nat
  mmValid : Bool
  stDone : Bool
  stPass : Bool
  stFailFlow : Bool
  stFailSig : Bool
  stFirst : Nat
  selfCheck : Bool
  bank : Bank 12
deriving DecidableEq, Repr

/-- An array after a reset. -/
def Gale.zero : Gale :=
  { health := .ok, ws := false, opMode := 0, mismatch := false, xchkSkip := false, poisonSeen := false
    row := Feeder.none, col := Feeder.none, owner := none, packed := none, run := none, opened := none
    lastBank := true, group := none, reducer := none, bank0 := AccBank.none, bank1 := AccBank.none
    drainOrder := [], loadWait := [], drainBank := false, drainRow := 0, held := [], candidates := 0, xqueue := [], xhigh := 0
    check := none, mmAddr := 0, mmRow := 0, mmCol := 0, mmValid := false, stDone := false, stPass := false
    stFailFlow := false, stFailSig := false, stFirst := 0, selfCheck := false, bank := Bank.zero 12 }

/-- A write that an operation makes when it completes: `len` bytes at a device address, with their poison. `data` is
empty where only poison is set (R27, R134). -/
structure WBlk where
  addr : Nat
  len : Nat
  data : List Byte
  poison : Bool
deriving DecidableEq, Repr

/-- What a COMPACT has still to put into bays (R170, R172): its array, the groups of rows and of columns left with the
format code and the poison of each, the tag of its chain, LAST, and how many groups it fills in all. -/
structure CompactRun where
  array : Fin 8
  rows : List BayGroup
  cols : List BayGroup
  rowFmt : Nat
  colFmt : Nat
  rowPoison : Bool
  colPoison : Bool
  tag : Option (Nat × Nat × Nat)
  last : Bool
  total : Nat
deriving DecidableEq, Repr

/-- An operation that runs on the vector unit, the Eddy engine or the copy path: what lands when it completes.
(DESIGN CHOICE, log entry 52) -/
structure RunOp where
  ctx : Fin 8
  serial : Nat
  op : BitVec 128
  dst : Option Opd
  writes : List WBlk
  /-- The scale bytes of the MX blocks that it writes, by the address of each block (R449). -/
  scales : List (Nat × Nat)
  /-- Ring slots claimed under R113: core, ring, slot. -/
  fills : List (Fin 4 × Nat × Nat)
  poison : Bool
  compact : Option CompactRun
  /-- PREDICT: slot, tile, the mask it forms (R180), and the vane it signals. -/
  predict : Option (Nat × Nat × List Bool × Option (Fin 48))
  /-- EXPAND in PRED mode: predictor slot and token tile (R178). -/
  pred : Option (Nat × Nat)
  /-- Counters that rise when it completes: index and amount. -/
  counts : List (Nat × Nat)
deriving DecidableEq, Repr

/-- One chain's rows in an expand buffer (R174): destination chain parameters and rows (row, codes, poison). -/
structure ExpandChain where
  chain : Chain
  rows : List (Nat × List Nat × Bool)
  complete : Bool
deriving DecidableEq, Repr

/-- A token tile of a predictor slot (R179): the current and the previous mask, and the next packed tile. -/
structure PredTile where
  cur : Option (List Bool)
  prev : Option (List Bool)
  next : Nat
deriving DecidableEq, Repr

/-- The Eddy engine of a core (spec/06). -/
structure Eddy where
  run : Option RunOp
  lastOp : Nat
  lastCtx : Fin 8
  groupBoundSeen : Bool
  formErrorSeen : Bool
  poisonSeen : Bool
  missSeen : Bool
  bufA : List ExpandChain
  bufB : List ExpandChain
  preds : Tbl PredTile
  /-- The weight tensor that each row-bin table serves: the BITMAP operand of the newest COMPACT with the table (R167,
  R175). -/
  served : Tbl Opd
  bank : Bank 14
deriving DecidableEq, Repr

/-- An Eddy engine after a reset. -/
def Eddy.zero : Eddy :=
  { run := none, lastOp := 0, lastCtx := 0, groupBoundSeen := false, formErrorSeen := false, poisonSeen := false
    missSeen := false, bufA := [], bufB := [], preds := [], served := [], bank := Bank.zero 14 }

/-- An admitted pair of an owned token (R193): token, expert, rank, score. -/
structure Pair where
  tok : Nat
  expert : Nat
  rank : Nat
  score : Word
deriving DecidableEq, Repr

/-- A token of a ROUTE that is still to be decided (R190): its admitted pairs, where this core owns it, what it adds to the
counters of R200, and whether it drops a pair or reads a NaN. -/
structure TokenPlan where
  pairs : List Pair
  adds : List (Nat × Nat)
  drops : Bool
  nans : Bool
deriving DecidableEq, Repr

/-- A running ROUTE (R190): its operation, the admission counts and the drops of each expert, the dispatch queue of 64 pairs,
the tokens still to be decided, the route records it writes, the rows it dispatches from, the steps its scoring pauses, and
the step of its natural end and of R196. `bad` says that an operand lay in no range of R137. -/
structure RouteRun where
  ctx : Fin 8
  serial : Nat
  layer : Nat
  predDesc : Nat
  counts : List Nat
  drops : List Nat
  pairs : List Pair
  later : List TokenPlan
  stalls : Nat
  records : List WBlk
  fills : List (Fin 4 × Nat × Nat)
  poison : Bool
  bad : Bool
  rows : Option Opd
  steps : Nat
  padTo : Nat
deriving DecidableEq, Repr

/-- The Veer router of a core (spec/07), with its routing table store. -/
structure Veer where
  run : Option RouteRun
  layer : Nat
  ctx : Fin 8
  dropSeen : Bool
  nanSeen : Bool
  poisonSeen : Bool
  tokensDone : Nat
  table : Tbl RouteEntry
  histOvf : Bool
  bank : Bank 13
deriving DecidableEq, Repr

/-- A router after a reset. -/
def Veer.zero : Veer :=
  { run := none, layer := 0, ctx := 0, dropSeen := false, nanSeen := false, poisonSeen := false, tokensDone := 0
    table := [], histOvf := false, bank := Bank.zero 13 }

/-- One core. -/
structure Core where
  health : Health
  /-- Core store bytes by store offset (R131), and the units whose poison flag is set (R134). -/
  store : List (Nat × Byte)
  poison : List Nat
  ctxs : Vector Ctx 8
  lastIssued : Fin 8
  lastFetched : Fin 8
  rings : Tbl Ring
  flights : List Flight
  vec : Option RunOp
  copy : Option RunOp
  eddy : Eddy
  veer : Veer
  vanes : Vector Vane 48
  vaneOverflowSeen : Bool
  boundExpiredSeen : Bool
  vaneBank : Bank 7
  bank : Bank 3
  /-- CORE_FENCE progress of this core (R223): the fence vane has reached its count and it was consumed. -/
  fenceMark : Bool
  /-- Recompute table entries that are pending (R343). -/
  pendingRec : List Nat
  recomputes : DWord
  recOvf : Bool
deriving DecidableEq, Repr

/-- A core after a cold reset. (DESIGN CHOICE, log entry 10) -/
def Core.zero : Core :=
  { health := .ok, store := [], poison := [], ctxs := Vector.replicate 8 Ctx.idle, lastIssued := 7, lastFetched := 7
    rings := [], flights := [], vec := none, copy := none, eddy := Eddy.zero, veer := Veer.zero
    vanes := Vector.replicate 48 Vane.zero, vaneOverflowSeen := false, boundExpiredSeen := false
    vaneBank := Bank.zero 7, bank := Bank.zero 3, fenceMark := false, pendingRec := [], recomputes := 0
    recOvf := false }

/-- A packet of a Draught descriptor still unanswered (R313, R316): the device, the lane and PSEQ it went out with, and the
source range that a READ_REQ asked for. -/
structure Ack where
  dev : Nat
  vl : Nat
  pseq : Nat
  addr : Nat
  len : Nat
deriving DecidableEq, Repr

/-- A descriptor in a Draught engine's queue (R158): the table entry it was performed from, the effective bases of its
source, destinations and mask taken when it was performed (R136, R209), its ring slots, and how far it has come. -/
structure DrtItem where
  desc : Nat
  raw : BitVec 512
  core : Fin 4
  ctx : Fin 8
  serial : Nat
  srcBase : Nat
  dstBases : List Nat
  maskBase : Nat
  gust : Option GustRef
  /-- Claimed destination slots as (core, ring, slot), and the source's. -/
  claims : List (Fin 4 × Nat × Nat)
  srcSlot : Option (Fin 4 × Nat × Nat)
  spec : Bool
  started : Bool
  /-- Its destinations have been written, or the packets that write them sent. -/
  moved : Bool
  acks : List Ack
  /-- Source bytes that READ_DATA has brought. -/
  rx : List WBlk
  /-- Completes without signalling its DONE vane (R316, R451). -/
  noDone : Bool
  /-- Some unit was written poisoned. -/
  poisoned : Bool
  /-- Some source line of a STASH region was poisoned (R343). -/
  stashPoison : Bool
  /-- What its completion adds to the counters of R163. -/
  counts : List (Nat × Nat)
deriving DecidableEq, Repr

/-- One Draught engine (spec/05). -/
structure Draught where
  queue : List DrtItem
  poisonSeen : Bool
  underflowSeen : Bool
  bank : Bank 15
deriving DecidableEq, Repr

/-- An engine after a reset. -/
def Draught.zero : Draught := ⟨[], false, false, Bank.zero 15⟩

end Sys2Proof.Machine
end

