-- ==== Sys2Proof/Machine/State.lean ====
section
/-! DEFINITION. The state of the TVX-2812 as plain data, the state right after reset, and the two closed inductives of
reasons to stop. The state of one core is in CoreTypes. -/

namespace Sys2Proof.Machine

/-- Reasons for which the machine stops with a fault. There is none: every error of the manual is an answer, a violation,
poison, a record or a reset, and all of them are next states. Nobody raises a fault; that is safe. -/
inductive Fault where
deriving DecidableEq, Repr

/-- Reasons for which the model gives a command no next state. -/
inductive Refusal where
  /-- Raised by an arm of Dispatch whose command has no meaning yet. Safe: nothing is claimed of such a command. -/
  | notModelled (mnemonic : String)
  /-- Raised by PRIVATE_TEST_INSTRUCTION for an access to internal state other than a reset request while DEBUG_OPEN is
  set: R382 says that such an instruction reaches internal state and gives no effect. Safe: nothing is claimed of it. -/
  | testAccessNotDescribed
deriving DecidableEq, Repr

/-- How an access or a command is answered on its path (R23, R25, R27). -/
inductive Resp where
  | ok
  | denied
  | violation
deriving DecidableEq, Repr

/-- States of the device (DEV_STATE). -/
inductive DevSt where
  | bringUp | run | takeover | halted | safe
deriving DecidableEq, Repr

/-- A command's status register (R30) and the command that is running, if any: opcode, path, tag. -/
structure CmdStatus where
  code : Nat
  busy : Bool
  src : Nat
  tag : Nat
  running : Option (Nat × Path × Nat)
deriving DecidableEq, Repr

/-- An idle command register. -/
def CmdStatus.idle : CmdStatus := ⟨0, false, 0, 0, none⟩

/-- The violation log (R29). -/
structure VioLog where
  addr : Nat
  dev : Nat
  src : Nat
  kind : Nat
  valid : Bool
  lost : Bool
  ovf : Bool
  count : DWord
deriving DecidableEq, Repr

/-- The violation log after a reset. -/
def VioLog.zero : VioLog := ⟨0, 0, 0, 0, false, false, false, 0⟩

/-- Identity and common registers (spec/01) and what the device knows of itself. -/
structure Dev where
  stepping : BitVec 8
  serial : DWord
  chainId : BitVec 16
  chainValid : Bool
  st : DevSt
  phase : Nat
  stashDevices : Nat
  tick : DWord
  scratch : Word
  digest : List Byte
deriving DecidableEq, Repr

/-- Per-path and port state of control space (R21, R24, R25, R440): latches, held halves, the answer last given to each
path, apertures, selections, cursors, the management port and the PCIe link. -/
structure Ports where
  /-- Latched high half by (path, offset of the _LO register). -/
  latch : List ((Path × Nat) × Word)
  held : List ((Path × Nat) × Word)
  resp : List (Path × Resp × List Byte)
  aperture : Vector (BitVec 12) 2
  veerSel : List ((Path × Nat) × Word)
  histSel : List (Path × Nat)
  canarySel : List (Path × Nat)
  cursor : List (Path × Nat)
  gone : List Path
  /-- Low halves of EVR_CURSOR written and not yet applied are in `held`. -/
  mbLast : Nat
  mbAddr : Nat
  mbPecSeen : Bool
  mbTimeoutSeen : Bool
  mbBadSeen : Bool
  mbBank : Bank 4
  perstLow : Bool
  linkUp : Bool
  twinOutLow : Bool
  /-- The TAP instruction in force: 0 EXTEST, 1 CLAMP, 2 HIGHZ, 3 EXTEST_PULSE, 4 EXTEST_TRAIN, 5 SAMPLE/PRELOAD, 6 IDCODE,
  7 BYPASS; the word that its data register last captured; and whether it drives the lands. -/
  tap : Nat
  tapOut : Word
  boundaryOut : Bool
  resetLow : Bool
  twinInLow : Bool
  pwrFailLow : Bool
deriving DecidableEq, Repr

/-- A signal on its way to a vane (R287, R291): by `n`, from a signaller (KIND_SRC, UNIT, CTX), held until the operations
of a context before a serial number have completed their writes. `target` is the device of a chain signal. -/
structure PSig where
  vane : VaneId
  target : Nat
  n : Nat
  kindSrc : Nat
  unit : Nat
  ctx : Nat
  after : Option (Fin 4 × Fin 8 × Nat)
  /-- The signal came from this other device (R287: after all local ones). -/
  fromDev : Option Nat
  /-- A commit's signal of a step vane, applied after every other (R287). -/
  last : Bool
deriving DecidableEq, Repr

/-- A write-combining entry (R270): bytes by offset within the line, the poison flag, the tick of its creation, and the
line's device address with its region's code mode. -/
structure WcEntry where
  bytes : List (Nat × Byte)
  poison : Bool
  since : Nat
  addr : Nat
  code : Nat
deriving DecidableEq, Repr

/-- Lines of DRAM behind one controller (R256 to R263, R268 to R271). A line is numbered position × 2^32 + L, a check
group position × 2^32 + floor(L / 15), and byte b of a line lies at 64 × line + b. (DEDUCED, log entry 93) -/
structure LineMem where
  /-- Data bytes. For a stash device they are the plaintext (R280). -/
  data : List (Nat × Byte)
  /-- What differs in the stored codeword from the encoding of the data, by 68 × line + byte. -/
  upset : List (Nat × Byte)
  /-- POISON of each check group, and the complement of POISON_INV. -/
  poison : Tbl (BitVec 16)
  poisonInv : Tbl (BitVec 16)
  /-- Check groups in the check cache, oldest first, and those modified since they were read (R269). -/
  cache : List Nat
  dirty : List Nat
  /-- Groups whose check line was not read: the data lines written since (R269). -/
  cover : Tbl (BitVec 16)
  wc : Tbl WcEntry
  wcHigh : Nat
  /-- Lines whose corrected codeword waits to be written back, with the corrected data (R260). -/
  fixes : Tbl (List Byte)
  /-- Direction of the last transfer of each channel: true for writes (R275). -/
  dir : Tbl Bool
  /-- Positions whose device has failed in service: every read of one is uncorrectable (R343). -/
  dead : List Nat
deriving DecidableEq, Repr

/-- All zeros, poison clear. (DESIGN CHOICE, log entry 10) -/
def LineMem.zero : LineMem :=
  { data := [], upset := [], poison := [], poisonInv := [], cache := [], dirty := [], cover := [], wc := [], wcHigh := 0
    fixes := [], dir := [], dead := [] }

/-- One HBM stack (spec/10). -/
structure Stack where
  trained : Bool
  failed : Bool
  selfRefresh : Bool
  refresh2x : Bool
  correctedSeen : Bool
  uncorrSeen : Bool
  poisonWordSeen : Bool
  arr : LineMem
  errAddr : Nat
  errChannel : Nat
  errValid : Bool
  bank : Bank 9
deriving DecidableEq, Repr

/-- A stack after a reset. -/
def Stack.zero : Stack :=
  { trained := false, failed := false, selfRefresh := false, refresh2x := false, correctedSeen := false
    uncorrSeen := false, poisonWordSeen := false, arr := LineMem.zero, errAddr := 0, errChannel := 0, errValid := false
    bank := Bank.zero 9 }

/-- One stash controller with its two device positions (spec/10). `key` is the draw that made the key. -/
structure Stash where
  fitted0 : Bool
  fitted1 : Bool
  trained0 : Bool
  trained1 : Bool
  inUse0 : Bool
  inUse1 : Bool
  keyReady : Bool
  key : Option Nat
  correctedSeen : Bool
  uncorrSeen : Bool
  crcRetrySeen : Bool
  arr : LineMem
  errAddr : Nat
  errPos : Bool
  errValid : Bool
  bank : Bank 8
deriving DecidableEq, Repr

/-- A stash controller after a reset. -/
def Stash.zero : Stash :=
  { fitted0 := false, fitted1 := false, trained0 := false, trained1 := false, inUse0 := false, inUse1 := false
    keyReady := false, key := none, correctedSeen := false, uncorrSeen := false, crcRetrySeen := false
    arr := LineMem.zero, errAddr := 0, errPos := false, errValid := false, bank := Bank.zero 8 }

/-- One Foehn unit (spec/09). Group states of the current step by entry number. -/
structure Foehn where
  due : List Nat
  /-- Groups being updated: blocks of one chunk's elements done, and whether a non-finite value was stored (R242). -/
  running : Tbl (Nat × Bool)
  done : List Nat
  last : Nat
  /-- Chunks of a running group's updated blocks that wait for room in the slipstream's buffer: (block, kind) (R244). -/
  toHand : Tbl (List (Nat × Nat))
  /-- Groups stopped by poison in this step (R240). -/
  dead : List Nat
  /-- Groups whose restored chunk is awaited before their update (R345): (group, kind, chunk). -/
  awaiting : List (Nat × Nat × Nat)
  gradPoisonSeen : Bool
  paramPoisonSeen : Bool
  nonfiniteSeen : Bool
  withheld : Bool
  half : Bool
  loading : Bool
  pAddr : Nat
  pKind : Bool
  pValid : Bool
  bank : Bank 6
deriving DecidableEq, Repr

/-- A Foehn unit after a reset. -/
def Foehn.zero : Foehn :=
  { due := [], running := [], toHand := [], done := [], last := 0, dead := [], awaiting := [], gradPoisonSeen := false, paramPoisonSeen := false
    nonfiniteSeen := false, withheld := false, half := false, loading := false, pAddr := 0
    pKind := false, pValid := false, bank := Bank.zero 6 }

/-- A chunk in the slipstream's buffer (R244 to R247): its step and attempt, its place and bytes, and for each destination
whether it was sent, acknowledged, and how often resent. Destination 0 is the shadow, 1 the store. -/
structure Chunk where
  step : Nat
  attempt : Nat
  stack : Nat
  group : Nat
  kind : Nat
  index : Nat
  bytes : List Byte
  sent : Vector Bool 2
  acked : Vector Bool 2
  resends : Vector Nat 2
deriving DecidableEq, Repr

/-- A leaf of a step's Merkle tree (R248): the chunk's place, its byte count and its digest. -/
structure Leaf where
  stack : Nat
  group : Nat
  kind : Nat
  index : Nat
  length : Nat
  digest : List Byte
deriving DecidableEq, Repr

/-- What the device has received as shadow of its twin for a step (R247, R249, R252). -/
structure ShadowRx where
  step : Nat
  attempt : Nat
  seq : Nat
  txSeq : Nat
  /-- Bytes of the chunk being received by place (stack, group, kind, chunk): (offset, byte). -/
  parts : List ((Nat × Nat × Nat × Nat) × List (Nat × Byte))
  leaves : List Leaf
  /-- The root that STEP_END brought (R249). -/
  wanted : Option (List Byte)
  acked : Bool
deriving DecidableEq, Repr

/-- No shadow data received. -/
def ShadowRx.none : ShadowRx := ⟨0, 0, 0, 0, [], [], Option.none, false⟩

/-- The slipstream (spec/09). -/
structure Slip where
  chunks : List Chunk
  leaves : List Leaf
  /-- Next frame number by destination, step and attempt (R246). -/
  seq : List ((Nat × Nat × Nat) × Nat)
  /-- Attempts that were aborted (R251): a step and its attempt. -/
  aborted : List (Nat × Nat)
  stepEndSent : Bool
  shadowAcked : Bool
  rootClosed : Bool
  root : List Byte
  nakSeen : Bool
  abortSeen : Bool
  failed : Bool
  /-- The stream to the shadow (0) or to the store (1) has FAILED, and closes no roots (R247). -/
  stopped : Vector Bool 2
  rootStep : Option Nat
  shadowAck : Option Nat
  storeAck : Option Nat
  committedRoot : List Byte
  rx : ShadowRx
  /-- Roots the shadow holds (R344): twin's step and root, newest first; full steps marked. -/
  shadowRoots : List (Nat × List Byte × Bool)
  bank : Bank 8
deriving DecidableEq, Repr

/-- The slipstream after a reset. -/
def Slip.zero : Slip :=
  { chunks := [], leaves := [], seq := [], aborted := [], stepEndSent := false, shadowAcked := false
    rootClosed := false, root := zeros 48, nakSeen := false, abortSeen := false, failed := false, stopped := Vector.replicate 2 false, rootStep := none
    shadowAck := none, storeAck := none, committedRoot := zeros 48, rx := ShadowRx.none, shadowRoots := []
    bank := Bank.zero 8 }

/-- Link states (TL_STATUS). -/
inductive LinkSt where
  | down | training | up | retraining | failed
deriving DecidableEq, Repr

/-- A session handshake on a link (R371): which message was last sent or accepted, and the transcript so far. -/
structure Handshake where
  initiator : Bool
  /-- 0 nothing, 1 HELLO sent, 2 REPLY sent, 3 CONFIRM sent, 4 complete. -/
  stage : Nat
  hello : List Byte
  reply : List Byte
  confirm : List Byte
  boot : Bool
  draw : Nat
deriving DecidableEq, Repr

/-- No handshake. -/
def Handshake.none : Handshake := ⟨false, 0, [], [], [], false, 0⟩

/-- A DATA flit in the retry buffer (R310): its number, lane and payload, how often it was sent, and, on the last flit of a
packet, the packet. -/
structure HeldFlit where
  seq : Nat
  vl : Nat
  payload : List Byte
  sent : Nat
  pkt : Option Packet
deriving DecidableEq, Repr

/-- One Trade link (spec/12). -/
structure Link where
  st : LinkSt
  spareUsed : Bool
  failedLane : Nat
  used : Bool
  session : Bool
  sparedSeen : Bool
  retrySeen : Bool
  retrainSeen : Bool
  authFailSeen : Bool
  peerDev : Nat
  peerLink : Nat
  peerValid : Bool
  peerStore : Bool
  txNext : Nat
  rxNext : Nat
  gap : Bool
  /-- The retry buffer (R310): flits sent and not yet acknowledged, oldest first. -/
  retry : List HeldFlit
  retryHigh : Nat
  allot : Vector Nat 8
  credits : Vector Nat 8
  /-- Packets waiting to leave, by virtual lane. -/
  waiting : Vector (List Packet) 8
  /-- The flits still to be sent of the packet that is leaving on each lane; the last one carries the packet. -/
  cut : Vector (List (List Byte × Option Packet)) 8
  /-- Bytes received and not yet a whole packet, by virtual lane. -/
  rx : Vector (List Byte) 8
  /-- Key, IV and number under which the packet that is arriving on each lane was protected (R373). -/
  rxUnder : Vector (Option (List Byte × List Byte × Nat)) 8
  /-- Credits to be returned for each lane (R312). -/
  owed : Vector Nat 8
  /-- Flits last put on the wire, oldest first. (DESIGN CHOICE, log entry 98) -/
  out : List Flit
  /-- DATA flits received, and the symbols that the forward error correction corrected within the last 2^24 of them: the
  flit's number and the lane (R305). -/
  flitsIn : Nat
  laneHits : List (Nat × Nat)
  /-- Whole packets handed on to their destination and not yet taken by a command. -/
  arrived : List Packet
  /-- The DATA flits last accepted, at most as many as a retry buffer holds: lane, payload, and the packets that each completed.
  (DESIGN CHOICE, log entry 154) -/
  taken : List (Nat × List Byte × List Packet)
  /-- Those of them that the peer may send again after a retrain (R310). (DESIGN CHOICE, log entry 154) -/
  again : List (Nat × List Byte × List Packet)
  retrains : List Nat
  hs : Handshake
  /-- Session keys (R373) for what is sent, as the bytes of OKM and PRK, and the packets protected in each direction under the
  present keys. -/
  okm : List Byte
  prk : List Byte
  /-- The same for what is received (R373). -/
  okmRx : List Byte
  prkRx : List Byte
  initiator : Bool
  /-- The session ends once what waits has left (R402). -/
  ends : Bool
  txCount : Nat
  rxCount : Nat
  bank : Bank 12
deriving DecidableEq, Repr

/-- A link after a reset. -/
def Link.zero : Link :=
  { st := .down, spareUsed := false, failedLane := 15, used := false, session := false, sparedSeen := false
    retrySeen := false, retrainSeen := false, authFailSeen := false, peerDev := 0, peerLink := 0, peerValid := false
    peerStore := false, txNext := 0, rxNext := 0, gap := false, retry := [], retryHigh := 0
    allot := Vector.replicate 8 0, credits := Vector.replicate 8 0, waiting := Vector.replicate 8 []
    cut := Vector.replicate 8 [], rx := Vector.replicate 8 [], rxUnder := Vector.replicate 8 Option.none
    owed := Vector.replicate 8 0, out := [], flitsIn := 0, laneHits := [], arrived := [], taken := [], again := [], retrains := [], hs := Handshake.none, okm := []
    prk := [], okmRx := [], prkRx := [], initiator := false, ends := false, txCount := 0, rxCount := 0, bank := Bank.zero 12 }

/-- Membership roles (TL_CHAIN). -/
inductive Role where
  | member | joining | leaving | outside
deriving DecidableEq, Repr

/-- States of the twin (TL_TWIN). -/
inductive TwinSt where
  | unpaired | pairing | paired | lost | takenOver | refused
deriving DecidableEq, Repr

/-- A membership request held by the root, or a grant (R331): 1 ATTACH, 2 DETACH; the device that asks; its twin. -/
structure MemberReq where
  kind : Nat
  dev : Nat
  twin : Nat
deriving DecidableEq, Repr

/-- A packet held until those before it have come (R315), with the link by which it came and, on a SHARD packet that ends a
chunk, the chunk's proof. -/
structure HeldPkt where
  link : Fin 36
  pkt : Packet
  proof : Option ChunkProof
deriving DecidableEq, Repr

/-- The chain, its fence route, packet order, the twin and recovery (spec/12, spec/13). -/
structure ChainSt where
  cmd : CmdStatus
  role : Role
  shardCurrent : Bool
  /-- Bytes of SHARD packets received and not yet a whole chunk (R332). -/
  shardRx : List Byte
  /-- The joiner's whole shard has been sent, and each commit brings it what the step has changed (R332). -/
  shardSent : Bool
  /-- A joiner's grant that waits for the values of the step that granted it (R331, R332). -/
  grantHeld : Option (List Byte)
  parent : Option (Fin 36)
  children : List (Fin 36)
  isRoot : Bool
  discarded : DWord
  discardOvf : Bool
  epoch : Nat
  twin : TwinSt
  twinDev : Nat
  hbPeriod : Nat
  hbLimit : Nat
  pairBound : Nat
  hbSeq : Nat
  /-- Ticks of the last heartbeat received and of the last one sent (R328). -/
  hbLast : Nat
  hbSent : Nat
  lostDev : Option Nat
  /-- The bring-up found the twin TAKEN_OVER (R336). -/
  twinTaken : Bool
  /-- Identifiers of lost devices and of the survivors that stand for them (R347). -/
  moved : List (Nat × Nat)
  /-- Next PSEQ to send, by (destination, lane); next expected, by (source, lane); packets held out of order (R315). -/
  txSeq : List ((Nat × Nat) × Nat)
  rxSeq : List ((Nat × Nat) × Nat)
  heldPkts : List HeldPkt
  /-- Chain signals, register accesses and reads sent and not answered: (device, lane, PSEQ, core, context). -/
  sentSigs : List (Nat × Nat × Nat × Nat × Nat)
  /-- Fence reports of step s taken (children), children whose reports are discarded until RETRY_DONE (R340). -/
  reports : List (Fin 36)
  retrying : List (Fin 36)
  /-- The fence bound (R226): tick of the local fence, and whether it expired. -/
  local_ : Bool
  localTick : Nat
  boundExpired : Bool
  /-- A close has been learnt, or made by the root, and the commit is held (R224, R420). -/
  closing : Bool
  lastCommit : Option Nat
  requests : List MemberReq
  grants : List MemberReq
  /-- Twin pairs for which TAKEOVER was granted: (lost, survivor). -/
  takeovers : List (Nat × Nat)
  settleSince : Option Nat
  attempt : Nat
  lastCause : Nat
  /-- The device that first reported the cause of the settle window (R337). -/
  lastOrigin : Nat
  lastAction : Nat
  /-- The previous RETRY carried no takeover (R339). -/
  retried : Bool
  /-- The causes that this device has reported and not seen answered (R338), each with the tick of its last report. -/
  myReports : List (Nat × Nat)
  /-- REPORTs that have reached the root in the present handshake: cause, origin, attempt (R339). -/
  inbox : List (Nat × Nat × Nat)
  /-- A device that halts holds its links DOWN once its report has left (R336). -/
  lowering : Bool
  /-- A DETACH request waits until the store has acknowledged the step whose root is closed (R333). -/
  leaveHeld : Bool
  /-- The step in which the takeover that the device holds was applied (R347). -/
  takeStep : Option Nat
  /-- A HELLO or REPLY has come over the twin port in this bring-up, and the tick of the last offer (R327). -/
  twinSpoke : Bool
  pairSince : Nat
  staleState : Bool
  restoreRefused : Bool
  haltSeen : Bool
  retrySeen : Bool
  boundSeen : Bool
  inRetry : Bool
  recBank : Vector DWord 5
  recOvf : Word
deriving DecidableEq, Repr

/-- An open session of a path (R354): its role (1 owner, 2 service), grant, length and start. -/
structure Session where
  role : Nat
  grant : Nat
  ticks : Nat
  since : Nat
deriving DecidableEq, Repr

/-- One key slot (R361): its use, generation and the sealed key and tag. -/
structure KeySlot where
  use : Nat
  generation : Nat
  sealed : List Byte
deriving DecidableEq, Repr

/-- One ingest channel as it runs (R379): buffers by state. `busy` is the buffer being checked. -/
structure IngestChan where
  fill : Nat
  free : List Nat
  ready : List Nat
  busy : Option Nat
deriving DecidableEq, Repr

/-- The two copies of a fused field (R357): whether the check of each passes. -/
structure FuseCopies where
  first : Bool
  second : Bool
deriving DecidableEq, Repr

/-- The checks of every fused field's copies (R355, R357). -/
structure Fuses where
  lifecycle : FuseCopies
  serial : FuseCopies
  identity : FuseCopies
  storage : FuseCopies
  ownerHash : FuseCopies
deriving DecidableEq, Repr

/-- Fuses of which every copy passes its check. -/
def Fuses.sound : Fuses := ⟨⟨true, true⟩, ⟨true, true⟩, ⟨true, true⟩, ⟨true, true⟩, ⟨true, true⟩⟩

/-- A fuse programming in progress (R357): the opcode of its command (4 SHIP, 5 FUSE_OWNER) with path and TAG, the first of its
draws, the key whose hash is fused, the tick it began, and the copies whose check will fail. -/
structure Fusing where
  op : Nat
  path : Path
  tag : Nat
  draw : Nat
  key : List Byte
  since : Nat
  bad : List BadCopy
deriving DecidableEq, Repr

/-- The security block (spec/14): fuses, owner security state, sessions, tokens, ingest and counters. -/
structure Sec where
  fuses : Fuses
  lifecycle : Nat
  ownerHash : List Byte
  /-- The owner's public key, from the token that fused its hash (R359, R360). -/
  ownerKey : List Byte
  /-- SIGNER_KEY of the plan's seal (R369, R372). -/
  planKey : List Byte
  /-- KEY_SLOT of the plan's seal, where the plan is encrypted (R363, R369). -/
  planSlot : Option Nat
  identity : Option Nat
  storage : Option Nat
  endorsement : Option (List Byte)
  debugOpen : Bool
  zeroising : Bool
  zeroiseFlag : Bool
  signingOff : Bool
  entropyFail : Bool
  seeded : Bool
  planCheck : Nat
  deniedSeen : Bool
  ingestFailSeen : Bool
  policy : Nat
  pending : Nat
  minGrant : Nat
  cmd : CmdStatus
  ingestCmd : CmdStatus
  nonces : Vector (Option (List Byte)) 2
  mailbox : Vector (List (Nat × Byte)) 2
  sessions : Vector (Option Session) 2
  slots : Vector KeySlot 16
  channels : Tbl IngestChan
  ingestDigest : List Byte
  runId : Nat
  /-- How many draws the DRBG has made since power-on (R374): names each draw's bytes. -/
  draws : Nat
  bank : Bank 7
deriving DecidableEq, Repr

/-- A reset being taken (R394, R395): every source merged in, the scope, the source of that scope, whether its orders
are cut short, and DEV_TICK and s when it was recognised. -/
structure Taking where
  sources : Word
  scope : Scope
  source : Nat
  cut : Bool
  tick : Nat
  step : Nat
  /-- Its orders up to 4 have been done: the device is held, and phase 1 may begin (R394). -/
  applied : Bool
deriving DecidableEq, Repr

/-- The reset controller (spec/15), with the backup domain. -/
structure Rst where
  cmd : CmdStatus
  count : Nat
  lastSource : Nat
  lastScope : Nat
  cause : Word
  straps : Straps
  strapsLatched : Bool
  fails : Nat
  fallback : Bool
  bootSrc : Nat
  backupLost : Bool
  failPhase : Nat
  failCode : Nat
  wdt : Nat
  /-- Tick of the last commit, RETRY, HALT or start of the run (R389). -/
  wdtSince : Nat
  taking : Option Taking
  heldThermal : Bool
  held : Bool
  /-- What the bring-up that runs was started by. -/
  cur : Taking
  phaseSince : Nat
  failedWait : Option Nat
  /-- Links have been trained and their handshakes begun in the phase that runs (R304, R402). -/
  linksBegun : Bool
  /-- The safe state was entered since the last power-on reset (R405). -/
  safe : Bool
  /-- Whether the tables of phase 4 are there to be loaded (host or twin port as source: staged image). -/
  staging : Option Nat
  /-- Reset records of the history, newest first, 64 bytes each (R408). -/
  history : List (List Byte)
  /-- The fuse programming in progress (R357). -/
  fusing : Option Fusing
deriving DecidableEq, Repr

/-- A record asked for in the present handshake (R419): making unit and payload. -/
structure RecReq where
  type : Nat
  unit : Option Nat
  payload : List Byte
deriving DecidableEq, Repr

/-- The event recorder (spec/16) with its part of the keep store. -/
structure Evr where
  /-- Records asked for in the handshake that is running, in the order asked. Empty between commands. -/
  queue : List RecReq
  /-- The volatile ring, by SEQ, 64 bytes each. -/
  ring : Tbl (List Byte)
  /-- Keep-store slots of the event record region, by slot. -/
  slots : Tbl (List Byte)
  next : Nat
  made : Bool
  kept : Option Nat
  /-- SEQ of records made and not kept nor skipped, oldest first. -/
  unkept : List Nat
  /-- The record whose slot is being written (R422): word 0 stands there with TYPE 0x00. -/
  writing : Option Nat
  /-- Slots as they stood before the records of a flush that ran on through a loss of power (R431), by SEQ. -/
  cut : Tbl (List Byte)
  skipping : Bool
  allowance : Int
  /-- DEV_TICK when the allowance last rose (R420). -/
  rose : Nat
  suppressed : Nat
  suppressedBy : Tbl Nat
  flushing : Bool
  mark : Nat
  /-- A mark being written (R421), and the records that wait for it. -/
  newMark : Option Nat
  waiting : List RecReq
  skippedSeen : Bool
  suppressedSeen : Bool
  bank : Bank 5
deriving DecidableEq, Repr

/-- One canary line of the ageing history (R416). -/
structure Canary where
  first : Int
  min : Int
  last : Int
  measured : Nat
  firstReset : Nat
deriving DecidableEq, Repr

/-- The health block (spec/16) with the ageing history of the keep store. -/
structure Hlt where
  computeCode : Nat
  linkCode : Nat
  spent : Bool
  /-- SPENT has been set in the bring-up that runs (R414). -/
  spentTold : Bool
  measuring : Bool
  /-- Wraps of DEV_TICK[31:0] at which a measurement has started (R413). -/
  wraps : Nat
  rateDownSeen : Bool
  avsFailSeen : Bool
  tempWarnSeen : Bool
  keepErrSeen : Bool
  mCompute : Int
  mLink : Int
  worstCompute : Nat
  worstLink : Nat
  valid : Bool
  /-- A measurement has completed since the last re-plan (R414). -/
  fresh : Bool
  vset : Nat
  vread : Nat
  /-- VSET in the header of the ageing history (R416). -/
  histVset : Nat
  /-- A voltage request that has not settled: its target and the tick it was made (R415). -/
  avs : Option (Nat × Nat)
  history : Bool
  lines : Vector Canary 128
  summaries : Tbl (List Byte)
  nextSummary : Nat
  measurements : Nat
  sinceSummary : Nat
  lastMargins : Option (Int × Int)
  rate : Nat
  rateBase : Nat
  temps : Vector Int 12
  temMax : Vector Int 12
  /-- The highest junction temperature of the newest reading (R416). -/
  hottest : Int
  warned : Vector Bool 12
  bank : Bank 7
deriving DecidableEq, Repr

/-- The parts of the keep store that commands and measurements write, as they stood when PWR_FAIL_N fell (R423): the owner
security state, the reset history and the ageing history. -/
structure KeepImage where
  policy : Nat
  pendingPolicy : Nat
  minGrant : Nat
  endorsement : Option (List Byte)
  zeroiseFlag : Bool
  slots : Vector KeySlot 16
  fails : Nat
  resets : List (List Byte)
  histVset : Nat
  computeCode : Nat
  linkCode : Nat
  lines : Vector Canary 128
  summaries : Tbl (List Byte)
  nextSummary : Nat
  measurements : Nat
deriving DecidableEq, Repr

/-- The whole device. -/
structure State where
  /-- Commands that wait, first in, first out. -/
  pending : List Instr
  dev : Dev
  ports : Ports
  vio : VioLog
  cores : Vector Core 4
  gales : Vector Gale 8
  draughts : Vector Draught 8
  chainVanes : Vector Vane 64
  chainOverflowSeen : Bool
  chainDiscardSeen : Bool
  frozen : Bool
  /-- Counters 7, 8 and 9 of the vane block, device-wide (R302). -/
  chainBank : Bank 3
  signals : List PSig
  mem : Vector Stack 12
  stash : Vector Stash 8
  foehn : Vector Foehn 12
  slip : Slip
  links : Vector Link 36
  chain : ChainSt
  sec : Sec
  rst : Rst
  evr : Evr
  hlt : Hlt
  /-- The keep store behind the writes that a power-failure flush holds up (R423). -/
  keepHeld : Option KeepImage
  /-- The tables that bring-up loaded (R97, R135, R155, R208, R264, R317, R342, R368, R377), and whether they are. -/
  plan : Plan
  loaded : Bool
  /-- CORE_FIT: code, core, context, operation index, and that the check has run. -/
  fit : Nat × Nat × Nat × Nat × Bool
  /-- The training step number s (R222). -/
  step : Nat
  /-- Load-table entries not yet loaded, by position (R231). -/
  loads : List Nat
  /-- Every load has completed, and the plan's first step has begun (R231). -/
  begun : Bool
  hostLeaves : List Leaf
  /-- Chunks accepted for STORE loads: (load table entry, group, kind, chunk). -/
  loadedChunks : List (Nat × Nat × Nat × Nat)
  /-- A cross-check mismatch withholds the fence of step s (R95). -/
  withheld : Bool
  /-- What the last HBM_READ or STASH_READ returned: the line's bytes and its poison. The model's own. -/
  answer : Option (List Byte × Bool)
  /-- The scale byte of each MX block that an operation of the generic form stored, by the device address of the block's
  first element (R449, R55). -/
  mxScales : Tbl Nat
  /-- A free value's counter: the model's own (R68, R157: values the manual leaves undefined). -/
  fresh : Nat
deriving DecidableEq, Repr

/-- The owner security state, the history and the backup domain as they are before anything is written to them.
(DESIGN CHOICE, log entries 7, 9) -/
def Sec.reset : Sec :=
  { fuses := Fuses.sound, lifecycle := 0, ownerHash := zeros 48, ownerKey := [], planKey := [], planSlot := none, identity := none, storage := none, endorsement := none, debugOpen := true
    zeroising := false, zeroiseFlag := false, signingOff := false, entropyFail := false, seeded := false
    planCheck := 0, deniedSeen := false, ingestFailSeen := false, policy := 0, pending := 0, minGrant := 0
    cmd := CmdStatus.idle, ingestCmd := CmdStatus.idle, nonces := Vector.replicate 2 none
    mailbox := Vector.replicate 2 [], sessions := Vector.replicate 2 none
    slots := Vector.replicate 16 ⟨0, 0, []⟩, channels := [], ingestDigest := zeros 48, runId := 0, draws := 0
    bank := Bank.zero 7 }

/-- The port state after a cold reset. (DESIGN CHOICE, log entry 8; PRESUMED, log entry 31) -/
def Ports.reset : Ports :=
  { latch := [], held := [], resp := [], aperture := Vector.replicate 2 0, veerSel := [], histSel := [], canarySel := []
    cursor := [], gone := [], mbLast := 0, mbAddr := 0, mbPecSeen := false, mbTimeoutSeen := false
    mbBadSeen := false, mbBank := Bank.zero 4, perstLow := false, linkUp := true, twinOutLow := false, tap := 6
    tapOut := 0, boundaryOut := false, resetLow := false, twinInLow := false, pwrFailLow := false }

/-- The chain after a reset (TL_CHAIN: ROLE OUTSIDE, no parent). -/
def ChainSt.reset : ChainSt :=
  { cmd := CmdStatus.idle, role := .outside, shardCurrent := false, shardRx := [], shardSent := false, grantHeld := none, parent := none, children := [], isRoot := false
    discarded := 0, discardOvf := false, epoch := 0, twin := .unpaired, twinDev := 0, hbPeriod := 0, hbLimit := 0
    pairBound := 0, hbSeq := 0, hbLast := 0, hbSent := 0, lostDev := none, twinTaken := false, moved := [], txSeq := [], rxSeq := [], heldPkts := []
    sentSigs := [], reports := [], retrying := [], local_ := false, localTick := 0, boundExpired := false
    closing := false, lastCommit := none, requests := [], grants := [], takeovers := [], settleSince := none
    attempt := 0, lastCause := 0, lastOrigin := 0, lastAction := 0, retried := false, myReports := [], inbox := [], lowering := false, leaveHeld := false
    takeStep := none, twinSpoke := false, pairSince := 0, staleState := false
    restoreRefused := false, haltSeen := false, retrySeen := false, boundSeen := false, inRetry := false
    recBank := Vector.replicate 5 0, recOvf := 0 }

/-- The reset that the state after reset has just taken: power-on, cold (R389). -/
def Taking.powerOn : Taking :=
  { sources := 1, scope := .cold, source := 0, cut := false, tick := 0, step := 0, applied := true }

/-- The reset controller at power-on. (DESIGN CHOICE, log entries 8, 9) -/
def Rst.reset : Rst :=
  { cmd := CmdStatus.idle, count := 0, lastSource := 0, lastScope := 0, cause := 0, straps := ⟨0, 0, false⟩
    strapsLatched := false, fails := 0, fallback := false, bootSrc := 0, backupLost := false, failPhase := 0
    failCode := 0, wdt := 0, wdtSince := 0, taking := some Taking.powerOn, heldThermal := false, held := false
    cur := Taking.powerOn, phaseSince := 0, failedWait := none, linksBegun := false, safe := false, staging := none, history := [], fusing := none }

/-- The recorder at power-on, its keep-store region empty. (DESIGN CHOICE, log entry 9) -/
def Evr.reset : Evr :=
  { queue := [], ring := [], slots := [], next := 0, made := false, kept := none, unkept := [], writing := none, cut := []
    skipping := false
    allowance := 0, rose := 0, suppressed := 0, suppressedBy := [], flushing := false, mark := 0, newMark := none
    waiting := [], skippedSeen := false, suppressedSeen := false, bank := Bank.zero 5 }

/-- The health block at power-on, with no ageing history. (DESIGN CHOICE, log entries 9, 11) -/
def Hlt.reset : Hlt :=
  { computeCode := 0, linkCode := 0, spent := false, spentTold := false, measuring := false, wraps := 0, rateDownSeen := false, avsFailSeen := false
    tempWarnSeen := false, keepErrSeen := false, mCompute := 0, mLink := 0, worstCompute := 0, worstLink := 0
    valid := false, fresh := false, vset := 0, vread := 0, histVset := 0, avs := none, history := false
    lines := Vector.replicate 128 ⟨0, 0, 0, 0, 0⟩, summaries := [], nextSummary := 0, measurements := 0
    sinceSummary := 0, lastMargins := none, rate := 0, rateBase := 0, temps := Vector.replicate 12 0
    temMax := Vector.replicate 12 0, hottest := 0, warned := Vector.replicate 12 false, bank := Bank.zero 7 }

/-- Identity at power-on: stepping A1, serial 0, BRING_UP in phase 1. (DESIGN CHOICE, log entry 7) -/
def Dev.reset : Dev :=
  { stepping := 0x11#8, serial := 0, chainId := 0, chainValid := false, st := .bringUp, phase := 1, stashDevices := 0
    tick := 0, scratch := 0, digest := zeros 48 }

/-- The device right after a power-on reset has been taken, before phase 1 has done its work (R394 order 5).
(DESIGN CHOICE, log entry 5) -/
def State.reset : State :=
  { pending := [], dev := Dev.reset, ports := Ports.reset, vio := VioLog.zero, cores := Vector.replicate 4 Core.zero
    gales := Vector.replicate 8 Gale.zero, draughts := Vector.replicate 8 Draught.zero
    chainVanes := Vector.replicate 64 Vane.zero, chainOverflowSeen := false, chainDiscardSeen := false
    frozen := false, chainBank := Bank.zero 3, signals := [], mem := Vector.replicate 12 Stack.zero
    stash := Vector.replicate 8 Stash.zero, foehn := Vector.replicate 12 Foehn.zero, slip := Slip.zero
    links := Vector.replicate 36 Link.zero, chain := ChainSt.reset, sec := Sec.reset, rst := Rst.reset
    evr := Evr.reset, hlt := Hlt.reset, keepHeld := none, plan := Plan.empty, loaded := false, fit := (0, 0, 0, 0, false), step := 0
    loads := [], begun := false, hostLeaves := [], loadedChunks := [], withheld := false, answer := none, mxScales := [], fresh := 0 }

end Sys2Proof.Machine
end

