-- ==== Sys2Proof/Machine/Ops.lean ====
section
/-! DEFINITION. Operations that every block shares: updates of one part of the state, counters (R33), sticky bits (R26),
event records and the end of a handshake (R418 to R422), the violation log (R27 to R29) and the recognition of a reset
(R389, R395). -/

namespace Sys2Proof.Machine

/-- What a command answers. -/
abbrev Out := Host.Outcome State Fault Refusal

/-! Parts of the state. -/

def State.core (s : State) (c : Fin 4) : Core := s.cores.get c
def State.ctx (s : State) (c : Fin 4) (k : Fin 8) : Ctx := (s.cores.get c).ctxs.get k
def State.gale (s : State) (g : Fin 8) : Gale := s.gales.get g
def State.drt (s : State) (e : Fin 8) : Draught := s.draughts.get e
def State.stack (s : State) (n : Fin 12) : Stack := s.mem.get n
def State.stc (s : State) (n : Fin 8) : Stash := s.stash.get n
def State.fhn (s : State) (n : Fin 12) : Foehn := s.foehn.get n
def State.link (s : State) (l : Fin 36) : Link := s.links.get l
/-- The tables the plan holds for a core. -/
def State.prog (s : State) (c : Fin 4) : PlanCore := s.plan.cores.get c

def State.modCore (s : State) (c : Fin 4) (f : Core → Core) : State := { s with cores := upd s.cores c f }
def State.modCtx (s : State) (c : Fin 4) (k : Fin 8) (f : Ctx → Ctx) : State :=
  s.modCore c (fun x => { x with ctxs := upd x.ctxs k f })
def State.modGale (s : State) (g : Fin 8) (f : Gale → Gale) : State := { s with gales := upd s.gales g f }
def State.modDrt (s : State) (e : Fin 8) (f : Draught → Draught) : State := { s with draughts := upd s.draughts e f }
def State.modStack (s : State) (n : Fin 12) (f : Stack → Stack) : State := { s with mem := upd s.mem n f }
def State.modStc (s : State) (n : Fin 8) (f : Stash → Stash) : State := { s with stash := upd s.stash n f }
def State.modFhn (s : State) (n : Fin 12) (f : Foehn → Foehn) : State := { s with foehn := upd s.foehn n f }
def State.modLink (s : State) (l : Fin 36) (f : Link → Link) : State := { s with links := upd s.links l f }
def State.modEddy (s : State) (c : Fin 4) (f : Eddy → Eddy) : State := s.modCore c (fun x => { x with eddy := f x.eddy })
def State.modVeer (s : State) (c : Fin 4) (f : Veer → Veer) : State := s.modCore c (fun x => { x with veer := f x.veer })
def State.modDev (s : State) (f : Dev → Dev) : State := { s with dev := f s.dev }
def State.modPorts (s : State) (f : Ports → Ports) : State := { s with ports := f s.ports }
def State.modChain (s : State) (f : ChainSt → ChainSt) : State := { s with chain := f s.chain }
def State.modSec (s : State) (f : Sec → Sec) : State := { s with sec := f s.sec }
def State.modRst (s : State) (f : Rst → Rst) : State := { s with rst := f s.rst }
def State.modEvr (s : State) (f : Evr → Evr) : State := { s with evr := f s.evr }
def State.modHlt (s : State) (f : Hlt → Hlt) : State := { s with hlt := f s.hlt }
def State.modSlip (s : State) (f : Slip → Slip) : State := { s with slip := f s.slip }

/-- The device's own identifier (R16). -/
def State.self (s : State) : Nat := s.dev.chainId.toNat

/-- PAD_TIMING is active (R364, R386). -/
def State.padTiming (s : State) : Bool := s.sec.policy.testBit 1

/-- Device ticks as a number. -/
def State.now (s : State) : Nat := s.dev.tick.toNat

/-- Fields of an entry of a plan table, by byte: `n` bytes from byte `off`, little-endian (R18). -/
def le {w : Nat} (v : BitVec w) (off n : Nat) : Nat := field v (8 * off) (8 * n)

/-- A value with `x` in the `n` bits from bit `lo` on. -/
def setBits {w : Nat} (v : BitVec w) (lo n x : Nat) : BitVec w :=
  BitVec.ofNat w (v.toNat % 2 ^ lo + (x % 2 ^ n) <<< lo + (v.toNat >>> (lo + n)) <<< (lo + n))

/-! Counters and sticky bits. -/

/-- A 64-bit performance counter advanced: it wraps, and a wrap sets its overflow bit (R33). -/
def Bank.add {n : Nat} (b : Bank n) (i k : Nat) : Bank n :=
  if h : i < n then
    let v := (b.ctr.get ⟨i, h⟩).toNat + k
    ⟨b.ctr.set i (BitVec.ofNat 64 v), if 2 ^ 64 ≤ v then b.ovf ||| BitVec.ofNat 32 (1 <<< i) else b.ovf⟩
  else b

/-- Counter `i` as a number, 0 where there is none. -/
def Bank.val {n : Nat} (b : Bank n) (i : Nat) : Nat := if h : i < n then (b.ctr.get ⟨i, h⟩).toNat else 0

/-- Overflow bits cleared by the ones of a write (R20, W1C). -/
def Bank.clearOvf {n : Nat} (b : Bank n) (w : Word) : Bank n := ⟨b.ctr, b.ovf &&& ~~~ w⟩

/-- A 64-bit number outside any bank advanced: its value and whether it wrapped. -/
def addWrap (v : DWord) (k : Nat) : DWord × Bool := (BitVec.ofNat 64 (v.toNat + k), decide (2 ^ 64 ≤ v.toNat + k))

/-! Making units and records. -/

/-- KIND_SRC, UNIT and CTX as VIO_SRC bits [15:0], with the issuing device in bits [31:16] (VIO_SRC). -/
def srcWord (dev kind unit ctx : Nat) : Nat :=
  ctx % 16 + 16 * (unit % 256) + 4096 * (kind % 16) + 65536 * (dev % 65536)

/-- A unit of this device as it stands in a record. -/
def State.unit (s : State) (kind unit ctx : Nat) : Nat := srcWord s.self kind unit ctx

/-- The KIND_SRC of a requester path (VIO_SRC). -/
def pathKind : Path → Nat
  | .core _ => 0
  | .peer _ => 6
  | .f0 => 7
  | .f1 => 8
  | .mb => 9

/-- The UNIT of a requester path (VIO_SRC). -/
def pathUnit : Path → Nat
  | .core c => c
  | .peer l => l
  | _ => 0

/-- A record asked for in the running handshake (R418). -/
def State.ask (s : State) (type : Nat) (unit : Nat) (payload : List Byte) : State :=
  s.modEvr (fun e => { e with queue := e.queue ++ [⟨type, some unit, payload⟩] })

/-- A record that carries no making unit: commit and post-mortem records (R419). -/
def State.askBare (s : State) (type : Nat) (payload : List Byte) : State :=
  s.modEvr (fun e => { e with queue := e.queue ++ [⟨type, none, payload⟩] })

/-- Types whose records are always made (R420). -/
def alwaysMade (type : Nat) : Bool :=
  type == 0x10 || type == 0x11 || (0x20 ≤ type && type ≤ 0x22) || (0x60 ≤ type && type ≤ 0x66)

/-- Where a record stands among those of its handshake (R419): by making unit, then the commit records, then the
post-mortem records. -/
def RecReq.key (r : RecReq) : Nat :=
  if 0x20 ≤ r.type && r.type ≤ 0x22 then 65536
  else if 0x60 ≤ r.type && r.type ≤ 0x66 then 65537
  else (r.unit.getD 0) % 65536

/-- A record put behind all that come before it or at its place (a stable insertion sort by `RecReq.key`). -/
def insRec (r : RecReq) : List RecReq → List RecReq
  | [] => [r]
  | x :: xs => if r.key < x.key then r :: x :: xs else x :: insRec r xs

/-- The records of one handshake in the order of R419. -/
def orderRecs (rs : List RecReq) : List RecReq := rs.foldl (fun acc r => insRec r acc) []

/-- The 64 bytes of a record (R418, R419). -/
def recBytes (seq rstCount tick : Nat) (r : RecReq) : List Byte :=
  let body := (match r.unit with | some u => leBytes 4 u | none => []) ++ r.payload
  leBytes 6 seq ++ leBytes 1 r.type ++ leBytes 4 rstCount ++ leBytes 5 (tick / 256) ++ (body ++ zeros 48).take 48

/-- The largest 48-bit sequence number (R34). -/
def seqMax : Nat := 2 ^ 48 - 1

/-- The recorder begins to write a new mark when the old one is 4,096 or less ahead (R421). -/
def Evr.markCheck (e : Evr) : Evr :=
  if e.newMark.isNone && e.mark ≤ e.next + 4096 then { e with newMark := some (max e.mark e.next + 16384) } else e

/-- A record takes the next SEQ: it enters the volatile ring, which keeps the newest 16,384, and awaits the flush unless
it is skipped (R418, R421, R422). -/
def Evr.place (rstCount tick : Nat) (e : Evr) (r : RecReq) : Evr :=
  let n := e.next
  let ring := (Tbl.set e.ring n (recBytes n rstCount tick r)).filter (fun x => n < x.1 + 16384)
  let skip := if e.skipping then 2048 < e.unkept.length else 4096 < e.unkept.length + 1
  let e := { e with ring := ring, next := n + 1, made := true, skipping := skip, bank := e.bank.add 0 1 }
  let e := if skip then { e with skippedSeen := true, bank := e.bank.add 2 1 } else { e with unkept := e.unkept ++ [n] }
  e.markCheck

/-- A record is made: it waits while its SEQ would reach the old mark (R421), and none is made past the last SEQ.
(DESIGN CHOICE, log entry 15) -/
def Evr.make (rstCount tick : Nat) (e : Evr) (r : RecReq) : Evr :=
  if seqMax < e.next then e
  else
    let e := { e with allowance := e.allowance - 1 }
    if e.mark ≤ e.next || !e.waiting.isEmpty then { e with waiting := e.waiting ++ [r] }
    else e.place rstCount tick r

/-- The types that a SUPPRESSED record counts apart (R420). -/
def suppressTypes : List Nat :=
  [0x01, 0x02, 0x03, 0x04, 0x23, 0x30, 0x31, 0x32, 0x33, 0x34, 0x35, 0x40, 0x50, 0x51]

/-- One asked-for record under the rate rule (R420). -/
def Evr.request (rstCount tick : Nat) (e : Evr) (r : RecReq) : Evr :=
  if alwaysMade r.type || 0 < e.allowance then e.make rstCount tick r
  else
    { e with
      suppressed := e.suppressed + 1
      suppressedBy := Tbl.set e.suppressedBy r.type ((Tbl.get? e.suppressedBy r.type).getD 0 + 1)
      suppressedSeen := true
      bank := e.bank.add 4 1 }

/-- The SUPPRESSED record, made first in the first handshake in which A is above 0 after a suppression (R420). -/
def Evr.tellSuppressed (rstCount tick : Nat) (e : Evr) : Evr :=
  if 0 < e.suppressed && 0 < e.allowance then
    let counts := suppressTypes.flatMap (fun t => leBytes 2 (min 0xFFFF ((Tbl.get? e.suppressedBy t).getD 0)))
    { e with suppressed := 0, suppressedBy := [] }.make rstCount tick
      ⟨0x12, none, zeros 4 ++ leBytes 8 e.suppressed ++ counts⟩
  else e

/-- The end of a handshake at the recorder: every record asked for in it is made or suppressed, in order. -/
def Evr.close (rstCount tick : Nat) (e : Evr) : Evr :=
  let e1 := (e.markCheck).tellSuppressed rstCount tick
  { (orderRecs e1.queue).foldl (fun a r => a.request rstCount tick r) e1 with queue := [] }

/-! Resets. -/

/-- How wide a scope is (R395). -/
def scopeRank : Scope → Nat
  | .core => 0
  | .warm => 1
  | .cold => 2

/-- The code of a scope in RST_LAST. -/
def scopeCode : Scope → Nat
  | .cold => 0
  | .warm => 1
  | .core => 2

/-- The wider of two scopes (R395). -/
def wider (a b : Scope) : Scope := if scopeRank a < scopeRank b then b else a

/-- A reset merges into one that is being taken (R395). Sources are RST_CAUSE bit numbers. A wider scope, or a power-on that
joins, has its scope applied anew (R390, R394). (DEDUCED, log entry 123) -/
def Taking.merge (t : Taking) (src : Nat) (scope : Scope) : Taking :=
  { t with
    sources := t.sources ||| BitVec.ofNat 32 (1 <<< src)
    scope := wider t.scope scope
    source :=
      if scopeRank t.scope < scopeRank scope then src
      else if t.scope = scope then min t.source src
      else t.source
    cut := t.cut || src == 0 || src == 7
    applied := t.applied && scopeRank scope ≤ scopeRank t.scope && !(src == 0 && !t.sources.getLsbD 0) }

/-- A reset is recognised (R389): it starts to be taken or merges (R395); during bring-up its scope is at least that of
the bring-up it interrupts (R396). (DEDUCED, log entry 124) -/
def State.recognise (s : State) (src : Nat) (scope : Scope) : State :=
  s.modRst (fun r =>
    match r.taking with
    | some t => { r with taking := some (t.merge src scope) }
    | none =>
      let wide := if s.dev.st = .bringUp then wider scope r.cur.scope else scope
      { r with taking := some ⟨BitVec.ofNat 32 (1 <<< src), wide, src, src == 0 || src == 7, s.now, s.step, false⟩ })

/-- Fatal-error escalation: a warm reset (R389). -/
def State.escalate (s : State) : State := s.recognise 8 .warm

/-- A 48-bit number advanced by 1: it stops at its limit, and the step on which it reaches the limit escalates (R34). -/
def seqNext (n : Nat) : Nat := min (n + 1) seqMax

/-- A record number that has reached its limit since it stood at `before` escalates (R34). -/
def State.atRecordLimit (s : State) (before : Nat) : State :=
  if seqMax < s.evr.next && before ≤ seqMax then s.escalate else s

/-- The end of a handshake: its records are made, and a record number that has reached its limit escalates (R34).
(DESIGN CHOICE, log entry 15) -/
def close (s : State) : State := ({ s with evr := s.evr.close s.rst.count s.now }.atRecordLimit s.evr.next)

/-- A command that has had its effect. (DESIGN CHOICE, log entry 15) -/
def done (s : State) : Out := .next (close s)

/-- A command whose condition does not hold: nothing happens. (DESIGN CHOICE, log entry 2) -/
def stay (s : State) : Out := .next s

/-! Violations. -/

/-- A violation (R28, R445): its kind, VIO_SRC, and the address captured with the device on which it lies. -/
structure Vio where
  kind : Nat
  src : Nat
  addr : Nat
  dev : Nat
deriving DecidableEq, Repr

/-- The control-space base (R14). -/
def ctlBase : Nat := 0x00FF00000000

/-- One violation reaches the log and makes its record (R27, R29). (DEDUCED, log entry 111) -/
def State.violate (s : State) (v : Vio) : State :=
  let l := s.vio
  let (n, wrap) := addWrap l.count 1
  let l := { l with count := n, ovf := l.ovf || wrap }
  let l := if l.valid then { l with lost := true }
    else { l with addr := v.addr, dev := v.dev, src := v.src, kind := v.kind, valid := true }
  ({ s with vio := l }).ask 0x01 v.src (leBytes 8 (v.addr + v.dev * 2 ^ 48) ++ leBytes 1 v.kind)

/-- A violation put in the order of (KIND, VIO_SRC) (R29). -/
def insVio (v : Vio) : List Vio → List Vio
  | [] => [v]
  | x :: xs => if v.kind * 2 ^ 32 + v.src < x.kind * 2 ^ 32 + x.src then v :: x :: xs else x :: insVio v xs

/-- The violations of one handshake, the lowest (KIND, VIO_SRC) first (R29). -/
def State.violateAll (s : State) (vs : List Vio) : State :=
  (vs.foldl (fun acc v => insVio v acc) []).foldl State.violate s

/-- The waiters that a vane holds, each Foehn unit counted once whatever number of its groups wait (R288).
(DEDUCED, log entry 138) -/
def Vane.held (v : Vane) : Nat :=
  (v.waiters.filter (fun w => match w.1 with | .ctx _ _ => true | .foehn _ _ => false)).length +
    ((allFin 12).filter (fun n => v.waiters.any (fun w => match w.1 with | .ctx _ _ => false | .foehn m _ => m == n))).length

/-! Command registers. -/

/-- Answers of R30. -/
inductive Answer where
  | accepted | done | conflict | denied | malformed | failed
deriving DecidableEq, Repr

/-- The CODE of an answer (R30). -/
def Answer.code : Answer → Nat
  | .accepted => 1
  | .done => 2
  | .conflict => 3
  | .denied => 4
  | .malformed => 5
  | .failed => 6

/-- An answer shown in a status register (R30, R32); BUSY as given. -/
def CmdStatus.answer (c : CmdStatus) (a : Answer) (p : Path) (tag : Nat) (busy : Bool) : CmdStatus :=
  { c with code := a.code, busy := busy, src := (pathKind p), tag := tag }

/-- The COMMAND record of an answer, made by the block of control space `block` (R419).
(DESIGN CHOICE, log entry 121) -/
def State.commandRecord (s : State) (block : Nat) (p : Path) (tag : Nat) (a : Answer) : State :=
  s.ask 0x03 (s.unit 0xC block 0) (leBytes 1 (pathKind p) ++ leBytes 2 tag ++ leBytes 1 a.code)

/-- SEC_CMD_STATUS shows an answer, with its COMMAND record (R30, R32). -/
def State.secAnswer (s : State) (p : Path) (tag : Nat) (a : Answer) (busy : Bool) : State :=
  (s.modSec (fun x => { x with cmd := x.cmd.answer a p tag busy })).commandRecord 0x04 p tag a

/-- Opcodes of SEC_CMD that write the owner security state: KEY_LOAD, KEY_DELETE, POLICY and ENDORSE (R360, R411). -/
def keepsState (op : Nat) : Bool := 6 ≤ op && op ≤ 9

end Sys2Proof.Machine
end

