-- ==== Sys2Proof/Machine/Lines.lean ====
section
/-! DEFINITION. One memory controller and the lines behind it (spec/10): sparse bytes, the outer code, poison words, the
check cache, the write-combining buffer. Stack controllers and stash controllers share it. -/

namespace Sys2Proof.Machine

/-! Sparse bytes: addresses strictly rising, no byte 0. -/

/-- Byte `a`; an unlisted byte reads 0 (R272, R281, R390). -/
def memGet : List (Nat × Byte) → Nat → Byte
  | [], _ => 0
  | (i, b) :: m, a => if i = a then b else memGet m a

/-- `n` bytes from `a` on, of a list whose entries lie at `a` or above. -/
def memTake : Nat → List (Nat × Byte) → Nat → List Byte
  | 0, _, _ => []
  | n + 1, [], a => 0 :: memTake n [] (a + 1)
  | n + 1, (i, b) :: t, a => if i = a then b :: memTake n t (a + 1) else 0 :: memTake n ((i, b) :: t) (a + 1)

/-- `n` bytes from `a` on. (DESIGN CHOICE, log entry 10) -/
def memRead (m : List (Nat × Byte)) (a n : Nat) : List Byte := memTake n (m.dropWhile (fun e => e.1 < a)) a

/-- The entries that bytes stored from `a` on make: none for a byte 0. -/
def memCells (a : Nat) : List Byte → List (Nat × Byte)
  | [] => []
  | v :: vs => if v = 0 then memCells (a + 1) vs else (a, v) :: memCells (a + 1) vs

/-- Bytes stored from `a` on, the canonical form kept. -/
def memWrite (m : List (Nat × Byte)) (a : Nat) (bs : List Byte) : List (Nat × Byte) :=
  m.filter (fun e => e.1 < a) ++ memCells a bs ++ m.filter (fun e => a + bs.length ≤ e.1)

/-- The canonical form of sparse bytes: addresses strictly rising, no entry for a byte 0. -/
abbrev memWf (m : List (Nat × Byte)) : Prop := m.Pairwise (fun x y => x.1 < y.1) ∧ ∀ e ∈ m, e.2 ≠ 0

/-! The outer code (R258, R259). -/

/-- Multiplication in GF(2^8) over x^8 + x^4 + x^3 + x^2 + 1 by shift and add: `n` bits of `b` left. -/
def gfMulN : Nat → Byte → Byte → Byte → Byte
  | 0, _, _, acc => acc
  | n + 1, a, b, acc =>
    gfMulN n (if bitAt a 7 then (a <<< 1) ^^^ 0x1D else a <<< 1) (b >>> 1) (if bitAt b 0 then acc ^^^ a else acc)

/-- Multiplication in GF(2^8) (R258). -/
def gfMul (a b : Byte) : Byte := gfMulN 8 a b 0

/-- A power in GF(2^8). -/
def gfPow (a : Byte) : Nat → Byte
  | 0 => 1
  | n + 1 => gfMul a (gfPow a n)

/-- The inverse in GF(2^8). -/
def gfInv (a : Byte) : Byte := gfPow a 254

/-- One step of the division by g(x): the four-byte remainder, x^3 first, after one more coefficient (R258). -/
def rsStep (r : List Byte) (d : Byte) : List Byte :=
  let f := d ^^^ r.getD 0 0
  [r.getD 1 0 ^^^ gfMul f 0x0F, r.getD 2 0 ^^^ gfMul f 0x36, r.getD 3 0 ^^^ gfMul f 0x78, gfMul f 0x40]

/-- The check bytes of a line (R258). -/
def rsCheck (line : List Byte) : List Byte := line.foldl rsStep [0, 0, 0, 0]

/-- Syndrome `j` of a received word of 68 bytes, byte b the coefficient of x^(67 − b). -/
def rsSynd (rx : List Byte) (j : Nat) : Byte := rx.foldl (fun acc d => gfMul acc (gfPow 2 j) ^^^ d) 0

/-- Bytes added in GF(2^8). -/
def xorBytes (a b : List Byte) : List Byte := (a.zip b).map (fun p => p.1 ^^^ p.2)

/-- The value at one position that explains four syndromes, if any; `x` is the position's locator. -/
def rsOne (s0 s1 s2 s3 x : Byte) : Bool :=
  s0 != 0 && s1 == gfMul s0 x && s2 == gfMul s1 x && s3 == gfMul s2 x

/-- The pair of values at two positions that explains four syndromes, if any. -/
def rsTwo (s0 s1 s2 s3 x y : Byte) : Option (Byte × Byte) :=
  let v := gfMul (s1 ^^^ gfMul s0 x) (gfInv (x ^^^ y))
  let u := s0 ^^^ v
  let x2 := gfMul x x
  let y2 := gfMul y y
  if u != 0 && v != 0 && s2 == (gfMul u x2 ^^^ gfMul v y2) && s3 == (gfMul u (gfMul x2 x) ^^^ gfMul v (gfMul y2 y)) then
    some (u, v)
  else none

/-- The word with the error of a pattern removed. -/
def rsFix (rx : List Byte) (ps : List (Nat × Byte)) : List Byte := ps.foldl (fun w p => modAt w p.1 (· ^^^ p.2)) rx

/-- The 68 positions with their locators α^(67 − b). -/
def rsPlaces : List (Nat × Byte) := (List.range 68).map (fun b => (b, gfPow 2 (67 - b)))

/-- A decoded word: clean, corrected or uncorrectable. -/
inductive Decoded where
  | clean (word : List Byte)
  | corrected (word : List Byte)
  | uncorrectable (word : List Byte)
deriving DecidableEq, Repr

/-- The 68 bytes that a decode leaves. -/
def Decoded.word : Decoded → List Byte
  | .clean w | .corrected w | .uncorrectable w => w

/-- The outer code decoded under a code mode (R259): 0 CORRECT2, 1 CORRECT1, 2 DETECT4. (DESIGN CHOICE, log entry 94) -/
def rsDecode (mode : Nat) (rx : List Byte) : Decoded :=
  let s0 := rsSynd rx 0
  let s1 := rsSynd rx 1
  let s2 := rsSynd rx 2
  let s3 := rsSynd rx 3
  if s0 == 0 && s1 == 0 && s2 == 0 && s3 == 0 then .clean rx
  else if mode == 2 then .uncorrectable rx
  else
    match rsPlaces.find? (fun p => rsOne s0 s1 s2 s3 p.2) with
    | some p => .corrected (rsFix rx [(p.1, s0)])
    | none =>
      if mode == 1 then .uncorrectable rx
      else
        let pairs := rsPlaces.flatMap (fun p => (rsPlaces.drop (p.1 + 1)).filterMap (fun q =>
          (rsTwo s0 s1 s2 s3 p.2 q.2).map (fun uv => [(p.1, uv.1), (q.1, uv.2)])))
        match pairs with
        | ps :: _ => .corrected (rsFix rx ps)
        | [] => .uncorrectable rx

/-! Lines. -/

/-- The check group of a line (R256). -/
def groupOf (line : Nat) : Nat := line / 2 ^ 32 * 2 ^ 32 + line % 2 ^ 32 / 15

/-- The place of a line within its check group (R256). -/
def lineInGroup (line : Nat) : Nat := line % 2 ^ 32 % 15

/-- The channel of a check group (R263). -/
def channelOf (group : Nat) : Nat := (group % 32) ^^^ (group / 32 % 32) ^^^ (group / 1024 % 32)

/-- What a controller's accesses add to its counters, and the correction events (R282, R283). -/
structure LineEv where
  reads : Nat
  writes : Nat
  misses : Nat
  corrected : Nat
  uncorr : Nat
  mismatch : Nat
  rmw : Nat
  switches : Nat
deriving DecidableEq, Repr

/-- Nothing happened. -/
def LineEv.none : LineEv := ⟨0, 0, 0, 0, 0, 0, 0, 0⟩

/-- Both happened. -/
def LineEv.plus (a b : LineEv) : LineEv :=
  ⟨a.reads + b.reads, a.writes + b.writes, a.misses + b.misses, a.corrected + b.corrected, a.uncorr + b.uncorr,
    a.mismatch + b.mismatch, a.rmw + b.rmw, a.switches + b.switches⟩

/-- The poison flag of a line: set where POISON is set or POISON_INV is clear (R262). -/
def LineMem.flagged (m : LineMem) (line : Nat) : Bool :=
  let g := groupOf line
  bitAt ((Tbl.get? m.poison g).getD 0) (lineInGroup line) || bitAt ((Tbl.get? m.poisonInv g).getD 0) (lineInGroup line)

/-- POISON and POISON_INV of a line's group disagree (R262). -/
def LineMem.disagree (m : LineMem) (line : Nat) : Bool :=
  (Tbl.get? m.poison (groupOf line)).getD 0 != (Tbl.get? m.poisonInv (groupOf line)).getD 0

/-- A sparse table entry set, none kept for 0. -/
def setFlags (t : Tbl (BitVec 16)) (g : Nat) (v : BitVec 16) : Tbl (BitVec 16) :=
  if v = 0 then Tbl.erase t g else Tbl.set t g v

/-- The flags of a group as its next check line carries them: bit 15 is 0 (R257). R262 does not say to what a pair that disagrees
is restored: every line that either word gives as poisoned stays so. (DESIGN CHOICE, log entry 153) -/
def LineMem.union (m : LineMem) (g : Nat) : BitVec 16 :=
  ((Tbl.get? m.poison g).getD 0 ||| (Tbl.get? m.poisonInv g).getD 0) &&& 0x7FFF

/-- The poison flag of a line written; the write of the check line restores the pair (R262). -/
def LineMem.setPoison (m : LineMem) (line : Nat) (p : Bool) : LineMem :=
  let g := groupOf line
  let old := m.union g
  let bit : BitVec 16 := BitVec.ofNat 16 (1 <<< lineInGroup line)
  let v := if p then old ||| bit else old &&& ~~~ bit
  { m with poison := setFlags m.poison g v, poisonInv := setFlags m.poisonInv g v }

/-- A check line written to the DRAM: its pair of flag words agrees again (R262). (DESIGN CHOICE, log entry 153) -/
def LineMem.restorePair (m : LineMem) (g : Nat) : LineMem :=
  { m with poison := setFlags m.poison g (m.union g), poisonInv := setFlags m.poisonInv g (m.union g) }

/-- How a line's stored codeword differs from the encoding of its data. -/
def LineMem.upsets (m : LineMem) (line : Nat) : List Byte := memRead m.upset (68 * line) 68

/-- The data bytes of a line as the DRAM would give them without an upset. -/
def LineMem.plain (m : LineMem) (line : Nat) : List Byte := memRead m.data (64 * line) 64

/-- How a stash controller's bytes look in the DRAM (R280): none for a stack. -/
structure Crypt where
  key : Nat
  tweak : Nat
deriving DecidableEq, Repr

/-- A line decoded (R259, R280, R343): what is returned, whether the word was corrected, whether it was uncorrectable.
(DESIGN CHOICE, log entry 94) -/
def LineMem.decodeLine (m : LineMem) (cr : Option Crypt) (code line : Nat) : List Byte × Bool × Bool :=
  let e := m.upsets line
  let d := m.plain line
  if m.dead.contains (line / 2 ^ 32) then (d, false, true)
  else if e.all (· == 0) then (d, false, false)
  else
    let stored := match cr with | some c => Config.xtsEncrypt c.key c.tweak d | none => d
    let r := rsDecode code (xorBytes (stored ++ rsCheck stored) e)
    let got := r.word.take 64
    let out := if got = stored then d else match cr with | some c => Config.xtsDecrypt c.key c.tweak got | none => got
    match r with
    | .clean _ => (out, false, false)
    | .corrected _ => (out, true, false)
    | .uncorrectable _ => (out, false, true)

/-- Bytes laid over a line. -/
def overlay (line : List Byte) (bytes : List (Nat × Byte)) : List Byte := bytes.foldl (fun l b => setAt l b.1 b.2) line

/-- What a read of a line returns (R262, R268, R271): decoded bytes under the write-combining entry's, and the poison. -/
def LineMem.peek (m : LineMem) (cr : Option Crypt) (code line : Nat) : List Byte × Bool :=
  let (d, _, unc) := m.decodeLine cr code line
  match Tbl.get? m.wc line with
  | some w => (overlay d w.bytes, unc || m.flagged line || w.poison)
  | none => (d, unc || m.flagged line)

/-- A transfer in a direction on the channel of a check group: a change of direction counts (R275). The model serves each
request before it accepts the next, so none is pending in the other direction. R275 gives a stash device no channels and a channel
no direction before its first transfer: R263's hash serves each stash device too, and the first direction is that of reads.
(DEDUCED, log entry 145; DESIGN CHOICE, log entry 153) -/
def LineMem.turn (m : LineMem) (g : Nat) (write : Bool) : LineMem × LineEv :=
  let ch := g / 2 ^ 32 * 32 + channelOf (g % 2 ^ 32)
  let was := (Tbl.get? m.dir ch).getD false
  ({ m with dir := Tbl.set m.dir ch write }, if was = write then LineEv.none else { LineEv.none with switches := 1 })

/-- A check line read from the DRAM (R269). -/
def LineMem.readCheck (m : LineMem) (g : Nat) : LineMem × LineEv :=
  let (m, e) := m.turn g false
  (m, e.plus { LineEv.none with misses := 1 })

/-- A check group leaves the cache: its check line is read first where only part of it is known, and written back where it was
modified (R262, R269). (DESIGN CHOICE, log entry 90) -/
def LineMem.evict (m : LineMem) (g : Nat) : LineMem × LineEv :=
  let (m, e) := if (Tbl.get? m.cover g).isSome then m.readCheck g else (m, LineEv.none)
  let (m, f) := if g ∈ m.dirty then (m.restorePair g).turn g true else (m, LineEv.none)
  ({ m with cache := m.cache.filter (· != g), dirty := m.dirty.filter (· != g), cover := Tbl.erase m.cover g }, e.plus f)

/-- A check group enters the cache, which holds `max` of them. (DESIGN CHOICE, log entry 90) -/
def LineMem.cacheIn (m : LineMem) (g max : Nat) : LineMem × LineEv :=
  if m.cache.length < max then ({ m with cache := m.cache ++ [g] }, LineEv.none)
  else
    match m.cache with
    | old :: _ => let (m', e) := m.evict old; ({ m' with cache := m'.cache ++ [g] }, e)
    | [] => (m, LineEv.none)

/-- The check line needed to read a data line (R269). -/
def LineMem.needCheck (m : LineMem) (line max : Nat) : LineMem × LineEv :=
  let g := groupOf line
  if g ∈ m.cache then
    match Tbl.get? m.cover g with
    | some c =>
      if bitAt c (lineInGroup line) then (m, LineEv.none)
      else let (m', e) := m.readCheck g; ({ m' with cover := Tbl.erase m'.cover g }, e)
    | none => (m, LineEv.none)
  else
    let (m', e) := m.cacheIn g max
    let (m'', f) := m'.readCheck g
    (m'', e.plus f)

/-- The check line of a group changed by the write of some of its data lines (R269): never read when all 15 lines are written
first. -/
def LineMem.touchGroup (m : LineMem) (g : Nat) (bit : BitVec 16) (max : Nat) : LineMem × LineEv :=
  let grow (m : LineMem) (c : BitVec 16) : LineMem :=
    if c = 0x7FFF then { m with cover := Tbl.erase m.cover g } else { m with cover := Tbl.set m.cover g c }
  if g ∈ m.cache then
    let m := { m with dirty := insSorted m.dirty g }
    match Tbl.get? m.cover g with
    | some c => (grow m (c ||| bit), LineEv.none)
    | none => (m, LineEv.none)
  else
    let (m', e) := m.cacheIn g max
    (grow { m' with dirty := insSorted m'.dirty g } bit, e)

/-- The check line changed by the write of a data line (R269). -/
def LineMem.touchCheck (m : LineMem) (line max : Nat) : LineMem × LineEv :=
  m.touchGroup (groupOf line) (BitVec.ofNat 16 (1 <<< lineInGroup line)) max

/-- A line's POISON bit set with no byte of the line written: the check line is read where it is not known (R27, R269). -/
def LineMem.poisonOnly (m : LineMem) (line max : Nat) : LineMem × LineEv :=
  let (m, e) := m.needCheck line max
  ({ m.setPoison line true with dirty := insSorted m.dirty (groupOf line) }, e)

/-- A read of a line at its controller (R260 to R262, R268, R269): the controller after it, the bytes, the poison and what
is counted. -/
def LineMem.read (m : LineMem) (cr : Option Crypt) (code line max : Nat) : LineMem × (List Byte × Bool) × LineEv :=
  let (m, e) := m.needCheck line max
  let (m, t) := m.turn (groupOf line) false
  let out := m.peek cr code line
  let (d, fixed, unc) := m.decodeLine cr code line
  let bad := m.disagree line
  let m := if unc then { m.setPoison line true with dirty := insSorted m.dirty (groupOf line) } else m
  let m := if fixed then { m with fixes := Tbl.set m.fixes line d } else m
  (m, out, (e.plus t).plus { LineEv.none with reads := 1, corrected := b2n fixed, uncorr := b2n unc, mismatch := b2n bad })

/-- A read of a line whose transfer failed for good (R261, R277): an uncorrectable read. -/
def LineMem.readLost (m : LineMem) (line max : Nat) : LineMem × LineEv :=
  let (m, e) := m.needCheck line max
  let (m, t) := m.turn (groupOf line) false
  ({ m.setPoison line true with dirty := insSorted m.dirty (groupOf line) },
    (e.plus t).plus { LineEv.none with reads := 1, uncorr := 1 })

/-- A whole line written (R262, R268, R270): the write-combining entry and any waiting correction are dropped. -/
def LineMem.write (m : LineMem) (line max : Nat) (bytes : List Byte) (poison : Bool) : LineMem × LineEv :=
  let (m, e) := m.touchCheck line max
  let (m, t) := m.turn (groupOf line) true
  let m := m.setPoison line poison
  ({ m with
      data := memWrite m.data (64 * line) bytes
      upset := memWrite m.upset (68 * line) (zeros 68)
      wc := Tbl.erase m.wc line
      fixes := Tbl.erase m.fixes line },
    (e.plus t).plus { LineEv.none with writes := 1 })

/-- A corrected codeword written back with its check bytes (R260, R262): what a write did not supersede.
(DESIGN CHOICE, log entry 91) -/
def LineMem.fix (m : LineMem) (line max : Nat) : LineMem × LineEv :=
  match Tbl.get? m.fixes line with
  | none => (m, LineEv.none)
  | some d =>
    let (m, e) := m.touchCheck line max
    let (m, t) := (m.restorePair (groupOf line)).turn (groupOf line) true
    ({ m with
        data := memWrite m.data (64 * line) d
        upset := memWrite m.upset (68 * line) (zeros 68)
        fixes := Tbl.erase m.fixes line }, e.plus t)

/-- Every waiting correction written back. -/
def LineMem.fixAll (m : LineMem) (max : Nat) : LineMem × LineEv :=
  (m.fixes.map (·.1)).foldl (fun (acc : LineMem × LineEv) l =>
    let (m', e) := acc.1.fix l max
    (m', acc.2.plus e)) (m, LineEv.none)

/-- An error strikes a stored codeword and the flag bits of a check line: bytes and bits that turn over (R258, R262). -/
def LineMem.strike (m : LineMem) (line : Nat) (upset : List Byte) (flags : BitVec 16) : LineMem :=
  let g := groupOf line
  { m with
    upset := memWrite m.upset (68 * line) (xorBytes (m.upsets line) ((upset ++ zeros 68).take 68))
    poisonInv := setFlags m.poisonInv g ((Tbl.get? m.poisonInv g).getD 0 ^^^ flags) }

/-- A write-combining entry finished by read-modify-write (R271). -/
def LineMem.finish (m : LineMem) (cr : Option Crypt) (line max : Nat) : LineMem × LineEv :=
  match Tbl.get? m.wc line with
  | none => (m, LineEv.none)
  | some w =>
    let m' := { m with wc := Tbl.erase m.wc line }
    let (m1, out, e1) := m'.read cr w.code line max
    let (m2, e2) := m1.write line max (overlay out.1 w.bytes) (out.2 || w.poison)
    (m2, (e1.plus e2).plus { LineEv.none with rmw := 1 })

/-- The oldest write-combining entry. -/
def LineMem.oldest (m : LineMem) : Option Nat :=
  (m.wc.foldl (fun acc (e : Nat × WcEntry) =>
    match acc with
    | some (l, t) => if e.2.since < t then some (e.1, e.2.since) else some (l, t)
    | none => some (e.1, e.2.since)) none).map (·.1)

/-- Bytes merged over others by offset, later ones in place of earlier ones. -/
def mergeBytes (old : List (Nat × Byte)) (new : List (Nat × Byte)) : List (Nat × Byte) :=
  new.foldl (fun acc b => Tbl.set acc b.1 b.2) old

/-- The entry that a write of part of a line displaces from a buffer of `cap` entries: the oldest (R271). -/
def LineMem.displaced (m : LineMem) (line cap : Nat) : Option Nat :=
  if (Tbl.get? m.wc line).isNone && cap ≤ m.wc.length then m.oldest else none

/-- A write of part of a line (R260, R270): merged into the line's entry, with a waiting correction dropped; a full mask
writes the line without a read. -/
def LineMem.combine (m : LineMem) (line max now addr code : Nat) (bytes : List (Nat × Byte)) (poison : Bool) :
    LineMem × LineEv :=
  let old := Tbl.get? m.wc line
  let w : WcEntry := old.getD ⟨[], false, now, addr, code⟩
  let w := { w with bytes := mergeBytes w.bytes bytes, poison := w.poison || poison }
  if 64 ≤ w.bytes.length then
    m.write line max (w.bytes.map (·.2)) w.poison
  else
    let m := { m with wc := Tbl.set m.wc line w, fixes := Tbl.erase m.fixes line }
    ({ m with wcHigh := Nat.max m.wcHigh m.wc.length }, LineEv.none)

/-- Every entry of the buffer finished (R271, R273). -/
def LineMem.finishAll (m : LineMem) (cr : Nat → Option Crypt) (max : Nat) : LineMem × LineEv :=
  (m.wc.map (·.1)).foldl (fun (acc : LineMem × LineEv) l =>
    let (m', e) := acc.1.finish (cr l) l max
    (m', acc.2.plus e)) (m, LineEv.none)

end Sys2Proof.Machine
end

