-- ==== Sys2Proof/Machine/Memory.lean ====
section
/-! DEFINITION. The device's memories as operations see them: the region table and where a device address lies (R14, R15,
R264 to R267, R278, R279), reads and writes through the stack and stash controllers and in the core stores, and poison
(R134, R261, R262). -/

namespace Sys2Proof.Machine

/-! The region table (R264). -/

def regBase (r : BitVec 256) : Nat := le r 0 6
def regKind (r : BitVec 256) : Nat := le r 6 1
def regStack (r : BitVec 256) : Nat := le r 7 1
def regSize (r : BitVec 256) : Nat := le r 8 8
def regLocal (r : BitVec 256) : Nat := le r 16 6
def regCode (r : BitVec 256) : Nat := le r 22 1

/-- First device address of the stash tier (R14). -/
def stashBase : Nat := 0x00A000000000

/-- Bytes of data of one stash device (R277). -/
def stashDeviceSize : Nat := 0xF0000000

/-- First device address of core store `c` (R14). -/
def storeBase (c : Nat) : Nat := 0x00F000000000 + c * 0x10000000

/-- Bytes of a core store (R14). -/
def storeSize : Nat := 0x6000000

/-- Bytes of usable data of one stack (R256). -/
def stackSize : Nat := 0xB40000000

/-- The region of the plan that holds a device address: HBM and stash accesses go through the region table (R15). -/
def State.region (s : State) (a : Nat) : Option (BitVec 256) :=
  s.plan.regions.find? (fun r => regBase r ≤ a && a < regBase r + regSize r)

/-- Unit and local address of offset `o` of an interleaved region over `d` units (R267, R279). -/
def interleave (d o base : Nat) : Nat × Nat :=
  let g := o / 2048
  let q := g / d
  let r := g % d
  let h := (q ^^^ (q / 32) ^^^ (q / 2048)) % d
  ((r + h) % d, base + q * 2048 + o % 2048)

/-- Where a device address lies. -/
inductive Place where
  | hbm (n : Fin 12) (loc code : Nat)
  | stash (n : Fin 8) (pos : Bool) (loc code : Nat)
  | store (c : Fin 4) (off : Nat)
  | control (off : Nat)
  | unmapped
deriving DecidableEq, Repr

/-- The half of a parameter region that an access reaches (R229): the committed one, or the working one for the unit. -/
def State.halfOf (s : State) (n : Fin 12) (work : Bool) : Nat := b2n ((s.fhn n).half != work)

/-- Where a device address lies (R14, R15, R266, R267, R278, R279). `work` selects the working half (R228). -/
def State.place (s : State) (a : Nat) (work : Bool := false) : Place :=
  if a < 0x008700000000 then
    match s.region a with
    | none => .unmapped
    | some r =>
      let o := a - regBase r
      match regKind r with
      | 0 => let (n, l) := interleave 12 o (regLocal r); .hbm (Fin.ofNat 12 n) l (regCode r)
      | 2 => let n := Fin.ofNat 12 (regStack r); .hbm n (regLocal r + s.halfOf n work * regSize r + o) (regCode r)
      | 1 | 3 => .hbm (Fin.ofNat 12 (regStack r)) (regLocal r + o) (regCode r)
      | _ => .unmapped
  else if stashBase ≤ a && a < stashBase + s.dev.stashDevices * stashDeviceSize then
    match s.region a with
    | none => .unmapped
    | some r =>
      if regKind r = 4 then
        let (d, l) := interleave s.dev.stashDevices (a - regBase r) (regLocal r)
        if s.dev.stashDevices = 16 then .stash (Fin.ofNat 8 (d / 2)) (d % 2 == 1) l (regCode r)
        else .stash (Fin.ofNat 8 d) false l (regCode r)
      else .unmapped
  else if 0x00F000000000 ≤ a && a < 0x00F040000000 then
    let o := a - 0x00F000000000
    if o % 0x10000000 < storeSize then .store (Fin.ofNat 4 (o / 0x10000000)) (o % 0x10000000) else .unmapped
  else if ctlBase ≤ a && a < ctlBase + 0x1000000 then .control (a - ctlBase)
  else .unmapped

/-- A byte of memory that operations and ports may reach: not control space, not unmapped. -/
def Place.isMemory : Place → Bool
  | .hbm .. | .stash .. | .store .. => true
  | _ => false

/-- A device address in a parameter region (R229). (DESIGN CHOICE, log entry 92) -/
def State.inParameter (s : State) (a : Nat) : Bool :=
  decide (a < 0x008700000000) && match s.region a with | some r => regKind r == 2 | none => false

/-- A byte that a requester other than a Foehn unit may write (R229). -/
def State.writable (s : State) (a : Nat) : Bool := (s.place a).isMemory && !s.inParameter a

/-! Controllers. -/

/-- Check lines a stack controller's cache holds (R269). -/
def stackCache : Nat := 131072
/-- Check lines a stash controller's 1 MiB cache holds (R283). -/
def stashCache : Nat := 16384
/-- Entries of a stack controller's write-combining buffer (R270). -/
def stackWc : Nat := 32768
/-- Entries of a stash controller's write-combining buffer (R271). -/
def stashWc : Nat := 4096

/-- The encryption of a stash line: the tweak is its stash device address divided by 64 (R280), read as the local address within
its device. (DEDUCED, log entry 93; DESIGN CHOICE, log entry 153) -/
def Stash.crypt (c : Stash) (line : Nat) : Option Crypt := some ⟨c.key.getD 0, line % 2 ^ 32⟩

/-- The counters of a stack after an access (R282). -/
def Bank.stackEv (b : Bank 9) (e : LineEv) : Bank 9 :=
  ((((((((b.add 0 e.reads).add 1 e.writes).add 2 e.misses).add 3 e.corrected).add 4 e.uncorr).add 5 e.mismatch).add 6
    e.rmw).add 7 e.switches)

/-- The counters of a stash controller after an access (R283). -/
def Bank.stashEv (b : Bank 8) (e : LineEv) : Bank 8 :=
  (((((((b.add 0 e.reads).add 1 e.writes).add 2 e.misses).add 3 e.corrected).add 4 e.uncorr).add 5 e.rmw).add 7
    e.switches)

/-- A stack after an access to the line of device address `addr` at `line` (R260 to R262). -/
def Stack.took (st : Stack) (m : LineMem) (e : LineEv) (addr line : Nat) : Stack :=
  let hold := e.uncorr != 0 && !st.errValid
  { st with
    arr := m
    bank := st.bank.stackEv e
    correctedSeen := st.correctedSeen || e.corrected != 0
    uncorrSeen := st.uncorrSeen || e.uncorr != 0
    poisonWordSeen := st.poisonWordSeen || e.mismatch != 0
    errAddr := if hold then addr else st.errAddr
    errChannel := if hold then channelOf (groupOf line) else st.errChannel
    errValid := st.errValid || e.uncorr != 0 }

/-- A stash controller after an access (R260, R261); it writes a correction back in the same handshake.
(DESIGN CHOICE, log entry 91) -/
def Stash.took (c : Stash) (m : LineMem) (e : LineEv) (addr line : Nat) : Stash :=
  let hold := e.uncorr != 0 && !c.errValid
  let (m, f) := m.fixAll stashCache
  { c with
    arr := m
    bank := c.bank.stashEv (e.plus f)
    correctedSeen := c.correctedSeen || e.corrected != 0
    uncorrSeen := c.uncorrSeen || e.uncorr != 0
    errAddr := if hold then addr else c.errAddr
    errPos := if hold then decide (2 ^ 32 ≤ line) else c.errPos
    errValid := c.errValid || e.uncorr != 0 }

/-- The MEMORY record of an uncorrectable line (R261). -/
def State.memoryRecord (s : State) (kind unit addr place code : Nat) : State :=
  s.ask 0x30 (s.unit kind unit 0) (leBytes 6 addr ++ leBytes 1 place ++ leBytes 1 code)

/-- A stack takes the outcome of one controller access, with its record (R261). -/
def State.stackTook (s : State) (n : Fin 12) (m : LineMem) (e : LineEv) (addr line code : Nat) : State :=
  let s := s.modStack n (fun st => st.took m e addr line)
  if e.uncorr = 0 then s else s.memoryRecord 0xA n addr (channelOf (groupOf line)) code

/-- A stash controller takes the outcome of one access, with its record (R261). -/
def State.stashTook (s : State) (n : Fin 8) (m : LineMem) (e : LineEv) (addr line code : Nat) : State :=
  let s := s.modStc n (fun c => c.took m e addr line)
  if e.uncorr = 0 then s else s.memoryRecord 0xB n addr (line / 2 ^ 32) code

/-- The line number of a stash address at a position. -/
def stashLine (pos : Bool) (loc : Nat) : Nat := b2n pos * 2 ^ 32 + loc / 64

/-- What a read of the 64-byte line at device address `a` returns, and its poison (R134, R262, R268). -/
def State.peekLine (s : State) (a : Nat) (work : Bool := false) : List Byte × Bool :=
  match s.place a work with
  | .hbm n loc code => (s.stack n).arr.peek none code (loc / 64)
  | .stash n pos loc code => (s.stc n).arr.peek ((s.stc n).crypt (stashLine pos loc)) code (stashLine pos loc)
  | .store c off => (memRead (s.core c).store (off / 64 * 64) 64, decide (off / 64 ∈ (s.core c).poison))
  | _ => (zeros 64, false)

/-- What the read of a line does at its controller (R260 to R262, R269). -/
def State.touchLine (s : State) (a : Nat) (work : Bool := false) : State :=
  match s.place a work with
  | .hbm n loc code =>
    let (m, _, e) := (s.stack n).arr.read none code (loc / 64) stackCache
    s.stackTook n m e (a / 64 * 64) (loc / 64) code
  | .stash n pos loc code =>
    let l := stashLine pos loc
    let (m, _, e) := (s.stc n).arr.read ((s.stc n).crypt l) code l stashCache
    s.stashTook n m e (a / 64 * 64) l code
  | _ => s

/-- The distinct lines that byte ranges (address, length) touch, in rising order. -/
def linesOf (ranges : List (Nat × Nat)) : List Nat :=
  ranges.foldl (fun acc r =>
    if r.2 = 0 then acc
    else (List.range ((r.1 + r.2 - 1) / 64 - r.1 / 64 + 1)).foldl (fun a i => insSorted a (r.1 / 64 + i)) acc) []

/-- Every line of some byte ranges read at its controller. -/
def State.touch (s : State) (ranges : List (Nat × Nat)) (work : Bool := false) : State :=
  (linesOf ranges).foldl (fun s l => s.touchLine (64 * l) work) s

/-- `n` bytes from device address `a`, as a read returns them. -/
def State.peek (s : State) (a n : Nat) (work : Bool := false) : List Byte :=
  if n = 0 then []
  else
    let first := a / 64
    let ls := (List.range ((a + n - 1) / 64 - first + 1)).flatMap (fun i => (s.peekLine (64 * (first + i)) work).1)
    slice ls (a % 64) n

/-- Some line of a range is poisoned. -/
def State.peekPoison (s : State) (a n : Nat) (work : Bool := false) : Bool :=
  (linesOf [(a, n)]).any (fun l => (s.peekLine (64 * l) work).2)

/-- Some line of some ranges is poisoned. -/
def State.anyPoison (s : State) (ranges : List (Nat × Nat)) : Bool :=
  (linesOf ranges).any (fun l => (s.peekLine (64 * l)).2)

/-- A write-combining entry of a stack finished (R271). -/
def State.finishStack (s : State) (n : Fin 12) (line : Nat) : State :=
  match Tbl.get? (s.stack n).arr.wc line with
  | none => s
  | some w =>
    let (m, e) := (s.stack n).arr.finish none line stackCache
    s.stackTook n m e w.addr line w.code

/-- A write-combining entry of a stash controller finished (R271, R284). -/
def State.finishStash (s : State) (n : Fin 8) (line : Nat) : State :=
  match Tbl.get? (s.stc n).arr.wc line with
  | none => s
  | some w =>
    let (m, e) := (s.stc n).arr.finish ((s.stc n).crypt line) line stashCache
    s.stashTook n m e w.addr line w.code

/-- Room in a stack's write-combining buffer for an entry of a line (R270, R271). -/
def State.roomStack (s : State) (n : Fin 12) (line : Nat) : State :=
  match (s.stack n).arr.displaced line stackWc with
  | some l => s.finishStack n l
  | none => s

/-- Room in a stash controller's write-combining buffer for an entry of a line (R270, R271). -/
def State.roomStash (s : State) (n : Fin 8) (line : Nat) : State :=
  match (s.stc n).arr.displaced line stashWc with
  | some l => s.finishStash n l
  | none => s

/-- Bytes of one line written (R134, R262, R270, R284): `bytes` at offsets of the line of `a`, or all 64 of it. -/
def State.writeLine (s : State) (a : Nat) (off : Nat) (bytes : List Byte) (poison : Bool) (work : Bool := false) :
    State :=
  let parts := (List.range bytes.length).map (fun i => (off + i, bytes.getD i 0))
  match s.place a work with
  | .hbm n loc code =>
    let l := loc / 64
    let s := if bytes.length = 64 then s else s.roomStack n l
    let (m, e) :=
      if bytes.length = 64 then (s.stack n).arr.write l stackCache bytes poison
      else (s.stack n).arr.combine l stackCache s.now (a / 64 * 64) code parts poison
    s.stackTook n m e (a / 64 * 64) l code
  | .stash n pos loc code =>
    let l := stashLine pos loc
    let s := if bytes.length = 64 then s else s.roomStash n l
    let (m, e) :=
      if bytes.length = 64 then (s.stc n).arr.write l stashCache bytes poison
      else (s.stc n).arr.combine l stashCache s.now (a / 64 * 64) code parts poison
    s.stashTook n m e (a / 64 * 64) l code
  | .store c o =>
    let u := o / 64
    s.modCore c (fun x =>
      { x with
        store := memWrite x.store (u * 64 + off) bytes
        poison := if poison then insSorted x.poison u else x.poison.filter (· != u) })
  | _ => s

/-- A line poisoned without any byte of it written (R27); a parameter region takes no such write (R229). -/
def State.poisonLine (s : State) (a : Nat) : State :=
  if s.inParameter a then s
  else match s.place a with
  | .hbm n loc _ => s.modStack n (fun st =>
      let (m, e) := st.arr.poisonOnly (loc / 64) stackCache
      { st with arr := m, bank := st.bank.stackEv e })
  | .stash n pos loc _ => s.modStc n (fun c =>
      let (m, e) := c.arr.poisonOnly (stashLine pos loc) stashCache
      { c with arr := m, bank := c.bank.stashEv e })
  | .store c o => s.modCore c (fun x => { x with poison := insSorted x.poison (o / 64) })
  | _ => s

/-- Bytes written from device address `a`, line by line. `fuel` bounds the lines. -/
def State.writeBytesN (s : State) (poison work : Bool) : Nat → Nat → List Byte → State
  | 0, _, _ => s
  | fuel + 1, a, bs =>
    if bs.isEmpty then s
    else
      let n := min (64 - a % 64) bs.length
      (s.writeLine (a / 64 * 64) (a % 64) (bs.take n) poison work).writeBytesN poison work fuel (a + n) (bs.drop n)

/-- Bytes written from device address `a` with the poison of the write. -/
def State.writeBytes (s : State) (a : Nat) (bs : List Byte) (poison : Bool) (work : Bool := false) : State :=
  s.writeBytesN poison work (bs.length + 1) a bs

/-- Every unit or line of some ranges poisoned, no byte written (R27, R134). -/
def State.poisonRanges (s : State) (ranges : List (Nat × Nat)) : State :=
  (linesOf ranges).foldl (fun s l => s.poisonLine (64 * l)) s

/-- What an operation writes when it completes: data with its poison, or poison alone. -/
def State.land (s : State) (b : WBlk) : State :=
  if b.data.isEmpty then (if b.poison then s.poisonRanges [(b.addr, b.len)] else s)
  else s.writeBytes b.addr b.data b.poison

/-- The parts of a write that fall into single units of 64 bytes. -/
def WBlk.split (b : WBlk) : List WBlk :=
  if b.len = 0 then []
  else (List.range ((b.addr + b.len - 1) / 64 - b.addr / 64 + 1)).map (fun i =>
    let lo := max b.addr (64 * (b.addr / 64 + i))
    let hi := min (b.addr + b.len) (64 * (b.addr / 64 + i + 1))
    ⟨lo, hi - lo, slice b.data (lo - b.addr) (hi - lo), b.poison⟩)

/-- The writes of one operation with the poison of each unit settled: a unit that any of them poisons is poisoned by all
(R134). -/
def spread (bs : List WBlk) : List WBlk :=
  if bs.all (·.poison) || !bs.any (·.poison) then bs
  else
    let parts := bs.flatMap WBlk.split
    let bad := (parts.filter (·.poison)).map (fun b => b.addr / 64)
    parts.map (fun b => { b with poison := bad.contains (b.addr / 64) })

/-- All that an operation writes, in order. -/
def State.landAll (s : State) (bs : List WBlk) : State := bs.foldl State.land s

/-- Every write-combining entry of the device finished (R271). -/
def State.finishEntries (s : State) : State :=
  let s := (allFin 12).foldl (fun s n => ((s.stack n).arr.wc.map (·.1)).foldl (fun s l => s.finishStack n l) s) s
  (allFin 8).foldl (fun s n => ((s.stc n).arr.wc.map (·.1)).foldl (fun s l => s.finishStash n l) s) s

/-! Footprints (R137). -/

/-- A range of bytes lies wholly within one core store. -/
def inStore (a n : Nat) : Bool :=
  decide (0x00F000000000 ≤ a ∧ a + n ≤ 0x00F040000000 ∧ (a - 0x00F000000000) % 0x10000000 + n ≤ storeSize)

/-- The extent of the range that must hold a footprint starting at `a` (R137): a core store, one HBM region, the fitted
stash range. Answers its first and last address plus one. -/
def State.rangeOf (s : State) (a : Nat) : Option (Nat × Nat) :=
  match s.place a with
  | .store c _ => some (storeBase c, storeBase c + storeSize)
  | .hbm .. => (s.region a).map (fun r => (regBase r, regBase r + regSize r))
  | .stash .. => some (stashBase, stashBase + s.dev.stashDevices * stashDeviceSize)
  | _ => none

/-- A footprint of byte ranges lies wholly within one range of R137, and each byte of it is reached by a region (R15). -/
def State.within (s : State) (ranges : List (Nat × Nat)) : Bool :=
  match ranges.find? (fun r => r.2 != 0) with
  | none => true
  | some r0 =>
    match s.rangeOf r0.1 with
    | none => false
    | some (lo, hi) =>
      ranges.all (fun r => r.2 == 0 || (decide (lo ≤ r.1) && decide (r.1 + r.2 ≤ hi))) &&
        (linesOf ranges).all (fun l => (s.place (64 * l)).isMemory)

/-- No byte of a footprint lies in a parameter region (R229). -/
def State.outsideParameters (s : State) (ranges : List (Nat × Nat)) : Bool :=
  ranges.all (fun r => r.2 == 0 || !s.inParameter r.1)

/-- Two lists of byte ranges share a byte. -/
def overlap (xs ys : List (Nat × Nat)) : Bool :=
  xs.any (fun x => ys.any (fun y => x.2 != 0 && y.2 != 0 && decide (x.1 < y.1 + y.2) && decide (y.1 < x.1 + x.2)))

end Sys2Proof.Machine
end

