-- ==== Sys2Proof/Machine/Sha.lean ====
section
/-! DEFINITION. SHA-384 as FIPS 180-4 defines it, HMAC and HKDF over it: the digest of plans, chunks, roots and tokens
(R245, R248, R359, R370, R372). -/

namespace Sys2Proof.Machine

/-- The k-th root of n, rounded down, with the bits below bit `i` still to be found and those above it in `r`. -/
def rootFloor (k n : Nat) : Nat → Nat → Nat
  | 0, r => r
  | i + 1, r => rootFloor k n i (if (r + 2 ^ i) ^ k ≤ n then r + 2 ^ i else r)

/-- The first 64 bits of the fractional part of the k-th root of p, which lies below 8. -/
def rootFraction (k p : Nat) : BitVec 64 := BitVec.ofNat 64 (rootFloor k (p * 2 ^ (64 * k)) 67 0)

/-- The primes up to 409: the first eighty. -/
def shaPrimes : List Nat :=
  (List.range 410).filter (fun p => 2 ≤ p && (List.range 20).all (fun d => d < 2 || p ≤ d || p % d != 0))

/-- The round constants: from the cube roots of the first eighty primes. -/
def shaK : List (BitVec 64) := shaPrimes.map (rootFraction 3)

/-- The initial hash value of SHA-384: from the square roots of the ninth to the sixteenth prime. -/
def shaInit : List (BitVec 64) := ((shaPrimes.drop 8).take 8).map (rootFraction 2)

/-- A word rotated by three amounts, combined. -/
def shaTurn (a b c : Nat) (x : BitVec 64) : BitVec 64 := x.rotateRight a ^^^ x.rotateRight b ^^^ x.rotateRight c

/-- A word rotated by two amounts and shifted by a third, combined. -/
def shaSpread (a b c : Nat) (x : BitVec 64) : BitVec 64 := x.rotateRight a ^^^ x.rotateRight b ^^^ (x >>> c)

/-- The message schedule: 16 words grown to 80, newest first. -/
def shaExpand : Nat → List (BitVec 64) → List (BitVec 64)
  | 0, w => w
  | n + 1, w =>
    let back (i : Nat) : BitVec 64 := w.getD i 0
    shaExpand n ((back 15 + back 6 + shaSpread 1 8 7 (back 14) + shaSpread 19 61 6 (back 1)) :: w)

/-- The eight working variables. -/
structure ShaVars where
  a : BitVec 64
  b : BitVec 64
  c : BitVec 64
  d : BitVec 64
  e : BitVec 64
  f : BitVec 64
  g : BitVec 64
  h : BitVec 64
deriving DecidableEq, Repr

/-- One round. -/
def shaRound (v : ShaVars) (kw : BitVec 64 × BitVec 64) : ShaVars :=
  let choice := v.g ^^^ (v.e &&& (v.f ^^^ v.g))
  let most := (v.a &&& v.b) ||| (v.c &&& (v.a ||| v.b))
  let low := v.h + shaTurn 14 18 41 v.e + choice + kw.1 + kw.2
  ⟨low + shaTurn 28 34 39 v.a + most, v.a, v.b, v.c, v.d + low, v.e, v.f, v.g⟩

/-- One block of 128 bytes. -/
def shaBlock (h : List (BitVec 64)) (block : List Byte) : List (BitVec 64) :=
  let w16 := (List.range 16).map (fun i => BitVec.ofNat 64 (ofBe (slice block (8 * i) 8)))
  let w := (shaExpand 64 w16.reverse).reverse
  let x (i : Nat) : BitVec 64 := h.getD i 0
  let v := (shaK.zip w).foldl shaRound ⟨x 0, x 1, x 2, x 3, x 4, x 5, x 6, x 7⟩
  [x 0 + v.a, x 1 + v.b, x 2 + v.c, x 3 + v.d, x 4 + v.e, x 5 + v.f, x 6 + v.g, x 7 + v.h]

/-- The blocks of a padded message. -/
def shaBlocks : Nat → List Byte → List (BitVec 64) → List (BitVec 64)
  | 0, _, h => h
  | n + 1, m, h => shaBlocks n (m.drop 128) (shaBlock h (m.take 128))

/-- SHA-384 of a message: 48 bytes. (DESIGN CHOICE, log entry 13) -/
def sha384 (m : List Byte) : List Byte :=
  let n := m.length
  let padded := m ++ [0x80] ++ zeros ((111 + 128 - n % 128) % 128) ++ beBytes 16 (8 * n)
  ((shaBlocks (padded.length / 128) padded shaInit).flatMap (fun w => beBytes 8 w.toNat)).take 48

/-- HMAC-SHA-384. -/
def hmac (key msg : List Byte) : List Byte :=
  let k := if 128 < key.length then sha384 key else key
  let k := k ++ zeros (128 - k.length)
  sha384 (k.map (· ^^^ 0x5c) ++ sha384 (k.map (· ^^^ 0x36) ++ msg))

/-- HKDF-Extract with SHA-384. -/
def hkdfExtract (salt ikm : List Byte) : List Byte := hmac salt ikm

/-- The blocks T(1), T(2), … of HKDF-Expand. -/
def hkdfBlocks (prk info : List Byte) : Nat → Nat → List Byte → List Byte
  | 0, _, _ => []
  | n + 1, i, prev =>
    let t := hmac prk (prev ++ info ++ [BitVec.ofNat 8 i])
    t ++ hkdfBlocks prk info n (i + 1) t

/-- HKDF-Expand with SHA-384: `len` bytes. (DESIGN CHOICE, log entry 13) -/
def hkdfExpand (prk info : List Byte) (len : Nat) : List Byte :=
  (hkdfBlocks prk info (ceilDiv len 48) 1 []).take len

end Sys2Proof.Machine
end

