-- ==== Sys2Proof/Machine/Packets.lean ====
section
/-! DEFINITION. Packets and the links they leave by (spec/12): the header (R313), routes (R317, R318), virtual lanes,
credits and the retry buffer (R307 to R312), and the packet sequence numbers of R315. -/

namespace Sys2Proof.Machine

/-- The header's 32 bytes (R313). -/
def packetHeader (p : Packet) : List Byte :=
  leBytes 1 p.type ++ leBytes 1 (p.vl % 8 + 8 * b2n p.poisoned) ++ leBytes 2 p.payload.length ++ leBytes 2 p.src ++
    leBytes 2 p.dst ++ leBytes 3 p.pseq ++ zeros 1 ++ leBytes 6 p.addr ++ leBytes 2 p.req ++ leBytes 4 p.aux ++
    leBytes 8 p.mask

/-- A packet read from its header and its plaintext payload (R313). -/
def packetOf (h payload : List Byte) : Packet :=
  let n (off k : Nat) : Nat := ofLe (slice h off k)
  { type := n 0 1, vl := n 1 1 % 8, poisoned := n 1 1 / 8 % 2 == 1, src := n 4 2, dst := n 6 2, pseq := n 8 3
    addr := n 12 6, req := n 18 2, aux := n 20 4, mask := n 24 8, payload := payload }

/-- The virtual lane of a packet type; none for a reserved type (R311, R313). VL7 also carries a WRITE (R319). -/
def typeLane (type : Nat) : Option Nat :=
  match type with
  | 0x01 => some 3
  | 0x02 | 0x04 | 0x06 | 0x09 => some 5
  | 0x03 => some 4
  | 0x05 | 0x20 | 0x21 | 0x22 | 0x23 | 0x24 | 0x25 => some 0
  | 0x07 | 0x08 => some 6
  | 0x10 => some 2
  | 0x30 | 0x31 | 0x32 => some 1
  | _ => none

/-- A packet's type is defined and its lane is the one of its type (R313). -/
def pktOk (p : Packet) : Bool := typeLane p.type == some p.vl || (p.type == 1 && p.vl == 7)

/-- A sequence number is after another: 24-bit windowed comparison (R308). -/
def seqAfter (a b : Nat) : Bool :=
  let d := (a + 2 ^ 24 - b % 2 ^ 24) % 2 ^ 24
  1 ≤ d && d < 2 ^ 23

/-! Routes (R317 to R319). -/

def routeFirst (r : BitVec 128) : Nat := le r 0 2
def routeLast (r : BitVec 128) : Nat := le r 2 2
def routeGroup (r : BitVec 128) : Nat := le r 4 5
def routeAlt (r : BitVec 128) : Nat := le r 9 1
def routeDateline (r : BitVec 128) : Bool := bitAt r 80

/-- The identifier that a packet for device `d` is addressed to: a lost device's survivor stands for it (R347). -/
def State.addressed (s : State) (d : Nat) : Nat :=
  match s.chain.moved.find? (fun p => p.1 == d) with
  | some p => p.2
  | none => d

/-- A device identifier is local: the device's own, or one that it has taken over (R16, R347). -/
def State.isLocal (s : State) (d : Nat) : Bool := s.addressed d == s.self

/-- The route table entry for a device (R317). -/
def State.routeOf (s : State) (d : Nat) : Option (BitVec 128) :=
  s.plan.routes.find? (fun r => routeFirst r ≤ d && d ≤ routeLast r)

/-- The links of an entry's group that are not FAILED, in rising order (R318). -/
def State.usable (s : State) (r : BitVec 128) : List (Fin 36) :=
  (allFin 36).filter (fun l => (routeGroup r).testBit l && (s.link l).st != .failed)

/-- The link by which a packet with a sequence number leaves for a device (R318): none when unrouted. -/
def State.linkFor (s : State) (d pseq : Nat) : Option (Fin 36 × Bool) :=
  match s.routeOf d with
  | none => none
  | some r =>
    match s.usable r with
    | [] =>
      if h : routeAlt r < 36 then
        if (s.link ⟨routeAlt r, h⟩).st != .failed then some (⟨routeAlt r, h⟩, routeDateline r) else none
      else none
    | l :: ls => some (((l :: ls)[pseq % (ls.length + 1)]?).getD l, routeDateline r)

/-- A device is reached by some route of the plan (R16, R317). -/
def State.reaches (s : State) (d : Nat) : Bool := s.isLocal d || (s.linkFor (s.addressed d) 0).isSome

/-! Flits. -/

/-- Payload bytes of a flit (R307). -/
def flitBytes : Nat := 240

/-- One byte of a CRC-64 with the ECMA-182 polynomial (R307), most significant bit first. (DESIGN CHOICE, log entry 98) -/
def crcByte (c : DWord) (b : Byte) : DWord :=
  (List.range 8).foldl (fun (c : DWord) _ => if c.msb then (c <<< 1) ^^^ 0x42F0E1EBA9EA3693#64 else c <<< 1)
    (c ^^^ BitVec.ofNat 64 (b.toNat * 2 ^ 56))

/-- The CRC-64 of some bytes, from 0 (R307). (DESIGN CHOICE, log entry 98) -/
def crc64 (bs : List Byte) : DWord := bs.foldl crcByte 0

/-- The 256 bytes of a flit (R307). (DESIGN CHOICE, log entry 98) -/
def flitImage (f : Flit) : List Byte :=
  let head := leBytes 8 (f.ftype % 16 + put 4 (f.vl % 8) + put 8 (f.seq % 2 ^ 24) + put 32 (f.ack % 2 ^ 24) +
    put 56 (f.creditVl % 8) + put 59 (f.creditCount % 32))
  let body := head ++ (f.payload ++ zeros flitBytes).take flitBytes
  body ++ leBytes 8 (crc64 body).toNat

/-- A flit read from its 256 bytes (R307). -/
def flitOf (bs : List Byte) : Flit :=
  let h := ofLe (bs.take 8)
  { ftype := h % 16, vl := h / 2 ^ 4 % 8, seq := h / 2 ^ 8 % 2 ^ 24, ack := h / 2 ^ 32 % 2 ^ 24
    creditVl := h / 2 ^ 56 % 8, creditCount := h / 2 ^ 59 % 32, payload := slice bs 8 flitBytes }

/-- Codeword j of a wire flit: the bytes b with b mod 4 = j, in order (R306). -/
def wireWord (wire : List Byte) (j n : Nat) : List Byte := (List.range n).map (fun i => wire.getD (4 * i + j) 0)

/-- The 272 bytes of a wire flit: the flit's, then the check bytes of its four interleaved codewords (R306).
(DESIGN CHOICE, log entry 98) -/
def wireOf (flit : List Byte) : List Byte :=
  let checks := (List.range 4).map (fun j => rsCheck (wireWord flit j 64))
  flit ++ (List.range 4).flatMap (fun t => (List.range 4).map (fun j => (checks.getD j []).getD t 0))

/-- The lane that carries symbol i of every codeword: wire bytes travel in groups of four, group k on lane k mod 8 (R306). -/
def symbolLane (i : Nat) : Nat := i % 8

/-- What the forward error correction makes of a wire flit (R306, R307): the flit, the lane of each corrected symbol, and
whether the flit is bad. -/
structure WireIn where
  flit : Flit
  hits : List Nat
  bad : Bool
deriving DecidableEq, Repr

/-- The four codewords of a wire flit, as they came and as CORRECT2 mode decodes them (R306). -/
def wireWords (wire : List Byte) : List (List Byte × Decoded) :=
  (List.range 4).map (fun j => (wireWord wire j 68, rsDecode 0 (wireWord wire j 68)))

/-- A codeword could not be corrected. -/
def Decoded.lost : Decoded → Bool
  | .uncorrectable _ => true
  | .clean _ | .corrected _ => false

/-- The 256 bytes of the flit that decoded codewords carry (R306). -/
def wireBytes (words : List (List Byte × Decoded)) : List Byte :=
  (List.range 256).map (fun d => ((words.getD (d % 4) ([], .clean [])).2.word).getD (d / 4) 0)

/-- The lane of each corrected symbol (R306). -/
def wireHits (words : List (List Byte × Decoded)) : List Nat :=
  words.flatMap (fun w => ((List.range 68).filter (fun i => w.1.getD i 0 != w.2.word.getD i 0)).map symbolLane)

/-- A wire flit decoded, with its CRC checked after correction (R306, R307). (DESIGN CHOICE, log entry 98) -/
def decodeWire (wire : List Byte) : WireIn :=
  let words := wireWords wire
  let lost := words.any (·.2.lost)
  let bs := wireBytes words
  ⟨flitOf bs, wireHits words, lost || ofLe (bs.drop 248) != (crc64 (bs.take 248)).toNat⟩

/-- The flits that carry a packet's bytes; the last one is filled with zeros and carries the packet.
(DESIGN CHOICE, log entry 99) -/
def flitsOf (p : Packet) (bs : List Byte) : List (List Byte × Option Packet) :=
  let n := ceilDiv bs.length flitBytes
  (List.range n).map (fun i =>
    (((bs.drop (i * flitBytes)).take flitBytes ++ zeros flitBytes).take flitBytes,
      if i + 1 = n then some p else none))

/-- The characters of an ASCII label. -/
def ascii (t : String) : List Byte := t.toList.map (fun c => BitVec.ofNat 8 c.toNat)

/-- Key and IV of a direction (R373): initiator to responder, or back. -/
def dirKey (okm : List Byte) (fromInitiator : Bool) : List Byte × List Byte :=
  if fromInitiator then (slice okm 0 32, slice okm 64 4) else (slice okm 32 32, slice okm 68 4)

/-- The keys of a direction after one more packet under them (R373): PRK, OKM, the count, and whether they changed. -/
def rekey (prk okm : List Byte) (n : Nat) : List Byte × List Byte × Nat × Bool :=
  if n + 1 < 2 ^ 32 then (prk, okm, n + 1, false)
  else
    let p := hkdfExpand prk (ascii "tvx link next") 48
    (p, (hkdfExpand p (ascii "tvx link v1") 120).take 72, 0, true)

/-- A PAIR packet: it carries a zero tag and is not protected (spec/14, link sessions). (DEDUCED, log entry 116) -/
def isPair (type : Nat) : Bool := type == 0x31

/-- A packet's bytes on a link: protected under the link's session once it is keyed (R313, R373). -/
def Link.wire (l : Link) (p : Packet) : List Byte :=
  let h := packetHeader p
  if l.session && !isPair p.type then
    let (key, iv) := dirKey l.okm l.initiator
    let (ct, tag) := Config.gcmSeal key (iv ++ leBytes 8 l.txCount) h p.payload
    h ++ ct ++ tag
  else h ++ p.payload ++ zeros 16

/-- A flit put on the wire (R307): it carries ACK, and returns credits of the lowest lane that has some to return (R312).
The newest 1,024 are kept. (DESIGN CHOICE, log entries 98, 100) -/
def Link.emit (l : Link) (ftype vl seq : Nat) (payload : List Byte) : Link :=
  let v := ((allFin 8).find? (fun v => l.owed.get v != 0)).getD 0
  let n := min 31 (l.owed.get v)
  let out := l.out ++ [⟨ftype, vl, seq, l.rxNext, v, n, payload⟩]
  { l with owed := upd l.owed v (· - n), out := out.drop (out.length - 1024) }

/-- A flit without data: IDLE (0) or NAK (2), with the number of the next DATA flit (R307, R309). -/
def Link.emitBare (l : Link) (ftype : Nat) : Link := l.emit ftype 0 l.txNext (zeros flitBytes)

/-- A DATA flit can leave on a lane: the link is UP, the lane has a credit, and the retry buffer has room (R310, R312). -/
def Link.canSend (l : Link) (vl : Fin 8) : Bool := l.st = .up && 0 < l.credits.get vl && l.retry.length < 1024

/-- One DATA flit of a lane's present packet sent: it spends a credit, takes a number and enters the retry buffer (R307,
R310, R312). -/
def Link.sendCut (l : Link) (vl : Fin 8) : Link :=
  match l.cut.get vl with
  | [] => l
  | (bs, p) :: rest =>
    let retry := l.retry ++ [⟨l.txNext, vl, bs, 1, p⟩]
    let y : Link := { l with
      cut := upd l.cut vl (fun _ => rest)
      credits := upd l.credits vl (· - 1)
      retry := retry
      retryHigh := max l.retryHigh retry.length
      bank := l.bank.add 0 1 }
    { y.emit 1 vl l.txNext bs with txNext := (l.txNext + 1) % 2 ^ 24 }

/-- A packet begins to leave on its lane: it is protected, and counted, in the order in which packets begin (R313, R373).
(DEDUCED, log entry 116) -/
def Link.beginPacket (l : Link) (vl : Fin 8) (p : Packet) (rest : List Packet) : Link :=
  let y : Link := { l with waiting := upd l.waiting vl (fun _ => rest), cut := upd l.cut vl (fun _ => flitsOf p (l.wire p)) }
  if l.session && !isPair p.type then
    let (prk, okm, n, _) := rekey l.prk l.okm l.txCount
    { y with prk := prk, okm := okm, txCount := n }
  else y

/-- One flit of a lane leaves where it can: of the packet that is leaving, or of the next one. -/
def Link.sendOne (l : Link) (vl : Fin 8) : Link :=
  if !l.canSend vl then l
  else
    match l.cut.get vl, l.waiting.get vl with
    | [], p :: rest => (l.beginPacket vl p rest).sendCut vl
    | _, _ => l.sendCut vl

/-- Something waits to leave on a lane. -/
def Link.waits (l : Link) (vl : Fin 8) : Bool := !(l.waiting.get vl).isEmpty || !(l.cut.get vl).isEmpty

/-- A lane has data and no credit (R334). -/
def Link.stalled (l : Link) : Bool := l.st = .up && (allFin 8).any (fun vl => l.waits vl && l.credits.get vl == 0)

/-- A link without a session (R373). -/
def Link.unkeyed (l : Link) : Link :=
  { l with
    session := false, okm := [], prk := [], okmRx := [], prkRx := [], txCount := 0, rxCount := 0, hs := Handshake.none
    ends := false, rxUnder := Vector.replicate 8 none }

/-- Every flit of every lane that can leave, leaves; a session that was to end with the last packet ends.
(DESIGN CHOICE, log entry 100) -/
def Link.pump (l : Link) : Link :=
  let y := (allFin 8).foldl (fun l vl =>
    (List.range ((l.cut.get vl).length + 18 * (l.waiting.get vl).length)).foldl (fun l _ => l.sendOne vl) l) l
  if y.ends && !(allFin 8).any y.waits then y.unkeyed else y

/-- What can leave on a link leaves; a change of session keys is counted (R373, R388). -/
def State.pumpOn (s : State) (l : Fin 36) : State :=
  let x := s.link l
  let y := x.pump
  let s := s.modLink l (fun _ => y)
  if y.session && y.prk != x.prk then s.modSec (fun z => { z with bank := z.bank.add 6 1 }) else s

/-- A packet handed to a link: it waits on its lane. -/
def Link.enqueue (l : Link) (p : Packet) : Link := { l with waiting := upd l.waiting (Fin.ofNat 8 p.vl) (· ++ [p]) }

/-- A packet handed to a link of the device. A link that is FAILED or DOWN keeps it waiting. -/
def State.pushOn (s : State) (l : Fin 36) (p : Packet) : State := (s.modLink l (·.enqueue p)).pumpOn l

/-- The next PSEQ towards a device on a lane (R315). (DESIGN CHOICE, log entry 101) -/
def State.nextPseq (s : State) (d vl : Nat) : Nat :=
  match s.chain.txSeq.find? (fun e => e.1 == (d, vl)) with
  | some e => e.2
  | none => 0

/-- A PSEQ taken. -/
def State.tookPseq (s : State) (d vl : Nat) : State :=
  s.modChain (fun c =>
    { c with txSeq := ((d, vl), (s.nextPseq d vl + 1) % 2 ^ 24) :: c.txSeq.filter (fun e => e.1 != (d, vl)) })

/-- Packets of a pair of devices are numbered from 0 again: the peer's plan starts anew (R315).
(DEDUCED, log entry 116) -/
def State.freshOrder (s : State) (d : Nat) : State :=
  s.modChain (fun c =>
    { c with
      txSeq := c.txSeq.filter (fun e => e.1.1 != d), rxSeq := c.rxSeq.filter (fun e => e.1.1 != d)
      heldPkts := c.heldPkts.filter (fun h => h.pkt.src != d) })

/-- The link by which a packet for the device at a link's far end leaves: that link, and where it is FAILED one of the route's
(R318, R335). -/
def State.hop (s : State) (l : Fin 36) (d pseq : Nat) : Fin 36 :=
  if (s.link l).st = .failed then ((s.linkFor d pseq).map (·.1)).getD l else l

/-- A packet sent on one link, hop by hop, to the device at its far end (R324, R326, R335). -/
def State.sendOn (s : State) (l : Fin 36) (p : Packet) : State :=
  let d := (s.link l).peerDev
  let p := { p with src := s.self, dst := d, pseq := s.nextPseq d p.vl }
  (s.tookPseq d p.vl).pushOn (s.hop l d p.pseq) p

/-- A packet sent to a device by its route; none where no route of the plan reaches it (R16, R317). -/
def State.send? (s : State) (p : Packet) : Option State :=
  let d := s.addressed p.dst
  let q := s.nextPseq d p.vl
  match s.linkFor d q with
  | none => none
  | some (l, _) => some ((s.tookPseq d p.vl).pushOn l { p with src := s.self, dst := d, pseq := q })

/-- A packet sent to a device by its route, dropped where there is none. -/
def State.send (s : State) (p : Packet) : State := (s.send? p).getD s

/-- A packet of a type with nothing in it but what is given. -/
def mkPkt (type dst addr aux : Nat) (payload : List Byte) : Packet :=
  { type := type, vl := (typeLane type).getD 0, poisoned := false, src := 0, dst := dst, pseq := 0, addr := addr
    req := 0, aux := aux, mask := 0, payload := payload }

/-- REQ of a packet from a unit of this device (R313). -/
def reqOf (kind unit ctx : Nat) : Nat := kind % 16 + 16 * (unit % 256) + 4096 * (ctx % 8)

/-- The step and epoch of a fence message in ADDR and AUX (R313): FENCE_REPORT, FENCE_CLOSE and STEP_ABANDON. -/
def State.fencePacket (s : State) (type : Nat) (payload : List Byte) : Packet :=
  mkPkt type 0 (s.step / 2 ^ 32 % 2 ^ 16 + 2 ^ 16 * (s.chain.epoch % 2 ^ 32)) (s.step % 2 ^ 32) payload

/-- The step that a fence message carries. -/
def pktStep (p : Packet) : Nat := p.aux % 2 ^ 32 + 2 ^ 32 * (p.addr % 2 ^ 16)

/-- The epoch bits that a fence message carries. -/
def pktEpoch (p : Packet) : Nat := p.addr / 2 ^ 16 % 2 ^ 32

end Sys2Proof.Machine
end

