-- ==== Sys2Proof/Machine/Stream.lean ====
section
/-! DEFINITION. Contexts and their queues (spec/04): the operation at a context's head, retirement (R111), operations in
flight and hazards (R103), and the vanes that contexts and Foehn units wait on (spec/11). -/

namespace Sys2Proof.Machine

/-! Operations. -/

/-- OPCODE of a stream operation (R105). -/
def opcode (op : BitVec 128) : Nat := field op 0 8

/-- AHEAD of a stream operation (R105). -/
def opAhead (op : BitVec 128) : Bool := bitAt op 8

/-- PRED of a stream operation (R105). -/
def opPred (op : BitVec 128) : Bool := bitAt op 9

/-- Fetch-side operations: FILL_ROW, FILL_COL and DRAUGHT (R106). -/
def fetchSide (code : Nat) : Bool := code == 0x14 || code == 0x15 || code == 0x70

/-- An operation of a core's program store (R97). -/
def State.opAt (s : State) (c : Fin 4) (idx : Nat) : Option (BitVec 128) := Tbl.get? (s.prog c).ops idx

/-- The queue entry at a context's execute head (R111). -/
def Ctx.headEntry (x : Ctx) : Option QEntry := x.queue.head?

/-- The operation at a context's execute head. -/
def State.headOp (s : State) (c : Fin 4) (k : Fin 8) : Option (BitVec 128) :=
  match (s.ctx c k).headEntry with
  | some e => s.opAt c e.idx
  | none => none

/-- The serial number of the operation at the head. -/
def State.headSerial (s : State) (c : Fin 4) (k : Fin 8) : Nat := (((s.ctx c k).headEntry).map (·.serial)).getD 0

/-- The device runs its plan. -/
def State.running (s : State) : Bool := s.dev.st = .run || s.dev.st = .takeover

/-- The head operation retires: its entry is freed and the execute position moves on (R111). -/
def Ctx.retire (x : Ctx) (next : Nat) : Ctx :=
  { x with queue := x.queue.tail, execPos := next, bank := x.bank.add 0 1 }

/-- Performed fetch-side operations at the head retire (R111). -/
def Ctx.settleN : Nat → Ctx → Ctx
  | 0, x => x
  | n + 1, x =>
    match x.headEntry with
    | some e => if e.performed then Ctx.settleN n (x.retire (e.idx + 1)) else x
    | none => x

/-- Performed fetch-side operations at the head retire (R111). (DESIGN CHOICE, log entry 47) -/
def Ctx.settle (x : Ctx) : Ctx := x.settleN x.queue.length

/-- The head operation issues and retires; the execute position moves to `next` (R111). -/
def State.retireTo (s : State) (c : Fin 4) (k : Fin 8) (next : Nat) : State :=
  s.modCtx c k (fun x => (x.retire next).settle)

/-- The head operation issues and retires, in program order. -/
def State.retire (s : State) (c : Fin 4) (k : Fin 8) : State := s.retireTo c k ((s.ctx c k).execPos + 1)

/-! Operations in flight (R103). -/

/-- An operation has begun and not completed. -/
def State.fly (s : State) (c : Fin 4) (f : Flight) : State := s.modCore c (fun x => { x with flights := x.flights ++ [f] })

/-- An operation has completed its reads and writes. -/
def State.landed (s : State) (c : Fin 4) (k : Fin 8) (serial : Nat) : State :=
  s.modCore c (fun x => { x with flights := x.flights.filter (fun f => !(f.ctx == k && f.serial == serial)) })

/-- Every operation of a context before a serial number has completed (R110, R291). -/
def State.clearBefore (s : State) (c : Fin 4) (k : Fin 8) (serial : Nat) : Bool :=
  (s.core c).flights.all (fun f => !(f.ctx == k && f.serial < serial))

/-- An operation is held while an earlier one of its context has not completed the accesses it overlaps (R103). -/
def State.hazard (s : State) (c : Fin 4) (k : Fin 8) (serial : Nat) (reads dsts : List (Nat × Nat)) : Bool :=
  (s.core c).flights.any (fun f => f.ctx == k && f.serial < serial &&
    (overlap reads f.dsts || overlap dsts f.dsts || overlap dsts f.reads))

/-! Vanes (spec/11). -/

/-- A vane of the device. -/
def State.vane (s : State) : VaneId → Vane
  | .core c k => (s.core c).vanes.get k
  | .chain k => s.chainVanes.get k

/-- A vane changed. -/
def State.modVane (s : State) (v : VaneId) (f : Vane → Vane) : State :=
  match v with
  | .core c k => s.modCore c (fun x => { x with vanes := upd x.vanes k f })
  | .chain k => { s with chainVanes := upd s.chainVanes k f }

/-- Control-space address of a vane's register (R445). -/
def vaneAddr : VaneId → Nat
  | .core c k => ctlBase + 0x100000 + c * 0x10000 + 0x2400 + 4 * k
  | .chain k => ctlBase + 0x102500 + 4 * k

/-- A core vane counter (R302). -/
def State.countVane (s : State) (c : Fin 4) (i : Nat) : State :=
  s.modCore c (fun x => { x with vaneBank := x.vaneBank.add i 1 })

/-- A device-wide chain vane counter (R302): 0 CHAIN_SIGNALS_RECEIVED, 1 CHAIN_DISCARDED, 2 CHAIN_OVERFLOWS. -/
def State.countChain (s : State) (i : Nat) : State := { s with chainBank := s.chainBank.add i 1 }

/-- A signal at its turn on a vane (R285, R286, R300, R302). `fromDev` is the sending device of a signal that came over a
link. Answers the state and the violation it raises, if any. -/
def State.applySignal (s : State) (v : VaneId) (n src : Nat) (fromDev : Bool) : State × Option Vio :=
  if s.frozen then
    match v with
    | .chain _ => ({ s with chainDiscardSeen := true }.countChain 1, none)
    | .core .. => (s, none)
  else
    let old := (s.vane v).count
    if 0xFFFF < old + n then
      let s := match v with
        | .core c _ => (s.modCore c (fun x => { x with vaneOverflowSeen := true })).countVane c 4
        | .chain _ => { s with chainOverflowSeen := true }.countChain 2
      (s, some ⟨0x04, src, vaneAddr v, s.self⟩)
    else
      let s := s.modVane v (fun x => { x with count := old + n })
      let s := match v with
        | .core c _ => let s := s.countVane c 0; if old = 0 then s else s.countVane c 1
        | .chain _ => if fromDev then s.countChain 0 else s
      (s, none)

/-! Completing a wait. -/

def recDesc (r : BitVec 128) : Nat := le r 0 2
def recCtx (r : BitVec 128) : Nat := le r 2 1
def recWait (r : BitVec 128) : Nat := le r 4 2
def recEntry (r : BitVec 128) : Nat := le r 6 2

/-- The pending recompute entry of a context that waits at an operation (R343). -/
def State.recompute (s : State) (c : Fin 4) (k : Fin 8) (idx : Nat) : Option (Nat × Nat) :=
  ((s.core c).pendingRec.filterMap (fun i =>
    match (s.prog c).recompute[i]? with
    | some r => if recCtx r = k && recWait r = idx then some (i, recEntry r) else none
    | none => none)).head?

/-- A recovery counter of a core that is not device-wide: STASH_RECOMPUTES (R350). -/
def State.countRecompute (s : State) (c : Fin 4) : State :=
  s.modCore c (fun x => let (n, w) := addWrap x.recomputes 1; { x with recomputes := n, recOvf := x.recOvf || w })

/-- A context diverted to a recompute program (R343): what was fetched behind the wait is freed, with the point, the descriptors
and the stand of a ROUTE among it, and both engines stand at the entry. -/
def Ctx.divert (x : Ctx) (entry : Nat) : Ctx :=
  let behind (n : Nat) : Bool := match x.headEntry with | some e => decide (e.serial < n) | none => false
  let dropPoint := match x.spec with | some p => behind p.serial | none => false
  { x.retire entry with
    queue := [], fetchPos := entry, execPos := entry, lcF := x.lcX, endFetched := false, branchOpen := false
    predF := x.predX.map (fun p => (p.1, p.2, x.predXSerial))
    spec := if dropPoint then none else x.spec
    routeTodo := if dropPoint then [] else x.routeTodo
    routeWait := match x.routeWait with | some n => if behind n then none else some n | none => none }

/-- A context's wait completes (R99, R224, R288, R343): the VANE_WAIT at its head retires, the loop counters are captured
at a step entry, and a pending recompute entry diverts the context. (DESIGN CHOICE, log entry 50) -/
def State.waitDone (s : State) (c : Fin 4) (k : Fin 8) : State :=
  let x := s.ctx c k
  let idx := x.execPos
  let s := s.modCtx c k (fun x =>
    let x := { x with st := .ready, wait := none }
    if x.stepEntry = some idx || (s.dev.st = .takeover && x.takeEntry = some idx) then
      { x with captured := x.lcX, entered := true }
    else x)
  match s.recompute c k idx with
  | none => s.retire c k
  | some (i, entry) =>
    let s := s.modCore c (fun y => { y with pendingRec := y.pendingRec.filter (· != i) })
    let s := s.modCtx c k (·.divert entry)
    (s.countRecompute c).ask 0x23 (s.unit 0 c k) []

/-- A waiter that has consumed its count becomes READY, or its Foehn group due (R236, R295). -/
def State.wake (s : State) : Waiter → State
  | .ctx c k => s.waitDone c k
  | .foehn n g => s.modFhn n (fun f => { f with due := f.due ++ [g] })

/-- One waiter at its turn (R288): it consumes when its count is reached, else it keeps its place. -/
def State.serveOne (v : VaneId) (s : State) (w : Waiter × Nat) : State :=
  if w.2 ≤ (s.vane v).count then
    let s := s.modVane v (fun x => { x with count := x.count - w.2, waiters := x.waiters.filter (· != w) })
    let s := match v with | .core c _ => s.countVane c 2 | .chain _ => s
    s.wake w.1
  else s

/-- A vane serves its waiters, in the order in which they began to wait (R288). -/
def State.serve (s : State) (v : VaneId) : State :=
  if s.frozen then s else (s.vane v).waiters.foldl (State.serveOne v) s

/-- A waiter joins a vane's line (R288). -/
def State.enlist (s : State) (v : VaneId) (w : Waiter) (n : Nat) : State :=
  if s.frozen then s else s.modVane v (fun x => { x with waiters := x.waiters ++ [(w, n)] })

/-- A signal put under way (R287, R291): it takes effect when the operations before it have completed. -/
def State.signalLater (s : State) (p : PSig) : State := { s with signals := s.signals ++ [p] }

/-- The local vane that a pending signal is for, when it is for this device. -/
def State.sigLocal (s : State) (p : PSig) : Bool :=
  match p.vane with
  | .core .. => true
  | .chain _ => s.isLocal p.target

/-- A pending signal may take effect: the operations it waits for have completed (R291). -/
def State.sigDue (s : State) (p : PSig) : Bool :=
  match p.after with
  | none => true
  | some (c, k, n) => s.clearBefore c k n

/-- The order of signals within a handshake (R287): local ones by signaller, those of other devices by device, and the
commit's last. (DEDUCED, log entry 95) -/
def PSig.key (p : PSig) : Nat :=
  if p.last then 2 ^ 40
  else match p.fromDev with
    | some d => 2 ^ 32 + d
    | none => p.ctx + 16 * p.unit + 4096 * p.kindSrc

/-- A signal put at its place among others (R287). (DEDUCED, log entry 95) -/
def insSig (p : PSig) : List PSig → List PSig
  | [] => [p]
  | x :: xs => if p.key < x.key then p :: x :: xs else x :: insSig p xs

end Sys2Proof.Machine
end

