-- ==== Sys2Proof/Machine/Bays.lean ====
section
/-! DEFINITION. The bays of a Gale array's feeders (R79 to R84): the ring of bays, claims, releases and discards, and the
numbering of arrays and cores (R65). -/

namespace Sys2Proof.Machine

/-- The array of a side of a core: core c holds arrays 2c and 2c + 1 (R65). -/
def arrayOf (c : Fin 4) (side : Nat) : Fin 8 := Fin.ofNat 8 (2 * c.val + side % 2)

/-- The core of an array. -/
def coreOf (g : Fin 8) : Fin 4 := Fin.ofNat 4 (g.val / 2)

/-- A feeder of the plan's depth with every bay EMPTY (R81). -/
def Feeder.fresh (depth : Nat) : Feeder := ⟨depth, 0, 0, false, false, List.replicate depth Bay.none⟩

/-- Bay `i` after the head. -/
def Feeder.bayAt (f : Feeder) (i : Nat) : Option Bay := if f.depth = 0 then Option.none else f.bays[(f.head + i) % f.depth]?

/-- The bays that are not EMPTY, from the head on. -/
def Feeder.items (f : Feeder) : List Bay :=
  ((List.range f.depth).filterMap f.bayAt).filter (fun b => b.st != .empty)

/-- Free bays: the credits of R82. -/
def Feeder.free (f : Feeder) : Nat := f.depth - f.items.length

/-- A feeder that holds the given bays in order, from its present head on. -/
def Feeder.ofItems (f : Feeder) (items : List Bay) : Feeder :=
  let pos (i : Nat) : Nat := if f.head ≤ i then i - f.head else i + f.depth - f.head
  { f with
    bays := (List.range f.depth).map (fun i => items.getD (pos i) Bay.none)
    tail := if f.depth = 0 then 0 else (f.head + items.length) % f.depth
    tailWrap := if f.head + items.length < f.depth then f.headWrap else !f.headWrap }

/-- The tail bay claimed for a fill (R82). -/
def Feeder.claim (f : Feeder) (b : Bay) : Feeder := f.ofItems (f.items ++ [b])

/-- The head bay released: EMPTY, and the head advances (R82). -/
def Feeder.release (f : Feeder) : Feeder :=
  match f.items with
  | [] => f
  | _ :: _ =>
    let f' := { f with bays := setAt f.bays f.head Bay.none }
    if f.head + 1 = f.depth then { f' with head := 0, headWrap := !f.headWrap } else { f' with head := f.head + 1 }

/-- The head bay, when the feeder holds one. -/
def Feeder.headBay (f : Feeder) : Option Bay := f.items.head?

/-- The head bay changed. -/
def Feeder.modHead (f : Feeder) (g : Bay → Bay) : Feeder := { f with bays := modAt f.bays f.head g }

/-- The bays that satisfy a condition kept in order at the head; an empty ring starts again at index 0 (R227). -/
def Feeder.keep (f : Feeder) (p : Bay → Bool) : Feeder :=
  match f.items.filter p with
  | [] => Feeder.fresh f.depth
  | items => f.ofItems items

/-- The newest `n` bays discarded: the tail moves back over them (R84, R125). -/
def Feeder.unclaim (f : Feeder) (n : Nat) : Feeder := f.ofItems (f.items.take (f.items.length - n))

/-- A feeder of an array. -/
def Gale.feeder (x : Gale) (col : Bool) : Feeder := if col then x.col else x.row

/-- A feeder of an array changed. -/
def Gale.modFeeder (x : Gale) (col : Bool) (f : Feeder → Feeder) : Gale :=
  if col then { x with col := f x.col } else { x with row := f x.row }

/-- A bank of an array. -/
def Gale.acc (x : Gale) (b : Bool) : AccBank := if b then x.bank1 else x.bank0

/-- A bank of an array set. -/
def Gale.setAcc (x : Gale) (b : Bool) (a : AccBank) : Gale := if b then { x with bank1 := a } else { x with bank0 := a }

/-! Banks and the chains that wait for them (R71 to R74). -/

/-- Two chain records are of one chain. (DESIGN CHOICE, log entry 38) -/
def Chain.same (a b : Chain) : Bool := a.ctx == b.ctx && a.serial == b.serial && a.bank == b.bank

/-- A free bank starts to load a chain's first values (R70). -/
def Chain.loading (ch : Chain) : AccBank := ⟨.loading, ch.poison, [], some ch⟩

/-- A chain's bank is free to it: FREE, and no earlier chain waits for that bank with a group sum or a LOAD (R72, R74). -/
def Gale.bankFor (x : Gale) (ch : Chain) : Bool :=
  let waits := (x.group.map (·.chain)).toList ++ (x.reducer.map (·.chain)).toList ++ x.loadWait.takeWhile (fun y => !y.same ch)
  (x.acc ch.bank).st == .free && !waits.any (fun y => y.bank == ch.bank && !y.same ch)

/-- A LOAD that waits for a bank enters the drain path's order when a bank is free to it (R74). -/
def Gale.admitLoad (x : Gale) : Gale :=
  match x.loadWait.find? x.bankFor with
  | none => x
  | some ch =>
    { x.setAcc ch.bank ch.loading with
      drainOrder := x.drainOrder ++ [(ch.bank, true)]
      loadWait := x.loadWait.filter (fun y => !y.same ch) }

end Sys2Proof.Machine
end

