-- ==== Sys2Proof/Machine/Frames.lean ====
section
/-! DEFINITION. Slipstream frames and trees (R245 to R249): the frame header, the destinations and how a frame leaves, the
leaves and the root of a step. -/

namespace Sys2Proof.Machine

/-- The 64 bytes of a frame's header (R246). -/
def frameHeader (f : Frame) : List Byte :=
  leBytes 1 f.type ++ leBytes 1 f.version ++ zeros 2 ++ leBytes 2 f.srcDev ++ zeros 2 ++ leBytes 8 f.step ++
    leBytes 1 f.stack ++ leBytes 1 f.kind ++ leBytes 2 f.group ++ leBytes 4 f.chunk ++ leBytes 4 f.offset ++
    leBytes 4 f.payload.length ++ leBytes 8 f.seq ++ leBytes 2 f.attempt ++ zeros 22

/-- The bytes of a frame. -/
def frameBytes (f : Frame) : List Byte := frameHeader f ++ f.payload

/-- A frame read from bytes: its header, LENGTH, and the bytes that follow. -/
def frameOf (bs : List Byte) : Frame × Nat :=
  let n (off k : Nat) : Nat := ofLe (slice bs off k)
  ({ type := n 0 1, version := n 1 1, srcDev := n 4 2, step := n 8 8, stack := n 16 1, kind := n 17 1, group := n 18 2
     chunk := n 20 4, offset := n 24 4, seq := n 32 8, attempt := n 40 2, payload := slice bs 64 (n 28 4) }, n 28 4)

/-- The device has a paired twin (R250): its plan names one, and it does not run in TAKEOVER. -/
def State.paired (s : State) : Bool := s.plan.twin.isSome && s.dev.st != .takeover

/-- A destination of the slipstream exists: 0 the shadow, 1 the store (R244, R250). -/
def State.destNamed (s : State) (d : Fin 2) : Bool := if d = 0 then s.paired else s.plan.storeDev.isSome

/-- The device identifier of a destination. -/
def State.destDev (s : State) (d : Fin 2) : Nat :=
  if d = 0 then ((s.plan.twin.map (·.dev)).getD 0) else s.plan.storeDev.getD 0

/-- The twin-port links that carry the shadow and are not FAILED (R244, R318). -/
def State.shadowPaths (s : State) : List (Fin 36) :=
  (allFin 36).filter (fun l => 32 ≤ l.val && s.plan.shadowLinks.testBit (l - 32) && (s.link l).st != .failed)

/-- A packet sent to the twin over the links that carry the shadow. -/
def State.sendTwin (s : State) (p : Packet) : State :=
  let d := (s.plan.twin.map (·.dev)).getD 0
  let q := s.nextPseq d p.vl
  match s.shadowPaths with
  | [] => s
  | l :: ls =>
    (s.tookPseq d p.vl).pushOn (((l :: ls)[q % (ls.length + 1)]?).getD l) { p with src := s.self, dst := d, pseq := q }

/-- A SLIP packet carries exactly one frame (R246, R313). -/
def slipPacket (dst : Nat) (f : Frame) : Packet := mkPkt 0x10 dst 0 0 (frameBytes f)

/-- The next frame number to a destination for a step and attempt (R246). -/
def Slip.nextSeq (x : Slip) (d step attempt : Nat) : Nat :=
  ((x.seq.find? (fun e => e.1 == (d, step, attempt))).map (·.2)).getD 0

/-- A number of the slipstream that has reached its limit escalates (R34). -/
def State.atSeqLimit (s : State) (n : Nat) : State := if n = seqMax then s.escalate else s

/-- Bytes of one DATA frame's payload (R246). -/
def framePayload : Nat := 4032

/-- The frames of a chunk (R246): DATA in order, then CHUNK_END with the digest. -/
def chunkFrames (self : Nat) (c : Chunk) : List Frame :=
  let f (type off : Nat) (bs : List Byte) : Frame :=
    { type := type, version := 1, srcDev := self, step := c.step, stack := c.stack, kind := c.kind, group := c.group
      chunk := c.index, offset := off, seq := 0, attempt := c.attempt, payload := bs }
  (List.range (ceilDiv c.bytes.length framePayload)).map (fun i =>
    f 1 (framePayload * i) (slice c.bytes (framePayload * i) framePayload)) ++ [f 2 0 (sha384 c.bytes)]

/-- A frame put on its way to the twin (0) or the store (1) with its next number (R246), its bytes counted (R254). -/
def State.emitFrame (s : State) (d : Fin 2) (f : Frame) : State :=
  let n := s.slip.nextSeq d f.step f.attempt
  let f := { f with seq := n }
  let s := (s.atSeqLimit (seqNext n)).modSlip (fun x =>
    { x with
      seq := ((d.val, f.step, f.attempt), seqNext n) :: x.seq.filter (fun e => e.1 != (d.val, f.step, f.attempt))
      bank := x.bank.add (1 + d.val) (64 + f.payload.length) })
  if d = 0 then s.sendTwin (slipPacket 0 f) else s.send (slipPacket (s.destDev 1) f)

/-- A frame sent to a destination that exists (R250). -/
def State.sendFrame (s : State) (d : Fin 2) (f : Frame) : State := if s.destNamed d then s.emitFrame d f else s

/-- A frame of the device's own for its present step and attempt. (DEDUCED, log entry 106) -/
def State.frame (s : State) (type : Nat) (payload : List Byte) : Frame :=
  { type := type, version := 1, srcDev := s.self, step := s.step, stack := 0, kind := 0, group := 0, chunk := 0
    offset := 0, seq := 0, attempt := s.chain.attempt, payload := payload }

/-- ABORT for an attempt of the present step to both destinations, and the step's chunks dropped; the attempt is aborted (R251). The store's acknowledgement of the
step, when it stood there, is set back. (DEDUCED, log entry 81) -/
def State.slipAbort (s : State) (attempt : Nat) : State :=
  let f := { s.frame 4 [] with attempt := attempt }
  let s := (s.sendFrame 0 f).sendFrame 1 f
  let sent := s.destNamed 0 || s.destNamed 1
  s.modSlip (fun x =>
    { x with
      chunks := x.chunks.filter (fun c => c.step != s.step)
      leaves := []
      seq := x.seq.filter (fun e => e.1.2.1 != s.step)
      aborted := (s.step, attempt) :: x.aborted
      stepEndSent := false
      shadowAcked := false
      rootClosed := false
      storeAck := if x.storeAck = some s.step then (if s.step = 0 then none else some (s.step - 1)) else x.storeAck
      abortSeen := x.abortSeen || sent
      bank := x.bank.add 5 (b2n sent) })

/-! The step's tree (R248). -/

/-- The hash of one leaf. -/
def Leaf.hash (l : Leaf) : List Byte :=
  sha384 (leBytes 1 0 ++ leBytes 1 l.stack ++ leBytes 1 l.kind ++ leBytes 2 l.group ++ leBytes 4 l.index ++
    leBytes 4 l.length ++ zeros 4 ++ l.digest)

/-- The place of a leaf among a step's leaves (R248). -/
def Leaf.key (l : Leaf) : Nat × Nat × Nat × Nat := (l.stack, l.group, l.kind, l.index)

/-- The order of leaves: increasing (STACK, GROUP, KIND, CHUNK). -/
def Leaf.before (a b : Leaf) : Bool :=
  if a.stack != b.stack then a.stack < b.stack
  else if a.group != b.group then a.group < b.group
  else if a.kind != b.kind then a.kind < b.kind
  else a.index < b.index

/-- A leaf put at its place; a leaf of the same chunk is replaced. -/
def insLeaf (l : Leaf) : List Leaf → List Leaf
  | [] => [l]
  | x :: xs => if l.key = x.key then l :: xs else if l.before x then l :: x :: xs else x :: insLeaf l xs

/-- The leaf of a chunk. -/
def Chunk.leaf (c : Chunk) : Leaf := ⟨c.stack, c.group, c.kind, c.index, c.bytes.length, sha384 c.bytes⟩

/-- One node over two (R248). -/
def nodeHash (a b : List Byte) : List Byte := sha384 (leBytes 1 1 ++ a ++ b)

/-- One level of the tree above another; an unpaired last node rises unchanged. -/
def treeLevel : List (List Byte) → List (List Byte)
  | a :: b :: t => nodeHash a b :: treeLevel t
  | t => t

/-- The tree over a level; `fuel` bounds its height. -/
def treeOf : Nat → List (List Byte) → List Byte
  | _, [] => zeros 48
  | _, [a] => a
  | 0, a :: _ => a
  | n + 1, l => treeOf n (treeLevel l)

/-- The root over a tree (R248). -/
def rootOver (dev step : Nat) (full : Bool) (leaves : Nat) (tree : List Byte) : List Byte :=
  sha384 (leBytes 1 2 ++ leBytes 2 dev ++ leBytes 6 step ++ leBytes 1 (b2n full) ++ leBytes 4 leaves ++ tree)

/-- The root of a step's leaves (R248). -/
def rootOf (dev step : Nat) (full : Bool) (ls : List Leaf) : List Byte :=
  rootOver dev step full ls.length (treeOf ls.length (ls.map Leaf.hash))

/-- A full step (R244). -/
def State.fullStep (s : State) (n : Nat) : Bool := s.plan.stateEvery != 0 && n % s.plan.stateEvery == 0

end Sys2Proof.Machine
end

