-- ==== Sys2Proof/Machine/Operands.lean ====
section
/-! DEFINITION. Operand forms: tensor descriptors, effective bases, layouts and footprints (R105, R135 to R144), and the
store rings that a descriptor may name (R112 to R115). -/

namespace Sys2Proof.Machine

/-! Tensor descriptors (R135). -/

/-- A descriptor read from its 64 bytes (R135). -/
def TDesc.parse (v : BitVec 512) : TDesc :=
  { base := le v 0 6, ring := bitAt v 48, ringIdx := field v 0 6, ringCore := Fin.ofNat 4 (field v 8 2)
    ringOff := le v 2 4, grouped := bitAt v 49, layout := le v 7 1, fmt := field v 64 4, rank := field v 68 2 + 1
    ext := (List.range 4).map (fun i => le v (16 + 4 * i) 4)
    stride := 0 :: (List.range 3).map (fun i => le v (32 + 4 * i) 4)
    adv := (List.range 4).map (fun i => le v (48 + 4 * i) 4) }

/-- The extent of dimension `i`, 1 at or above RANK. -/
def TDesc.extent (d : TDesc) (i : Nat) : Nat := if i < d.rank then d.ext.getD i 0 else 1

/-- STRIDE[i]. -/
def TDesc.str (d : TDesc) (i : Nat) : Nat := d.stride.getD i 0

/-- Width of an element in bits: of the format, of a scale (R142) or of an index (R144). -/
def TDesc.bits (d : TDesc) : Nat :=
  if d.layout = 4 then 8 else if d.layout = 5 then 32 else ((Fmt.ofCode d.fmt).map (·.elem.bits)).getD 8

/-- The element format. -/
def TDesc.format (d : TDesc) : Fmt := (Fmt.ofCode d.fmt).getD ⟨.fp32, false⟩

/-- The sum of the enabled advance terms, in bytes (R136). -/
def TDesc.advance (d : TDesc) (lc : Vector Word 8) : Int :=
  64 * (d.adv.foldl (fun acc t =>
    if t / 8 % 2 = 1 then acc + toSigned 24 (t / 256) * ((lc.get (Fin.ofNat 8 (t % 8))).toNat : Int) else acc) 0)

/-- An address formed in signed 64-bit arithmetic (R136). -/
def addr64 (a : Int) : Nat := (a % (2 ^ 64 : Int)).toNat

/-- The bit offset of element (x0, x1, x2, x3) from the effective base (R140, R142, R143, R144). -/
def TDesc.bitOff (d : TDesc) (x0 x1 x2 x3 : Nat) : Nat :=
  let outer := x2 * d.str 2 + x3 * d.str 3
  let b := d.bits
  match d.layout with
  | 1 | 2 | 3 => 8 * (x0 / 32 * d.str 1 + x1 * (4 * b) + outer) + x0 % 32 * b
  | 4 => if d.grouped then 8 * (x0 * d.str 1 + x1 + outer) else 8 * (x0 + x1 * d.str 1 + outer)
  | 5 => 32 * x0
  | _ => x0 * b + 8 * (x1 * d.str 1 + outer)

/-- The layout is one of the grouped layouts LOP, ROP and DRAIN (R140). -/
def TDesc.isGrouped (d : TDesc) : Bool := 1 ≤ d.layout && d.layout ≤ 3

/-- The outer indices (x1, x2, x3), dimension 1 innermost. -/
def TDesc.outer (d : TDesc) : List (Nat × Nat × Nat) :=
  (List.range (d.extent 3)).flatMap (fun x3 => (List.range (d.extent 2)).flatMap (fun x2 =>
    (List.range (d.extent 1)).map (fun x1 => (x1, x2, x3))))

/-- The bytes that the layout reaches, from an effective base (R137): one range for each row or group-row.
(DESIGN CHOICE, log entry 57) -/
def TDesc.ranges (d : TDesc) (base : Nat) : List (Nat × Nat) :=
  match d.layout with
  | 1 | 2 | 3 =>
    (List.range (ceilDiv (d.extent 0) 32)).flatMap (fun g => d.outer.map (fun x =>
      (base + d.bitOff (32 * g) x.1 x.2.1 x.2.2 / 8, 4 * d.bits)))
  | 4 =>
    if d.grouped then
      (List.range (d.extent 0)).flatMap (fun g => d.outer.map (fun x => (base + d.bitOff g x.1 x.2.1 x.2.2 / 8, 1)))
    else d.outer.map (fun x => (base + d.bitOff 0 x.1 x.2.1 x.2.2 / 8, d.extent 0))
  | 5 => [(base, 4 * d.extent 0)]
  | 6 => [(base, d.str 1)]
  | _ => d.outer.map (fun x => (base + d.bitOff 0 x.1 x.2.1 x.2.2 / 8, ceilDiv (d.extent 0 * d.bits) 8))

/-! Gust keys (R208, R209, R211, R213). -/

/-- A Gust key entry of a core; entry 0 and an undefined one read as zeros. (DESIGN CHOICE, log entry 74) -/
def State.gustEntry (s : State) (c : Fin 4) (sel : Nat) : BitVec 256 := (Tbl.get? (s.prog c).gust sel).getD 0

/-- An index that a key entry forms from TOP, a source byte and the loop counters (R209). -/
def gustIndex (top src w : Nat) (lc : Vector Word 8) : Nat :=
  let v := (lc.get (Fin.ofNat 8 (src % 8))).toNat
  if src / 8 % 2 = 0 then top % 2 ^ w
  else if src / 16 % 2 = 0 then (((top : Int) - v) % (2 ^ w : Int)).toNat
  else (top + v) % 2 ^ w

/-- What an operation sees of a key entry when it takes its indices (R209). -/
def State.gustRef (s : State) (c : Fin 4) (sel : Nat) (lc : Vector Word 8) : GustRef :=
  let e := s.gustEntry c sel
  { key0 := BitVec.ofNat 32 (le e 0 4), key1 := BitVec.ofNat 32 (le e 4 4), stream := le e 8 1
    m := gustIndex (le e 12 2) (le e 9 1) 16 lc, t := gustIndex (le e 16 4) (le e 10 1) 32 lc, s := s.step }

/-- The Gust word of an element for a domain (R211, R213). -/
def GustRef.word (r : GustRef) (domain f : Nat) : Nat := gustWord r.key0 r.key1 r.stream domain r.s r.m r.t f

/-- The rounding of an element: to nearest even, or stochastic with the word of its flat index (R51, R52). -/
def roundOf (g : Option GustRef) (f : Nat) : Round :=
  match g with
  | some r => .sr (r.word 2 f)
  | none => .rne

/-- The flat index of an element over the extents of a descriptor (R211). -/
def TDesc.flat (d : TDesc) (x0 x1 x2 x3 : Nat) : Nat :=
  x0 + d.extent 0 * (x1 + d.extent 1 * (x2 + d.extent 2 * x3))

/-! Store rings (R112 to R115). -/

/-- A ring as the plan forms it, all slots EMPTY. -/
def Ring.fresh (cfg : RingCfg) : Ring :=
  { cfg := cfg, head := 0, tail := 0, headWrap := false, tailWrap := false, slots := List.replicate cfg.slots Slot.none }

/-- The head slot. -/
def Ring.headSlot (r : Ring) : Slot := r.slots.getD r.head Slot.none

/-- The tail slot. -/
def Ring.tailSlot (r : Ring) : Slot := r.slots.getD r.tail Slot.none

/-- A producer may claim the tail slot: it is EMPTY (R113). -/
def Ring.canClaim (r : Ring) : Bool := !r.slots.isEmpty && r.tailSlot.st == .empty

/-- The tail slot claimed: FILLING, and the tail advances (R113). -/
def Ring.claim (r : Ring) (spec : Bool) : Ring :=
  let r' := { r with slots := setAt r.slots r.tail ⟨.filling, spec, false, false⟩ }
  if r.tail + 1 = r.slots.length then { r' with tail := 0, tailWrap := !r.tailWrap } else { r' with tail := r.tail + 1 }

/-- Slots in claim order from `i` on become FULL while their writes have completed (R113). -/
def settleSlots : Nat → Nat → List Slot → List Slot
  | 0, _, ss => ss
  | n + 1, i, ss =>
    match ss[i]? with
    | none => ss
    | some sl =>
      let next := if i + 1 = ss.length then 0 else i + 1
      match sl.st with
      | .empty => ss
      | .full => settleSlots n next ss
      | .filling => if sl.written then settleSlots n next (setAt ss i { sl with st := .full }) else ss

/-- The writes of a claimed slot have completed, with poison where the producer's were poisoned (R113, R114). -/
def Ring.fill (r : Ring) (slot : Nat) (poison : Bool) : Ring :=
  let ss := modAt r.slots slot (fun sl => { sl with written := true, poison := sl.poison || poison })
  { r with slots := settleSlots r.slots.length r.head ss }

/-- The head slot released: EMPTY, and the head advances (R114). -/
def Ring.release (r : Ring) : Ring :=
  let r' := { r with slots := setAt r.slots r.head Slot.none }
  if r.head + 1 = r.slots.length then { r' with head := 0, headWrap := !r.headWrap } else { r' with head := r.head + 1 }

/-- The newest `n` claims undone: the slots return to EMPTY and the tail moves back over them (R125). -/
def Ring.unclaim (r : Ring) : Nat → Ring
  | 0 => r
  | n + 1 =>
    let t := if r.tail = 0 then r.slots.length - 1 else r.tail - 1
    let w := if r.tail = 0 then !r.tailWrap else r.tailWrap
    Ring.unclaim { r with tail := t, tailWrap := w, slots := setAt r.slots t Slot.none } n

/-- A slot's SPEC flag cleared (R125). -/
def Ring.confirm (r : Ring) (slot : Nat) : Ring := { r with slots := modAt r.slots slot (fun sl => { sl with spec := false }) }

/-- A ring of a core. -/
def State.ring (s : State) (c : Fin 4) (i : Nat) : Option Ring := Tbl.get? (s.core c).rings i

/-- A ring changed. -/
def State.modRing (s : State) (c : Fin 4) (i : Nat) (f : Ring → Ring) : State :=
  match s.ring c i with
  | some r => s.modCore c (fun x => { x with rings := Tbl.set x.rings i (f r) })
  | none => s

/-- Device address of a slot's first byte. -/
def State.slotAddr (s : State) (c : Fin 4) (ring slot : Nat) : Nat :=
  match s.ring c ring with
  | some r => storeBase c + r.cfg.base + slot * r.cfg.slotSize
  | none => 2 ^ 63

/-! Operands. -/

/-- The descriptor that an operand reference names; none for index 0 (R105). -/
def State.tdesc (s : State) (c : Fin 4) (ref : Nat) : Option TDesc :=
  if ref % 8192 = 0 then none else (Tbl.get? (s.prog c).tensors (ref % 8192)).map TDesc.parse

/-- The effective base of a descriptor over a place of the ring kind (R136). -/
def State.effBase (s : State) (d : TDesc) (lc : Vector Word 8) (slot : Nat) : Nat :=
  let b := if d.ring then s.slotAddr d.ringCore d.ringIdx slot + d.ringOff else d.base
  addr64 ((b : Int) + d.advance lc)

/-- A source operand: a ring source reads the head slot (R114). -/
def State.srcOpd (s : State) (c : Fin 4) (ref : Nat) (lc : Vector Word 8) : Option Opd :=
  (s.tdesc c ref).map (fun d =>
    let slot := if d.ring then ((s.ring d.ringCore d.ringIdx).map (·.head)).getD 0 else 0
    { d := d, base := s.effBase d lc slot, slot := if d.ring then some (d.ringCore, d.ringIdx, slot) else none
      release := ref / 8192 % 2 == 1 })

/-- A destination operand: a ring destination writes the tail slot, which the operation claims (R113). -/
def State.dstOpd (s : State) (c : Fin 4) (ref : Nat) (lc : Vector Word 8) : Option Opd :=
  (s.tdesc c ref).map (fun d =>
    let slot := if d.ring then ((s.ring d.ringCore d.ringIdx).map (·.tail)).getD 0 else 0
    { d := d, base := s.effBase d lc slot, slot := if d.ring then some (d.ringCore, d.ringIdx, slot) else none
      release := false })

/-- Bytes of an operand's footprint. -/
def Opd.ranges (o : Opd) : List (Nat × Nat) := o.d.ranges o.base

/-- A footprint lies wholly within one range of R137; for KIND RING within the selected slot. -/
def State.fits (s : State) (o : Opd) (ranges : List (Nat × Nat)) : Bool :=
  match o.slot with
  | some (c, r, i) =>
    match s.ring c r with
    | some ring =>
      let lo := s.slotAddr c r i
      ranges.all (fun x => x.2 == 0 || (decide (lo ≤ x.1) && decide (x.1 + x.2 ≤ lo + ring.cfg.slotSize)))
    | none => false
  | none => s.within ranges

/-- The code of one element at a bit offset from a base. -/
def State.codeAt (s : State) (base bits off : Nat) : Nat :=
  let bs := s.peek (base + off / 8) (ceilDiv (off % 8 + bits) 8)
  ofLe bs / 2 ^ (off % 8) % 2 ^ bits

/-- The code of element (x0, x1, x2, x3) of an operand. -/
def State.code (s : State) (o : Opd) (x0 x1 x2 x3 : Nat) : Nat :=
  s.codeAt o.base o.d.bits (o.d.bitOff x0 x1 x2 x3)

/-- Codes packed at `b` bits each, little-endian (R140, R143). -/
def packCodes (b : Nat) (cs : List Nat) : List Byte :=
  leBytes (ceilDiv (b * cs.length) 8) (cs.foldr (fun c acc => c % 2 ^ b + 2 ^ b * acc) 0)

/-- Codes of `n` elements of `b` bits in a run of bytes. -/
def unpackCodes (b n : Nat) (bs : List Byte) : List Nat :=
  let v := ofLe bs
  (List.range n).map (fun i => v / 2 ^ (b * i) % 2 ^ b)

/-- The codes of one row: elements x0 = 0 to EXT[0] − 1 at fixed outer indices. -/
def State.rowCodes (s : State) (o : Opd) (x : Nat × Nat × Nat) : List Nat :=
  (List.range (o.d.extent 0)).map (fun x0 => s.code o x0 x.1 x.2.1 x.2.2)

/-- The writes of one row of codes at a destination: one block for each run of bytes its layout makes. -/
def Opd.rowWrites (o : Opd) (x : Nat × Nat × Nat) (codes : List Nat) (poison : Bool) : List WBlk :=
  if o.d.isGrouped then
    (List.range (ceilDiv (o.d.extent 0) 32)).map (fun g =>
      let part := (codes.drop (32 * g)).take 32
      let bs := packCodes o.d.bits (part ++ List.replicate (32 - part.length) 0)
      ⟨o.base + o.d.bitOff (32 * g) x.1 x.2.1 x.2.2 / 8, bs.length, bs, poison⟩)
  else if o.d.layout = 4 && o.d.grouped then
    (List.range codes.length).map (fun g =>
      ⟨o.base + o.d.bitOff g x.1 x.2.1 x.2.2 / 8, 1, leBytes 1 (codes.getD g 0), poison⟩)
  else
    let bs := packCodes o.d.bits codes
    [⟨o.base + o.d.bitOff 0 x.1 x.2.1 x.2.2 / 8, bs.length, bs, poison⟩]

/-- Poison alone on a whole destination (R27). -/
def Opd.poisonWrites (o : Opd) : List WBlk := o.ranges.map (fun r => ⟨r.1, r.2, [], true⟩)

/-- A source's ring slot is FULL and not SPEC (R114); a source that is no ring is always ready. -/
def State.srcReady (s : State) (o : Opd) : Bool :=
  match o.slot with
  | some (c, r, i) =>
    match s.ring c r with
    | some ring => let sl := ring.slots.getD i Slot.none; sl.st == .full && !sl.spec
    | none => false
  | none => true

/-- A source's ring slot is FULL and SPEC: a consumer waits for the point's resolution (R114, CTX_STATE cause 5). -/
def State.srcSpec (s : State) (o : Opd) : Bool :=
  match o.slot with
  | some (c, r, i) => ((s.ring c r).map (fun ring => (ring.slots.getD i Slot.none).spec)).getD false
  | none => false

/-- A destination's ring can be claimed (R113); a destination that is no ring is always free. -/
def State.dstReady (s : State) (o : Opd) : Bool :=
  match o.slot with
  | some (c, r, _) => ((s.ring c r).map Ring.canClaim).getD false
  | none => true

/-- The bytes of one element of an operand. -/
def Opd.elemRange (o : Opd) (x0 x1 x2 x3 : Nat) : Nat × Nat :=
  let off := o.d.bitOff x0 x1 x2 x3
  (o.base + off / 8, ceilDiv (off % 8 + o.d.bits) 8)

/-- The poison that reading some bytes of a source meets: a poisoned unit or line, or a POISON head slot (R114, R134). -/
def State.readPoison (s : State) (o : Opd) (ranges : List (Nat × Nat)) : Bool :=
  s.anyPoison ranges ||
    match o.slot with
    | some (c, r, i) => ((s.ring c r).map (fun ring => (ring.slots.getD i Slot.none).poison)).getD false
    | none => false

/-- The poison of a source that is read whole. -/
def State.srcPoison (s : State) (o : Opd) : Bool := s.readPoison o o.ranges

/-- The head slot of a source released once it has been read, where RELEASE is set (R114). -/
def State.releaseSrc (s : State) (o : Opd) : State :=
  match o.slot with
  | some (c, r, _) => if o.release then s.modRing c r Ring.release else s
  | none => s

/-- A destination's ring slot claimed (R113). -/
def State.claimDst (s : State) (o : Opd) (spec : Bool) : State :=
  match o.slot with
  | some (c, r, _) => s.modRing c r (fun x => x.claim spec)
  | none => s

/-! Values that the manual leaves undefined. -/

/-- The next `n` free values. (DESIGN CHOICE, log entries 12, 53) -/
def State.freeCodes (s : State) (n : Nat) : List Nat := (List.range n).map (fun i => Config.freeNat (s.fresh + i))

/-- `n` free values used up. (DESIGN CHOICE, log entries 12, 54) -/
def State.spent (s : State) (n : Nat) : State := { s with fresh := s.fresh + n }

end Sys2Proof.Machine
end

