-- ==== Sys2Proof/Machine/Recovery.lean ====
section
/-! DEFINITION. Fences and failures that every block can meet (spec/08, spec/11, spec/13): the conditions of the step fence
(R223), the fatal stop with its post-mortem records (R300, R301), halting as a lost device (R336), reports and the
root's orders (R337 to R341), takeover (R347) and the retry of a step (R227, R243). -/

namespace Sys2Proof.Machine

/-! Register words that the post-mortem image also holds. -/

/-- Codes of R99. -/
def CtxSt.code : CtxSt → Nat
  | .idle => 0 | .ready => 1 | .blocked => 2 | .waiting => 3 | .ended => 4 | .stopped => 5

/-- CTX_STATE of a context whose block cause is `cause`, 0 where it is not BLOCKED (R99). (DEDUCED, log entry 46) -/
def ctxStateWord (x : Ctx) (cause : Nat) : Nat :=
  (if x.st = .ready && cause != 0 then 2 else x.st.code) +
    put 4 (if x.st = .ready then cause else 0) + put 8 x.prio + put 11 (b2n x.spec.isSome) +
    put 12 (if x.st = .stopped then x.stopCause else 0)

/-- CTX_WAIT of a context. -/
def ctxWaitWord (x : Ctx) : Nat :=
  match x.wait with
  | some w => w.vane + put 8 (b2n w.chain) + put 16 w.count
  | none => 0

/-- Codes of HEALTH. -/
def Health.code : Health → Nat
  | .ok => 0 | .suspect => 1 | .failed => 2

/-- One bit for each context that satisfies a condition. -/
def ctxBits (c : Core) (p : Ctx → Bool) : Nat :=
  (allFin 8).foldl (fun acc k => acc + put k.val (b2n (p (c.ctxs.get k)))) 0

/-- CORE_STATUS. -/
def coreStatusWord (c : Core) : Nat :=
  c.health.code + put 8 (ctxBits c (·.st = .ended)) + put 16 (ctxBits c (·.st = .waiting)) +
    put 24 (ctxBits c (·.st = .stopped))

/-- DEV_STATE. -/
def devStateWord (d : Dev) : Nat :=
  (match d.st with | .bringUp => 0 | .run => 1 | .takeover => 2 | .halted => 3 | .safe => 4) + put 8 d.phase

/-- VANE_CORE_k [24:21] of a vane of a core. -/
def State.coreVaneFlags (s : State) (c : Fin 4) (k : Fin 48) : Nat :=
  let v := (s.core c).vanes.get k
  let isF (f : FenceCfg → Fin 48) : Bool :=
    s.loaded && ((s.prog c).fence.map (fun x => f x == k)).getD false
  b2n v.assigned + put 1 (b2n v.stepScoped) + put 2 (b2n (isF (·.fenceVane))) + put 3 (b2n (isF (·.stepVane)))

/-- VANE_CHAIN_k [23:22] of a chain vane. -/
def Vane.chainFlags (v : Vane) : Nat := b2n v.assigned + put 1 (b2n v.stepScoped)

/-- DRT_STATUS of an engine. -/
def drtStatusWord (d : Draught) : Nat :=
  d.queue.length + put 8 (d.queue.filter (·.started)).length + put 12 (b2n d.poisonSeen) + put 13 (b2n d.underflowSeen) +
    put 14 (b2n (d.queue.any (fun x => !x.acks.isEmpty)))

/-- DRT_HEAD of an engine. -/
def drtHeadWord (d : Draught) : Nat :=
  match d.queue with
  | x :: _ => x.desc + put 16 x.ctx.val + put 31 1
  | [] => 0

/-! The step fence (R221 to R226). -/

/-- The fence of a core, when the running plan gives it one. -/
def State.fenceCfg (s : State) (c : Fin 4) : Option FenceCfg := if s.loaded then (s.prog c).fence else none

/-- Condition 1 of R223 on one core: its fence vane has reached its count, or has been consumed.
(DEDUCED, log entry 84) -/
def State.fenceMark (s : State) (c : Fin 4) : Bool :=
  match s.fenceCfg c with
  | some f => (s.core c).fenceMark || decide (f.fenceCount ≤ ((s.core c).vanes.get f.fenceVane).count)
  | none => true

/-- The group table of a Foehn unit: the takeover one in TAKEOVER (R346, R347). -/
def State.groupTable (s : State) (n : Fin 12) : Tbl (BitVec 512) :=
  if s.dev.st = .takeover then (s.plan.foehns.get n).takeGroups else (s.plan.foehns.get n).groups

/-- A Foehn unit has completed every update of step s (R237). -/
def State.foehnDone (s : State) (n : Fin 12) : Bool :=
  (s.groupTable n).all (fun g => (s.fhn n).done.contains g.1)

/-- Condition 2 of R223. -/
def State.fenceFoehn (s : State) : Bool :=
  s.loaded && (allFin 12).all (fun n => s.foehnDone n && !(s.fhn n).withheld)

/-- Condition 3 of R223. -/
def State.fenceSlip (s : State) : Bool := s.slip.rootClosed

/-- Condition 4 of R223: every cross-check queue is empty, and no mismatch withholds the fence. -/
def State.fenceXchk (s : State) : Bool :=
  s.loaded && !s.withheld && (allFin 8).all (fun g => (s.gale g).xqueue.isEmpty && (s.gale g).check.isNone)

/-- The local fence can be reached (R223). A plan that gives no core a fence never reaches one (DEDUCED).
(DEDUCED, log entry 84) -/
def State.fenceReady (s : State) : Bool :=
  (allFin 4).any (fun c => (s.fenceCfg c).isSome) && (allFin 4).all s.fenceMark && s.fenceFoehn && s.fenceSlip &&
    s.fenceXchk

/-- The fence of step s is withheld (R223). (DESIGN CHOICE, log entry 86) -/
def State.fenceWithheld (s : State) : Bool := s.withheld || (allFin 12).any (fun n => (s.fhn n).withheld)

/-- CORE_FENCE of a core. -/
def State.coreFenceWord (s : State) (c : Fin 4) : Nat :=
  b2n ((s.fenceCfg c).isSome && s.fenceMark c) + put 1 (b2n s.fenceFoehn) + put 2 (b2n s.fenceSlip) +
    put 3 (b2n s.fenceXchk) + put 4 (b2n s.chain.local_) + put 5 (b2n s.fenceWithheld) + put 6 (b2n s.chain.inRetry) +
    put 7 (b2n s.chain.retrySeen) + put 8 (b2n s.chain.boundSeen)

/-! The slipstream's root (R249, R250). -/

/-- The store has acknowledged what closing the root of step s needs (R249, R250, R333). Steps before the run's first
were never sent (DEDUCED). (DEDUCED, log entry 83) -/
def State.storeEnough (s : State) : Bool :=
  match s.plan.storeDev with
  | none => s.paired
  | some _ =>
    let lag := if s.paired && s.chain.role != .leaving then s.plan.storeLag else 0
    decide (s.step < s.plan.startStep + lag) || decide (s.step - lag ≤ s.slip.storeAck.getD 0) && s.slip.storeAck.isSome

/-- Closing the root waits only on the store (STORE_LAGGING). -/
def State.storeLagging (s : State) : Bool :=
  s.slip.stepEndSent && !s.slip.rootClosed && s.plan.storeDev.isSome && (!s.paired || s.slip.shadowAcked) && !s.storeEnough

/-- A stream that the root of step s needs has failed (R247, R250). -/
def State.streamStopped (s : State) : Bool := s.slip.stopped.get 1 || (s.paired && s.slip.stopped.get 0)

/-- The root of step s is closed once its acknowledgements are there (R247, R249, R250). -/
def State.closeRoot (s : State) : State :=
  let x := s.slip
  if x.stepEndSent && !x.rootClosed && !s.streamStopped && (!s.paired || x.shadowAcked) && s.storeEnough then
    s.modSlip (fun x => { x with rootClosed := true, bank := x.bank.add 6 1 })
  else s

/-! The fatal stop (R300, R301, R423). -/

/-- A fault flush starts, or merges into the one that runs (R423). -/
def Evr.flush (e : Evr) : Evr := if e.flushing then e else { e with flushing := true, bank := e.bank.add 3 1 }

/-- The payload of PM_CONTEXT. -/
def pmContext (c : Fin 4) (k : Fin 8) (x : Ctx) : List Byte :=
  leBytes 1 c ++ leBytes 1 k ++ leBytes 4 (ctxStateWord x 0) ++ leBytes 2 x.fetchPos ++ leBytes 2 x.execPos ++
    leBytes 2 x.queue.length ++ leBytes 4 (ctxWaitWord x) ++ (x.lcX.toList.flatMap (fun v => leBytes 4 v.toNat))

/-- One vane in a post-mortem record: count, waiters, flags. -/
def pmVane (v : Vane) (flags : Nat) : List Byte := leBytes 2 v.count ++ leBytes 1 v.held ++ leBytes 1 flags

/-- A payload in the 48 bytes that a record gives it. (DEDUCED, log entry 97) -/
def pad48 (bs : List Byte) : List Byte := (bs ++ zeros 48).take 48

/-- The post-mortem records but the last, in the order of R301: types and payloads. (DEDUCED, log entry 97) -/
def State.pmImage (s : State) (cause : Nat) : List (Nat × List Byte) :=
  let core (c : Fin 4) : List Byte :=
    leBytes 1 c ++ leBytes 4 (coreStatusWord (s.core c)) ++ leBytes 4 (s.coreFenceWord c) ++
      leBytes 2 (((s.fenceCfg c).map (fun f => ((s.core c).vanes.get f.fenceVane).count)).getD 0)
  let coreVanes (c : Fin 4) (b : Nat) : List Byte :=
    leBytes 1 c ++ leBytes 1 (8 * b) ++ (List.range 8).flatMap (fun i =>
      let k : Fin 48 := Fin.ofNat 48 (8 * b + i)
      pmVane ((s.core c).vanes.get k) (s.coreVaneFlags c k))
  let chainVanes (b : Nat) : List Byte :=
    leBytes 1 (8 * b) ++ (List.range 8).flatMap (fun i =>
      let v := s.chainVanes.get (Fin.ofNat 64 (8 * b + i))
      pmVane v v.chainFlags)
  (0x60, leBytes 6 s.step ++ leBytes 1 cause ++ leBytes 4 (devStateWord s.dev) ++ leBytes 2 70) ::
    (allFin 4).map (fun c => (0x61, core c)) ++
    (allFin 4).flatMap (fun c => (allFin 8).map (fun k => (0x62, pmContext c k (s.ctx c k)))) ++
    (allFin 4).flatMap (fun c => (List.range 6).map (fun b => (0x63, coreVanes c b))) ++
    (List.range 8).map (fun b => (0x64, chainVanes b)) ++
    [(0x65, (allFin 8).flatMap (fun e => leBytes 2 (drtStatusWord (s.drt e) % 2048) ++ leBytes 2 (drtHeadWord (s.drt e))))]

/-- A context stopped with a cause, unless it is STOPPED or IDLE (R300). -/
def Ctx.halt (x : Ctx) (cause : Nat) : Ctx :=
  if x.st = .stopped || x.st = .idle then x else { x with st := .stopped, stopCause := cause }

/-- Every context of a core stopped. -/
def Core.halt (c : Core) (cause : Nat) : Core := { c with ctxs := c.ctxs.map (·.halt cause) }

/-- The fatal stop (R300): contexts STOPPED, vanes frozen, the image taken, and a fault flush (R301, R423).
(DEDUCED, log entries 96, 97) -/
def State.fatalStop (s : State) (cause : Nat) : State :=
  let s : State := { s with cores := s.cores.map (·.halt 2), frozen := true }
  let image := s.pmImage cause
  let s := image.foldl (fun s r => s.askBare r.1 r.2) s
  let digest := (sha384 (image.flatMap (fun r => pad48 r.2))).take 32
  (s.askBare 0x66 (leBytes 2 71 ++ digest)).modEvr Evr.flush

/-! Messages of the fence route (R323 to R325, R337). -/

/-- A hop-by-hop message to the fence parent, or to the survivor that stands for it (R338, R347). -/
def State.toParent (s : State) (p : Packet) : State :=
  match s.chain.parent with
  | none => s
  | some l =>
    let d := (s.link l).peerDev
    if s.addressed d = d then s.sendOn l p else s.send { p with dst := d }

/-- A hop-by-hop message to every fence child. -/
def State.toChildren (s : State) (p : Packet) : State := s.chain.children.foldl (fun s l => s.sendOn l p) s

/-- The payload of STEP_ABANDON (R337). -/
def abandonPayload (action cause origin attempt : Nat) (pairs : List (Nat × Nat)) : List Byte :=
  leBytes 1 action ++ leBytes 1 cause ++ leBytes 2 origin ++ leBytes 2 attempt ++ leBytes 2 pairs.length ++
    pairs.flatMap (fun p => leBytes 2 p.1 ++ leBytes 2 p.2)

/-- A STEP_ABANDON of the present step. -/
def State.abandonPacket (s : State) (action cause origin attempt : Nat) (pairs : List (Nat × Nat)) : Packet :=
  s.fencePacket 0x22 (abandonPayload action cause origin attempt pairs)

/-- A recovery counter of R350; counter 2 is each core's own. (DESIGN CHOICE, log entry 108) -/
def State.countRec (s : State) (n : Nat) : State :=
  s.modChain (fun c =>
    let i : Fin 5 := Fin.ofNat 5 (if n < 2 then n else n - 1)
    let (v, w) := addWrap (c.recBank.get i) 1
    { c with recBank := c.recBank.set i v, recOvf := if w then c.recOvf ||| BitVec.ofNat 32 (1 <<< n) else c.recOvf })

/-- The RECOVERY record of an action (R419): action, cause, origin and attempt, made by the chain's block.
(DEDUCED, log entry 110) -/
def State.recoveryRecord (s : State) (action cause origin attempt : Nat) : State :=
  s.ask 0x23 (s.unit 0xC 0x50 0) (leBytes 1 action ++ leBytes 1 cause ++ leBytes 2 origin ++ leBytes 2 attempt)

/-- A link DOWN, with nothing in its buffers and no session keys (R373); a FAILED link stays FAILED. Packets that it has
handed on to their destination stay (R296). -/
def Link.lower (l : Link) : Link :=
  { l.unkeyed with
    st := if l.st = .failed then .failed else .down
    retry := [], waiting := Vector.replicate 8 [], cut := Vector.replicate 8 [], rx := Vector.replicate 8 []
    owed := Vector.replicate 8 0 }

/-- Every link held DOWN: its session and what waits on it end (R336, R341). -/
def State.linksDown (s : State) : State :=
  { s.modChain (fun c => { c with lowering := false }) with links := s.links.map Link.lower }

/-- Nothing waits on VL0 of a link that is UP or that retrains: what the device sent up its fence route has left (R336). -/
def State.reportLeft (s : State) : Bool :=
  (allFin 36).all (fun l => !((s.link l).st == .up || (s.link l).st == .retraining) || !(s.link l).waits 0)

/-- A halting device holds its links DOWN: at once, or once what it sent on VL0 has left (R333, R336, R340, R341). -/
def State.stopLinks (s : State) (atOnce : Bool) : State :=
  if atOnce || s.reportLeft then s.linksDown else s.modChain (fun c => { c with lowering := true })

/-- The links of a halting device go DOWN once its report has left (R336). -/
def State.lowered (s : State) : State := if s.chain.lowering && s.reportLeft then s.linksDown else s

/-- Halting as a lost device (R336): its report, the end of its slipstream's step (R251), the fatal stop, its links, and
HALTED. -/
def State.haltSteps (s : State) (cause : Nat) : State :=
  if s.running then
    let s := (s.toParent (s.abandonPacket 0 cause s.self s.chain.attempt [])).slipAbort s.chain.attempt
    let s := (s.recoveryRecord 0 cause s.self s.chain.attempt).fatalStop cause
    (s.stopLinks (s.chain.twin == .paired)).modDev (fun d => { d with st := .halted })
  else s

/-- Halting as a lost device, then fatal-error escalation (R336). -/
def State.haltLost (s : State) (cause : Nat) : State := if s.running then (s.haltSteps cause).escalate else s

/-! The retry of a step (R227, R243). -/

/-- A context that a retry restarts: it has a step entry and has completed the wait there in step s (R227). -/
def Ctx.restarts (x : Ctx) : Bool := x.stepEntry.isSome && x.entered && x.st != .stopped

/-- A context of a core that a retry restarts. -/
def State.restarts (s : State) (c : Fin 4) (k : Fin 8) : Bool := (s.ctx c k).restarts

/-- The entry of a context under the device's present section (R346, R347). -/
def Ctx.entry (x : Ctx) (takeover : Bool) : Option Nat := if takeover then x.takeEntry.or x.stepEntry else x.stepEntry

/-- A context set back to just after its entry (R227). -/
def Ctx.restart (x : Ctx) (takeover : Bool) : Ctx :=
  match x.entry takeover with
  | none => x
  | some e =>
    { x with
      st := .ready, fetchPos := e + 1, execPos := e + 1, queue := [], lcF := x.captured, lcX := x.captured, wait := none
      endFetched := false, branchOpen := false, ending := false, spec := none, routeTodo := [], routeWait := none
      ownStalled := false, predF := none
      predX := none, predXSerial := 0 }

/-- An array after a retry: feeders, banks and checks of restarted contexts released (R227); it leaves weight-stationary
mode (R85), and a LOAD whose bank is free now enters the drain path's order (R74). -/
def Gale.retry (x : Gale) (gone : Fin 8 → Bool) : Gale :=
  let ofChain (ch : Option Chain) : Bool := (ch.map (fun c => gone c.ctx)).getD false
  let drop (b : Bool) : Bool :=
    ofChain (x.acc b).chain || (x.acc b).st == .weights || (x.acc b).st == .partials
  let x0 := x.drainOrder.head?
  let order := x.drainOrder.filter (fun d => !drop d.1)
  let y : Gale := { x with
    row := x.row.keep (fun b => !gone b.ctx)
    col := x.col.keep (fun b => !gone b.ctx)
    owner := if (x.owner.map gone).getD false then none else x.owner
    packed := if (x.owner.map gone).getD false then none else x.packed
    run := if (x.run.map (fun r => gone r.ctx)).getD false then none else x.run
    opened := if ofChain x.opened then none else x.opened
    group := if (x.group.map (fun g => gone g.chain.ctx)).getD false then none else x.group
    reducer := if (x.reducer.map (fun g => gone g.chain.ctx)).getD false then none else x.reducer
    bank0 := if drop false then AccBank.none else x.bank0
    bank1 := if drop true then AccBank.none else x.bank1
    drainOrder := order
    loadWait := x.loadWait.filter (fun c => !gone c.ctx)
    candidates := 0
    drainRow := if order.head? = x0 then x.drainRow else 0
    held := x.held.filter (fun h => !gone h.chain.ctx)
    xqueue := []
    ws := false
    check := none }
  y.admitLoad.admitLoad

/-- A running operation of a restarted context abandoned. (DESIGN CHOICE, log entry 109) -/
def dropRun (r : Option RunOp) (gone : Fin 8 → Bool) : Option RunOp :=
  match r with
  | some o => if gone o.ctx then none else some o
  | none => none

/-- A core after a retry (R227). (DESIGN CHOICE, log entry 109) -/
def Core.retry (x : Core) (gone : Fin 8 → Bool) (takeover : Bool) : Core :=
  { x with
    ctxs := Vector.ofFn (fun k => if gone k then (x.ctxs.get k).restart takeover else x.ctxs.get k)
    rings := x.rings.map (fun r => if r.2.cfg.stepScoped then (r.1, Ring.fresh r.2.cfg) else r)
    flights := x.flights.filter (fun f => !gone f.ctx)
    vec := dropRun x.vec gone
    copy := dropRun x.copy gone
    eddy := { x.eddy with
      run := dropRun x.eddy.run gone
      bufA := x.eddy.bufA.filter (fun b => !gone b.chain.ctx)
      bufB := x.eddy.bufB.filter (fun b => !gone b.chain.ctx) }
    veer := { x.veer with run := if (x.veer.run.map (fun r => gone r.ctx)).getD false then none else x.veer.run }
    fenceMark := false }

/-- A vane after a retry: the waiters of restarted contexts and of Foehn units leave it, and a step-scoped count returns
to 0 (R227, R294). -/
def Vane.retry (v : Vane) (gone : Fin 4 → Fin 8 → Bool) : Vane :=
  { v with
    count := if v.stepScoped then 0 else v.count
    waiters := v.waiters.filter (fun w =>
      match w.1 with
      | .ctx c k => !gone c k
      | .foehn _ _ => false) }

/-- The core vanes after a retry. (DESIGN CHOICE, log entry 85) -/
def Core.retryVanes (x : Core) (gone : Fin 4 → Fin 8 → Bool) : Core := { x with vanes := x.vanes.map (fun v => v.retry gone) }

/-- A Draught engine after a retry: the descriptors of restarted contexts leave its queue (R227). -/
def Draught.retry (d : Draught) (gone : Fin 4 → Fin 8 → Bool) : Draught :=
  { d with queue := d.queue.filter (fun x => !gone x.core x.ctx) }

/-- The trigger of a group of a Foehn unit (R233): vane and count. -/
def groupTrigger (g : BitVec 512) : VaneId × Nat :=
  (.core (Fin.ofNat 4 (le g 5 1 % 4)) (Fin.ofNat 48 (le g 6 1)), le g 12 2)

/-- A Foehn unit waits on the trigger vane of each group of its table (R236). -/
def State.enlistFoehn (s : State) (n : Fin 12) : State :=
  (s.groupTable n).foldl (fun s g =>
    let (v, k) := groupTrigger g.2
    s.enlist v (.foehn n g.1) k) s

/-- Every Foehn unit's trigger waits begin (R236, R243). -/
def State.enlistFoehns (s : State) : State := (allFin 12).foldl State.enlistFoehn s

/-- A Foehn unit after a retry or a commit: no group due, running or done (R243). -/
def Foehn.restart (f : Foehn) : Foehn :=
  { f with due := [], running := [], toHand := [], done := [], dead := [], withheld := false }

/-- A signal that a retry drops: one that waits for operations of a context that restarts (R227).
(DESIGN CHOICE, log entries 85, 109) -/
def PSig.dropped (p : PSig) (gone : Fin 4 → Fin 8 → Bool) : Bool :=
  match p.after with
  | some (c, k, _) => gone c k
  | none => false

/-- The retry of step s on this device (R227, R243). (DESIGN CHOICE, log entry 85) -/
def State.retryStep (s : State) : State :=
  let take := s.dev.st = .takeover
  let gone := s.restarts
  let s : State := { s with signals := s.signals.filter (fun p => !p.dropped gone) }
  let s : State := { s with
    cores := Vector.ofFn (fun c => (s.core c).retry (gone c) take)
    gales := Vector.ofFn (fun g => (s.gale g).retry (gone (coreOf g)))
    draughts := s.draughts.map (fun d => d.retry gone)
    foehn := s.foehn.map Foehn.restart
    withheld := false
    chainVanes := s.chainVanes.map (fun v => v.retry gone) }
  let s : State := { s with cores := s.cores.map (fun c => c.retryVanes gone) }
  s.enlistFoehns

/-! Orders of the root (R339 to R341, R347). -/

/-- The chunks of a group that its table entry names, by kind, of which state words exist (R233, R245). -/
def groupKinds (g : BitVec 512) : List Nat :=
  match le g 0 1 with
  | 0 => [0]
  | 2 => [0, 1, 2]
  | _ => [0, 1]

/-- Bytes of a chunk (R245). -/
def chunkSize : Nat := 0x400000

/-- Chunks of a range of a group. -/
def groupChunks (g : BitVec 512) : Nat := ceilDiv (2 * le g 8 4) chunkSize

def loadBase (l : BitVec 128) : Nat := le l 0 6
def loadSource (l : BitVec 128) : Nat := le l 6 1
def loadShard (l : BitVec 128) : Nat := le l 7 1
def loadStep (l : BitVec 128) : Nat := le l 8 6

/-- A group lies in the shadow regions that the device holds for its twin (R231, R252). -/
def State.groupOfTwin (s : State) (g : BitVec 512) : Bool :=
  match s.region (le g 16 6) with
  | some r => s.plan.loads.any (fun l => loadBase l == regBase r && loadShard l == 1)
  | none => false

/-- The twin's groups, as the takeover tables of a stack list them (R346); a frame of the twin names them by their place here
(R252). (DESIGN CHOICE, log entry 147) -/
def State.twinGroups (s : State) (n : Fin 12) : List (BitVec 512) :=
  ((s.plan.foehns.get n).takeGroups.map (·.2)).filter s.groupOfTwin

/-- The takeover group tables name the chunks of a step of the device's own (R347, R348). -/
def State.takenAt (s : State) (step : Nat) : Bool :=
  s.dev.st == .takeover && match s.chain.takeStep with | some t => decide (t ≤ step) | none => false

/-- The group table entry that a frame or a proof of a device's step names: the device's own, or its twin's. -/
def State.groupNamed (s : State) (dev step stack group : Nat) : Option (BitVec 512) :=
  let t := s.plan.foehns.get (Fin.ofNat 12 stack)
  if dev = s.self then Tbl.get? (if s.takenAt step then t.takeGroups else t.groups) group
  else (s.twinGroups (Fin.ofNat 12 stack))[group]?

/-- The base of a range of a group by kind (R233). -/
def grpBase (g : BitVec 512) (kind : Nat) : Nat := le g (16 + 6 * kind) 6

/-- Parameters of a group (R233). -/
def grpCount (g : BitVec 512) : Nat := le g 8 4

/-- Device address and byte count of a chunk of a device's parameters as of a step (R245). -/
def State.chunkPlace (s : State) (dev step stack group kind chunk : Nat) : Option (Nat × Nat) :=
  match s.groupNamed dev step stack group with
  | some g =>
    if (groupKinds g).contains kind && chunk < groupChunks g then
      some (grpBase g kind + chunkSize * chunk, min chunkSize (2 * grpCount g - chunkSize * chunk))
    else none
  | none => none

/-- The state chunks of the lost shard that are older than the last committed step (R347). -/
def State.staleShard (s : State) (n : Fin 12) : List (Nat × Nat × Nat) :=
  if s.step = 0 || s.fullStep (s.step - 1) then []
  else (s.plan.foehns.get n).takeGroups.flatMap (fun g =>
    if s.groupOfTwin g.2 then
      ((groupKinds g.2).filter (· != 0)).flatMap (fun k => (List.range (groupChunks g.2)).map (fun i => (g.1, k, i)))
    else [])

/-- The place of a lost device on the fence route falls to its survivor (R347): its children, its parent where the survivor's
own parent was the lost device, and the root's part where it was the root. (DEDUCED, log entry 106) -/
def State.takePlace (s : State) (lost : Nat) : State :=
  let below := (s.chain.parent.map (fun l => (s.link l).peerDev == lost)).getD false
  s.modChain (fun c =>
    { c with
      children := c.children ++ s.plan.takeChildren.filter (fun l => !c.children.contains l)
      isRoot := c.isRoot || s.plan.takeParent.isNone
      parent := if below then s.plan.takeParent else c.parent })

/-- Chunks that await a restore, by the numbers that their groups have in another table (R345, R346). -/
def renumberAwaiting (old new : Tbl (BitVec 512)) (ws : List (Nat × Nat × Nat)) : List (Nat × Nat × Nat) :=
  ws.filterMap (fun w => (Tbl.get? old w.1).bind (fun g =>
    (new.find? (fun e => grpBase e.2 w.2.1 == grpBase g w.2.1)).map (fun e => (e.1, w.2))))

/-- One takeover applied: the survivor stands for the lost device (R347). (DEDUCED, log entry 106) -/
def State.applyTakeover (s : State) (p : Nat × Nat) : State :=
  let peer (l : Fin 36) : Nat := (s.link l).peerDev
  let s := s.modChain (fun c =>
    { c with
      moved := p :: c.moved.filter (fun x => x.1 != p.1)
      takeovers := c.takeovers.filter (fun x => x.1 != p.1)
      children := c.children.filter (fun l => peer l != p.1) })
  if p.2 = s.self then
    let s := s.modDev (fun d => { d with st := .takeover })
    let s := (s.takePlace p.1).modChain (fun c =>
      { c with twin := .takenOver, lostDev := some p.1, takeStep := some s.step, shardSent := false })
    let s : State := { s with foehn := Vector.ofFn (fun n =>
      let t := s.plan.foehns.get n
      { s.fhn n with awaiting := renumberAwaiting t.groups t.takeGroups (s.fhn n).awaiting ++ s.staleShard n }) }
    s.recoveryRecord 4 8 p.1 s.chain.attempt
  else s

/-- A context that has not passed its step entry stands at its takeover entry (R347). -/
def Ctx.toTakeEntry (y : Ctx) : Ctx :=
  match y.takeEntry with
  | some e =>
    if y.entered || y.stepEntry.isNone || y.st = .stopped then y
    else { y with st := .ready, fetchPos := e, execPos := e, queue := [], wait := none, lcF := y.lcX }
  | none => y

/-- The contexts of a core that have not passed their step entry stand at their takeover entry. -/
def Core.toTakeEntries (x : Core) : Core := { x with ctxs := x.ctxs.map Ctx.toTakeEntry }

/-- A vane without the waiters that are contexts of a kind. -/
def Vane.without (v : Vane) (p : Fin 4 → Fin 8 → Bool) : Vane :=
  { v with waiters := v.waiters.filter (fun w => match w.1 with | .ctx c k => !p c k | .foehn _ _ => true) }

/-- The vanes of a core without the waiters that are contexts of a kind. -/
def Core.vanesWithout (x : Core) (p : Fin 4 → Fin 8 → Bool) : Core := { x with vanes := x.vanes.map (·.without p) }

/-- Contexts of a kind leave the lines of every vane. -/
def State.leaveVanes (s : State) (p : Fin 4 → Fin 8 → Bool) : State :=
  { s with cores := s.cores.map (·.vanesWithout p), chainVanes := s.chainVanes.map (·.without p) }

/-- A context that a takeover moves to its takeover entry (R347). -/
def Ctx.takes (y : Ctx) : Bool := y.takeEntry.isSome && !(y.entered || y.stepEntry.isNone || y.st == .stopped)

/-- The contexts of a survivor that have not passed their step entry stand at their takeover entry (R347). -/
def State.takeEntries (s : State) : State :=
  let s := s.leaveVanes (fun c k => (s.ctx c k).takes)
  { s with cores := s.cores.map Core.toTakeEntries }

/-! The ingest channels' part in a retry (R377, R380). -/

def ingBase (e : BitVec 256) : Nat := le e 0 6
def ingBuffers (e : BitVec 256) : Nat := le e 6 1
def ingPerStep (e : BitVec 256) : Nat := le e 7 1
def ingSize (e : BitVec 256) : Nat := le e 8 4
def ingSealed (e : BitVec 256) : Bool := bitAt e 96
def ingLoad (e : BitVec 256) : Bool := bitAt e 97
def ingKeys (e : BitVec 256) : Nat := le e 16 2

/-- The vane of a channel. -/
def ingVane (e : BitVec 256) : VaneId := .core (Fin.ofNat 4 (le e 14 1 % 4)) (Fin.ofNat 48 (le e 13 1))

/-- A channel's signal of its vane, made by the security block (R379). -/
def ingSignal (self n : Nat) (e : BitVec 256) : PSig := ⟨ingVane e, self, n, 0xC, 0x04, 0, none, none, false⟩

/-- Every step-scoped channel vane is signalled again by the number of READY buffers, after the retry (R380). -/
def State.resignalIngest (s : State) : State :=
  (List.range s.plan.ingest.length).foldl (fun s c =>
    match s.plan.ingest[c]?, Tbl.get? s.sec.channels c with
    | some e, some ch =>
      if !ingLoad e && (s.vane (ingVane e)).stepScoped && !ch.ready.isEmpty then s.signalLater (ingSignal s.self ch.ready.length e)
      else s
    | _, _ => s) s

/-- STEPS_ABANDONED counts a step at the first order for it (R350). (DESIGN CHOICE, log entry 108) -/
def State.countAbandoned (s : State) : State := if s.chain.inRetry then s else s.countRec 0

/-- A device acts on RETRY (R340): the order's attempt, takeovers, ABORT of the attempt that ends, the retry and RETRY_DONE, in one handshake.
(DESIGN CHOICE, log entry 108) -/
def State.obeyRetry (s : State) (cause origin attempt : Nat) (pairs : List (Nat × Nat)) : State :=
  let old := s.chain.attempt
  let s := pairs.foldl State.applyTakeover (s.modChain (fun c => { c with attempt := attempt }))
  let s := (s.slipAbort old).countAbandoned
  let s := s.modChain (fun c =>
    { c with
      lastCause := cause, lastAction := 1, retried := pairs.isEmpty, myReports := []
      retrySeen := true, inRetry := true, local_ := false, boundExpired := false, settleSince := none
      reports := [], retrying := c.children })
  let s := s.retryStep.resignalIngest
  let s := if pairs.any (fun p => p.2 == s.self) then s.takeEntries else s
  let s := if pairs.any (fun p => p.2 == s.self) then s.modPorts (fun p => { p with twinOutLow := true }) else s
  let s := ((s.countRec 1).recoveryRecord 1 cause origin attempt).modRst (fun r => { r with wdtSince := s.now })
  s.toParent (s.abandonPacket 3 cause s.self attempt [])

/-- An order on its way down (R340): to every child, and by a survivor also to the fence children of the device it takes
over. -/
def State.orderDown (s : State) (p : Packet) (survivor : Bool) : State :=
  let more := if survivor then s.plan.takeChildren.filter (fun l => !s.chain.children.contains l) else []
  (s.chain.children ++ more).foldl (fun s l => s.sendOn l p) s

/-- A RETRY on its way down (R340). -/
def State.retryDown (s : State) (p : Packet) (pairs : List (Nat × Nat)) : State :=
  s.orderDown p (pairs.any (fun q => q.2 == s.self))

/-- A HALT on its way down (R340): a survivor whose takeover is granted stands for the lost device, be its RETRY still to come.
(DEDUCED, log entry 106) -/
def State.haltDown (s : State) (p : Packet) : State :=
  s.orderDown p (s.chain.twin == .takenOver && (s.chain.role == .member || s.chain.role == .leaving))

/-- RETRY ordered by the root (R339): sent down, then acted on. -/
def State.orderRetry (s : State) (cause origin : Nat) : State :=
  let a := s.chain.attempt + 1
  let pairs := s.chain.takeovers
  (s.retryDown (s.abandonPacket 1 cause origin a pairs) pairs).obeyRetry cause origin a pairs

/-- A device acts on HALT (R251, R341). -/
def State.obeyHalt (s : State) (cause origin : Nat) : State :=
  let s := (s.slipAbort s.chain.attempt).modChain (fun c =>
    { c with lastCause := cause, lastAction := 2, haltSeen := true, myReports := [], settleSince := none })
  let s := (s.countAbandoned.recoveryRecord 2 cause origin s.chain.attempt).fatalStop cause
  ((s.stopLinks false).modDev (fun d => { d with st := .halted })).modRst (fun r => { r with wdtSince := s.now })

/-- HALT ordered by the root (R339). -/
def State.orderHalt (s : State) (cause origin : Nat) : State :=
  (s.haltDown (s.abandonPacket 2 cause origin s.chain.attempt [])).obeyHalt cause origin

/-- The root's action for a cause (R337): 1 retry at once, 2 settle then retry, 3 halt. -/
def causeAction (cause : Nat) : Nat := if cause ≤ 4 then 1 else if cause ≤ 0xA then 2 else 3

/-- A REPORT that has reached the root (R339): its cause, its origin and its attempt. -/
abbrev Heard := Nat × Nat × Nat

/-- The root's action for a REPORT: HALT where the last RETRY carried no takeover (R339). -/
def State.heardAction (s : State) (r : Heard) : Nat := if s.chain.retried then 3 else causeAction r.1

/-- The REPORT that the root takes among those of one handshake: the highest action, then the lowest ORIGIN (R339). -/
def State.heardFirst (s : State) (a b : Heard) : Heard :=
  if s.heardAction a < s.heardAction b || (s.heardAction a == s.heardAction b && b.2.1 < a.2.1) then b else a

/-- A REPORT reaches the root (R339). (DEDUCED, log entry 107) -/
def State.rootHear (s : State) (cause origin attempt : Nat) : State :=
  s.modChain (fun c => { c with inbox := c.inbox ++ [(cause, origin, attempt)] })

/-- A REPORT under an attempt that is over (R339). (DEDUCED, log entry 110) -/
def State.staleReport (s : State) (r : Heard) : State := (s.countRec 5).recoveryRecord 0 r.1 r.2.1 r.2.2

/-- The root acts on the REPORT that it takes (R339). (DEDUCED, log entry 107) -/
def State.rootAct (s : State) (r : Heard) : State :=
  let s := s.modChain (fun c => { c with lastCause := r.1, lastOrigin := r.2.1 })
  if s.heardAction r = 3 then s.orderHalt r.1 r.2.1
  else if s.chain.settleSince.isSome then s
  else if s.heardAction r = 2 then s.modChain (fun c => { c with settleSince := some s.now })
  else s.orderRetry r.1 r.2.1

/-- The root takes the REPORTs of a handshake (R339): those of an attempt that is over are discarded, and it acts on one of the
others. (DEDUCED, log entry 107) -/
def State.rootJudge (s : State) : State :=
  let box := s.chain.inbox
  let s := s.modChain (fun c => { c with inbox := [] })
  if !s.running then s
  else
    let s := (box.filter (fun r => r.2.2 < s.chain.attempt)).foldl State.staleReport s
    match box.filter (fun r => s.chain.attempt ≤ r.2.2) with
    | [] => s
    | r :: rs => s.rootAct (rs.foldl s.heardFirst r)

/-- A REPORT of this device with its present attempt (R338): the root hears its own. -/
def State.report (s : State) (cause : Nat) : State :=
  if s.chain.isRoot then s.rootHear cause s.self s.chain.attempt
  else s.toParent (s.abandonPacket 0 cause s.self s.chain.attempt [])

/-- A device that learns of a failure of step s reports it (R338), before the root judges: one REPORT for each cause. -/
def State.learn (s : State) (cause : Nat) : State :=
  if !s.running || s.chain.myReports.any (fun r => r.1 == cause) then s
  else
    let s := s.modChain (fun c => { c with myReports := c.myReports ++ [(cause, s.now)] })
    (s.recoveryRecord 0 cause s.self s.chain.attempt).report cause

/-- A device that learns of a failure of step s reports it with its present attempt (R338). -/
def State.stepAbandon (s : State) (cause : Nat) : State := (s.learn cause).rootJudge

/-- The device has learned a failure of step s that is not yet answered, or its settle window is open: it neither reports its
fence nor closes the chain (R225). -/
def State.abandoning (s : State) : Bool := !s.chain.myReports.isEmpty || s.chain.settleSince.isSome

/-- A link FAILED for good: its waiting packets leave by other links where a route has one (R318), with its one record, whose
event is a failure, a tag failure or a session refusal (R314, R372). (DESIGN CHOICE, log entry 119) -/
def State.failLink (s : State) (l : Fin 36) (event : Nat := 1) : State :=
  let x := s.link l
  if x.st = .failed then s
  else
    let pkts := x.retry.filterMap (·.pkt) ++
      (allFin 8).flatMap (fun v => (x.cut.get v).filterMap (·.2) ++ x.waiting.get v)
    let s := s.modLink l (fun x => { x.lower with st := .failed })
    let s := s.ask 0x40 (s.unit 6 l 0) (leBytes 1 event ++ leBytes 1 l)
    pkts.foldl (fun s p =>
      match s.linkFor p.dst p.pseq with
      | some (m, _) => s.pushOn m p
      | none => s) s

end Sys2Proof.Machine
end

