-- ==== Sys2Proof/Machine/Issue.lean ====
section
/-! DEFINITION. Issue (R99 to R104): what holds the operation at a context's head, which context of a core issues, and
what every issue and every held attempt do. -/

namespace Sys2Proof.Machine

/-! Fields of TILE (R105). -/

def tileSide (op : BitVec 128) : Nat := field op 12 1
def tileMode (op : BitVec 128) : TMode := (TMode.ofCode (field op 13 3)).getD .mac
def tileM (op : BitVec 128) : Nat := field op 16 9 + 1
def tileN (op : BitVec 128) : Nat := field op 25 9 + 1
def tileK (op : BitVec 128) : Nat := 32 * (field op 34 11 + 1)
def tileKValid (op : BitVec 128) : Nat := tileK op - field op 45 5
def tileFmtA (op : BitVec 128) : Fmt := (Fmt.ofCode (field op 50 4)).getD ⟨.fp16, false⟩
def tileFmtB (op : BitVec 128) : Fmt := (Fmt.ofCode (field op 54 4)).getD ⟨.fp16, false⟩
/-- ACC: 0 ZERO, 1 LOAD, 2 CONTINUE. -/
def tileAcc (op : BitVec 128) : Nat := field op 58 2
def tileDrain (op : BitVec 128) : Bool := bitAt op 60
def tileDrainFmt (op : BitVec 128) : Nat := field op 61 3
def tileRound (op : BitVec 128) : Bool := bitAt op 64
def tileEligible (op : BitVec 128) : Bool := bitAt op 65
def tileDestEddy (op : BitVec 128) : Bool := bitAt op 66
def tileDest (op : BitVec 128) : Nat := field op 80 16
def tileLoadSrc (op : BitVec 128) : Nat := field op 96 16

/-- Gust key selector in bits [127:112]. -/
def opKey (op : BitVec 128) : Nat := field op 112 16

/-! Operands of an operation. -/

/-- Operations of the generic form with memory operands (R105): 0x20 to 0x50. -/
def genericForm (code : Nat) : Bool := 0x20 ≤ code && code ≤ 0x50

/-- The source operands of an operation, with the loop counters it sees. -/
def State.opSrcs (s : State) (c : Fin 4) (lc : Vector Word 8) (op : BitVec 128) : List Opd :=
  if genericForm (opcode op) then [32, 48, 64].filterMap (fun b => s.srcOpd c (field op b 16) lc)
  else if opcode op = 0x10 then (s.srcOpd c (tileLoadSrc op) lc).toList
  else []

/-- The destination operand of an operation. -/
def State.opDst (s : State) (c : Fin 4) (lc : Vector Word 8) (op : BitVec 128) : Option Opd :=
  if genericForm (opcode op) then s.dstOpd c (field op 16 16) lc
  else if opcode op = 0x10 then s.dstOpd c (tileDest op) lc
  else none

/-- The bytes that an operation reads. -/
def State.opReads (s : State) (c : Fin 4) (lc : Vector Word 8) (op : BitVec 128) : List (Nat × Nat) :=
  (s.opSrcs c lc op).flatMap (·.ranges)

/-- The bytes that an operation may write. -/
def State.opWrites (s : State) (c : Fin 4) (lc : Vector Word 8) (op : BitVec 128) : List (Nat × Nat) :=
  match s.opDst c lc op with
  | some o => if o.slot.isSome && opcode op = 0x10 then [] else o.ranges
  | none => []

/-- A destination lies wholly in one range of R137, and outside every parameter region (R229). -/
def State.dstFits (s : State) (o : Opd) : Bool := s.fits o o.ranges && s.outsideParameters o.ranges

/-- The effective base of the first operand that lies in no range of R137, destinations before sources (R137, R445). -/
def State.unmappedOpd (s : State) (dst : Option Opd) (srcs : List Opd) : Option Nat :=
  match dst with
  | some o => if s.dstFits o then (srcs.find? (fun x => !s.fits x x.ranges)).map (·.base) else some o.base
  | none => (srcs.find? (fun x => !s.fits x x.ranges)).map (·.base)

/-- A violation of a context's operation. -/
def State.ctxVio (s : State) (c : Fin 4) (k : Fin 8) (kind addr : Nat) : Vio := ⟨kind, s.unit 0 c k, addr, s.self⟩

/-! The order of ring slots (R102, R113, R114). -/

/-- References of the sources of an execute-side operation. -/
def sourceRefs (op : BitVec 128) : List Nat :=
  if genericForm (opcode op) then [field op 32 16, field op 48 16, field op 64 16]
  else if opcode op = 0x10 then [tileLoadSrc op] else []

/-- A source reference names the ring that an operand stands in, and one of the two releases the slot. -/
def State.refMeets (s : State) (c : Fin 4) (ref : Nat) (o : Opd) : Bool :=
  match s.tdesc c ref, o.slot with
  | some d, some (rc, r, _) => d.ring && d.ringCore == rc && d.ringIdx == r && (ref / 8192 % 2 == 1 || o.release)
  | _, _ => false

/-- An operand that is read row by row stands in the ring of another, and one of the two releases the slot. -/
def Opd.meets (x o : Opd) : Bool :=
  match x.slot, o.slot with
  | some (a, r, _), some (b, q, _) => a == b && r == q && (x.release || o.release)
  | _, _ => false

/-- A descriptor or a LOAD of a context, before a serial number, has still to read the ring that a source stands in.
(DEDUCED, log entry 137) -/
def State.ringUnread (s : State) (c : Fin 4) (k : Fin 8) (serial : Nat) (o : Opd) : Bool :=
  o.slot.isSome &&
    ((allFin 8).any (fun e => (s.drt e).queue.any (fun x => x.core == c && x.ctx == k && !x.moved &&
        decide (x.serial < serial) && (s.refMeets c (le x.raw 4 2) o || s.refMeets c (le x.raw 18 2) o))) ||
      [arrayOf c 0, arrayOf c 1].any (fun g =>
        ((s.gale g).loadWait ++ ([(s.gale g).bank0, (s.gale g).bank1].filter (·.st == .loading)).filterMap (·.chain)).any
          (fun ch => ch.ctx == k && decide (ch.serial < serial) && (ch.load.map (·.meets o)).getD false)))

/-- The chains that an array holds. -/
def Gale.chains (x : Gale) : List Chain :=
  x.opened.toList ++ (x.group.map (·.chain)).toList ++ (x.reducer.map (·.chain)).toList ++ x.bank0.chain.toList ++
    x.bank1.chain.toList

/-- A chain whose drain has still to claim a slot of a ring (R74, R113). -/
def Chain.toClaim (ch : Chain) (q : Fin 4 × Nat) : Bool :=
  ch.drain && !ch.claimed && (ch.dest.bind (·.slot)).map (fun x => (x.1, x.2.1)) == some q

/-- A drain issued on a core has still to claim a slot of a ring: one issued before operation `mine` of a context, or any
(R113). Operations stand in the order of issue among those in flight. (DEDUCED, log entry 137) -/
def State.drainsAhead (s : State) (c : Fin 4) (q : Fin 4 × Nat) (mine : Option (Fin 8 × Nat)) : Bool :=
  let issued := (s.core c).flights.map (fun f => (f.ctx, f.serial))
  let before := match mine with | some m => issued.takeWhile (· != m) | none => issued
  [arrayOf c 0, arrayOf c 1].any (fun g =>
    (s.gale g).chains.any (fun ch => ch.toClaim q && before.contains (ch.ctx, ch.drainSerial)))

/-- A ring destination can be claimed now: its tail slot is EMPTY, and no drain issued before waits for it (R113). -/
def State.ringClaimable (s : State) (c : Fin 4) (o : Opd) (mine : Option (Fin 8 × Nat)) : Bool :=
  match o.slot with
  | some (rc, r, _) => s.dstReady o && !s.drainsAhead c (rc, r) mine
  | none => true

/-! What holds the head (CTX_STATE.BLOCK_CAUSE). -/

/-- The array takes no tile operation of this context now (R71, R72, R92): 3 for another context's open chain, 1 while
it runs another operation or a cross-check, or while the context's own chain is open and the operation does not continue it.
(DESIGN CHOICE, log entry 39) -/
def State.tileBusy (s : State) (c : Fin 4) (k : Fin 8) (op : BitVec 128) : Nat :=
  let x := s.gale (arrayOf c (tileSide op))
  match x.opened with
  | some ch => if ch.ctx != k then 3 else if x.run.isSome || tileAcc op != 2 then 1 else 0
  | none => if x.run.isSome || x.check.isSome then 1 else 0

/-- What holds a COMPACT for its array (R172). -/
def State.compactBusy (s : State) (c : Fin 4) (k : Fin 8) (op : BitVec 128) : Nat :=
  let x := s.gale (arrayOf c (field op 80 1))
  let first := bitAt op 81
  match x.owner with
  | some o => if o != k then 3 else if x.row.free = 0 || x.col.free = 0 || x.check.isSome then 1 else 0
  | none => if !first then 3 else if x.row.free = 0 || x.col.free = 0 || x.check.isSome then 1 else 0

/-- The unit of an operation is busy: a BLOCK_CAUSE, 0 where it is free (R102). A ROUTE runs on the Veer router and does not count
as the Eddy engine's one operation, which R102 leaves open. (DESIGN CHOICE, log entry 152) -/
def State.unitBusy (s : State) (c : Fin 4) (k : Fin 8) (op : BitVec 128) : Nat :=
  let code := opcode op
  let x := s.core c
  if code = 0x10 then s.tileBusy c k op
  else if 0x20 ≤ code && code ≤ 0x27 then
    if x.eddy.run.isSome then 1
    else if code = 0x23 then s.compactBusy c k op
    else if code = 0x24 then
      (if (if field op 80 1 = 0 then x.eddy.bufA else x.eddy.bufB).isEmpty then 1 else 0)
    else 0
  else if 0x30 ≤ code && code ≤ 0x32 then (if x.copy.isSome then 1 else 0)
  else if code = 0x38 || (0x40 ≤ code && code ≤ 0x4A) then (if x.vec.isSome then 1 else 0)
  else if code = 0x50 then (if x.veer.run.isSome then 1 else 0)
  else 0

/-- The other side of an array's core. (DESIGN CHOICE, log entry 40) -/
def partner (g : Fin 8) : Fin 8 := Fin.ofNat 8 (if g.val % 2 = 0 then g.val + 1 else g.val - 1)

/-- The array that runs the checks of an array (R92). (DESIGN CHOICE, log entry 40) -/
def State.checker (s : State) (g : Fin 8) : Fin 8 := if (s.gale (partner g)).health = .failed then g else partner g

/-- A queued check stands ahead of the head of the cross-check context: its own next operation issues once no check waits
(R92). -/
def State.checkHolds (s : State) (c : Fin 4) (k : Fin 8) : Bool :=
  (s.prog c).xchk.ctx == some k.val &&
    [arrayOf c 0, arrayOf c 1].any (fun g => !(s.gale g).xqueue.isEmpty && (s.gale (s.checker g)).check.isNone)

/-- What holds the operation at a context's head: a BLOCK_CAUSE, 0 where it can issue. (DEDUCED, log entry 46) -/
def State.blockOf (s : State) (c : Fin 4) (k : Fin 8) : Nat :=
  let x := s.ctx c k
  if x.st != .ready then 0
  else if x.ending || s.checkHolds c k then 1
  else
    match s.headOp c k with
    | none => 6
    | some op =>
      let lc := x.lcX
      let srcs := s.opSrcs c lc op
      let ringDst := match s.opDst c lc op with | some o => opcode op != 0x10 && !s.ringClaimable c o none | none => false
      if fetchSide (opcode op) then 5
      else if s.unitBusy c k op != 0 then s.unitBusy c k op
      else if s.hazard c k (s.headSerial c k) (s.opReads c lc op) (s.opWrites c lc op) ||
          srcs.any (s.ringUnread c k (s.headSerial c k)) then 2
      else if srcs.any s.srcSpec then 5
      else if srcs.any (fun o => !s.srcReady o) || ringDst then 4
      else 0

/-- A context's own head can issue. -/
def State.canIssue (s : State) (c : Fin 4) (k : Fin 8) : Bool := (s.ctx c k).st == .ready && s.blockOf c k == 0

/-! Cross-checks as candidates for issue (R92). -/

/-- An array can enter weight-stationary mode: both banks free and no chain open (R85). -/
def Gale.canCheck (x : Gale) : Bool :=
  x.bank0.st == .free && x.bank1.st == .free && x.opened.isNone && x.run.isNone && x.group.isNone &&
    x.reducer.isNone && x.check.isNone && x.loadWait.isEmpty && x.held.isEmpty

/-- A check of an array can issue. -/
def State.checkReady (s : State) (g : Fin 8) : Bool :=
  !(s.gale g).xqueue.isEmpty && (s.gale (s.checker g)).canCheck

/-- The cross-check context of a core stands ready to issue a check. -/
def State.checkOffer (s : State) (c : Fin 4) (k : Fin 8) : Bool :=
  s.loaded && (s.prog c).xchk.ctx == some k.val && (s.ctx c k).st != .stopped &&
    (s.checkReady (arrayOf c 0) || s.checkReady (arrayOf c 1))

/-! Arbitration (R100). -/

/-- How far context `k` stands behind the one after `last`, in rotation. -/
def rotation (last k : Fin 8) : Nat := (k.val + 7 - last.val) % 8

/-- The better of two candidates: higher priority, then earlier in rotation. -/
def better (prio : Fin 8 → Nat) (last : Fin 8) (a b : Fin 8) : Fin 8 :=
  if prio a < prio b then b
  else if prio b < prio a then a
  else if rotation last a ≤ rotation last b then a else b

/-- The chosen one among candidates. -/
def choose (prio : Fin 8 → Nat) (last : Fin 8) : List (Fin 8) → Option (Fin 8)
  | [] => none
  | a :: t => match choose prio last t with | none => some a | some b => some (better prio last a b)

/-- The context that issues in this step (R100). -/
def State.chosen (s : State) (c : Fin 4) : Option (Fin 8) :=
  choose (fun k => (s.ctx c k).prio) (s.core c).lastIssued
    ((allFin 8).filter (fun k => s.canIssue c k || s.checkOffer c k))

/-- The operation at a context's head, when it has an opcode and issues in this step (R100). -/
def State.mayIssue (s : State) (c : Fin 4) (k : Fin 8) (code : Nat) : Option (BitVec 128) :=
  if s.running && s.chosen c == some k && s.canIssue c k && !s.checkOffer c k then
    match s.headOp c k with
    | some op => if opcode op = code then some op else none
    | none => none
  else none

/-- An operation issues: it counts, its context is the one that issued last, and it retires (R100, R111, R129). -/
def State.issued (s : State) (c : Fin 4) (k : Fin 8) : State :=
  (s.modCore c (fun x => { x with lastIssued := k, bank := x.bank.add 0 1 })).retire c k

/-- Nothing can issue on a core while some context of it waits to (R129). (DESIGN CHOICE, log entry 47) -/
def State.issueIdle (s : State) (c : Fin 4) : Bool :=
  (s.chosen c).isNone && (allFin 8).any (fun k => (s.ctx c k).st = .ready || (s.ctx c k).st = .waiting)

/-- An attempt that is held for one step: WAIT_STEPS or BLOCKED_STEPS of the context, and ISSUE_IDLE of its core where
nothing issues (R129, R130). A context that is merely not chosen counts nothing. (DESIGN CHOICE, log entry 47) -/
def State.heldStep (s : State) (c : Fin 4) (k : Fin 8) : State :=
  if !s.running then s
  else
    let idle := s.issueIdle c
    let s' :=
      if (s.ctx c k).st = .waiting then s.modCtx c k (fun x => { x with bank := x.bank.add 4 1 })
      else if s.blockOf c k != 0 then s.modCtx c k (fun x => { x with bank := x.bank.add 5 1 })
      else s
    if idle then s'.modCore c (fun x => { x with bank := x.bank.add 1 1 }) else s'

/-- The common form of an execute-side command: the operation at the head, when it issues now, has its effect; otherwise
one step passes in which it is held. -/
def issue (c : Fin 4) (k : Fin 8) (code : Nat) (s : State) (f : BitVec 128 → State → State) : Out :=
  match s.mayIssue c k code with
  | some op => done (f op s)
  | none => done (s.heldStep c k)

end Sys2Proof.Machine
end

