-- ==== Sys2Proof/Machine/Gale.lean ====
section
/-! DEFINITION. Gale arrays (spec/03): TILE and accumulation chains, the broadcasting step and its stalls, the group register
and reducer, the drain path, ACC = LOAD, and the cross-check. -/

namespace Sys2Proof.Machine

/-! Chains. -/

/-- What a bay gives a group that it holds no more of. -/
def noSrc : GroupSrc := ⟨0, none, 0, none, [], []⟩

/-- The accumulators of a chain at the identity of its mode (R70). -/
def Chain.identity (ch : Chain) : List (List Word) := List.replicate ch.m (List.replicate ch.n ch.mode.identity)

/-- A free bank starts a chain at the identity (R70). -/
def Chain.fresh (ch : Chain) : AccBank := ⟨.accumulating, ch.poison, ch.identity, some ch⟩

/-- The bank can take adds of a chain (R72, R73): it is free and needs no LOAD, or it holds this chain. -/
def AccBank.takes (a : AccBank) (ch : Chain) : Bool :=
  match a.st, a.chain with
  | .free, _ => ch.load.isNone
  | .accumulating, some h => h.same ch
  | _, _ => false

/-- The accumulators that an add starts from. -/
def AccBank.start (a : AccBank) (ch : Chain) : List (List Word) := if a.st = .free then ch.identity else a.acc

/-- Poison enters an open chain: it stays for the rest of the chain and is seen (R76). -/
def Gale.poisonChain (x : Gale) : Gale :=
  match x.opened with
  | none => x
  | some ch =>
    let a := x.acc ch.bank
    let mine := match a.chain with | some h => h.same ch | none => false
    let x := if mine then x.setAcc ch.bank { a with poison := true } else x
    { x with opened := some { ch with poison := true }, poisonSeen := true }

/-! TILE (R69 to R71). -/

/-- A new chain takes the bank that the array's previous chain did not use (R71). -/
def State.newChain (s : State) (c : Fin 4) (k : Fin 8) (op : BitVec 128) (serial : Nat) (x : Gale) : Chain :=
  { ctx := k, serial := serial, bank := !x.lastBank, mode := tileMode op, m := tileM op, n := tileN op
    load := if tileAcc op = 1 then s.srcOpd c (tileLoadSrc op) (s.ctx c k).lcX else none
    dest := none, badDest := false, badLoad := false, claimed := false, destEddy := false, drain := false, drainFmt := 0, round := false
    gust := none, eligible := false, srcA := [], srcB := [], valid := [], init := [], poison := false, tag := none
    drainSerial := serial }

/-- The draining operation's parameters taken into its chain (R69, R209). -/
def State.drainParams (s : State) (c : Fin 4) (k : Fin 8) (op : BitVec 128) (serial : Nat) (ch : Chain) : Chain :=
  if tileDrain op then
    let lc := (s.ctx c k).lcX
    let dest := if tileDestEddy op then none else s.dstOpd c (tileDest op) lc
    { ch with
      drain := true
      dest := dest
      badDest := (dest.map (fun o => o.slot.isNone && !s.dstFits o)).getD false
      destEddy := tileDestEddy op
      drainFmt := tileDrainFmt op
      round := tileRound op
      gust := if tileRound op then some (s.gustRef c (opKey op) lc) else none
      eligible := tileEligible op
      drainSerial := serial }
  else ch

/-- TILE issues: it starts or continues a chain of its array (R69 to R71, R74, R137). -/
def tileIssue (c : Fin 4) (k : Fin 8) (op : BitVec 128) (s : State) : State :=
  let g := arrayOf c (tileSide op)
  let x := s.gale g
  let serial := s.headSerial c k
  let ch0 := match x.opened with | some ch => ch | none => s.newChain c k op serial x
  let fresh := x.opened.isNone
  let badLoad := (ch0.load.map (fun o => fresh && !s.fits o o.ranges)).getD false
  let ch := s.drainParams c k op serial (if badLoad then { ch0 with badLoad := true, poison := true } else ch0)
  let vios :=
    (if ch.badDest then (ch.dest.map (fun o => s.ctxVio c k 5 o.base)).toList else []) ++
      (if badLoad then (ch0.load.map (fun o => s.ctxVio c k 5 o.base)).toList else [])
  let x := { x with
    run := some ⟨op, serial, k, 0, false⟩, opened := some ch, lastBank := ch.bank, opMode := ch.mode.code
    poisonSeen := x.poisonSeen || ch.poison }
  let x :=
    if !fresh then x
    else if ch.load.isSome then { x with loadWait := x.loadWait ++ [ch] }.admitLoad
    else if x.bankFor ch then x.setAcc ch.bank ch.fresh
    else x
  let lc := (s.ctx c k).lcX
  let s := (s.modGale g (fun _ => x)).fly c ⟨k, serial, [], s.opWrites c lc op⟩
  let s := if ch.load.isSome && fresh && !badLoad then s.fly c ⟨k, serial, (ch.load.map (·.ranges)).getD [], []⟩ else s
  (s.violateAll vios).issued c k

/-- TILE (R69). -/
def execTile (c : Fin 4) (k : Fin 8) (s : State) : Out := issue c k 0x10 s (tileIssue c k)

/-- The reads, or the writes, of an operation have ended. -/
def State.landedPart (s : State) (c : Fin 4) (k : Fin 8) (serial : Nat) (reads : Bool) : State :=
  s.modCore c (fun x =>
    { x with flights := x.flights.filter (fun f => !(f.ctx == k && f.serial == serial && (!f.reads.isEmpty) == reads)) })

/-! The broadcasting step (R67, R68, R72, R82, R83). -/

/-- A head bay can be broadcast from: FULL or ACTIVE, and not SPEC (R82). -/
def Feeder.ready (f : Feeder) : Bool :=
  match f.headBay with
  | some b => (b.st == .full || b.st == .active) && !b.spec
  | Option.none => false

/-- A head bay is FULL with SPEC set (R83). -/
def Feeder.specHead (f : Feeder) : Bool := match f.headBay with | some b => b.st == .full && b.spec | Option.none => false

/-- The array cannot broadcast for its banks: a closed group stays in the group register (R72), or the bank of an
accumulate-at-once mode cannot take adds yet, which counts as STALL_BANK too. (DESIGN CHOICE, log entry 44) -/
def Gale.bankStall (x : Gale) (r : TileRun) : Bool :=
  if (tileMode r.op).grouped then (x.group.map (·.closed)).getD false
  else match x.opened with
    | some ch => !(x.acc ch.bank).takes ch || ((x.acc ch.bank).st == .free && !x.bankFor ch)
    | none => false

/-- The array broadcasts in this step. -/
def Gale.canBroadcast (x : Gale) : Bool :=
  match x.run with
  | some r => !x.bankStall r && x.row.ready && x.col.ready
  | none => false

/-- The elements of one k of a bay's group, decoded: `n` of them, those beyond the bay's rows +0 (R107). -/
def bayColumn (f : Fmt) (grp : Option BayGroup) (n q : Nat) : List CF :=
  let rows : List (List Nat × Nat) := match grp with | some b => b.rows | Option.none => []
  (List.range n).map (fun i =>
    match rows[i]? with
    | some (codes, scale) => decode f (codes.getD q 0) scale
    | Option.none => CF.zero)

/-- One broadcast of an accumulate-at-once mode on every accumulator (R77). -/
def accAll (mode : TMode) (as bs : List CF) (acc : List (List Word)) : List (List Word) :=
  (acc.zip as).map (fun r => (r.1.zip bs).map (fun e => accStep mode r.2 e.2 e.1))

/-- The head bay of a feeder after one group of it has been broadcast (R82). -/
def Feeder.consume (f : Feeder) : Feeder :=
  match f.headBay with
  | some b => if b.groups.length ≤ 1 then f.release else f.modHead (fun b => { b with groups := b.groups.tail })
  | Option.none => f

/-- Where a broadcast group was read: one without an address of its own keeps its rows (R91). (DESIGN CHOICE, log entry 41) -/
def BayGroup.source (g : BayGroup) : GroupSrc := if g.src.addr.isNone then { g.src with kept := g.rows } else g.src

/-- The term group after one more position. (DESIGN CHOICE, log entry 65) -/
def addPosition (old : Option TermGroup) (ch : Chain) (pair : Option (List CF × List CF)) (closes last : Bool) : TermGroup :=
  let pairs := match old with | some t => t.pairs | none => []
  ⟨ch, pairs ++ pair.toList, closes, last⟩

/-- The array after a broadcast of one position, or of the first half of one (R67, R68, R72, R76, R77). -/
def Gale.broadcast (x : Gale) : Gale :=
  match x.run, x.opened with
  | some r, some ch0 =>
    let mode := tileMode r.op
    let half := (mode = .l2 || mode = .l1) && !r.half
    let x := { x with bank := x.bank.add 0 1 }
    let rowB := x.row.headBay
    let colB := x.col.headBay
    let act (b : Bay) : Bay := { b with st := .active }
    let x := { x with row := x.row.modHead act, col := x.col.modHead act }
    let tag := match rowB with | some b => b.tag | none => Option.none
    let x := { x with opened := some { ch0 with tag := ch0.tag.or tag } }
    let bad := (rowB.map (·.poison)).getD false || (colB.map (·.poison)).getD false
    let x := if bad then x.poisonChain else x
    if half then { x with run := some { r with half := true } }
    else
      let ch := x.opened.getD ch0
      let q := r.kDone % 32
      let rowG := rowB.bind (·.groups.head?)
      let colG := colB.bind (·.groups.head?)
      let as := bayColumn (tileFmtA r.op) rowG ch.m q
      let bs := bayColumn (tileFmtB r.op) colG ch.n q
      let valid := decide (r.kDone < tileKValid r.op)
      let ends := q == 31
      let k' := r.kDone + 1
      let fin := decide (tileK r.op ≤ k')
      let ch := if q = 0 then
          { ch with
            srcA := ch.srcA ++ [(rowG.map (·.source)).getD noSrc]
            srcB := ch.srcB ++ [(colG.map (·.source)).getD noSrc]
            valid := ch.valid ++ [min 32 (tileKValid r.op - r.kDone)] }
        else ch
      let last := fin && ch.drain
      let x :=
        if mode.grouped then
          { x with group := some (addPosition x.group ch (if valid then some (as, bs) else none) ends last) }
        else
          let a := x.acc ch.bank
          let acc := if valid then accAll mode as bs (a.start ch) else a.start ch
          let a' : AccBank := ⟨if last then .waitingDrain else .accumulating, a.poison || ch.poison, acc, some ch⟩
          let x := x.setAcc ch.bank a'
          if last then { x with drainOrder := x.drainOrder ++ [(ch.bank, false)] } else x
      let x := if ends then { x with row := x.row.consume, col := x.col.consume } else x
      { x with
        run := if fin then none else some { r with kDone := k', half := false }
        opened := if last then none else some ch }
  | _, _ => x

/-- A candidate chain at its last add: numbered, and sampled by a Gust word (R89 to R91, R213).
(DEDUCED, log entry 42) -/
def State.sample (s : State) (g : Fin 8) (ch : Chain) : State :=
  let cfg := (s.prog (coreOf g)).xchk
  let x := s.gale g
  if !cfg.enable || !ch.eligible || (x.acc ch.bank).poison || ch.badDest then s
  else
    let n := x.candidates
    let e := s.gustEntry (coreOf g) cfg.key
    let w := gustWord (BitVec.ofNat 32 (le e 0 4)) (BitVec.ofNat 32 (le e 4 4)) 0 3 s.step g.val 0 n
    let x := { x with candidates := n + 1 }
    let x :=
      if w % 2 ^ cfg.log2 != 0 then x
      else if 8 ≤ x.xqueue.length then { x with xchkSkip := true, bank := x.bank.add 10 1 }
      else
        let q := x.xqueue ++ [ch]
        { x with xqueue := q, xhigh := max x.xhigh q.length }
    s.modGale g (fun _ => x)

/-- One array step of array 0, as HLT_RATE counts it. (DESIGN CHOICE, log entry 44) -/
def State.arrayStep (s : State) (g : Fin 8) : State :=
  if g = 0 then s.modHlt (fun h => { h with rateBase := h.rateBase + 1 }) else s

/-- GALE_BROADCAST (R67). -/
def execGaleBroadcast (g : Fin 8) (s : State) : Out :=
  let x := s.gale g
  match x.run with
  | none => stay s
  | some r =>
    if s.running && x.canBroadcast then
      let x' := x.broadcast
      let s' := (s.modGale g (fun _ => x')).arrayStep g
      let s' := if x'.run.isNone && !tileDrain r.op then s'.landedPart (coreOf g) r.ctx r.serial false else s'
      let s' := match x.opened with
        | some ch => if x'.opened.isNone && !(tileMode r.op).grouped then s'.sample g ((x'.acc ch.bank).chain.getD ch) else s'
        | none => s'
      done s'
    else stay s

/-- Which stall a step counts (R83): a counter of R96. -/
def Gale.stallOf (x : Gale) (r : TileRun) : Nat :=
  if x.bankStall r then 4
  else if x.row.specHead || x.col.specHead then 3
  else if !x.row.ready then 1
  else 2

/-- GALE_STALL (R83): a step with a tile operation pending and no broadcast counts exactly one stall. -/
def execGaleStall (g : Fin 8) (s : State) : Out :=
  let x := s.gale g
  match x.run with
  | none => stay s
  | some r =>
    if !s.running || x.canBroadcast then stay s
    else done ((s.modGale g (fun x => { x with bank := x.bank.add (x.stallOf r) 1 })).arrayStep g)

/-! The reducer (R72). -/

/-- GROUP_ENTERS_REDUCER (R72). -/
def execGroupEntersReducer (g : Fin 8) (s : State) : Out :=
  let x := s.gale g
  match x.group, x.reducer with
  | some t, none => if t.closed then done (s.modGale g (fun x => { x with group := none, reducer := some t })) else stay s
  | _, _ => stay s

/-- The sum of a closed group added to every accumulator (R42 to R44). -/
def addGroup (t : TermGroup) (acc : List (List Word)) : List (List Word) :=
  let row (i : Nat) (r : List Word) : List Word :=
    (List.range r.length).map (fun j =>
      fadd (r.getD j 0) (groupSum (t.pairs.map (fun p =>
        groupTerm t.chain.mode (p.1.getD i CF.zero) (p.2.getD j CF.zero)))))
  (List.range acc.length).map (fun i => row i (acc.getD i []))

/-- GROUP_SUM_ADD (R72, R90). -/
def execGroupSumAdd (g : Fin 8) (s : State) : Out :=
  let x := s.gale g
  match x.reducer with
  | none => stay s
  | some t =>
    let ch := t.chain
    let a := x.acc ch.bank
    if a.takes ch then
      let acc := addGroup t (a.start ch)
      let a' : AccBank := ⟨if t.last then .waitingDrain else .accumulating, a.poison || ch.poison, acc, some ch⟩
      let x' := { x.setAcc ch.bank a' with reducer := none }
      let x' := if t.last then { x' with drainOrder := x'.drainOrder ++ [(ch.bank, false)] } else x'
      let s' := s.modGale g (fun _ => x')
      done (if t.last then s'.sample g ch else s')
    else stay s

/-! The drain path (R74, R141, R174). -/

/-- DRAIN_FMT of a chain as an element format. -/
def drainElem (code : Nat) : Elem := ((Fmt.ofDrain code).map (·.elem)).getD .fp32

/-- A drained row converted to DRAIN_FMT (R51 to R53, R69): EQCOUNT carries its raw counts. `flat` is the flat index of
position j. -/
def drainRow (ch : Chain) (row : List Word) (flat : Nat → Nat) : List Nat :=
  (List.range row.length).map (fun j =>
    let w := row.getD j 0
    if ch.mode = .eqcount then w.toNat else convert (drainElem ch.drainFmt) (roundOf ch.gust (flat j)) w)

/-- Bytes of one drained row in an expand buffer, in DRAIN_FMT. -/
def Chain.rowBytes (ch : Chain) : Nat := ch.n * (drainElem ch.drainFmt).bits / 8

/-- Bytes that a side's expand buffer holds (R174). (DESIGN CHOICE, log entry 62) -/
def bufferBytes (b : List ExpandChain) : Nat := b.foldl (fun acc e => acc + e.rows.length * e.chain.rowBytes) 0

/-- The expand buffer of a side. -/
def Eddy.buf (e : Eddy) (side : Nat) : List ExpandChain := if side % 2 = 0 then e.bufA else e.bufB

/-- The expand buffer of a side changed. -/
def Eddy.modBuf (e : Eddy) (side : Nat) (f : List ExpandChain → List ExpandChain) : Eddy :=
  if side % 2 = 0 then { e with bufA := f e.bufA } else { e with bufB := f e.bufB }

/-- The destination of a chain can accept its next row (R74): a slot to claim, or room in the expand buffer. -/
def State.drainAccepts (s : State) (g : Fin 8) (ch : Chain) : Bool :=
  if ch.destEddy then
    let coming := ((s.gale g).held.filter (·.chain.destEddy)).foldl (fun acc h => acc + h.chain.rowBytes) 0
    decide (bufferBytes ((s.core (coreOf g)).eddy.buf g.val) + coming + ch.rowBytes ≤ 2 ^ 20)
  else
    match ch.dest with
    | some o => ch.claimed || s.ringClaimable (coreOf g) o (some (ch.ctx, ch.drainSerial))
    | none => true

/-- The result's address becomes known to a queued or running check of the chain (R91). (DEDUCED, log entry 45) -/
def Gale.aim (x : Gale) (ch : Chain) : Gale :=
  let set (y : Chain) : Chain := if y.same ch then { y with dest := ch.dest, badDest := ch.badDest } else y
  { x with xqueue := x.xqueue.map set, check := x.check.map (fun r => { r with chain := set r.chain }) }

/-- A ring destination takes the tail slot that its drain claims now (R74, R113), which a check of the chain follows.
(DEDUCED, log entry 45) -/
def State.claimDrain (s : State) (g : Fin 8) (ch : Chain) : State × Chain :=
  match ch.dest with
  | some o =>
    match o.slot with
    | some (c, r, i0) =>
      if ch.claimed then (s, ch)
      else
        let i := ((s.ring c r).map (·.tail)).getD 0
        let o' : Opd := { o with slot := some (c, r, i), base := addr64 ((o.base : Int) + s.slotAddr c r i - s.slotAddr c r i0) }
        let bad := !s.dstFits o'
        let s' := s.claimDst o' false
        let s' := if bad then s'.violate (s.ctxVio (coreOf g) ch.ctx 5 o'.base) else s'
        let ch' := { ch with dest := some o', claimed := true, badDest := bad }
        ((s'.modGale g (·.aim ch')).modGale (s.checker g) (·.aim ch'), ch')
    | none => (s, ch)
  | none => (s, ch)

/-- DRAIN_HOLD, and BUFFER_FULL where a full expand buffer holds the row (R74, R174). (DEDUCED, log entry 45) -/
def State.drainHold (s : State) (g : Fin 8) (full : Bool) : State :=
  let s := s.modGale g (fun x => { x with bank := x.bank.add 5 1 })
  if full then s.modEddy (coreOf g) (fun e => { e with bank := e.bank.add 13 1 }) else s

/-- The flat index of an element of a drained row over the extents of DEST (R211). -/
def Chain.flat (ch : Chain) (i j : Nat) : Nat := match ch.dest with | some o => o.d.flat j i 0 0 | none => 0

/-- DRAIN_ROW_READ (R73, R74): the next row of the bank at the head of the drain path's order. Two rows may be on their way,
each within its two steps; a third is held. (DEDUCED, log entry 37) -/
def execDrainRowRead (g : Fin 8) (s : State) : Out :=
  let x := s.gale g
  match x.drainOrder with
  | (b, false) :: rest =>
    let a := x.acc b
    match a.chain with
    | none => stay s
    | some ch =>
      if !s.drainAccepts g ch || 2 ≤ x.held.length then done (s.drainHold g (ch.destEddy && decide (x.held.length < 2)))
      else
        let (s1, ch) := s.claimDrain g ch
        let i := x.drainRow
        let row := a.acc.getD i []
        let codes := if ch.destEddy then row.map (·.toNat) else drainRow ch row (ch.flat i)
        let ends := decide (ch.m ≤ i + 1)
        let ch := { ch with poison := a.poison }
        let held : HeldRow := ⟨ch, i, codes, ends⟩
        done (s1.modGale g (fun x =>
          let x := { x with held := x.held ++ [held], drainBank := b }
          if ends then
            let x := { x.setAcc b AccBank.none with
              drainOrder := rest, drainRow := 0, bank := (x.bank.add 6 1).add 7 (b2n a.poison) }
            x.admitLoad
          else
            { x.setAcc b { a with st := .draining, chain := some ch } with drainRow := i + 1 }))
  | _ => stay s

/-- A row enters the expand buffer of its side, in drain order (R174). (DESIGN CHOICE, log entry 62) -/
def enterBuffer (h : HeldRow) (b : List ExpandChain) : List ExpandChain :=
  let row := (h.row, h.codes, h.chain.poison)
  match b.getLast? with
  | some e => if e.chain.same h.chain && !e.complete then b.dropLast ++ [{ e with rows := e.rows ++ [row], complete := h.last }]
    else b ++ [⟨h.chain, [row], h.last⟩]
  | none => [⟨h.chain, [row], h.last⟩]

/-- The writes of a held row at its destination, padded to whole groups with +0 (R141); poison alone where the destination or
LOAD_SRC lies in no range (R27, R137). (DESIGN CHOICE, log entry 39) -/
def HeldRow.writes (h : HeldRow) : List WBlk :=
  match h.chain.dest with
  | none => []
  | some o =>
    if h.chain.badDest || h.chain.badLoad then (if h.last then o.poisonWrites else [])
    else
      let b := o.d.bits
      (List.range (ceilDiv h.chain.n 32)).map (fun q =>
        let part := (h.codes.drop (32 * q)).take 32
        let bs := packCodes b (part ++ List.replicate (32 - part.length) 0)
        ⟨o.base + o.d.bitOff (32 * q) h.row 0 0 / 8, bs.length, bs, h.chain.poison⟩)

/-- DRAIN_ROW_WRITE (R74): the oldest row on its way is written, or enters the expand buffer.
(DEDUCED, log entry 37; DESIGN CHOICE, log entry 39) -/
def execDrainRowWrite (g : Fin 8) (s : State) : Out :=
  match (s.gale g).held with
  | [] => stay s
  | h :: rest =>
    let c := coreOf g
    let s := s.modGale g (fun x => { x with held := rest })
    let s := if h.chain.destEddy then s.modEddy c (fun e => e.modBuf g.val (enterBuffer h)) else s.landAll h.writes
    if h.last then
      let s := match h.chain.dest with
        | some o => (match o.slot with
          | some (rc, r, i) => s.modRing rc r (fun x => x.fill i (h.chain.poison || h.chain.badDest))
          | none => s)
        | none => s
      done (s.landedPart c h.chain.ctx h.chain.drainSerial false)
    else done s

/-- ACC_LOAD_ROW (R70, R74): a LOAD reads one binary32 row into its bank over the drain path.
(DESIGN CHOICE, log entry 39) -/
def execAccLoadRow (g : Fin 8) (s : State) : Out :=
  let x := s.gale g
  match x.drainOrder with
  | (b, true) :: rest =>
    let a := x.acc b
    match a.chain with
    | none => stay s
    | some ch =>
      match ch.load with
      | none => stay s
      | some o =>
        if !s.srcReady o && !ch.badLoad then stay s
        else
          let i := x.drainRow
          let row := if ch.badLoad then (s.freeCodes ch.n).map (BitVec.ofNat 32)
            else (List.range ch.n).map (fun j => BitVec.ofNat 32 (s.code o j i 0 0))
          let s := if ch.badLoad then s.spent ch.n else s
          let ranges := if ch.badLoad then [] else (List.range (ceilDiv ch.n 32)).map (fun q => (o.base + o.d.bitOff (32 * q) i 0 0 / 8, 128))
          let bad := ch.badLoad || s.anyPoison ranges || (i == 0 && s.srcPoison { o with d := { o.d with ext := [] } })
          let ends := decide (ch.m ≤ i + 1)
          let acc := a.acc ++ [row]
          let poison := a.poison || bad
          let ch' := { ch with init := if ends then acc else ch.init, poison := poison }
          let mark (y : Chain) : Chain := if y.same ch then { y with init := ch'.init, poison := y.poison || poison } else y
          let s := s.touch ranges
          let s := s.modGale g (fun x =>
            let x := x.setAcc b ⟨if ends then .accumulating else .loading, poison, acc, some ch'⟩
            { x with
              opened := x.opened.map mark
              group := x.group.map (fun t => { t with chain := mark t.chain })
              reducer := x.reducer.map (fun t => { t with chain := mark t.chain })
              poisonSeen := x.poisonSeen || poison
              drainOrder := if ends then rest else x.drainOrder
              drainBank := b
              drainRow := if ends then 0 else i + 1 })
          if ends then done ((s.releaseSrc o).landedPart (coreOf g) ch.ctx ch.serial true) else done s
  | _ => stay s

/-! The cross-check (R89 to R95). -/

/-- The codes and scale of one group-row of a recorded operand group. (DESIGN CHOICE, log entry 41) -/
def State.recorded (s : State) (src : GroupSrc) (i : Nat) : List CF :=
  let f := (Fmt.ofCode src.fmt).getD ⟨.fp16, false⟩
  match src.addr with
  | none =>
    match src.kept[i]? with
    | some (codes, scale) => (List.range 32).map (fun e => decode f (codes.getD e 0) scale)
    | none => List.replicate 32 CF.zero
  | some a =>
    if src.rows ≤ i then List.replicate 32 CF.zero
    else
      let scale := match src.scale with | some x => ofLe (s.peek (x + i) 1) | none => 127
      (unpackCodes f.elem.bits 32 (s.peek (a + i * 4 * f.elem.bits) (4 * f.elem.bits))).map (fun b => decode f b scale)

/-- The byte ranges of a recorded operand group; a gathered group's are those that it was gathered from.
(DESIGN CHOICE, log entry 41) -/
def GroupSrc.ranges (src : GroupSrc) : List (Nat × Nat) :=
  let f := (Fmt.ofCode src.fmt).getD ⟨.fp16, false⟩
  match src.addr with
  | Option.none => src.reads
  | some a => [(a, src.rows * 4 * f.elem.bits)] ++ (src.scale.map (fun x => (x, src.rows))).toList

/-- What bank 0 holds of B in the pass whose first group is `first`: for each of its groups and each column, the elements
(R86). -/
def State.passWeights (s : State) (ch : Chain) (first : Nat) : List (List (List CF)) :=
  ((ch.srcB.drop first).take 16).map (fun src => (List.range ch.n).map (s.recorded src))

/-- The running values of one row before the first pass (R86): the identity of the mode, or the tile that was loaded. -/
def Chain.startRow (ch : Chain) (i : Nat) : List Word :=
  (List.range ch.n).map (fun j => if ch.load.isSome then (ch.init.getD i []).getD j 0 else ch.mode.identity)

/-- Row i of a chain after one weight-stationary pass over the weights in bank 0 (R86, R46). -/
def State.passRow (s : State) (ch : Chain) (first : Nat) (weights : List (List (List CF))) (i : Nat) (row : List Word) :
    List Word :=
  let rowA := (List.range weights.length).map (fun p => s.recorded (ch.srcA.getD (first + p) noSrc) i)
  (List.range ch.n).map (fun j =>
    (List.range weights.length).foldl (fun acc p =>
      let pairs := ((rowA.getD p []).zip ((weights.getD p []).getD j [])).take (ch.valid.getD (first + p) 0)
      if ch.mode.grouped then fadd acc (groupSum (pairs.map (fun e => groupTerm ch.mode e.1 e.2)))
      else pairs.foldl (fun acc e => accStep ch.mode e.1 e.2 acc) acc) (row.getD j 0))

/-- The partial rows that bank 1 holds before the last of a number of passes (R86). -/
def State.partialRows (s : State) (ch : Chain) (passes : Nat) : List (List Word) :=
  (List.range (passes - 1)).foldl (fun rows p =>
    let w := s.passWeights ch (16 * p)
    (List.range ch.m).map (fun i => s.passRow ch (16 * p) w i (rows.getD i []))) ((List.range ch.m).map ch.startRow)

/-- Steps that one row of A takes in a weight-stationary pass (R86). -/
def Chain.rowSteps (ch : Chain) : Nat := if ch.mode = .l2 || ch.mode = .l1 then 2 else 1

/-- XCHK_ISSUE (R86, R92): a queued check of array g issues for the cross-check context, on the array that runs it. Its
passes before the last leave their partial rows in bank 1, and bank 0 holds the weights of the last; the steps of those
passes count now, and the last pass's rows as they are compared. SELF_CHECK shows from here on that the array checks itself, not
from the start of the plan, of which R89 says nothing. (DESIGN CHOICE, log entries 40, 41, 151) -/
def execXchkIssue (g : Fin 8) (s : State) : Out :=
  let c := coreOf g
  match (s.prog c).xchk.ctx, (s.gale g).xqueue with
  | some kx, ch :: rest =>
    let k : Fin 8 := Fin.ofNat 8 kx
    if s.running && s.chosen c == some k && s.checkOffer c k && s.checkReady g then
      let w := s.checker g
      let passes := max 1 (ceilDiv ch.valid.length 16)
      let first := 16 * (passes - 1)
      let bad := s.anyPoison ((ch.srcA ++ ch.srcB).flatMap (·.ranges))
      let run : XchkRun := ⟨ch, g, s.passWeights ch first, first, 0, false, bad⟩
      let held : AccBank := if passes = 1 then AccBank.none else ⟨.partials, false, s.partialRows ch passes, none⟩
      let before := (passes - 1) * (ch.rowSteps * ch.m)
      let s := s.modGale g (fun x => { x with xqueue := rest, selfCheck := w == g })
      let s := s.modGale w (fun x =>
        { x with
          ws := true, check := some run, bank0 := ⟨.weights, false, [], none⟩, bank1 := held
          bank := (x.bank.add 11 (before + passes * 1087)).add 0 before })
      done (s.modCore c (fun x => { x with lastIssued := k, bank := x.bank.add 0 1 }))
    else stay s
  | _, _ => stay s

/-- Row i of a running check as it leaves the bottom of the array (R86). -/
def State.checkRow (s : State) (w : Fin 8) (r : XchkRun) : List Word :=
  let b := (s.gale w).bank1
  let start := if b.st = .partials then b.acc.getD r.row [] else r.chain.startRow r.row
  s.passRow r.chain r.first r.weights r.row start

/-- The drain has written row i of a chain (R74). -/
def Gale.wrote (x : Gale) (ch : Chain) (i : Nat) : Bool :=
  !x.held.any (fun h => h.chain.same ch && h.row == i) &&
    match (x.acc ch.bank).chain with
    | some y => !y.same ch || (x.drainOrder.head? == some (ch.bank, false) && decide (i < x.drainRow))
    | none => true

/-- The codes of the result row that the core store holds. -/
def State.storedRow (s : State) (ch : Chain) (i : Nat) : List Nat :=
  match ch.dest with
  | some o => (List.range ch.n).map (fun j => s.code o j i 0 0)
  | none => []

/-- A check ends: the array leaves weight-stationary mode with both banks free (R85). -/
def Gale.endCheck (x : Gale) : Gale :=
  { x with ws := false, check := none, bank0 := AccBank.none, bank1 := AccBank.none }.admitLoad

/-- The poison of the operands that a check reads (R93), those of the last pass's rows as they are read. -/
def State.checkPoison (s : State) (r : XchkRun) : Bool :=
  r.poison || s.anyPoison ((r.chain.srcA.drop r.first).flatMap (·.ranges))

/-- The poison of the stored row that a check reads (R93). -/
def State.storedPoison (s : State) (ch : Chain) (i : Nat) : Bool :=
  match ch.dest with
  | some o => s.anyPoison ((List.range (ceilDiv ch.n 32)).map (fun q => (o.base + o.d.bitOff (32 * q) i 0 0 / 8, 4 * o.d.bits)))
  | none => false

/-- The chain's result stands in the core store, where a check can read it; a result whose ring slot turned out to lie in
no range is poisoned (R27, R93). (DESIGN CHOICE, log entry 41) -/
def Chain.recordedWhole (ch : Chain) : Bool := ch.dest.isSome && !ch.badDest

/-- The effects of a first mismatching row (R95). (DEDUCED, log entry 43) -/
def State.mismatch (s : State) (g w : Fin 8) (ch : Chain) (i j : Nat) : State :=
  let addr := (ch.dest.map (·.base)).getD 0
  let sus (h : Health) : Health := if h = .failed then .failed else .suspect
  let s := s.modGale g (fun x =>
    let x := if x.mismatch then x else { x with mmAddr := addr, mmRow := i, mmCol := j, mmValid := true }
    { x with mismatch := true, bank := x.bank.add 9 1, health := sus x.health })
  let s := s.modGale w (fun x => { x with health := sus x.health })
  let s := s.ask 0x32 (s.unit 3 g 0) (leBytes 6 addr ++ leBytes 2 i ++ leBytes 2 j)
  { s with withheld := true }.stepAbandon 4

/-- XCHK_ROW_COMPARE (R92, R93, R95): array w compares the next result row of the check that it runs, once the drain has
written the row that it compares with. (DESIGN CHOICE, log entry 40) -/
def execXchkRowCompare (w : Fin 8) (s : State) : Out :=
  match (s.gale w).check with
  | none => stay s
  | some r =>
    let ch := r.chain
    let i := r.row
    if !ch.recordedWhole || s.checkPoison r then done (s.modGale w Gale.endCheck)
    else if !(s.gale r.owner).wrote ch i then stay s
    else if s.storedPoison ch i then done (s.modGale w Gale.endCheck)
    else
      let s := s.modGale w (fun x => { x with bank := (x.bank.add 11 ch.rowSteps).add 0 ch.rowSteps })
      let codes := drainRow ch (s.checkRow w r) (ch.flat i)
      let stored := s.storedRow ch i
      let diff := (List.range ch.n).find? (fun j => codes.getD j 0 != stored.getD j 0)
      let s1 := match diff with
        | some j => if r.bad then s else s.mismatch r.owner w ch i j
        | none => s
      if ch.m ≤ i + 1 then
        done ((s1.modGale r.owner (fun x => { x with bank := x.bank.add 8 1 })).modGale w Gale.endCheck)
      else
        done (s1.modGale w (fun x =>
          { x with check := x.check.map (fun y => { y with row := i + 1, bad := y.bad || diff.isSome }) }))

end Sys2Proof.Machine
end

