-- ==== Sys2Proof/Machine/Foehn.lean ====
section
/-! DEFINITION. Foehn units (spec/09, R233 to R244): groups that become due, their start with the poison checks, the update
rules, the hand-over of chunks to the slipstream, and completion; and signals that take effect in the handshake that
makes them (R159, R287, R295). -/

namespace Sys2Proof.Machine

/-! Fields of a group table entry (R233). -/

def grpRule (g : BitVec 512) : Nat := le g 0 1
def grpRne (g : BitVec 512) : Bool := bitAt g 8
def grpStop (g : BitVec 512) : Bool := bitAt g 9
def grpDoneEn (g : BitVec 512) : Bool := bitAt g 10
def grpWElem (g : BitVec 512) : Elem := if field g 16 2 = 0 then .bf16 else .fp16
def grpSElem (g : BitVec 512) : Elem := if field g 18 2 = 0 then .bf16 else .fp16
def grpGBf16 (g : BitVec 512) : Bool := bitAt g 20
def grpGBase (g : BitVec 512) : Nat := le g 34 6
def grpConst (g : BitVec 512) (i : Nat) : Word := BitVec.ofNat 32 (le g (40 + 4 * i) 4)
def grpDone (g : BitVec 512) : VaneId :=
  .core (Fin.ofNat 4 (le g 14 1 % 4)) (Fin.ofNat 48 (le g 7 1))

/-- Bytes of a gradient element. -/
def grpGSize (g : BitVec 512) : Nat := if grpGBf16 g then 2 else 4

/-- The schedule entry in force in step n: the last whose FIRST_STEP is at or below it (R234). -/
def schedAt (t : List (BitVec 192)) (n : Nat) : BitVec 192 :=
  ((t.filter (fun e => le e 0 8 % 2 ^ 48 ≤ n)).getLast?).getD 0

/-! The update rules (R238). -/

/-- The constants of an update: those of the group, the schedule's, and the function table. -/
structure UpdEnv where
  gscale : Word
  wd : Word
  b1 : Word
  omb1 : Word
  b2 : Word
  omb2 : Word
  lr : Word
  c1 : Word
  c2 : Word
  func : Word → Word

/-- sgn of R238. -/
def fsgn (x : Word) : Word :=
  if isNaN x then f32NaN else if isZero x then 0#32 else if bitAt x 31 then 0xBF800000#32 else 0x3F800000#32

/-- One element's new weight and state words in binary32, from its weight, state words and gradient (R238). -/
def updateRule (rule : Nat) (e : UpdEnv) (w m v gIn : Word) : Word × List Word :=
  let g := if e.gscale = 0x3F800000#32 then gIn else fmul e.gscale gIn
  let nlr := fneg e.lr
  match rule with
  | 0 => (ffma nlr (ffma e.wd w g) w, [])
  | 1 =>
    let u := ffma e.b1 m g
    (ffma nlr (ffma e.wd w u) w, [u])
  | 2 =>
    let m' := ffma e.b1 m (fmul e.omb1 g)
    let v' := ffma e.b2 v (fmul e.omb2 (fmul g g))
    let r := e.func (fmul e.c2 v')
    let d := ffma e.wd w (fmul (fmul e.c1 m') r)
    (ffma nlr d w, [m', v'])
  | _ =>
    let c := ffma e.b1 m (fmul e.omb1 g)
    let d := ffma e.wd w (fsgn c)
    (ffma nlr d w, [ffma e.b2 m (fmul e.omb2 g)])

/-- A result is non-finite, or its stored value is (R242). -/
def nonFinite (el : Elem) (w : Word) (code : Nat) : Bool :=
  !isFinite w || !isFinite (decodeF32 ⟨el, false⟩ code 127)

/-- What the words of the Foehn key that R239 forms for a group need: the position of its weight's region among the load
table's entries of its shard, and the region's base. -/
def State.gustPlace (s : State) (g : BitVec 512) : Nat × Nat :=
  match s.region (grpBase g 0) with
  | none => (0, 0)
  | some r =>
    let entries := s.plan.loads
    let shard := ((entries.find? (fun l => loadBase l == regBase r)).map loadShard).getD 0
    (((entries.filter (fun l => loadShard l == shard)).findIdx (fun l => loadBase l == regBase r)), regBase r)

/-- The rounding of word kind k of element i of a group (R239). -/
def State.foehnRound (s : State) (g : BitVec 512) (kind i : Nat) : Round :=
  if grpRne g then .rne
  else
    let (r, base) := s.gustPlace g
    let e := (grpBase g 0 + 2 * i - base) / 2
    let key := s.plan.foehnKey.toNat
    .sr (gustWord (BitVec.ofNat 32 key) (BitVec.ofNat 32 (key / 2 ^ 32)) 0 4 s.step (4 * r + kind) (e / 2 ^ 32) (e % 2 ^ 32))

/-- The environment of a group's updates in step s. -/
def State.updEnv (s : State) (n : Fin 12) (g : BitVec 512) : UpdEnv :=
  let st := s.plan.foehns.get n
  let sc := schedAt ((Tbl.get? st.scheds (le g 3 1)).getD []) s.step
  let tab := FuncTab.parse ((Tbl.get? st.funcs (le g 4 1)).getD [])
  { gscale := grpConst g 0, wd := grpConst g 1, b1 := grpConst g 2, omb1 := grpConst g 3, b2 := grpConst g 4
    omb2 := grpConst g 5, lr := BitVec.ofNat 32 (le sc 8 4), c1 := BitVec.ofNat 32 (le sc 12 4)
    c2 := BitVec.ofNat 32 (le sc 16 4), func := tab.eval }

/-- A 16-bit word of a group in its committed half, decoded (R229, R238). -/
def State.foehnWord (s : State) (el : Elem) (base i : Nat) : Word :=
  decodeF32 ⟨el, false⟩ (ofLe (s.peek (base + 2 * i) 2)) 127

/-- The gradient of element i. -/
def State.gradient (s : State) (g : BitVec 512) (i : Nat) : Word :=
  if grpGBf16 g then decodeF32 ⟨.bf16, false⟩ (ofLe (s.peek (grpGBase g + 2 * i) 2)) 127
  else BitVec.ofNat 32 (ofLe (s.peek (grpGBase g + 4 * i) 4))

/-- The stored words of element i after its update, by kind: element format, binary32 result and code (R238, R239). -/
def State.updateElem (s : State) (n : Fin 12) (g : BitVec 512) (i : Nat) : List (Elem × Word × Nat) :=
  let ks := groupKinds g
  let st (k : Nat) : Word := if ks.contains k then s.foehnWord (grpSElem g) (grpBase g k) i else 0
  let (w, ss) := updateRule (grpRule g) (s.updEnv n g) (s.foehnWord (grpWElem g) (grpBase g 0) i) (st 1) (st 2)
    (s.gradient g i)
  (List.range (ss.length + 1)).map (fun k =>
    let el := if k = 0 then grpWElem g else grpSElem g
    let v := if k = 0 then w else ss.getD (k - 1) 0
    (el, v, convert el (s.foehnRound g k i) v))

/-! Blocks: the elements of one chunk of the weight range, and of the state ranges beside it (R245). -/

/-- Elements of a chunk. -/
def blockElems : Nat := chunkSize / 2

/-- Bytes in the slipstream's buffer (R244). -/
def Slip.used (x : Slip) : Nat := x.chunks.foldl (fun acc c => acc + c.bytes.length) 0

/-- The slipstream's buffer: 64 MiB. -/
def slipBuffer : Nat := 0x4000000

/-- The kinds of a group's chunks that step s hands to the slipstream (R244). -/
def State.sentKinds (s : State) (g : BitVec 512) : List Nat :=
  if s.fullStep s.step then groupKinds g else [0]

/-- The buffer can take a whole chunk (R244). (DESIGN CHOICE, log entry 79) -/
def State.slipRoom (s : State) : Bool := decide (s.slip.used + chunkSize ≤ slipBuffer)

/-- A chunk handed to the slipstream, with its leaf (R244, R245, R248). -/
def State.handChunk (s : State) (n : Fin 12) (gi : Nat) (g : BitVec 512) (b kind : Nat) : State :=
  let len := min chunkSize (2 * grpCount g - chunkSize * b)
  let bytes := s.peek (grpBase g kind + chunkSize * b) len true
  s.modSlip (fun x =>
    { x with
      chunks := x.chunks ++ [⟨s.step, s.chain.attempt, n, gi, kind, b, bytes, Vector.replicate 2 false, Vector.replicate 2 false,
        Vector.replicate 2 0⟩]
      leaves := insLeaf ⟨n, gi, kind, b, len, sha384 bytes⟩ x.leaves })

/-- The chunks of a group's updated blocks that wait for room in the buffer (R244). -/
def Foehn.waitsToHand (f : Foehn) (gi : Nat) : List (Nat × Nat) := (Tbl.get? f.toHand gi).getD []

/-- Waiting chunks of a group handed to the slipstream while the buffer can take a whole chunk (R244); `fuel` bounds them.
(DESIGN CHOICE, log entry 79) -/
def State.handWaiting (s : State) (n : Fin 12) (gi : Nat) (g : BitVec 512) : Nat → State
  | 0 => s
  | fuel + 1 =>
    match (s.fhn n).waitsToHand gi with
    | [] => s
    | (b, k) :: rest =>
      if !s.slipRoom then s
      else
        let s := (s.handChunk n gi g b k).modFhn n (fun f =>
          { f with toHand := if rest.isEmpty then Tbl.erase f.toHand gi else Tbl.set f.toHand gi rest })
        s.handWaiting n gi g fuel

/-- Block `b` of a group updated: its words written to the working halves, counted, and its chunks ready to be handed on (R236
to R244). -/
def State.storeBlock (s : State) (n : Fin 12) (gi : Nat) (g : BitVec 512) (b : Nat) : State :=
  let first := blockElems * b
  let count := min blockElems (grpCount g - first)
  let res := (List.range count).map (fun i => s.updateElem n g (first + i))
  let bad := res.foldl (fun acc r => acc + (r.filter (fun x => nonFinite x.1 x.2.1 x.2.2)).length) 0
  let s1 := (groupKinds g).foldl (fun t k =>
    t.writeBytes (grpBase g k + 2 * first) (res.flatMap (fun r => leBytes 2 ((r.getD k (.bf16, 0, 0)).2.2))) false true) s
  let chunks := (s.sentKinds g).map (fun k => (b, k))
  let s2 := s1.modFhn n (fun f =>
    { f with
      running := Tbl.set f.running gi (b + 1, ((Tbl.get? f.running gi).map (·.2)).getD false || bad != 0)
      toHand := Tbl.set f.toHand gi (f.waitsToHand gi ++ chunks)
      nonfiniteSeen := f.nonfiniteSeen || (grpStop g && bad != 0)
      bank := (f.bank.add 0 count).add 4 bad })
  s2.handWaiting n gi g chunks.length

/-! Poison that a group reads (R240, R241). -/

/-- A poisoned line that a group reads: the first element that reads it, its kind (0 weight, 1 and 2 state, 3 gradient)
and its address. -/
def State.poisonedLines (s : State) (base size count kind : Nat) : List (Nat × Nat × Nat) :=
  ((linesOf [(base, size * count)]).filter (fun l => (s.peekLine (64 * l)).2)).map (fun l =>
    ((64 * l - base) / size, kind, 64 * l))

/-- All poisoned lines that a group reads. -/
def State.groupPoison (s : State) (g : BitVec 512) : List (Nat × Nat × Nat) :=
  (groupKinds g).flatMap (fun k => s.poisonedLines (grpBase g k) 2 (grpCount g) k) ++
    s.poisonedLines (grpGBase g) (grpGSize g) (grpCount g) 3

/-- The one of two lines that the unit reads first (R241). -/
def firstRead (a b : Nat × Nat × Nat) : Nat × Nat × Nat :=
  if b.1 < a.1 || (b.1 == a.1 && b.2.1 < a.2.1) then b else a

/-- The chunk (group, kind, chunk) of a poisoned weight or state line. -/
def poisonChunk (gi : Nat) (g : BitVec 512) (p : Nat × Nat × Nat) : Nat × Nat × Nat :=
  (gi, p.2.1, (p.2.2 - grpBase g p.2.1) / chunkSize)

/-- The poisoned lines of one block of a group. -/
def State.blockPoison (s : State) (g : BitVec 512) (b : Nat) : List (Nat × Nat × Nat) :=
  let first := blockElems * b
  let count := min blockElems (grpCount g - first)
  (groupKinds g).flatMap (fun k => s.poisonedLines (grpBase g k + 2 * first) 2 count k) ++
    s.poisonedLines (grpGBase g + grpGSize g * first) (grpGSize g) count 3

/-- A group that has read poisoned lines stops for the step (R240, R241, R345). -/
def State.poisonStop (s : State) (n : Fin 12) (gi : Nat) (g : BitVec 512) (bad : List (Nat × Nat × Nat)) : State :=
  match bad with
  | [] => s
  | b0 :: _ =>
    let first := bad.foldl firstRead b0
    let grads := bad.filter (fun p => p.2.1 = 3)
    let params := bad.filter (fun p => p.2.1 != 3)
    let s := s.modFhn n (fun f =>
      { f with
        running := Tbl.erase f.running gi
        toHand := Tbl.erase f.toHand gi
        dead := f.dead ++ [gi]
        withheld := true
        gradPoisonSeen := f.gradPoisonSeen || !grads.isEmpty
        paramPoisonSeen := f.paramPoisonSeen || !params.isEmpty
        pAddr := if f.pValid then f.pAddr else first.2.2
        pKind := if f.pValid then f.pKind else first.2.1 != 3
        pValid := true
        awaiting := params.foldl (fun acc p =>
          if acc.contains (poisonChunk gi g p) then acc else acc ++ [poisonChunk gi g p]) f.awaiting
        bank := (f.bank.add 2 grads.length).add 3 params.length })
    bad.foldl (fun s p => s.ask 0x31 (s.unit 4 n 0) (leBytes 6 p.2.2 ++ leBytes 1 (b2n (p.2.1 != 3)))) s

/-- What the units have met in poison between two states is reported: PARAM_POISON before GRAD_POISON (R240, R241). -/
def State.reportPoison (s' s : State) : State :=
  let dead (t : State) (n : Fin 12) : Nat := (t.fhn n).dead.length
  let await (t : State) (n : Fin 12) : Nat := ((t.fhn n).bank.val 3)
  if (allFin 12).any (fun n => await s n != await s' n) then s'.stepAbandon 2
  else if (allFin 12).any (fun n => dead s n < dead s' n) then s'.stepAbandon 1
  else s'

/-- Block `b` of a group read, and updated unless a line of it has become poisoned (R236 to R244).
(DESIGN CHOICE, log entry 78) -/
def State.updateBlock (s : State) (n : Fin 12) (gi : Nat) (g : BitVec 512) (b : Nat) : State :=
  match s.blockPoison g b with
  | [] => s.storeBlock n gi g b
  | bad => s.poisonStop n gi g bad

/-- The blocks of a group to its last updated and handed on, while the buffer can take a chunk (R244); `fuel` bounds them.
(DESIGN CHOICE, log entry 78) -/
def State.updateBlocks (s : State) (n : Fin 12) (gi : Nat) (g : BitVec 512) : Nat → State
  | 0 => s
  | fuel + 1 =>
    match Tbl.get? (s.fhn n).running gi with
    | none => s
    | some (b, _) =>
      let s := s.handWaiting n gi g ((s.fhn n).waitsToHand gi).length
      if groupChunks g ≤ b || !((s.fhn n).waitsToHand gi).isEmpty || !s.slipRoom then s
      else (s.updateBlock n gi g b).updateBlocks n gi g fuel

/-! Starting a group (R236, R240, R241). -/

/-- A group starts: it reads its lines; a poisoned one stops it for the step (R240, R241). -/
def State.startGroup (s : State) (n : Fin 12) (gi : Nat) : State :=
  match Tbl.get? (s.groupTable n) gi with
  | none => s
  | some g =>
    let ranges := (groupKinds g).map (fun k => (grpBase g k, 2 * grpCount g)) ++ [(grpGBase g, grpGSize g * grpCount g)]
    let bad := s.groupPoison g
    let s := s.touch ranges
    let s := s.modFhn n (fun f => { f with due := f.due.filter (· != gi), last := gi })
    match bad with
    | [] => s.modFhn n (fun f => { f with running := Tbl.set f.running gi (0, false) })
    | _ => s.poisonStop n gi g bad

/-- The lowest due group of a unit that may start (R236, R345). -/
def Foehn.nextDue (f : Foehn) : Option Nat :=
  if 4 ≤ f.running.length then none
  else (f.due.filter (fun g => !f.awaiting.any (fun a => a.1 == g))).foldl (fun acc g =>
    match acc with
    | some h => some (min h g)
    | none => some g) none

/-- Due groups of a unit start, up to 4 at a time, in increasing entry index (R236); `fuel` bounds them. -/
def State.startUnit (s : State) (n : Fin 12) : Nat → State
  | 0 => s
  | fuel + 1 =>
    match (s.fhn n).nextDue with
    | some g => (s.startGroup n g).startUnit n fuel
    | none => s

/-- Due groups of every unit start, and what they found is reported (R236, R240, R241, R345). -/
def State.startDue (s : State) : State :=
  ((allFin 12).foldl (fun s n => s.startUnit n (s.fhn n).due.length) s).reportPoison s

/-! Signals that take effect in the handshake that makes them. -/

/-- A signal at its turn: applied to a local vane, or sent to its device (R287, R292). Answers the state and what it
violates. -/
def State.turnSignal (s : State) (p : PSig) : State × List Vio :=
  match p.vane with
  | .core .. =>
    let (s', v) := s.applySignal p.vane p.n (srcWord s.self p.kindSrc p.unit p.ctx) p.fromDev.isSome
    (s', v.toList)
  | .chain k =>
    if s.isLocal p.target then
      let src := match p.fromDev with
        | some d => srcWord d p.kindSrc p.unit p.ctx
        | none => srcWord s.self p.kindSrc p.unit p.ctx
      let (s', v) := s.applySignal p.vane p.n src p.fromDev.isSome
      (s', v.toList)
    else
      let pkt := mkPkt 0x05 p.target k.val p.n []
      let pkt := { pkt with req := reqOf p.kindSrc p.unit p.ctx }
      let q := s.nextPseq (s.addressed p.target) 0
      match s.send? pkt with
      | some s' =>
        let s' := s'.countVane (Fin.ofNat 4 (if p.kindSrc = 0 then p.unit else p.unit / 2)) 6
        if p.kindSrc = 0 then
          (s'.modChain (fun c => { c with sentSigs := c.sentSigs ++ [(s.addressed p.target, 0, q, p.unit, p.ctx)] }), [])
        else (s', [])
      | none => (s, [⟨0x06, srcWord s.self p.kindSrc p.unit p.ctx, vaneAddr p.vane, p.target⟩])

/-- Signals applied in the order of R287, then the vanes they reached serve their waiters (R288), then due groups start
(R236). (DEDUCED, log entry 95) -/
def State.signalNow (s : State) (ps : List PSig) : State :=
  let ordered := ps.foldl (fun acc p => insSig p acc) []
  let (s1, vios) := ordered.foldl (fun (a : State × List Vio) p =>
    let (s', v) := a.1.turnSignal p
    (s', a.2 ++ v)) (s, [])
  let served := ordered.foldl (fun (acc : List VaneId) p =>
    if s.sigLocal p && !acc.contains p.vane then acc ++ [p.vane] else acc) []
  ((served.foldl State.serve s1).violateAll vios).startDue

/-- A signal of a core vane by a unit of the device. -/
def unitSig (v : VaneId) (target n kind unit : Nat) : PSig := ⟨v, target, n, kind, unit, 0, none, none, false⟩

/-- GROUP_UPDATE_COMPLETE (R237, R242): the remaining blocks are updated, and the group completes.
(DESIGN CHOICE, log entry 78) -/
def execGroupUpdateComplete (n : Fin 12) (group : Fin 256) (s : State) : Out :=
  match Tbl.get? (s.fhn n).running group, Tbl.get? (s.groupTable n) group with
  | some _, some g =>
    if !s.running then stay s
    else
      let s1 := s.updateBlocks n group g (groupChunks g + 1)
      match Tbl.get? (s1.fhn n).running group with
      | none => done (s1.reportPoison s).startDue
      | some (b, bad) =>
        if b < groupChunks g || !((s1.fhn n).waitsToHand group).isEmpty then done s1
        else
          let stop := bad && grpStop g
          let s2 := s1.modFhn n (fun f =>
            { f with
              running := Tbl.erase f.running group
              done := insSorted f.done group
              withheld := f.withheld || stop
              last := group
              bank := f.bank.add 1 1 })
          let s3 := if grpDoneEn g then s2.signalNow [unitSig (grpDone g) s.self 1 4 n] else s2.startDue
          if stop then done ((s3.ask 0x31 (s.unit 4 n 0) []).stepAbandon 3) else done s3
  | _, _ => stay s

end Sys2Proof.Machine
end

