-- ==== Sys2Proof/Machine/Fetch.lean ====
section
/-! DEFINITION. The fetch engine (R111 to R126): fetching, the fills and Draught descriptors that it performs, feeder
ownership, speculation points and their resolution, and BAY_FILL_COMPLETE. -/

namespace Sys2Proof.Machine

/-! Predictor masks (R179 to R181). -/

/-- The active row groups of a mask, in increasing order. -/
def activeGroups (m : List Bool) : List Nat := (List.range m.length).filter (fun i => m.getD i false)

/-- The row groups of packed tile p (R180). -/
def packedTile (groups : List Nat) (p : Nat) : List Nat := (groups.drop (16 * p)).take 16

/-- A token tile of a predictor slot. -/
def Eddy.predTile (e : Eddy) (slot tile : Nat) : PredTile := (Tbl.get? e.preds (8 * slot + tile)).getD ⟨none, none, 0⟩

/-- A token tile of a predictor slot changed. -/
def Eddy.modPred (e : Eddy) (slot tile : Nat) (f : PredTile → PredTile) : Eddy :=
  { e with preds := Tbl.set e.preds (8 * slot + tile) (f (e.predTile slot tile)) }

def prdSlot (op : BitVec 128) : Nat := field op 80 5
def prdTile (op : BitVec 128) : Nat := field op 85 3

/-- The PREDICT of a context with a serial number runs. -/
def Eddy.predicting (e : Eddy) (k : Fin 8) (serial : Nat) : Bool :=
  match e.run with
  | some r => r.predict.isSome && r.ctx == k && r.serial == serial
  | none => false

/-- A PREDICT of a context has been fetched and has not completed (R122). -/
def State.predPending (s : State) (c : Fin 4) (k : Fin 8) (serial : Nat) : Bool :=
  (s.core c).eddy.predicting k serial || (s.ctx c k).queue.any (fun e => e.serial == serial)

/-- Some PREDICT of a slot's tile before a serial number has still to complete. -/
def State.predBefore (s : State) (c : Fin 4) (k : Fin 8) (slot tile serial : Nat) : Bool :=
  (match (s.core c).eddy.run with
   | some r => r.serial != serial && (match r.predict with | some (a, b, _, _) => a == slot && b == tile | none => false)
   | none => false) ||
    (s.ctx c k).queue.any (fun e => decide (e.serial < serial) &&
      match s.opAt c e.idx with
      | some op => opcode op == 0x26 && prdSlot op == slot && prdTile op == tile
      | none => false)

/-- The mask of the micro-batch before a PREDICT that is pending (R122). -/
def State.prevMask (s : State) (c : Fin 4) (k : Fin 8) (slot tile serial : Nat) : Option (List Bool) :=
  let t := (s.core c).eddy.predTile slot tile
  if (s.core c).eddy.predicting k serial then t.prev
  else if s.predBefore c k slot tile serial then none
  else t.cur

/-! Queue entries. -/

/-- The loop counters that a descriptor's enabled advance terms name (R136). -/
def TDesc.loops (d : TDesc) : List Nat := d.adv.filterMap (fun t => if t / 8 % 2 = 1 then some (t % 8) else none)

/-- The execute-only counters of a program: those that it writes with VANE_TEST (R109). -/
def State.execOnly (s : State) (c : Fin 4) (first len : Nat) : List Nat :=
  (List.range len).filterMap (fun i =>
    match s.opAt c (first + i) with
    | some op => if opcode op = 0x62 then some (field op 40 3) else none
    | none => none)

/-- The references of an execute-side operation's operands. -/
def operandRefs (op : BitVec 128) : List Nat :=
  sourceRefs op ++ (if genericForm (opcode op) then [field op 16 16] else if opcode op = 0x10 then [tileDest op] else [])

/-- An execute-only counter places an operand of an operation (R109). (DESIGN CHOICE, log entry 144) -/
def State.opWild (s : State) (c : Fin 4) (k : Fin 8) (op : BitVec 128) : Bool :=
  let x := s.ctx c k
  let used := (operandRefs op).flatMap (fun r => ((s.tdesc c r).map TDesc.loops).getD [])
  !used.isEmpty && (s.execOnly c x.first x.len).any used.contains

/-- An operation enters a context's queue (R111), and the fetch position moves on. -/
def Ctx.push (x : Ctx) (idx : Nat) (performed : Bool) (dsts reads : List (Nat × Nat)) (wild : Bool) (next : Nat) : Ctx :=
  let q := x.queue ++ [⟨idx, x.serial, performed, dsts, reads, wild⟩]
  { x with queue := q, highWater := max x.highWater q.length, serial := x.serial + 1, fetchPos := next, ownStalled := false }

/-- A VANE_WAIT of the queue holds back a fetch-side operation (R121, R343). -/
def State.waitBars (s : State) (c : Fin 4) (k : Fin 8) (ahead : Bool) : Bool :=
  (s.ctx c k).queue.any (fun e =>
    match s.opAt c e.idx with
    | some op => opcode op == 0x61 &&
        (!ahead || (s.prog c).recompute.any (fun r => recCtx r == k.val && recWait r == e.idx))
    | none => false)

/-- A fetch-side operation's source overlaps what an earlier operation of its context still writes (R118). What an operation
writes whose place is not known yet may be anywhere. (DESIGN CHOICE, log entry 144) -/
def State.fetchHazard (s : State) (c : Fin 4) (k : Fin 8) (reads : List (Nat × Nat)) : Bool :=
  (s.core c).flights.any (fun f => f.ctx == k && overlap reads f.dsts) ||
    (s.ctx c k).queue.any (fun e => !e.performed && (overlap reads e.dsts || (e.wild && !reads.isEmpty)))

/-- A fetch-side operation's local destination overlaps what an earlier operation of its context still reads or writes
(R102, R103). (DESIGN CHOICE, log entry 144) -/
def State.fetchOverwrites (s : State) (c : Fin 4) (k : Fin 8) (dsts : List (Nat × Nat)) : Bool :=
  (s.core c).flights.any (fun f => f.ctx == k && (overlap dsts f.dsts || overlap dsts f.reads)) ||
    (s.ctx c k).queue.any (fun e => !e.performed &&
      (overlap dsts e.dsts || overlap dsts e.reads || (e.wild && !dsts.isEmpty)))

/-- A fetch-side operation with a ring source waits for an earlier operation of its context that has yet to read the ring,
where either of the two releases the slot (R102, R114). (DEDUCED, log entry 137) -/
def State.ringAhead (s : State) (c : Fin 4) (k : Fin 8) (o : Opd) : Bool :=
  (s.ctx c k).queue.any (fun e => !e.performed &&
    match s.opAt c e.idx with
    | some op => (sourceRefs op).any (fun ref => s.refMeets c ref o)
    | none => false) ||
  s.ringUnread c k (s.ctx c k).serial o

/-- An earlier operation of the context has yet to claim a slot of a ring (R113). (DEDUCED, log entry 137) -/
def State.claimAhead (s : State) (c : Fin 4) (k : Fin 8) (q : Fin 4 × Nat) : Bool :=
  (s.ctx c k).queue.any (fun e => !e.performed &&
    match s.opAt c e.idx with
    | some op => ((s.opDst c (s.ctx c k).lcF op).bind (·.slot)).map (fun x => (x.1, x.2.1)) == some q
    | none => false)

/-! Speculation points (R122, R123). -/

/-- The key of an item performed now: the expert or row group in the predicted order that it belongs to. R125 does not say which
expert a fill or a DRAUGHT past a ROUTE belongs to, nor which row group an item past a PRED operation that names no packed tile:
the first stands behind every expert, the second with the newest packed tile, or with the first. (DESIGN CHOICE, log entry 152) -/
def SpecPoint.keyOf (p : SpecPoint) (packed : Option Nat) : Nat :=
  match p.route with
  | some _ => p.predicted.length
  | none => match packed with | some q => q | none => match p.items.getLast? with | some i => i.key | none => 0

/-- A speculation point opens (R122). -/
def Ctx.openPoint (x : Ctx) (route : Option (Nat × Nat)) (pred : Option (Nat × Nat × Nat)) (predicted : List Nat)
    (descBase : Nat) : Ctx :=
  { x with
    spec := some ⟨route, pred, predicted, [], x.fetchPos, x.serial, x.lcF, x.predF, descBase⟩
    bank := x.bank.add 6 1 }

/-- An item joins the open point (R125). -/
def Ctx.addItem (x : Ctx) (i : SpecItem) : Ctx :=
  match x.spec with
  | some p =>
    let i := { i with posAfter := x.fetchPos, serialAfter := x.serial, lcAfter := x.lcF, predAfter := x.predF }
    { x with spec := some { p with items := p.items ++ [i] } }
  | none => x

/-- What the predictor means for a PRED operation about to be passed (R118, R122): it goes on without opening anything, it
first opens a point with the given row groups, its mask is not complete and no mask of a previous micro-batch stands for it,
or another point is open. Under PAD_TIMING no point opens (R386). -/
inductive PredGate where
  | pass
  | opens (groups : List Nat)
  | noMask
  | barred
deriving DecidableEq, Repr

/-- The gate of a PRED operation. R122 opens no point where no previous mask exists and does not say what a PRED FILL_ROW reads
then: it waits until its PREDICT completes. (DESIGN CHOICE, log entry 152) -/
def State.predGate (s : State) (c : Fin 4) (k : Fin 8) : PredGate :=
  let x := s.ctx c k
  match x.predF with
  | none => .pass
  | some (sl, t, n) =>
    if !s.predPending c k n then .pass
    else match x.spec with
      | some p => if p.pred == some (sl, t, n) then .pass else .barred
      | none =>
        match s.prevMask c k sl t n with
        | some m => if s.padTiming then .noMask else .opens (activeGroups m)
        | none => .noMask

/-- The row groups that PRED fills of a context use at present: those of the open point, or of the complete mask. -/
def State.fillGroups (s : State) (c : Fin 4) (k : Fin 8) : List Nat :=
  let x := s.ctx c k
  match x.predF with
  | none => []
  | some (sl, t, n) =>
    match x.spec with
    | some p => if p.pred == some (sl, t, n) then p.predicted
      else ((((s.core c).eddy.predTile sl t).cur).map activeGroups).getD []
    | none => ((((s.core c).eddy.predTile sl t).cur).map activeGroups).getD []

/-! Fills (R107, R116, R117, R181). -/

def fillSide (op : BitVec 128) : Nat := field op 12 1
def fillFirst (op : BitVec 128) : Bool := bitAt op 13
def fillLast (op : BitVec 128) : Bool := bitAt op 14
def fillFmt (op : BitVec 128) : Nat := field op 16 4
def fillCount (op : BitVec 128) : Nat := field op 20 4 + 1

/-- The codes and scales of group q of a fill, for the rows (or columns) named (R107). -/
def State.fillRows (s : State) (o : Opd) (sc : Option Opd) (rows : List Nat) (q : Nat) : List (List Nat × Nat) :=
  rows.map (fun i => ((List.range 32).map (fun e => s.code o (32 * q + e) i 0 0),
    match sc with | some x => s.code x q i 0 0 | none => 127))

/-- The bytes of group q of a fill over runs (first row, rows). -/
def fillRanges (o : Opd) (sc : Option Opd) (runs : List (Nat × Nat)) (q : Nat) : List (Nat × Nat) :=
  runs.flatMap (fun r =>
    (o.base + o.d.bitOff (32 * q) r.1 0 0 / 8, r.2 * 4 * o.d.bits) ::
      (match sc with
        | some x =>
          if x.d.grouped then [(x.base + x.d.bitOff q r.1 0 0 / 8, r.2)]
          else (List.range r.2).map (fun i => (x.base + x.d.bitOff q (r.1 + i) 0 0 / 8, 1))
        | none => []))

/-- A fill takes the next packed tile: FIRST is set, or no packed tile is in use (R181). -/
def State.nextPacked (s : State) (g : Fin 8) (op : BitVec 128) : Bool := opPred op && (fillFirst op || (s.gale g).packed.isNone)

/-- The POISON flag of the slot that a source stands in. -/
def State.slotPoison (s : State) (y : Opd) : Bool :=
  match y.slot with
  | some (rc, r, i) => ((s.ring rc r).map (fun ring => (ring.slots.getD i Slot.none).poison)).getD false
  | none => false

/-- What a fill puts into its bay (R107, R181): its groups, the bytes it reads, and the address of the first operand that
lies in no range of R137. -/
structure FillData where
  groups : List BayGroup
  ranges : List (Nat × Nat)
  bad : Option Nat

/-- The data of a fill. `packed` is the packed tile of a PRED fill. Where an operand lies in no range of R137 the values are
free. (DESIGN CHOICE, log entry 53) -/
def State.fillData (s : State) (c : Fin 4) (k : Fin 8) (op : BitVec 128) (o : Opd) (sc : Option Opd) (packed : Option Nat) :
    FillData :=
  let pred := opPred op && opcode op == 0x14
  let groups := if pred then packedTile (s.fillGroups c k) (packed.getD 0) else []
  let rows := if pred then groups.flatMap (fun gr => (List.range 32).map (fun i => 32 * gr + i))
    else List.range (min 512 (o.d.extent 1))
  let runs := if pred then groups.map (fun gr => (32 * gr, 32)) else [(0, min 512 (o.d.extent 1))]
  let qs := List.range (fillCount op)
  let elems := qs.flatMap (fillRanges o none runs)
  let ranges := qs.flatMap (fillRanges o sc runs)
  let scales := ranges.filter (fun r => !elems.contains r)
  let bad := if !s.fits o elems then some o.base
    else match sc with | some y => if s.fits y scales then none else some y.base | none => none
  let src (q : Nat) : GroupSrc :=
    { fmt := fillFmt op
      addr := if pred || bad.isSome then none else some (o.base + o.d.bitOff (32 * q) 0 0 0 / 8)
      rows := rows.length
      scale := sc.map (fun y => y.base + y.d.bitOff q 0 0 0 / 8)
      kept := []
      reads := if pred && bad.isNone then fillRanges o sc runs q else [] }
  let free (q : Nat) : List (List Nat × Nat) :=
    rows.map (fun i => ((List.range 32).map (fun e => Config.freeNat (s.fresh + (q * 512 + i) * 33 + e)),
      Config.freeNat (s.fresh + (q * 512 + i) * 33 + 32)))
  ⟨qs.map (fun q => ⟨if bad.isSome then free q else s.fillRows o sc rows q, src q⟩), ranges, bad⟩

/-- The feeders' owner and packed tile after a fill (R117, R181): FIRST starts a chain without a packed tile, which its
first PRED fill takes. While a point is open, LAST keeps ownership until the point is confirmed over it, which R117 leaves open.
(DESIGN CHOICE, log entry 152) -/
def Gale.ownFill (y : Gale) (k : Fin 8) (op : BitVec 128) (spec : Bool) (packed : Option (Nat × Nat)) : Gale :=
  if fillLast op && !spec then { y with owner := none, packed := none }
  else { y with owner := some k, packed := if opPred op then packed else if fillFirst op then none else y.packed }

/-- A fill whose credits, ownership and source are there (R116 to R119): it claims its bay and takes its data. -/
def State.claimFill (s : State) (c : Fin 4) (k : Fin 8) (op : BitVec 128) (o : Opd) (sc : Option Opd) (packed : Option Nat) :
    State :=
  let g := arrayOf c (fillSide op)
  let col := opcode op == 0x15
  let x := s.ctx c k
  let spec := x.spec.isSome
  let d := s.fillData c k op o sc packed
  let poison := d.bad.isSome || s.anyPoison d.ranges || s.slotPoison o || ((sc.map s.slotPoison).getD false)
  let tile := if opPred op then (match x.predF, packed with | some st, some p => some ((st.1, st.2.1), p) | _, _ => none) else none
  let bay : Bay := ⟨.filling, spec, poison, fillFmt op, d.groups, k, x.serial, tile.map (fun y => (0, 8 * y.1.1 + y.1.2, y.2))⟩
  let moves := s.nextPacked g op
  let before := ((s.gale g).owner, (s.gale g).packed)
  let s1 : State := if d.bad.isSome then s.spent (fillCount op * 512 * 33) else if spec then s else s.touch d.ranges
  let s2 := s1.modGale g (fun y => (y.modFeeder col (·.claim bay)).ownFill k op spec (tile.map (fun y => (y.2, y.1.1))))
  let s3 : State := match tile with
    | some (st, _) => if moves then s2.modEddy c (fun e => e.modPred st.1 st.2 (fun z => { z with next := z.next + 1 })) else s2
    | none => s2
  let s4 : State := (sc.toList.foldl State.releaseSrc (s3.releaseSrc o)).fly c ⟨k, x.serial, d.ranges, []⟩
  let s5 : State := match d.bad with | some a => if spec then s4 else s4.violate (s.ctxVio c k 5 a) | none => s4
  s5.modCtx c k (fun y =>
    let y := y.push y.fetchPos (!spec) [] [] false (y.fetchPos + 1)
    let key := match y.spec with | some p => p.keyOf (tile.map (·.2)) | none => 0
    (y.addItem ⟨key, some (g, col), fillLast op, [], none, d.bad, d.ranges, before, 0, 0, y.lcF, none⟩).settle)

/-- The newest item of the open point at an array is a LAST fill: its context's next fill there is no longer the owner's
(R117). -/
def Ctx.lastPassed (x : Ctx) (g : Fin 8) : Bool :=
  match x.spec with
  | some p =>
    ((p.items.filter (fun i => (i.bay.map (·.1)) == some g)).getLast?.map (·.last)).getD false
  | none => false

/-- A fill at the fetch position: what holds it, as a counter of R130 (2 credit, 3 order), or the state once it is
performed. `owner` tells that it is ownership that it lacks. A COMPACT of its context that has not issued yet does not hold it,
which R102 leaves open. (DEDUCED, log entry 136; DESIGN CHOICE, log entry 152) -/
def State.tryFill (s : State) (c : Fin 4) (k : Fin 8) (op : BitVec 128) : Except (Nat × Bool) State :=
  let g := arrayOf c (fillSide op)
  let x := s.ctx c k
  let y := s.gale g
  let gate := if opPred op then s.predGate c k else .pass
  let s0 := match gate with
    | .opens groups => s.modCtx c k (·.openPoint none x.predF groups 0)
    | _ => s
  let spec := (s0.ctx c k).spec.isSome
  match s.srcOpd c (field op 32 16) x.lcF with
  | none => .error (3, false)
  | some o =>
    let sc := s.srcOpd c (field op 48 16) x.lcF
    let packed := if opPred op then
        (match x.predF with
          | some (sl, t, _) =>
            if s.nextPacked g op then some ((s.core c).eddy.predTile sl t).next else y.packed.map (·.1)
          | none => none)
      else none
    let all := o :: sc.toList
    let reads := all.flatMap (·.ranges)
    let mine := y.owner == some k
    let passed := x.lastPassed g
    if (gate == .noMask && opcode op == 0x14) || gate == .barred || s.waitBars c k (opAhead op) || all.any (fun z => !s.srcReady z) || s.fetchHazard c k reads ||
        all.any (s.ringAhead c k) || (spec && all.any (·.release)) then .error (3, false)
    else if !((mine && !passed) || (fillFirst op && (mine || y.owner.isNone))) then .error (2, true)
    else if (y.feeder (opcode op == 0x15)).free = 0 || y.check.isSome then .error (2, false)
    else .ok (s0.claimFill c k op o sc packed)

/-! Draught descriptors (R155, R158, R160). -/

def dscKind (d : BitVec 512) : Nat := le d 0 1
def dscRound (d : BitVec 512) : Bool := bitAt d 8
def dscDoneEn (d : BitVec 512) : Bool := bitAt d 9
def dscDoneChain (d : BitVec 512) : Bool := bitAt d 10
def dscStream (d : BitVec 512) : Nat := le d 2 1 % 8
def dscSrc (d : BitVec 512) : Nat := le d 4 2
def dscSrcDev (d : BitVec 512) : Nat := le d 6 2
/-- Operand references of the destinations, those of an MX_STORE's scales included. (DESIGN CHOICE, log entry 55) -/
def dscDsts (d : BitVec 512) : List Nat := ((List.range 4).map (fun i => le d (8 + 2 * i) 2)).filter (· != 0)
def dscDstDev (d : BitVec 512) : Nat := le d 16 2
def dscMask (d : BitVec 512) : Nat := le d 18 2
def dscKey (d : BitVec 512) : Nat := le d 20 2
def dscDoneCount (d : BitVec 512) : Nat := le d 22 2
def dscDoneVane (d : BitVec 512) : Nat := le d 24 1
def dscDoneCore (d : BitVec 512) : Fin 4 := Fin.ofNat 4 (le d 25 1 % 4)
def dscDoneDev (d : BitVec 512) : Nat := le d 26 2

/-- The Draught engine of a core that DRAUGHT names (R155). (DESIGN CHOICE, log entry 51) -/
def engineOf (c : Fin 4) (n : Nat) : Fin 8 := Fin.ofNat 8 (2 * c.val + n % 2)

/-- The ring slots that a descriptor claims: the tail of each destination ring, once each (R160). -/
def State.dscClaims (s : State) (c : Fin 4) (d : BitVec 512) : List (Fin 4 × Nat × Nat) :=
  (dscDsts d).foldl (fun acc ref =>
    match s.tdesc c ref with
    | some t =>
      if t.ring && !acc.any (fun x => x.1 == t.ringCore && x.2.1 == t.ringIdx) then
        acc ++ [(t.ringCore, t.ringIdx, ((s.ring t.ringCore t.ringIdx).map (·.tail)).getD 0)]
      else acc
    | none => acc) []

/-- A descriptor at the fetch engine: what holds it, as a counter of R130, or the state once it is in the queue.
(DEDUCED, log entry 136) -/
def State.tryDesc (s : State) (c : Fin 4) (k : Fin 8) (e : Fin 8) (desc : Nat) (ahead : Bool) : Except (Nat × Bool) State :=
  let x := s.ctx c k
  let spec := x.spec.isSome
  match Tbl.get? (s.prog c).descs desc with
  | none => .error (3, false)
  | some d =>
    let src := s.srcOpd c (dscSrc d) x.lcF
    let mask := s.srcOpd c (dscMask d) x.lcF
    let dsts := (dscDsts d).filterMap (fun r => s.dstOpd c r x.lcF)
    let claims := s.dscClaims c d
    let localSrc := s.isLocal (dscSrcDev d)
    let localDst := s.isLocal (dscDstDev d)
    let all := (if localSrc then src.toList else []) ++ mask.toList
    let reads := all.flatMap (·.ranges)
    let writes := if localDst then (dsts.filter (fun o => o.slot.isNone)).flatMap (·.ranges) else []
    let specOk := !spec || (localDst && dsts.all (fun o =>
      match o.slot with
      | some (rc, r, _) => ((s.ring rc r).map (·.cfg.specAllowed)).getD false
      | none => false) && all.all (fun o => !o.release))
    if s.waitBars c k ahead || all.any (fun z => !s.srcReady z) || s.fetchHazard c k reads ||
        s.fetchOverwrites c k writes || all.any (s.ringAhead c k) || !specOk then .error (3, false)
    else if 32 ≤ (s.drt e).queue.length || claims.any (fun q => !((s.ring q.1 q.2.1).map Ring.canClaim).getD false ||
        s.claimAhead c k (q.1, q.2.1) || s.drainsAhead c (q.1, q.2.1) none) then
      .error (2, false)
    else
      let item : DrtItem :=
        { desc := desc, raw := d, core := c, ctx := k, serial := x.serial, srcBase := (src.map (·.base)).getD 0
          dstBases := dsts.map (·.base), maskBase := (mask.map (·.base)).getD 0
          gust := if dscRound d then some (s.gustRef c (dscKey d) x.lcF) else none
          claims := claims, srcSlot := src.bind (·.slot), spec := spec, started := false, moved := false, acks := []
          rx := [], noDone := false, poisoned := false, stashPoison := false, counts := [] }
      let s := claims.foldl (fun s q => s.modRing q.1 q.2.1 (·.claim spec)) s
      let s := s.modDrt e (fun y => { y with queue := y.queue ++ [item] })
      .ok (s.fly c ⟨k, x.serial, reads, writes⟩)

/-! Fetching one operation (R118). -/

/-- Whether an expert of a layer is homed on a core, and its HOME_INDEX (R186). -/
def expHome (x : BitVec 256) : Fin 4 := Fin.ofNat 4 (le x 0 1 % 4)
def expIndex (x : BitVec 256) : Nat := le x 4 2

/-- PREV bits of a layer's experts homed on a core, in increasing expert index (R197). -/
def routePrev (e : RouteEntry) (c : Fin 4) : List Nat :=
  (List.range e.experts.length).filter (fun i => bitAt e.head (512 + i) && expHome (e.experts.getD i 0) == c)

/-- PREV_VALID of a layer. -/
def routePrevValid (e : RouteEntry) : Bool := bitAt e.head 328

/-- The descriptor of an expert: PREDICT_DESC + HOME_INDEX (R197). -/
def routeDesc (e : RouteEntry) (base expert : Nat) : Nat := base + expIndex (e.experts.getD expert 0)

/-- The bytes that an operation about to be queued may write, a ring's slots left out (R118). -/
def State.queueWrites (s : State) (c : Fin 4) (lc : Vector Word 8) (op : BitVec 128) : List (Nat × Nat) :=
  match s.opDst c lc op with
  | some o => if o.slot.isSome then [] else o.ranges
  | none => []

/-- An execute-side operation enters the queue; the fetch engine resolves loops and jumps (R109, R118). -/
def State.queueOp (s : State) (c : Fin 4) (k : Fin 8) (op : BitVec 128) : State :=
  let x := s.ctx c k
  let idx := x.fetchPos
  let lc := x.lcF
  let r : Fin 8 := Fin.ofNat 8 (field op 12 3)
  let dsts := s.queueWrites c lc op
  let reads := s.opReads c lc op
  let wild := s.opWild c k op
  let serial := x.serial
  let s := s.modCtx c k (fun x => x.push idx false dsts reads wild (idx + 1))
  match opcode op with
  | 0x01 => s.modCtx c k (fun x => { x with endFetched := true })
  | 0x80 => s.modCtx c k (fun x => { x with lcF := x.lcF.set r (BitVec.ofNat 32 (field op 32 32)) })
  | 0x81 =>
    if 1 < (lc.get r).toNat then
      s.modCtx c k (fun x => { x with lcF := x.lcF.set r (lc.get r - 1), fetchPos := field op 32 16 })
    else s.modCtx c k (fun x => { x with lcF := x.lcF.set r 0 })
  | 0x82 => s.modCtx c k (fun x => { x with branchOpen := true })
  | 0x83 => s.modCtx c k (fun x => { x with fetchPos := field op 32 16 })
  | 0x26 =>
    (s.modCtx c k (fun x => { x with predF := some (prdSlot op, prdTile op, serial) })).modEddy c (fun e =>
      e.modPred (prdSlot op) (prdTile op) (fun t => { t with next := 0 }))
  | 0x50 =>
    let base := field op 96 16
    if base = 0 then s
    else
      match Tbl.get? (s.core c).veer.table (field op 80 10) with
      | none => s
      | some e =>
        if routePrevValid e && !s.padTiming then
          s.modCtx c k (fun x =>
            { x.openPoint (some (field op 80 10, serial)) none (routePrev e c) base with
              routeTodo := (routePrev e c).map (routeDesc e base) })
        else s.modCtx c k (fun x => { x with routeWait := some serial })
  | _ => s

/-- The local bytes that the operation newest in flight reads. -/
def State.newestReads (s : State) (c : Fin 4) : List (Nat × Nat) := (((s.core c).flights.getLast?).map (·.reads)).getD []

/-- A descriptor of a passed ROUTE performed (R197): a speculative item while the point is open.
(DESIGN CHOICE, log entry 51) -/
def State.tryTodo (s : State) (c : Fin 4) (k : Fin 8) (d : Nat) (rest : List Nat) : Except (Nat × Bool) State :=
  let e := engineOf c 0
  let n := s.dscClaims c ((Tbl.get? (s.prog c).descs d).getD 0)
  match s.tryDesc c k e d true with
  | .error r => .error r
  | .ok s =>
    let reads := s.newestReads c
    .ok (s.modCtx c k (fun x =>
      let key := match x.spec with | some p => p.predicted.length - rest.length - 1 | none => 0
      { x with routeTodo := rest, serial := x.serial + 1 }.addItem ⟨key, none, false, n, some e, none, reads, (none, none), 0, 0, x.lcF, none⟩))

/-- What the fetch engine of a context does next: what holds it, as a counter of R130 (1 queue, 2 credit, 3 order, 0 none)
and whether it lacks ownership, or the state once it is done. -/
def State.tryFetch (s : State) (c : Fin 4) (k : Fin 8) : Except (Nat × Bool) State :=
  let x := s.ctx c k
  if !x.defined || x.st == .idle || x.st == .ended || x.st == .stopped then .error (0, false)
  else match x.routeTodo with
    | d :: rest => s.tryTodo c k d rest
    | [] =>
      if x.endFetched then .error (0, false)
      else if 256 ≤ x.queue.length then .error (1, false)
      else if x.branchOpen || x.routeWait.isSome then .error (3, false)
      else match s.opAt c x.fetchPos with
        | none => .error (0, false)
        | some op =>
          if opcode op = 0x14 || opcode op = 0x15 then s.tryFill c k op
          else if opcode op = 0x70 then
            let e := engineOf c (field op 12 1)
            let claims := s.dscClaims c ((Tbl.get? (s.prog c).descs (field op 16 16)).getD 0)
            match s.tryDesc c k e (field op 16 16) (opAhead op) with
            | .error r => .error r
            | .ok s =>
              let reads := s.newestReads c
              .ok (s.modCtx c k (fun x =>
                let spec := x.spec.isSome
                let x := x.push x.fetchPos (!spec) [] [] false (x.fetchPos + 1)
                let key := match x.spec with | some p => p.keyOf none | none => 0
                (x.addItem ⟨key, none, false, claims, some e, none, reads, (none, none), 0, 0, x.lcF, none⟩).settle))
          else if opcode op = 0x50 && field op 96 16 != 0 && x.spec.isSome then .error (3, false)
          else if opcode op = 0x24 && opPred op then
            match s.predGate c k with
            | .opens groups => .ok ((s.modCtx c k (·.openPoint none x.predF groups 0)).queueOp c k op)
            | .barred => .error (3, false)
            | _ => .ok (s.queueOp c k op)
          else .ok (s.queueOp c k op)

/-- The fetch engine of a context can fetch now. (DEDUCED, log entry 48) -/
def State.canFetch (s : State) (c : Fin 4) (k : Fin 8) : Bool :=
  match s.tryFetch c k with | .ok _ => true | .error _ => false

/-- The contexts of a core, at most two, that fetch in this step (R118). (DEDUCED, log entry 48) -/
def State.fetchers (s : State) (c : Fin 4) : List (Fin 8) :=
  let able := (allFin 8).filter (s.canFetch c)
  let prio (j : Fin 8) : Nat := (s.ctx c j).prio
  match choose prio (s.core c).lastFetched able with
  | none => []
  | some a => a :: (choose prio (s.core c).lastFetched (able.filter (· != a))).toList

/-- The Draught descriptor that a context's fetch engine takes up next, with its engine. -/
def State.nextDesc (s : State) (c : Fin 4) (k : Fin 8) : Option (Fin 8 × Nat) :=
  let x := s.ctx c k
  match x.routeTodo with
  | d :: _ => some (engineOf c 0, d)
  | [] =>
    match s.opAt c x.fetchPos with
    | some op => if opcode op = 0x70 then some (engineOf c (field op 12 1), field op 16 16) else none
    | none => none

/-- The rings in which a context's next descriptor claims a slot. -/
def State.nextClaims (s : State) (c : Fin 4) (k : Fin 8) : List (Fin 4 × Nat) :=
  match s.nextDesc c k with
  | some (_, d) => (s.dscClaims c ((Tbl.get? (s.prog c).descs d).getD 0)).map (fun q => (q.1, q.2.1))
  | none => []

/-- The drain path of an array would read the first row of a chain that claims a slot of a ring in this step (R74). -/
def State.drainClaims (s : State) (g : Fin 8) (q : Fin 4 × Nat) : Bool :=
  match (s.gale g).drainOrder with
  | (b, false) :: _ =>
    ((s.gale g).acc b).chain.any (fun ch => ch.toClaim q && s.drainAccepts g ch) && decide ((s.gale g).held.length < 2)
  | _ => false

/-- A producer of a ring's own core would claim its tail slot in this step (R160): the context that issues, a drain that
begins, or a descriptor that its fetch engines place. -/
def State.ownClaim (s : State) (q : Fin 4 × Nat) : Bool :=
  (match s.chosen q.1 with
   | some j => s.canIssue q.1 j && !s.checkOffer q.1 j &&
      (match s.headOp q.1 j with
       | some op => opcode op != 0x10 &&
          ((s.opDst q.1 (s.ctx q.1 j).lcX op).bind (·.slot)).map (fun x => (x.1, x.2.1)) == some q
       | none => false)
   | none => false) ||
    [arrayOf q.1 0, arrayOf q.1 1].any (fun g => s.drainClaims g q) ||
    (s.fetchers q.1).any (fun j => (s.nextClaims q.1 j).contains q)

/-- A Draught engine of another core, lower in number, would claim a ring's tail slot in this step (R160). -/
def State.lowerClaim (s : State) (c : Fin 4) (e : Fin 8) (q : Fin 4 × Nat) : Bool :=
  (allFin 4).any (fun d => d != c && d != q.1 && (s.fetchers d).any (fun j =>
    (s.nextClaims d j).contains q && ((s.nextDesc d j).map (fun x => decide (x.1 < e))).getD false))

/-- The array whose feeders a context's next fill would take by FIRST (R117). -/
def State.nextFirst (s : State) (c : Fin 4) (k : Fin 8) : Option (Fin 8) :=
  let x := s.ctx c k
  match s.opAt c x.fetchPos with
  | some op =>
    let g := arrayOf c (fillSide op)
    if x.routeTodo.isEmpty && (opcode op == 0x14 || opcode op == 0x15) && fillFirst op && (s.gale g).owner.isNone then some g else none
  | none => none

/-- Another fetch, claim or descriptor goes before that of a context in this step: a FIRST fill of the same array by the
context that R100 chooses (R117), a lower-numbered context's descriptor into the same engine (R158), or a claim that R160 grants a
ring first. The context that fetched last may have fetched in this very step, and holds nobody back by what it would fetch next.
(DEDUCED, log entry 48) -/
def State.givesWay (s : State) (c : Fin 4) (k : Fin 8) : Bool :=
  let rivals := (s.fetchers c).filter (fun j => j != k && j != (s.core c).lastFetched)
  ((s.nextFirst c k).isSome && rivals.any (fun j => (s.fetchers c).head? == some j && s.nextFirst c j == s.nextFirst c k)) ||
  match s.nextDesc c k with
  | none => false
  | some (e, _) =>
    rivals.any (fun j => decide (j < k) && (s.nextDesc c j).map (·.1) == some e) ||
      (s.nextClaims c k).any (fun q => q.1 != c && (s.ownClaim q || s.lowerClaim c e q))

/-- A context is among the two that fetch in this step, and nothing goes before it (R117, R118, R158, R160).
(DEDUCED, log entry 48) -/
def State.fetches (s : State) (c : Fin 4) (k : Fin 8) : Bool := (s.fetchers c).contains k && !s.givesWay c k

/-- The opcode that the fetch engine takes up next; DRAUGHT for a descriptor of a passed ROUTE.
(DEDUCED, log entry 48) -/
def State.nextFetch (s : State) (c : Fin 4) (k : Fin 8) : Option Nat :=
  let x := s.ctx c k
  if !x.routeTodo.isEmpty then some 0x70 else (s.opAt c x.fetchPos).map opcode

/-- One step of a context's fetch engine (R118), or one step in which it stops (R130). -/
def fetchStep (c : Fin 4) (k : Fin 8) (s : State) : Out :=
  if !s.running then stay s
  else match s.tryFetch c k with
    | .ok s' => if s.fetches c k then done (s'.modCore c (fun x => { x with lastFetched := k })) else stay s
    | .error (0, _) => stay s
    | .error (n, own) =>
      let first := own && !(s.ctx c k).ownStalled
      let e := engineOf c (if (s.ctx c k).routeTodo.isEmpty then ((s.opAt c (s.ctx c k).fetchPos).map (fun op => field op 12 1)).getD 0 else 0)
      let full := s.nextFetch c k == some 0x70 && n == 2 && decide (32 ≤ (s.drt e).queue.length)
      let s : State := if full then s.modDrt e (fun d => { d with bank := d.bank.add 4 1 }) else s
      let s := s.modCtx c k (fun x => { x with bank := x.bank.add n 1, ownStalled := x.ownStalled || own })
      done (if first then s.modCore c (fun x => { x with bank := x.bank.add 2 1 }) else s)

/-- FETCH_OPERATION (R118). -/
def execFetchOperation (c : Fin 4) (k : Fin 8) (s : State) : Out := fetchStep c k s

/-- FILL_ROW (R116). -/
def execFillRow (c : Fin 4) (k : Fin 8) (s : State) : Out :=
  if s.nextFetch c k = some 0x14 then fetchStep c k s else stay s

/-- FILL_COL (R116). -/
def execFillCol (c : Fin 4) (k : Fin 8) (s : State) : Out :=
  if s.nextFetch c k = some 0x15 then fetchStep c k s else stay s

/-- DRAUGHT (R158). -/
def execDraught (c : Fin 4) (k : Fin 8) (s : State) : Out :=
  if s.nextFetch c k = some 0x70 then fetchStep c k s else stay s

/-! BAY_FILL_COMPLETE (R82, R172). -/

/-- Groups of a format that a bay holds (R79). -/
def bayGroups (fmt : Nat) : Nat :=
  match fmt with
  | 0 | 1 => 4
  | 2 | 3 | 4 => 8
  | 7 | 8 => 10
  | 9 => 15
  | _ => 7

/-- A COMPACT's next bay of one feeder claimed, when it has none being filled there and one is free (R172). -/
def Gale.feedBay (y : Gale) (col : Bool) (groups : List BayGroup) (fmt : Nat) (poison : Bool) (ctx : Fin 8) (serial : Nat)
    (tag : Option (Nat × Nat × Nat)) : Gale × List BayGroup :=
  let f := y.feeder col
  let busy := f.items.any (fun b => b.st == .filling && b.ctx == ctx && b.serial == serial)
  if groups.isEmpty || busy || f.free = 0 then (y, groups)
  else
    let n := bayGroups fmt
    (y.modFeeder col (·.claim ⟨.filling, false, poison, fmt, groups.take n, ctx, serial, tag⟩), groups.drop n)

/-- A running COMPACT claims what it can, one bay per feeder at a time; LAST releases ownership with the last claim
(R172). -/
def State.feedCompact (s : State) (c : Fin 4) : State :=
  match (s.core c).eddy.run with
  | none => s
  | some r =>
    match r.compact with
    | none => s
    | some q =>
      let (y1, rows) := (s.gale q.array).feedBay false q.rows q.rowFmt q.rowPoison r.ctx r.serial q.tag
      let (y2, cols) := y1.feedBay true q.cols q.colFmt q.colPoison r.ctx r.serial q.tag
      let ends := q.last && rows.isEmpty && cols.isEmpty && y2.owner == some r.ctx
      let y3 := if ends then { y2 with owner := none, packed := none } else y2
      (s.modGale q.array (fun _ => y3)).modEddy c (fun e =>
        { e with run := some { r with compact := some { q with rows := rows, cols := cols } } })

/-- The oldest FILLING bay becomes FULL. -/
def fillOldest : List Bay → List Bay × Option Bay
  | [] => ([], none)
  | b :: t =>
    if b.st = .filling then ({ b with st := .full } :: t, some b)
    else let (t', r) := fillOldest t; (b :: t', r)

/-- A bay belongs to the COMPACT that runs. -/
def Eddy.owns (e : Eddy) (b : Bay) : Bool :=
  match e.run with | some r => r.compact.isSome && r.ctx == b.ctx && r.serial == b.serial | none => false

/-- The groups that the running COMPACT of a core has filled in both feeders (R185). -/
def State.compactFilled (s : State) (c : Fin 4) : Nat :=
  match (s.core c).eddy.run with
  | none => 0
  | some r =>
    match r.compact with
    | none => 0
    | some q =>
      let y := s.gale q.array
      let filling (f : Feeder) : Nat :=
        (f.items.filter (fun b => b.st == .filling && b.ctx == r.ctx && b.serial == r.serial)).foldl (fun n b => n + b.groups.length) 0
      min (q.total - q.rows.length - filling y.row) (q.total - q.cols.length - filling y.col)

/-- BAY_FILL_COMPLETE (R82, R172): bays complete in the order in which they were claimed. -/
def execBayFillComplete (g : Fin 8) (col : Bool) (s : State) : Out :=
  let f := (s.gale g).feeder col
  match fillOldest f.items with
  | (_, none) => stay s
  | (items, some b) =>
    let before := s.compactFilled (coreOf g)
    let s := s.modGale g (fun y => y.modFeeder col (fun f => f.ofItems items))
    let c := coreOf g
    if (s.core c).eddy.owns b then
      done ((s.modEddy c (fun e => { e with bank := e.bank.add 0 (s.compactFilled c - before) })).feedCompact c)
    else done (s.landed c b.ctx b.serial)

/-! Resolution (R84, R125, R126). -/

/-- Items of the longest agreeing prefix, and the rest. -/
def splitItems (predicted actual : List Nat) (unit : Nat) (items : List SpecItem) : List SpecItem × List SpecItem :=
  items.span (fun i => predicted.take (unit * (i.key + 1)) == actual.take (unit * (i.key + 1)))

/-- One discarded item undone: its bay or its slots and descriptor return (R84, R125, R161). -/
def State.discardItem (s : State) (c : Fin 4) (k : Fin 8) (i : SpecItem) : State :=
  let s := match i.bay with
    | some (g, col) => s.modGale g (fun y =>
        { y.modFeeder col (·.unclaim 1) with owner := i.before.1, packed := i.before.2 })
    | none => s
  let s := i.slots.foldl (fun s q => s.modRing q.1 q.2.1 (fun r => r.unclaim 1)) s
  match i.desc with
  | some e => s.modDrt e (fun d =>
      let n := d.queue.length
      match (List.range n).reverse.find? (fun j => match d.queue[j]? with | some x => x.spec && x.core == c && x.ctx == k | none => false) with
      | some j => { d with queue := d.queue.take j ++ d.queue.drop (j + 1) }
      | none => d)
  | none => s

/-- A bay of a context confirmed. -/
def Bay.confirm (k : Fin 8) (b : Bay) : Bay := if b.ctx == k then { b with spec := false } else b

/-- A descriptor of a context confirmed. -/
def DrtItem.confirm (c : Fin 4) (k : Fin 8) (x : DrtItem) : DrtItem :=
  if x.core == c && x.ctx == k then { x with spec := false } else x

/-- The reads of a confirmed item that has taken its bytes while it was speculative count now (R123).
(DEDUCED, log entry 136) -/
def State.countReads (s : State) (c : Fin 4) (k : Fin 8) (i : SpecItem) : State :=
  match i.desc with
  | some e =>
    if (s.drt e).queue.any (fun x => x.core == c && x.ctx == k && x.serial + 1 == i.serialAfter && x.started) then s.touch i.reads
    else s
  | none => if i.vio.isSome then s else s.touch i.reads

/-- One confirmed item: its SPEC flags clear, its reads count, and a violation held back is raised (R123 to R125). -/
def State.confirmItem (s : State) (c : Fin 4) (k : Fin 8) (i : SpecItem) : State :=
  let s := s.countReads c k i
  let s : State := match i.bay with
    | some (g, col) => s.modGale g (fun y => y.modFeeder col (fun f => { f with bays := f.bays.map (Bay.confirm k) }))
    | none => s
  let s := i.slots.foldl (fun s q => s.modRing q.1 q.2.1 (fun r => r.confirm q.2.2)) s
  let s : State := match i.desc with
    | some e => s.modDrt e (fun d => { d with queue := d.queue.map (DrtItem.confirm c k) })
    | none => s
  match i.vio with
  | some a => s.violate (s.ctxVio c k 5 a)
  | none => s

/-- Ownership of an array after a point has been confirmed over some items (R117, R125): the newest of them at the array
releases it where it is a LAST fill. -/
def State.confirmOwner (s : State) (k : Fin 8) (yes : List SpecItem) (g : Fin 8) : State :=
  match (yes.filter (fun i => (i.bay.map (·.1)) == some g)).getLast? with
  | some i =>
    s.modGale g (fun y => if i.last && y.owner == some k then { y with owner := none, packed := none } else y)
  | none => s

/-- Queue entries of fetch-side operations before a serial number count as performed (R111, R125). -/
def State.confirmQueue (s : State) (c : Fin 4) (k : Fin 8) (upTo : Nat) : State :=
  let mark (e : QEntry) : QEntry :=
    if decide (e.serial < upTo) && ((s.opAt c e.idx).map (fun op => fetchSide (opcode op))).getD false then
      { e with performed := true }
    else e
  s.modCtx c k (fun x => { x with queue := x.queue.map mark })

/-- The fetch engine set back to serial number `cut`, position `pos`, counters `lc` and the PREDICT `pred` (R125). Operations that the execute
engine has issued, or holds at its head as a wait, are not fetched again. -/
def Ctx.rewind (x : Ctx) (cut pos : Nat) (lc : Vector Word 8) (pred : Option (Nat × Nat × Nat)) : Ctx :=
  let x := { x with endFetched := x.ending, branchOpen := false }
  let predX := x.predX.map (fun p => (p.1, p.2, x.predXSerial))
  match x.queue with
  | e :: _ =>
    if e.serial < cut || (e.serial == cut && x.st != .waiting) then
      { x with queue := x.queue.filter (fun e => e.serial < cut), serial := cut, fetchPos := pos, lcF := lc, predF := pred }
    else if x.st = .waiting then
      { x with queue := [e], serial := e.serial + 1, fetchPos := e.idx + 1, lcF := x.lcX, predF := predX }
    else { x with queue := [], serial := e.serial, fetchPos := x.execPos, lcF := x.lcX, predF := predX }
  | [] =>
    if cut < x.serial then { x with fetchPos := x.execPos, lcF := x.lcX, predF := predX }
    else { x with serial := cut, fetchPos := pos, lcF := lc, predF := pred }

/-- The point of a context resolved against the actual order (R125, R126). `unit` entries of the order belong to a key:
16 row groups to a packed tile, or one expert. (DEDUCED, log entry 111) -/
def State.resolve (s : State) (c : Fin 4) (k : Fin 8) (actual : List Nat) (unit : Nat) : State :=
  match (s.ctx c k).spec with
  | none => s
  | some p =>
    let (yes, no) := splitItems p.predicted actual unit p.items
    let s : State := no.reverse.foldl (fun (s : State) i => s.discardItem c k i) s
    let s : State := yes.foldl (fun (s : State) i => s.confirmItem c k i) s
    let s : State := [arrayOf c 0, arrayOf c 1].foldl (fun (s : State) g => s.confirmOwner k yes g) s
    let bays := (no.filter (fun i => i.bay.isSome)).length
    let slots := no.foldl (fun acc i => acc + i.slots.length) 0
    let lastYes := yes.getLast?
    let cut := (lastYes.map (·.serialAfter)).getD p.serial
    let s := s.modCore c (fun x => { x with
      flights := x.flights.filter (fun f => !(f.ctx == k && no.any (fun i => f.serial + 1 == i.serialAfter))) })
    let s := s.confirmQueue c k (if no.isEmpty then (s.ctx c k).serial else cut)
    let s := s.modCtx c k (fun x =>
      let x := if no.isEmpty then x
        else x.rewind cut ((lastYes.map (·.posAfter)).getD p.pos) ((lastYes.map (·.lcAfter)).getD p.lc)
          ((lastYes.map (·.predAfter)).getD p.predAt)
      { x with
        spec := none
        bank := if no.isEmpty then x.bank.add 7 1 else ((x.bank.add 8 1).add 9 bays).add 10 slots })
    let s : State := match p.route.bind (fun q => Tbl.get? (s.core c).veer.table q.1) with
      | some e =>
        let n := (yes.filter (fun i => decide (i.key < p.predicted.length))).length
        s.modCtx c k (fun x => { x with routeTodo := (actual.drop n).map (routeDesc e p.descBase) })
      | none => s
    let s : State := match p.pred with
      | some (sl, t, _) => s.modEddy c (fun e => e.modPred sl t (fun z =>
          { z with next := (lastYes.map (fun i => i.key + 1)).getD 0 }))
      | none => s
    let s := s.modCtx c k (·.settle)
    if no.isEmpty then s else s.ask 0x33 (s.unit 0 c k) (leBytes 8 bays ++ leBytes 8 slots)

end Sys2Proof.Machine
end

