-- ==== Sys2Proof/Machine/Control.lean ====
section
/-! DEFINITION. Control operations of the execute engine (R106, R109, R110, R120), vane operations (R287 to R297) and the
expiry of wait bounds (R298, R299). -/

namespace Sys2Proof.Machine

/-- An operation issues and the execute position moves to `next` (R100, R111, R129). -/
def State.issuedTo (s : State) (c : Fin 4) (k : Fin 8) (next : Nat) : State :=
  (s.modCore c (fun x => { x with lastIssued := k, bank := x.bank.add 0 1 })).retireTo c k next

/-- The operation after the head, in program order. -/
def State.nextPos (s : State) (c : Fin 4) (k : Fin 8) : Nat := (s.ctx c k).execPos + 1

/-- The execute engine's copy of a loop counter set (R109). -/
def State.setLoop (s : State) (c : Fin 4) (k : Fin 8) (r : Fin 8) (v : Word) : State :=
  s.modCtx c k (fun x => { x with lcX := x.lcX.set r v })

/-- Loop counter that an operation names in bits [14:12]. -/
def opLoop (op : BitVec 128) : Fin 8 := Fin.ofNat 8 (field op 12 3)

/-- NOP (R106). -/
def execNop (c : Fin 4) (k : Fin 8) (s : State) : Out := issue c k 0x00 s (fun _ s => s.issued c k)

/-- END (R110): it issues, and the context waits for its earlier operations. -/
def execEndOp (c : Fin 4) (k : Fin 8) (s : State) : Out :=
  issue c k 0x01 s (fun _ s => (s.issued c k).modCtx c k (fun x => { x with ending := true }))

/-- Every earlier operation of a context has completed (R110). -/
def State.allComplete (s : State) (c : Fin 4) (k : Fin 8) : Bool :=
  (s.core c).flights.all (fun f => f.ctx != k) &&
    s.signals.all (fun p => match p.after with | some (d, j, _) => !(d == c && j == k) | none => true)

/-- END_COMPLETE (R110). -/
def execEndComplete (c : Fin 4) (k : Fin 8) (s : State) : Out :=
  let x := s.ctx c k
  if x.ending && x.st == .ready && s.allComplete c k then
    done (s.modCtx c k (fun x => { x with st := .ended, ending := false }))
  else stay s

/-- LOOP_SET (R109). -/
def execLoopSet (c : Fin 4) (k : Fin 8) (s : State) : Out :=
  issue c k 0x80 s (fun op s => (s.setLoop c k (opLoop op) (BitVec.ofNat 32 (field op 32 32))).issued c k)

/-- LOOP_NEXT (R109). -/
def execLoopNext (c : Fin 4) (k : Fin 8) (s : State) : Out :=
  issue c k 0x81 s (fun op s =>
    let v := (s.ctx c k).lcX.get (opLoop op)
    if 1 < v.toNat then (s.setLoop c k (opLoop op) (v - 1)).issuedTo c k (field op 32 16)
    else (s.setLoop c k (opLoop op) 0).issued c k)

/-- JUMP (R109). -/
def execJump (c : Fin 4) (k : Fin 8) (s : State) : Out := issue c k 0x83 s (fun op s => s.issuedTo c k (field op 32 16))

/-! Vanes. -/

/-- The vane that VANE_WAIT, VANE_TEST and BRANCH_VANE name: one of the own core, or a chain vane of the device. -/
def opVane (c : Fin 4) (op : BitVec 128) : VaneId :=
  if bitAt op 12 then .chain (Fin.ofNat 64 (field op 32 8)) else .core c (Fin.ofNat 48 (field op 32 8))

/-- COUNT or THRESHOLD in bits [31:16]. -/
def opCount (op : BitVec 128) : Nat := field op 16 16

/-- BRANCH_VANE (R120, R297). -/
def execBranchVane (c : Fin 4) (k : Fin 8) (s : State) : Out :=
  issue c k 0x82 s (fun op s =>
    let next := if opCount op ≤ (s.vane (opVane c op)).count then field op 48 16 else s.nextPos c k
    (s.issuedTo c k next).modCtx c k (fun x =>
      if x.branchOpen then { x with branchOpen := false, fetchPos := next } else x))

/-- VANE_TEST (R297). -/
def execVaneTest (c : Fin 4) (k : Fin 8) (s : State) : Out :=
  issue c k 0x62 s (fun op s =>
    (s.setLoop c k (Fin.ofNat 8 (field op 40 3)) (BitVec.ofNat 32 (s.vane (opVane c op)).count)).issued c k)

/-- The signal of a VANE_SIGNAL (R287, R291). -/
def State.opSignal (s : State) (c : Fin 4) (k : Fin 8) (op : BitVec 128) : PSig :=
  { vane := if bitAt op 12 then .chain (Fin.ofNat 64 (field op 32 8))
      else .core (Fin.ofNat 4 (field op 40 2)) (Fin.ofNat 48 (field op 32 8))
    target := if bitAt op 12 then field op 42 16 else s.self
    n := opCount op, kindSrc := 0, unit := c, ctx := k
    after := if bitAt op 13 then none else some (c, k, s.headSerial c k)
    fromDev := none, last := false }

/-- VANE_SIGNAL (R291): with ORDER = 1 it takes effect at issue, with ORDER = 0 it is put under way. -/
def execVaneSignal (c : Fin 4) (k : Fin 8) (s : State) : Out :=
  issue c k 0x60 s (fun op s =>
    let p := s.opSignal c k op
    let s := s.issued c k
    if bitAt op 13 then s.signalNow [p] else s.signalLater p)

/-- VANE_SIGNAL_TAKES_EFFECT (R287): every signal for the vane whose operations have completed takes effect, in order. -/
def execVaneSignalTakesEffect (v : VaneId) (s : State) : Out :=
  let mine (p : PSig) : Bool := p.vane == v && s.sigDue p
  match s.signals.filter mine with
  | [] => stay s
  | ps => done ({ s with signals := s.signals.filter (fun p => !mine p) }.signalNow ps)

/-- The wait bound in force (R298). -/
def State.waitBound (s : State) (c : Fin 4) (op : BitVec 128) : Nat :=
  if field op 64 32 = 0 then (s.prog c).defaultBound else field op 64 32

/-- VANE_WAIT (R288, R295): the context joins the vane's line; it consumes at once, or becomes WAITING.
(DESIGN CHOICE, log entry 50) -/
def execVaneWait (c : Fin 4) (k : Fin 8) (s : State) : Out :=
  issue c k 0x61 s (fun op s =>
    let v := opVane c op
    let s := s.modCore c (fun x => { x with lastIssued := k, bank := x.bank.add 0 1 })
    let s := s.modCtx c k (fun x =>
      { x with st := .waiting, wait := some ⟨bitAt op 12, field op 32 8, opCount op, s.waitBound c op, s.now⟩ })
    let s := ((s.enlist v (.ctx c k) (opCount op)).serve v).startDue
    if (s.ctx c k).st = .waiting then s.countVane c 3 else s)

/-- The vane that a WAITING context waits on. -/
def waitVane (c : Fin 4) (w : Wait) : VaneId := if w.chain then .chain (Fin.ofNat 64 w.vane) else .core c (Fin.ofNat 48 w.vane)

/-- A waiter leaves its vane without consuming (R299). -/
def Vane.leave (v : Vane) (w : Waiter) : Vane := { v with waiters := v.waiters.filter (fun x => x.1 != w) }

/-- WAIT_BOUND_EXPIRY (R299, R335, R336): the context is STOPPED, and the device halts as a lost device. -/
def execWaitBoundExpiry (c : Fin 4) (k : Fin 8) (s : State) : Out :=
  match (s.ctx c k).wait with
  | none => stay s
  | some w =>
    if s.running && (s.ctx c k).st == .waiting && w.bound != 0xFFFFFFFF && w.since + w.bound ≤ s.now then
      let s := s.modVane (waitVane c w) (·.leave (.ctx c k))
      let s := s.modCtx c k (fun x => { x with st := .stopped, stopCause := 1, wait := none })
      let s := (s.modCore c (fun x => { x with boundExpiredSeen := true })).countVane c 5
      let s := s.ask 0x35 (s.unit 0 c k) (leBytes 1 c ++ leBytes 1 k ++ leBytes 1 w.vane ++ leBytes 1 (b2n w.chain) ++
        leBytes 2 (s.vane (waitVane c w)).count)
      done (s.haltLost 6)
    else stay s

end Sys2Proof.Machine
end

