-- ==== Sys2Proof/Machine/Units.lean ====
section
/-! DEFINITION. What the vector unit, the copy path and the Eddy engine share (R27, R102, R113, R114, R134, R137): reading
operands, starting an operation with what it will write, and completing it. -/

namespace Sys2Proof.Machine

/-! Reading elements. -/

/-- The device address at which an MX block of an operand begins. (DESIGN CHOICE, log entry 36) -/
def Opd.blockAt (o : Opd) (b x1 x2 x3 : Nat) : Nat := o.base + o.d.bitOff (32 * b) x1 x2 x3 / 8

/-- The scale byte that an element of an MX operand decodes under. An operation of the generic form names no SCALE operand:
the byte is the one that such an operation stored with the block (R55, R449), and a free value for a block with which none
did. (DESIGN CHOICE, log entry 36) -/
def State.scaleByte (s : State) (o : Opd) (x0 x1 x2 x3 : Nat) : Nat :=
  if o.d.format.mx then
    let a := o.blockAt (x0 / 32) x1 x2 x3
    match Tbl.get? s.mxScales a with
    | some b => b
    | none => Config.freeScale s.fresh a % 256
  else 127

/-- An index brought into an extent: a source of extent 1 is broadcast (R446). -/
def clampTo (ext i : Nat) : Nat := if ext ≤ 1 then 0 else i

/-- An element of a source decoded to binary32 (R50, R446). -/
def State.val (s : State) (o : Opd) (x0 x1 x2 x3 : Nat) : Word :=
  let a := clampTo (o.d.extent 0) x0
  let b := clampTo (o.d.extent 1) x1
  let c := clampTo (o.d.extent 2) x2
  let e := clampTo (o.d.extent 3) x3
  decodeF32 o.d.format (s.code o a b c e) (s.scaleByte o a b c e)

/-- A source of an MX format uses up a free value. (DESIGN CHOICE, log entry 53) -/
def Opd.freeUse (o : Opd) : Nat := b2n o.d.format.mx

/-- A row of words as MX blocks along dimension 0 (R55 to R58): the scale byte and the element codes of each. Where the row
is no multiple of 32 long, the last block is shorter. (DESIGN CHOICE, log entry 36) -/
def mxBlocks (el : Elem) (g : Option GustRef) (flat : Nat → Nat) (ws : List Word) : List (Nat × List Nat) :=
  (List.range (ceilDiv ws.length 32)).map (fun b =>
    let part := (ws.drop (32 * b)).take 32
    mxEncode el ((List.range part.length).map (fun i => roundOf g (flat (32 * b + i)))) part)

/-- Words converted to a destination format (R49 to R58): MX blocks along dimension 0, other elements one by one.
(DESIGN CHOICE, log entry 36) -/
def convertRow (f : Fmt) (g : Option GustRef) (flat : Nat → Nat) (ws : List Word) : List Nat :=
  if f.mx then (mxBlocks f.elem g flat ws).flatMap (·.2)
  else (List.range ws.length).map (fun i => convert f.elem (roundOf g (flat i)) (ws.getD i 0))

/-- The words of one row of a destination. -/
def Opd.rowWords (o : Opd) (x : Nat × Nat × Nat) (value : Nat → Nat → Nat → Nat → Word) : List Word :=
  (List.range (o.d.extent 0)).map (fun x0 => value x0 x.1 x.2.1 x.2.2)

/-- The writes of a whole destination from the binary32 value of each element. -/
def Opd.writesOf (o : Opd) (g : Option GustRef) (poison : Bool) (value : Nat → Nat → Nat → Nat → Word) : List WBlk :=
  o.d.outer.flatMap (fun x =>
    o.rowWrites x (convertRow o.d.format g (fun x0 => o.d.flat x0 x.1 x.2.1 x.2.2) (o.rowWords x value)) poison)

/-- The scale bytes of a whole destination in an MX format, by the address of each block (R55, R449).
(DESIGN CHOICE, log entry 36) -/
def Opd.scalesOf (o : Opd) (g : Option GustRef) (value : Nat → Nat → Nat → Nat → Word) : List (Nat × Nat) :=
  if o.d.format.mx then
    o.d.outer.flatMap (fun x =>
      let bs := mxBlocks o.d.format.elem g (fun x0 => o.d.flat x0 x.1 x.2.1 x.2.2) (o.rowWords x value)
      (List.range bs.length).map (fun b => (o.blockAt b x.1 x.2.1 x.2.2, (bs.getD b (127, [])).1)))
  else []

/-- The scale bytes of an MX destination whose elements were moved: a block takes that of the source block which it comes from
whole (R50, R202), and a free one where there is none. `src` gives that block's first element.
(DESIGN CHOICE, log entry 36) -/
def State.movedScales (s : State) (o : Opd) (src : List Nat → Option (Opd × List Nat)) : List (Nat × Nat) :=
  if o.d.format.mx then
    o.d.outer.flatMap (fun x => (List.range (ceilDiv (o.d.extent 0) 32)).map (fun b =>
      let a := o.blockAt b x.1 x.2.1 x.2.2
      (a, match src [32 * b, x.1, x.2.1, x.2.2] with
        | some (p, y) => s.scaleByte p (y.getD 0 0) (y.getD 1 0) (y.getD 2 0) (y.getD 3 0)
        | none => Config.freeScale s.fresh a % 256)))
  else []

/-- Scale bytes kept. -/
def State.keepScales (s : State) (l : List (Nat × Nat)) : State :=
  { s with mxScales := l.foldl (fun t q => Tbl.set t q.1 q.2) s.mxScales }

/-! Starting and completing. -/

/-- What an operation will do to its destination: what it writes, whether that is poisoned, what it violates, and how many
free values it used. -/
structure Effect where
  writes : List WBlk
  poison : Bool
  vios : List (Nat × Nat)
  frees : Nat

/-- An operation that writes nothing and poisons its destination, for a violation of a kind at an address (R27). -/
def Effect.bad (dst : Option Opd) (kind addr : Nat) : Effect :=
  ⟨(dst.map Opd.poisonWrites).getD [], true, [(kind, addr)], 0⟩

/-- The effect of an operation whose operands must lie in a range (R137): the violation, or what `f` gives from the sources
and their poison. -/
def State.effect (s : State) (dst : Option Opd) (srcs : List Opd) (f : Bool → Effect) : Effect :=
  match s.unmappedOpd dst srcs with
  | some a => Effect.bad dst 5 a
  | none => f (srcs.any s.srcPoison)

/-- The slots that a destination claims. -/
def claimOf (dst : Option Opd) : List (Fin 4 × Nat × Nat) := (dst.bind (·.slot)).toList

/-- An operation starts: its sources are read and released, its destination is claimed, its violations are raised, and it
issues (R100, R113, R114). (DESIGN CHOICE, log entry 52) -/
def State.begin (s : State) (c : Fin 4) (k : Fin 8) (op : BitVec 128) (dst : Option Opd) (srcs : List Opd) (e : Effect) :
    State × RunOp :=
  let serial := s.headSerial c k
  let reads := srcs.flatMap (·.ranges)
  let writes := match dst with | some o => o.ranges | none => []
  let bad := !e.vios.isEmpty
  let s1 : State := if bad && (s.unmappedOpd dst srcs).isSome then s else s.touch reads
  let s2 : State := srcs.foldl State.releaseSrc s1
  let s3 : State := match dst with | some o => s2.claimDst o false | none => s2
  let s4 := (s3.fly c ⟨k, serial, reads, writes⟩).spent (e.frees + (srcs.foldl (fun a o => a + o.freeUse) 0))
  let s5 := s4.violateAll (e.vios.map (fun v => s.ctxVio c k v.1 v.2))
  (s5.issued c k,
    { ctx := k, serial := serial, op := op, dst := dst, writes := e.writes, scales := [], fills := claimOf dst, poison := e.poison
      compact := none, predict := none, pred := none, counts := [] })

/-- What an operation wrote lands, its slots become FULL, and it has completed (R103, R113).
(DESIGN CHOICE, log entry 52) -/
def State.finish (s : State) (c : Fin 4) (r : RunOp) : State :=
  let s := s.landAll (spread r.writes)
  let s := s.keepScales r.scales
  let s := r.fills.foldl (fun s q => s.modRing q.1 q.2.1 (fun x => x.fill q.2.2 r.poison)) s
  s.landed c r.ctx r.serial

end Sys2Proof.Machine
end

