-- ==== Sys2Proof/Machine/Vector.lean ====
section
/-! DEFINITION. The vector unit (R446 to R450, R214, R215): CONVERT, the VEC_ operations and VEC_DROPOUT. -/

namespace Sys2Proof.Machine

/-! Class fields (R105, R214). -/

def vecSr (op : BitVec 128) : Bool := bitAt op 84
def vecTable (op : BitVec 128) : Nat := field op 85 5
def vecInvert (op : BitVec 128) : Bool := bitAt op 90

/-- The key reference that an operation rounds with (R449). -/
def State.vecGust (s : State) (c : Fin 4) (k : Fin 8) (op : BitVec 128) : Option GustRef :=
  if vecSr op then some (s.gustRef c (opKey op) (s.ctx c k).lcX) else none

/-- An operation of the vector unit issues; `value` forms each element of DST from the sources (R447, R448). -/
def vecIssue (c : Fin 4) (k : Fin 8) (op : BitVec 128) (s : State)
    (value : List Opd → Nat → Nat → Nat → Nat → Word) : State :=
  let lc := (s.ctx c k).lcX
  let dst := s.opDst c lc op
  let srcs := s.opSrcs c lc op
  let e := s.effect dst srcs (fun poison =>
    ⟨(dst.map (fun o => o.writesOf (s.vecGust c k op) poison (value srcs))).getD [], poison, [], 0⟩)
  let scales := if e.vios.isEmpty then (dst.map (fun o => o.scalesOf (s.vecGust c k op) (value srcs))).getD [] else []
  let (s, r) := s.begin c k op dst srcs e
  s.modCore c (fun x => { x with vec := some { r with scales := scales } })

/-- The i-th source's element at an index of DST. -/
def State.srcAt (s : State) (srcs : List Opd) (i x0 x1 x2 x3 : Nat) : Word :=
  match srcs[i]? with
  | some o => s.val o x0 x1 x2 x3
  | none => 0

/-- An elementwise operation of one source. -/
def vec1 (c : Fin 4) (k : Fin 8) (code : Nat) (s : State) (f : BitVec 128 → Word → Word) : Out :=
  issue c k code s (fun op s => vecIssue c k op s (fun srcs x0 x1 x2 x3 => f op (s.srcAt srcs 0 x0 x1 x2 x3)))

/-- An elementwise operation of two sources. -/
def vec2 (c : Fin 4) (k : Fin 8) (code : Nat) (s : State) (f : Word → Word → Word) : Out :=
  issue c k code s (fun op s => vecIssue c k op s (fun srcs x0 x1 x2 x3 =>
    f (s.srcAt srcs 0 x0 x1 x2 x3) (s.srcAt srcs 1 x0 x1 x2 x3)))

/-- The elements of a source along dimension 0 (R448). -/
def State.along (s : State) (srcs : List Opd) (i x1 x2 x3 : Nat) : List Word :=
  match srcs[i]? with
  | some o => (List.range (o.d.extent 0)).map (fun x0 => s.val o x0 x1 x2 x3)
  | none => []

/-- A comparison over two sources, or a reduction along dimension 0 of one (R447, R448). -/
def vecCompare (c : Fin 4) (k : Fin 8) (code : Nat) (s : State) (f : Word → Word → Word) : Out :=
  issue c k code s (fun op s => vecIssue c k op s (fun srcs x0 x1 x2 x3 =>
    if srcs.length = 1 then
      match s.along srcs 0 x1 x2 x3 with
      | [] => 0
      | w :: ws => ws.foldl f (if isNaN w then f32NaN else w)
    else f (s.srcAt srcs 0 x0 x1 x2 x3) (s.srcAt srcs 1 x0 x1 x2 x3)))

/-- CONVERT (R447). -/
def execConvert (c : Fin 4) (k : Fin 8) (s : State) : Out := vec1 c k 0x38 s (fun _ a => a)

/-- VEC_ADD (R447). -/
def execVecAdd (c : Fin 4) (k : Fin 8) (s : State) : Out := vec2 c k 0x40 s fadd

/-- VEC_SUB (R447). -/
def execVecSub (c : Fin 4) (k : Fin 8) (s : State) : Out := vec2 c k 0x41 s fsub

/-- VEC_MUL (R447). -/
def execVecMul (c : Fin 4) (k : Fin 8) (s : State) : Out := vec2 c k 0x42 s fmul

/-- VEC_FMA (R447). -/
def execVecFma (c : Fin 4) (k : Fin 8) (s : State) : Out :=
  issue c k 0x43 s (fun op s => vecIssue c k op s (fun srcs x0 x1 x2 x3 =>
    ffma (s.srcAt srcs 0 x0 x1 x2 x3) (s.srcAt srcs 1 x0 x1 x2 x3) (s.srcAt srcs 2 x0 x1 x2 x3)))

/-- A function table of a core (R62). -/
def State.funcTab (s : State) (c : Fin 4) (n : Nat) : FuncTab := FuncTab.parse ((Tbl.get? (s.prog c).funcs n).getD [])

/-- VEC_FUNC (R447, R64). (DESIGN CHOICE, log entry 54) -/
def execVecFunc (c : Fin 4) (k : Fin 8) (s : State) : Out :=
  vec1 c k 0x44 s (fun op a => (s.funcTab c (vecTable op)).eval a)

/-- VEC_MAX (R447, R448). -/
def execVecMax (c : Fin 4) (k : Fin 8) (s : State) : Out := vecCompare c k 0x45 s fmax

/-- VEC_MIN (R447, R448). -/
def execVecMin (c : Fin 4) (k : Fin 8) (s : State) : Out := vecCompare c k 0x46 s fmin

/-- VEC_SUM (R448, R47). -/
def execVecSum (c : Fin 4) (k : Fin 8) (s : State) : Out :=
  issue c k 0x47 s (fun op s => vecIssue c k op s (fun srcs _ x1 x2 x3 =>
    dotTerms 0 ((s.along srcs 0 x1 x2 x3).map sumTerm)))

/-- VEC_DOT (R448, R47). -/
def execVecDot (c : Fin 4) (k : Fin 8) (s : State) : Out :=
  issue c k 0x48 s (fun op s => vecIssue c k op s (fun srcs _ x1 x2 x3 =>
    dotTerms 0 (((s.along srcs 0 x1 x2 x3).zip (s.along srcs 1 x1 x2 x3)).map (fun p =>
      product (roundCommon p.1) (roundCommon p.2)))))

/-- VEC_SELECT (R447): a selected NaN becomes canonical. -/
def execVecSelect (c : Fin 4) (k : Fin 8) (s : State) : Out :=
  issue c k 0x49 s (fun op s => vecIssue c k op s (fun srcs x0 x1 x2 x3 =>
    let zero := isZero (s.srcAt srcs 0 x0 x1 x2 x3)
    let w := if zero = vecInvert op then s.srcAt srcs 1 x0 x1 x2 x3 else s.srcAt srcs 2 x0 x1 x2 x3
    if isNaN w then f32NaN else w))

def keyKeep (e : BitVec 256) : Nat := le e 20 2
def keyScale (e : BitVec 256) : Word := BitVec.ofNat 32 (le e 24 4)

/-- VEC_DROPOUT (R214): kept elements are scaled, dropped ones are +0. -/
def execVecDropout (c : Fin 4) (k : Fin 8) (s : State) : Out :=
  issue c k 0x4A s (fun op s =>
    let ref := s.gustRef c (opKey op) (s.ctx c k).lcX
    let e := s.gustEntry c (opKey op)
    vecIssue c k op s (fun srcs x0 x1 x2 x3 =>
      match srcs[0]? with
      | some o =>
        if ref.word 1 (o.d.flat x0 x1 x2 x3) < keyKeep e then fmul (s.val o x0 x1 x2 x3) (keyScale e) else 0
      | none => 0))

/-- VECTOR_OPERATION_COMPLETE (R450). -/
def execVectorOperationComplete (c : Fin 4) (s : State) : Out :=
  match (s.core c).vec with
  | none => stay s
  | some r => done ((s.finish c r).modCore c (fun x => { x with vec := none }))

end Sys2Proof.Machine
end

