-- ==== Sys2Proof/Machine/Copy.lean ====
section
/-! DEFINITION. Copies (R147 to R149) and the Eddy engine's gather, scatter and merge (R150 to R154). -/

namespace Sys2Proof.Machine

/-! Copies. -/

/-- A destination written with the codes that `code` gives for its elements. (DESIGN CHOICE, log entry 35) -/
def Opd.copyWrites (o : Opd) (poison : Bool) (code : List Nat → Nat) : List WBlk :=
  o.d.outer.flatMap (fun x =>
    o.rowWrites x ((List.range (o.d.extent 0)).map (fun x0 => code [x0, x.1, x.2.1, x.2.2])) poison)

/-- The code of an element of a source at an index list. -/
def State.codeList (s : State) (o : Opd) (x : List Nat) : Nat := s.code o (x.getD 0 0) (x.getD 1 0) (x.getD 2 0) (x.getD 3 0)

/-- A copy issues (R147 to R149): `vio` is what it violates besides R137, `perm` gives the source dimension of each
destination dimension. -/
def copyIssue (c : Fin 4) (k : Fin 8) (op : BitVec 128) (s : State) (vio : Option Opd → List Opd → Option (Nat × Nat))
    (perm : List Opd → List Nat) : State :=
  let lc := (s.ctx c k).lcX
  let dst := s.opDst c lc op
  let srcs := s.opSrcs c lc op
  let p := perm srcs
  let at_ (y : List Nat) : List Nat := (List.range 4).map (fun d => y.getD (p.findIdx (· == d)) 0)
  let e := s.effect dst srcs (fun poison =>
    match vio dst srcs, dst, srcs with
    | some v, _, _ => Effect.bad dst v.1 v.2
    | none, some o, a :: _ => ⟨o.copyWrites poison (fun y => s.codeList a (at_ y)), poison, [], 0⟩
    | none, _, _ => ⟨[], poison, [], 0⟩)
  let whole (y : List Nat) : Option (Opd × List Nat) := if p.getD 0 0 = 0 then srcs.head?.map (·, at_ y) else none
  let scales := if e.vios.isEmpty then (dst.map (s.movedScales · whole)).getD [] else []
  let (s, r) := s.begin c k op dst srcs e
  s.modCore c (fun x => { x with copy := some { r with scales := scales } })

/-- Source and destination of a TCOPY or PCOPY share a byte (R149). -/
def copyOverlap (dst : Option Opd) (srcs : List Opd) : Option (Nat × Nat) :=
  match dst, srcs with
  | some o, a :: _ => if overlap o.ranges a.ranges then some (3, o.base) else none
  | _, _ => none

/-- COPY (R147). (DESIGN CHOICE, log entry 60) -/
def execCopy (c : Fin 4) (k : Fin 8) (s : State) : Out :=
  issue c k 0x32 s (fun op s => copyIssue c k op s (fun _ _ => none) (fun _ => [0, 1, 2, 3]))

/-- The pair of dimensions that AXES exchanges, as a permutation (R148). (DESIGN CHOICE, log entry 60) -/
def axesPerm (a : Nat) : List Nat :=
  match a with
  | 0 => [1, 0, 2, 3]
  | 1 => [0, 2, 1, 3]
  | 2 => [0, 1, 3, 2]
  | _ => [2, 1, 0, 3]

/-- TCOPY (R148, R149). -/
def execTcopy (c : Fin 4) (k : Fin 8) (s : State) : Out :=
  issue c k 0x30 s (fun op s => copyIssue c k op s copyOverlap (fun _ => axesPerm (field op 80 2)))

/-- The permutation tensor of a PCOPY: RANK entries (R148). -/
def State.permOf (s : State) (srcs : List Opd) : List Nat :=
  match srcs with
  | a :: b :: _ => (List.range a.d.rank).map (fun i => s.code b i 0 0 0)
  | _ => []

/-- The first entry that makes a list no permutation: one beyond the rank, or one that an earlier entry has. -/
def permBad (p : List Nat) : Option Nat :=
  (List.range p.length).find? (fun i => decide (p.length ≤ p.getD i 0) || (p.take i).contains (p.getD i 0))

/-- What a PCOPY violates (R148, R149, R445): an overlap, which is captured at the destination, or else a permutation tensor
that is none. A permutation that does not give DST's extents in SRC0's order is none of these, and the copy goes on.
(DESIGN CHOICE, log entry 60) -/
def State.pcopyVio (s : State) (dst : Option Opd) (srcs : List Opd) : Option (Nat × Nat) :=
  match copyOverlap dst srcs, permBad (s.permOf srcs), srcs with
  | some v, _, _ => some v
  | none, some i, _ :: b :: _ => some (1, b.base + i)
  | none, _, _ => none

/-- PCOPY (R148, R149). -/
def execPcopy (c : Fin 4) (k : Fin 8) (s : State) : Out :=
  issue c k 0x31 s (fun op s => copyIssue c k op s s.pcopyVio (fun srcs =>
    let p := s.permOf srcs
    p ++ (List.range 4).drop p.length))

/-- COPY_OPERATION_COMPLETE (R147). -/
def execCopyOperationComplete (c : Fin 4) (s : State) : Out :=
  match (s.core c).copy with
  | none => stay s
  | some r => done ((s.finish c r).modCore c (fun x => { x with copy := none }))

/-! Gather, scatter and merge. -/

/-- DIM of GATHER, SCATTER and MERGE. -/
def opDim (op : BitVec 128) : Nat := field op 80 2

/-- The indices of an INDEX tensor, in position order (R144). -/
def State.indices (s : State) (o : Opd) : List Nat := (List.range (o.d.extent 0)).map (fun p => s.code o p 0 0 0)

/-- The first index at or above the range, by position, as a violation (R151). -/
def rangeVio (idx : List Nat) (range base : Nat) : Option (Nat × Nat) :=
  ((List.range idx.length).find? (fun p => decide (range ≤ idx.getD p 0))).map (fun p => (1, base + 4 * p))

/-- An Eddy operation takes the engine. -/
def State.takeEddy (s : State) (c : Fin 4) (r : RunOp) : State :=
  s.modEddy c (fun e => { e with run := some r, lastOp := opcode r.op, lastCtx := r.ctx })

/-- The bytes of SRC0 that a GATHER reads: the slices that its indices select (R134, R150). -/
def gatherReads (o a : Opd) (d : Nat) (idx : List Nat) : List (Nat × Nat) :=
  o.d.outer.flatMap (fun x => (List.range (o.d.extent 0)).map (fun x0 =>
    let y := [x0, x.1, x.2.1, x.2.2]
    let z := setAt y d (idx.getD (y.getD d 0) 0)
    a.elemRange (z.getD 0 0) (z.getD 1 0) (z.getD 2 0) (z.getD 3 0)))

/-- GATHER issues (R150 to R152). -/
def gatherIssue (c : Fin 4) (k : Fin 8) (op : BitVec 128) (s : State) : State :=
  let lc := (s.ctx c k).lcX
  let dst := s.opDst c lc op
  let srcs := s.opSrcs c lc op
  let d := opDim op
  let from_ (idx y : List Nat) : List Nat := setAt y d (idx.getD (y.getD d 0) 0)
  let e := s.effect dst srcs (fun poison =>
    match dst, srcs with
    | some o, a :: b :: _ =>
      let idx := s.indices b
      match rangeVio idx (a.d.extent d) b.base with
      | some v => Effect.bad dst v.1 v.2
      | none =>
        let poison := s.srcPoison b || s.readPoison a (gatherReads o a d idx)
        ⟨o.copyWrites poison (fun y => s.codeList a (from_ idx y)), poison, [], 0⟩
    | _, _ => ⟨[], poison, [], 0⟩)
  let whole (y : List Nat) : Option (Opd × List Nat) :=
    match srcs with
    | a :: b :: _ => if d = 0 then none else some (a, from_ (s.indices b) y)
    | _ => none
  let scales := if e.vios.isEmpty then (dst.map (s.movedScales · whole)).getD [] else []
  let (s, r) := s.begin c k op dst srcs e
  s.takeEddy c { r with scales := scales }

/-- GATHER (R150). -/
def execGather (c : Fin 4) (k : Fin 8) (s : State) : Out := issue c k 0x20 s (gatherIssue c k)

/-- How a contribution combines with a value (R153): 0 add, 1 max, 2 min, 3 last. -/
def combineOf (code : Nat) (old new : Word) : Word :=
  match code with
  | 0 => fadd old new
  | 1 => fmax old new
  | 2 => fmin old new
  | _ => new

/-- The elements of one row of DST that indices name, by x0: the final code, where there is one (R153).
(DESIGN CHOICE, log entry 61) -/
def State.mergedRow (s : State) (code d : Nat) (o a : Opd) (idx : List Nat) (x : Nat × Nat × Nat) : List (Option Nat) :=
  (List.range (o.d.extent 0)).map (fun x0 =>
    let y := [x0, x.1, x.2.1, x.2.2]
    match (List.range idx.length).filter (fun p => idx.getD p 0 == y.getD d 0) with
    | [] => none
    | ps =>
      let v := ps.foldl (fun acc p =>
        let z := setAt y d p
        combineOf code acc (s.val a (z.getD 0 0) (z.getD 1 0) (z.getD 2 0) (z.getD 3 0)))
        (s.val o x0 x.1 x.2.1 x.2.2)
      some (convert o.d.format.elem .rne v))

/-- The writes of some elements of a row: one run where all are written, else element by element. -/
def Opd.partWrites (o : Opd) (x : Nat × Nat × Nat) (codes : List (Option Nat)) (poison : Bool) : List WBlk :=
  if codes.all (·.isSome) then o.rowWrites x (codes.filterMap id) poison
  else (List.range codes.length).flatMap (fun x0 =>
    match codes.getD x0 none with
    | some v => [⟨o.base + o.d.bitOff x0 x.1 x.2.1 x.2.2 / 8, o.d.bits / 8, leBytes (o.d.bits / 8) v, poison⟩]
    | none => [])

/-- D of R154: positions whose index an earlier position has. -/
def repeatsOf (idx : List Nat) : Nat :=
  ((List.range idx.length).filter (fun p => (idx.take p).contains (idx.getD p 0))).length

/-- SCATTER or MERGE issues (R150 to R154). `code` is COMBINE, 3 for a SCATTER. (DESIGN CHOICE, log entry 61) -/
def mergeIssue (c : Fin 4) (k : Fin 8) (code : Nat) (op : BitVec 128) (s : State) : State :=
  let lc := (s.ctx c k).lcX
  let dst := s.opDst c lc op
  let srcs := s.opSrcs c lc op
  let d := opDim op
  let idx := match srcs with | _ :: b :: _ => s.indices b | _ => []
  let e := s.effect dst srcs (fun poison =>
    match dst, srcs with
    | some o, a :: b :: _ =>
      let rows := o.d.outer.map (fun x => (x, s.mergedRow code d o a idx x))
      match rangeVio idx (o.d.extent d) b.base with
      | some v =>
        ⟨rows.flatMap (fun r => (o.partWrites r.1 r.2 true).map (fun w => { w with data := [] })), true, [v], 0⟩
      | none =>
        let writes := rows.flatMap (fun r => o.partWrites r.1 r.2 false)
        let poison := poison || (code != 3 && s.anyPoison (writes.map (fun w => (w.addr, w.len))))
        ⟨writes.map (fun w => { w with poison := poison }), poison, [], o.freeUse⟩
    | _, _ => ⟨[], poison, [], 0⟩)
  let (s, r) := s.begin c k op dst srcs e
  s.takeEddy c { r with counts := [(2, repeatsOf idx)] }

/-- SCATTER (R150, R153). -/
def execScatter (c : Fin 4) (k : Fin 8) (s : State) : Out := issue c k 0x21 s (mergeIssue c k 3)

/-- MERGE (R153). -/
def execMerge (c : Fin 4) (k : Fin 8) (s : State) : Out :=
  issue c k 0x22 s (fun op s => mergeIssue c k (field op 82 3) op s)

end Sys2Proof.Machine
end

