-- ==== Sys2Proof/Machine/Sparse.lean ====
section
/-! DEFINITION. The bitmap form (R145), its form errors (R164), row-bin tables (R168), COMPACT (R165 to R173) and EXPAND
(R174 to R176). -/

namespace Sys2Proof.Machine

/-! BITMAP tensors (R145, R164). -/

/-- A BITMAP tensor as an engine reads it: its sub-blocks in level-0 order as (row, column, level-0 word, address of the
word), its stored elements as (row, column, value index), the offset and the number of its values, whether an offset
points outside the capacity, and whether it has a form error. -/
structure Bitmap where
  subs : List (Nat × Nat × Nat × Nat)
  entries : List (Nat × Nat × Nat)
  offVal : Nat
  nnz : Nat
  lost : Bool
  bad : Bool

/-- The set bits of a number below `n`, in rising order. -/
def bitsOf (v n : Nat) : List Nat := (List.range n).filter (fun i => v.testBit i)

/-- A BITMAP tensor read at an operand (R145), with every form error of R164. -/
def State.bitmap (s : State) (o : Opd) : Bitmap :=
  let w (off n : Nat) : Nat := ofLe (s.peek (o.base + off) n)
  let rows := o.d.extent 1
  let cols := o.d.extent 0
  let rb := ceilDiv rows 64
  let cb := ceilDiv cols 64
  let cap := o.d.str 1
  let bits := o.d.bits
  let nb := w 12 4
  let ns := w 16 4
  let nnz := w 20 4
  let offL1 := w 24 4
  let offL0 := w 28 4
  let offStart := w 32 4
  let offVal := w 36 4
  let lost := decide (cap < offL1 + 8 * nb) || decide (cap < offL0 + 8 * ns) || decide (cap < offStart + 4 * nb) ||
    decide (cap < offVal + ceilDiv (nnz * bits) 8) || decide (cap < 64 + ceilDiv (rb * cb) 8)
  if lost then ⟨[], [], offVal, nnz, true, true⟩
  else
    let l2 := w 64 (ceilDiv (rb * cb) 8)
    let blocks := bitsOf l2 (rb * cb)
    let l1 := (List.range blocks.length).map (fun j => w (offL1 + 8 * j) 8)
    let places := (List.range blocks.length).flatMap (fun j =>
      (bitsOf (l1.getD j 0) 64).map (fun b => (blocks.getD j 0 / cb * 64 + b / 8 * 8, blocks.getD j 0 % cb * 64 + b % 8 * 8, j)))
    let subs := (List.range places.length).map (fun m =>
      let p := places.getD m (0, 0, 0)
      (p.1, p.2.1, w (offL0 + 8 * m) 8, o.base + offL0 + 8 * m))
    let stored := subs.flatMap (fun u => (bitsOf u.2.2.1 64).map (fun b => (u.1 + b / 8, u.2.1 + b % 8)))
    let entries := (List.range stored.length).map (fun i => ((stored.getD i (0, 0)).1, (stored.getD i (0, 0)).2, i))
    let count (j : Nat) : Nat := ((List.range places.length).filter (fun m => decide ((places.getD m (0, 0, 0)).2.2 < j))).foldl
      (fun acc m => acc + (bitsOf (subs.getD m (0, 0, 0, 0)).2.2.1 64).length) 0
    let bad := blocks.length != nb || places.length != ns || entries.length != nnz || l1.any (· == 0) ||
      subs.any (fun u => u.2.2.1 == 0) ||
      (List.range blocks.length).any (fun j => w (offStart + 4 * j) 4 != count j) ||
      entries.any (fun e => decide (rows ≤ e.1) || decide (cols ≤ e.2.1)) || l2 / 2 ^ (rb * cb) != 0
    ⟨subs, entries, offVal, nnz, false, bad⟩

/-- A form error counted and recorded (R164). (DESIGN CHOICE, log entry 63) -/
def State.formError (s : State) (c : Fin 4) (addr : Nat) : State :=
  (s.modEddy c (fun e => { e with formErrorSeen := true, bank := e.bank.add 4 1 })).ask 0x34 (s.unit 2 c 0) (leBytes 6 addr)

/-! Row bins (R168). -/

def binTable (op : BitVec 128) : Nat := field op 102 4
def binIndex (op : BitVec 128) : Nat := field op 90 12

/-- The rows of a bin, in ROW_LIST order. -/
def State.binRows (s : State) (c : Fin 4) (table bin : Nat) : List Nat :=
  let t := (Tbl.get? (s.prog c).rowBins table).getD []
  let n (off k : Nat) : Nat := ofLe (slice t off k)
  let list := 16 + 8 * n 4 2
  let first := n (16 + 8 * bin) 4
  (List.range (n (16 + 8 * bin + 4) 2)).map (fun i => n (list + 4 * (first + i)) 4)

/-! COMPACT (R165 to R173). -/

def cmpSide (op : BitVec 128) : Nat := field op 80 1
def cmpFirst (op : BitVec 128) : Bool := bitAt op 81
def cmpLast (op : BitVec 128) : Bool := bitAt op 82
def cmpTransposed (op : BitVec 128) : Bool := bitAt op 83
def cmpN (op : BitVec 128) : Nat := field op 84 3
/-- M of the declared bound. -/
def cmpM (op : BitVec 128) : Nat := 2 ^ (field op 87 2 + 1)

/-- The address of the level-0 word that holds the first group of a bin's rows above its declared bound (R165). -/
def boundVio (b : Bitmap) (rows : List Nat) (n m : Nat) : Option Nat :=
  if n = 0 then none
  else (b.subs.find? (fun u => (List.range 8).any (fun rr => rows.contains (u.1 + rr) &&
    (List.range (8 / m)).any (fun h => decide (n < (bitsOf (u.2.2.1 / 2 ^ (8 * rr + h * m)) m).length))))).map (·.2.2.2)

/-- The address of the first index of a transpose map, among a bin's rows, at or above W's NNZ (R166). -/
def State.mapVio (s : State) (o : Opd) (b : Bitmap) (rows : List Nat) (nnz : Nat) : Option Nat :=
  (b.entries.find? (fun e => rows.contains e.1 && decide (nnz ≤ ofLe (s.peek (o.base + b.offVal + 4 * e.2.2) 4)))).map
    (fun e => o.base + b.offVal + 4 * e.2.2)

/-- A K group is retained when some row of the bin has a non-empty sub-block within it (R170). -/
def retained (b : Bitmap) (rows : List Nat) (g : Nat) : Bool :=
  b.subs.any (fun u => decide (u.2.1 / 32 = g) && rows.any (fun r => decide (r / 8 = u.1 / 8)))

/-- The code of a stored element: from the tensor itself, or from W by the transpose map (R166). -/
def State.storedCode (s : State) (o : Opd) (b : Bitmap) (w : Option (Opd × Bitmap)) (i : Nat) : Nat :=
  match w with
  | some (ow, bw) =>
    s.codeAt (ow.base + bw.offVal) ow.d.bits (ofLe (s.peek (o.base + b.offVal + 4 * i) 4) * ow.d.bits)
  | none => s.codeAt (o.base + b.offVal) o.d.bits (i * o.d.bits)

/-- One retained group of the bin's rows: stored values in place, +0 elsewhere (R170). -/
def State.rowGroup (s : State) (o : Opd) (b : Bitmap) (w : Option (Opd × Bitmap)) (rows : List Nat) (g : Nat) :
    List (List Nat × Nat) :=
  rows.map (fun r => ((List.range 32).map (fun e =>
    match b.entries.find? (fun x => x.1 == r && x.2.1 == 32 * g + e) with
    | some x => s.storedCode o b w x.2.2
    | none => 0), 127))

/-- One group of the dense operand, a ROP tensor, for its columns (R170). -/
def State.colGroup (s : State) (o : Opd) (g : Nat) : List (List Nat × Nat) :=
  (List.range (min 512 (o.d.extent 1))).map (fun j =>
    ((List.range 32).map (fun e => s.code o (32 * g + e) j 0 0), s.scaleByte o (32 * g) j 0 0))

/-- The bytes that a COMPACT reads of its weights and its dense operand: the bitmaps, the values of the bin's rows, and the
retained groups of the dense operand (R134, R166, R170). -/
def State.compactReads (s : State) (o d : Opd) (b : Bitmap) (w : Option (Opd × Bitmap)) (rows keep : List Nat) : Bool :=
  let mine := b.entries.filter (fun e => rows.contains e.1)
  let value (a off bits i : Nat) : Nat × Nat := (a + off + i * bits / 8, ceilDiv (i * bits % 8 + bits) 8)
  s.readPoison o ((o.base, b.offVal) :: mine.map (fun e => value o.base b.offVal o.d.bits e.2.2)) ||
    (match w with
     | some (ow, bw) => s.readPoison ow ((ow.base, bw.offVal) :: mine.map (fun e =>
         value ow.base bw.offVal ow.d.bits (ofLe (s.peek (o.base + b.offVal + 4 * e.2.2) 4))))
     | none => false) ||
    s.readPoison d (keep.flatMap (fun q => (List.range (d.d.extent 1)).flatMap (fun j =>
      (List.range 32).map (fun e => d.elemRange (32 * q + e) j 0 0))))

/-- A group of free values, for an operand that cannot be read. -/
def State.freeGroup (s : State) (n g : Nat) : List (List Nat × Nat) :=
  (List.range n).map (fun i => ((List.range 32).map (fun e => Config.freeNat (s.fresh + (g * 512 + i) * 32 + e)), 127))

/-- COMPACT issues (R165, R166, R170, R172): it takes the feeders, forms its groups and claims its first bays.
COMPACT_GROUPS counts them as they fill (R185). (DESIGN CHOICE, log entry 63) -/
def compactIssue (c : Fin 4) (k : Fin 8) (op : BitVec 128) (s : State) : State :=
  let lc := (s.ctx c k).lcX
  let srcs := s.opSrcs c lc op
  let g := arrayOf c (cmpSide op)
  match srcs with
  | o :: d :: rest =>
    let unmapped := s.unmappedOpd none srcs
    let b := s.bitmap o
    let w := if cmpTransposed op then rest.head?.map (fun x => (x, s.bitmap x)) else none
    let rows := s.binRows c (binTable op) (binIndex op)
    let total := ceilDiv (o.d.extent 0) 32
    let lost := unmapped.isSome || b.lost
    let keep := if lost then List.range total else (List.range total).filter (retained b rows)
    let form := unmapped.isNone && (b.bad || (w.map (fun x => x.2.bad)).getD false)
    let vio : Option (Nat × Nat) :=
      match unmapped with
      | some a => some (5, a)
      | none =>
        match boundVio b rows (cmpN op) (cmpM op) with
        | some a => some (2, a)
        | none => (w.bind (fun x => s.mapVio o b rows x.2.nnz)).map (fun a => (1, a))
    let poison := vio.isSome || form || s.compactReads o d b w rows keep
    let rowFmt := match w with | some x => x.1.d.fmt | none => o.d.fmt
    let reads := if unmapped.isSome then [] else srcs.flatMap (·.ranges)
    let wild (fmt : Nat) (r : List (List Nat × Nat)) : BayGroup := ⟨r, ⟨fmt, none, r.length, none, [], reads⟩⟩
    let rowGroups := keep.map (fun q => wild rowFmt (if lost || vio.isSome then s.freeGroup rows.length q else s.rowGroup o b w rows q))
    let colGroups := keep.map (fun q => wild d.d.fmt (if lost then s.freeGroup (min 512 (d.d.extent 1)) q else s.colGroup d q))
    let tag := some (1, binTable op, binIndex op)
    let (s1, r) := s.begin c k op none srcs ⟨[], poison, vio.toList, (total + 1) * 512 * 33⟩
    let s2 : State := if form then s1.formError c (if b.bad then o.base else (w.map (fun x => x.1.base)).getD o.base) else s1
    let s3 := s2.modEddy c (fun e =>
      { e with
        served := if cmpTransposed op then e.served else Tbl.set e.served (binTable op) o
        groupBoundSeen := e.groupBoundSeen || (vio.map (·.1)) == some 2
        bank := (e.bank.add 3 (b2n ((vio.map (·.1)) == some 2))).add 1 (total - keep.length) })
    let s4 := s3.modGale g (fun y => { y with owner := some k })
    (s4.takeEddy c { r with compact := some ⟨g, rowGroups, colGroups, rowFmt, d.d.fmt, poison, poison, tag, cmpLast op, keep.length⟩ }).feedCompact c
  | _ => s.issued c k

/-- COMPACT (R170). -/
def execCompact (c : Fin 4) (k : Fin 8) (s : State) : Out := issue c k 0x23 s (compactIssue c k)

/-! EXPAND (R175, R176). -/

def expSide (op : BitVec 128) : Nat := field op 80 1
/-- MODE of EXPAND: 0 ROWS, 1 MASKED, 2 PRED. -/
def expMode (op : BitVec 128) : Nat := field op 81 2
def expColTile (op : BitVec 128) : Nat := field op 106 8

/-- One row of results at row `i` of a destination, from column 0: whole groups of a grouped layout padded with +0
(R141). -/
def Opd.putRow (o : Opd) (i : Nat) (codes : List Nat) (poison : Bool) : List WBlk :=
  if o.d.isGrouped then
    (List.range (ceilDiv codes.length 32)).map (fun q =>
      let part := (codes.drop (32 * q)).take 32
      let bs := packCodes o.d.bits (part ++ List.replicate (32 - part.length) 0)
      ⟨o.base + o.d.bitOff (32 * q) i 0 0 / 8, bs.length, bs, poison⟩)
  else
    let bs := packCodes o.d.bits codes
    [⟨o.base + o.d.bitOff 0 i 0 0 / 8, bs.length, bs, poison⟩]

/-- EXPAND issues for the oldest chain of its side's buffer (R174). -/
def expandIssue (c : Fin 4) (k : Fin 8) (op : BitVec 128) (s : State) : State :=
  let dst := s.opDst c (s.ctx c k).lcX op
  let e := s.effect dst [] (fun poison => ⟨[], poison, [], 0⟩)
  let (s, r) := s.begin c k op dst [] e
  s.takeEddy c { r with pred := (s.ctx c k).predX }

/-- EXPAND (R175). -/
def execExpand (c : Fin 4) (k : Fin 8) (s : State) : Out := issue c k 0x24 s (expandIssue c k)

/-- The row of DST that row i of a chain goes to (R175, R181): none where it is discarded. In PRED mode the slot and the
token tile are those of the context's most recent PREDICT (R178), and the packed tile is the chain's.
(DESIGN CHOICE, log entry 62) -/
def State.expandRow (s : State) (c : Fin 4) (r : RunOp) (ch : Chain) (i : Nat) : Option Nat :=
  if expMode r.op = 2 then
    match r.pred, ch.tag with
    | some (slot, tile), some (0, _, p) =>
      let groups := (((s.core c).eddy.predTile slot tile).cur.map activeGroups).getD []
      ((packedTile groups p)[i / 32]?).map (fun g => 32 * g + i % 32)
    | _, _ => none
  else (s.binRows c (binTable r.op) (binIndex r.op))[i]?

/-- The writes of one row that EXPAND takes (R175, R176). -/
def State.expandWrites (s : State) (c : Fin 4) (r : RunOp) (ch : Chain) (o : Opd) (row : Nat × List Nat × Bool) : List WBlk :=
  let words := row.2.1.map (BitVec.ofNat 32)
  let poison := row.2.2 || r.poison
  match s.expandRow c r ch row.1 with
  | none => []
  | some dr =>
    if expMode r.op = 1 then
      match Tbl.get? (s.core c).eddy.served (binTable r.op) with
      | none => []
      | some w =>
        (List.range words.length).flatMap (fun j =>
          match (s.bitmap w).entries.find? (fun e => e.1 == dr && e.2.1 == 512 * expColTile r.op + j) with
          | some e =>
            let x0 := e.2.2 % max 1 (o.d.extent 0)
            let x1 := e.2.2 / max 1 (o.d.extent 0)
            let code := (drainRow ch [words.getD j 0] (fun _ => o.d.flat x0 x1 0 0)).getD 0 0
            [⟨o.base + o.d.bitOff x0 x1 0 0 / 8, o.d.bits / 8, leBytes (o.d.bits / 8) code, poison⟩]
          | none => [])
    else o.putRow dr (drainRow ch words (fun j => o.d.flat j dr 0 0)) poison

/-- In MASKED mode the bitmaps of the weight tensor are read: a form error poisons the destination (R164). -/
def State.expandForm (s : State) (c : Fin 4) (r : RunOp) : Option Nat :=
  if expMode r.op = 1 then
    match Tbl.get? (s.core c).eddy.served (binTable r.op) with
    | some w => if (s.bitmap w).bad then some w.base else none
    | none => none
  else none

/-- In MASKED mode with no weight tensor known for the table, what DST holds after is left open: free values.
(DEDUCED, log entry 64) -/
def State.expandOpen (s : State) (c : Fin 4) (r : RunOp) (o : Opd) : List WBlk :=
  if expMode r.op = 1 && (Tbl.get? (s.core c).eddy.served (binTable r.op)).isNone then
    o.ranges.map (fun x => ⟨x.1, x.2, (List.range x.2).map (fun i => BitVec.ofNat 8 (Config.freeNat (s.fresh + x.1 + i))), r.poison⟩)
  else []

/-- An EXPAND completes: its chain's rows are written and leave the buffer (R174, R175). -/
def State.expandDone (s : State) (c : Fin 4) (r : RunOp) (e : ExpandChain) : State × Bool :=
  let s0 := s.modEddy c (fun y => y.modBuf (expSide r.op) List.tail)
  match r.dst with
  | none => (s0, r.poison)
  | some o =>
    if (s.unmappedOpd r.dst []).isSome then (s0.landAll o.poisonWrites, true)
    else match s.expandForm c r with
      | some a => ((s0.formError c a).landAll o.poisonWrites, true)
      | none =>
        let writes := e.rows.flatMap (s.expandWrites c r e.chain o)
        (((s0.landAll (s.expandOpen c r o)).landAll writes).spent 1, r.poison || e.rows.any (·.2.2))

end Sys2Proof.Machine
end

