-- ==== Sys2Proof/Machine/Eddy.lean ====
section
/-! DEFINITION. The merge array (R177, R178): EDDY_TILE, PREDICT (R179, R180), VERIFY with its bound (R182, R183), and the
completion of the Eddy engine's operations. -/

namespace Sys2Proof.Machine

/-! Passes of the merge array. -/

/-- An element of a grouped operand (LOP or ROP) decoded to the common form: k, and the row or the column. -/
def State.cf (s : State) (o : Opd) (k i : Nat) : CF :=
  decode o.d.format (s.code o k i 0 0) (s.scaleByte o k i 0 0)

/-- One element of a product over K positions, group by group or position by position (R42 to R45, R77, R177). -/
def mergeElem (mode : TMode) (acc : Word) (pairs : List (CF × CF)) : Word :=
  if mode.grouped then dotTerms acc (pairs.map (fun p => groupTerm mode p.1 p.2))
  else pairs.foldl (fun a p => accStep mode p.1 p.2 a) acc

/-- Row i of a product: a row of A and the columns of B over K positions. -/
def mergeRow (mode : TMode) (k n : Nat) (a : Nat → CF) (b : Nat → Nat → CF) (init : Nat → Word) : List Word :=
  let row := (List.range k).map a
  (List.range n).map (fun j => mergeElem mode (init j) (row.zip ((List.range k).map (fun q => b q j))))

/-! EDDY_TILE (R177). -/

def edtMode (op : BitVec 128) : TMode := (TMode.ofCode (field op 80 3)).getD .mac
def edtFmt (op : BitVec 128) : Nat := field op 83 3
def edtRound (op : BitVec 128) : Bool := bitAt op 86
def edtM (op : BitVec 128) : Nat := field op 88 7 + 1
def edtN (op : BitVec 128) : Nat := field op 95 7 + 1
def edtK (op : BitVec 128) : Nat := 32 * (field op 102 10 + 1)

/-- A row of results converted to a drain format (R51 to R53); EQCOUNT carries its raw counts. -/
def mergeCodes (mode : TMode) (fmt : Nat) (g : Option GustRef) (flat : Nat → Nat) (row : List Word) : List Nat :=
  (List.range row.length).map (fun j =>
    let w := row.getD j 0
    if mode = .eqcount then w.toNat else convert (drainElem fmt) (roundOf g (flat j)) w)

/-- The initial value of an element: the mode's identity, or SRC2 in binary32 (R70, R177). -/
def State.mergeInit (s : State) (mode : TMode) (srcs : List Opd) (i j : Nat) : Word :=
  match srcs with
  | _ :: _ :: o :: _ => BitVec.ofNat 32 (s.code o j i 0 0)
  | _ => mode.identity

/-- The key reference that an operation of the merge array rounds with. -/
def State.mergeGust (s : State) (c : Fin 4) (k : Fin 8) (op : BitVec 128) (sr : Bool) : Option GustRef :=
  if sr then some (s.gustRef c (opKey op) (s.ctx c k).lcX) else none

/-- EDDY_TILE issues. -/
def eddyTileIssue (c : Fin 4) (k : Fin 8) (op : BitVec 128) (s : State) : State :=
  let lc := (s.ctx c k).lcX
  let dst := s.opDst c lc op
  let srcs := s.opSrcs c lc op
  let mode := edtMode op
  let g := s.mergeGust c k op (edtRound op)
  let e := s.effect dst srcs (fun poison =>
    match dst, srcs with
    | some o, a :: b :: _ =>
      ⟨(List.range (edtM op)).flatMap (fun i =>
        let row := mergeRow mode (edtK op) (edtN op) (fun q => s.cf a q i) (fun q j => s.cf b q j)
          (fun j => s.mergeInit mode srcs i j)
        o.putRow i (mergeCodes mode (edtFmt op) g (fun j => o.d.flat j i 0 0) row) poison), poison, [], 0⟩
    | _, _ => ⟨[], poison, [], 0⟩)
  let (s, r) := s.begin c k op dst srcs e
  s.takeEddy c { r with counts := [(6, edtK op + edtM op + 4)] }

/-- EDDY_TILE (R177). -/
def execEddyTile (c : Fin 4) (k : Fin 8) (s : State) : Out := issue c k 0x25 s (eddyTileIssue c k)

/-! PREDICT (R179, R180). -/

/-- A predictor slot of the plan. -/
def State.predSlot (s : State) (c : Fin 4) (slot : Nat) : PredSlot :=
  (Tbl.get? (s.prog c).preds slot).getD ⟨0, 32, 0, 0, 0, 0, 0⟩

def prdVane (op : BitVec 128) : Fin 48 := Fin.ofNat 48 (field op 88 6)
def prdPackEn (op : BitVec 128) : Bool := bitAt op 94

/-- H = P1 × Xᵀ as BF16 codes, one list for each of the rank's rows (R180). -/
def State.predH (s : State) (p : PredSlot) (x p1 : Opd) : List (List Nat) :=
  (List.range p.rank).map (fun i =>
    (mergeRow .mac (x.d.extent 0) (x.d.extent 1) (fun q => s.cf p1 q i) (fun q j => s.cf x q j) (fun _ => 0)).map
      (convert .bf16 .rne))

/-- The predicted mask: a row group is active unless every element of S in it is at most PRED_T (R180). -/
def State.predMask (s : State) (p : PredSlot) (x p1 p2 : Opd) : List Bool :=
  let h := s.predH p x p1
  let b (q j : Nat) : CF := decode ⟨.bf16, false⟩ ((h.getD q []).getD j 0) 127
  (List.range p.groups).map (fun g =>
    !(List.range 32).all (fun i =>
      (mergeRow .mac p.rank (x.d.extent 1) (fun q => s.cf p2 q (32 * g + i)) b (fun _ => 0)).all (fge p.predT)))

/-- Merge-array steps of a PREDICT: MAC passes of up to 128 rows by 128 tokens (R177, R180). -/
def predSteps (p : PredSlot) (x : Opd) : Nat :=
  let cols := ceilDiv (x.d.extent 1) 128
  let rows := 32 * p.groups
  cols * (x.d.extent 0 + p.rank + 4) + cols * (ceilDiv rows 128 * (p.rank + 4) + rows)

/-- PREDICT issues: the current mask becomes the previous one (R180); under PAD_TIMING every group is active (R386). -/
def predictIssue (c : Fin 4) (k : Fin 8) (op : BitVec 128) (s : State) : State :=
  let lc := (s.ctx c k).lcX
  let srcs := s.opSrcs c lc op
  let p := s.predSlot c (prdSlot op)
  let poison := (s.unmappedOpd none srcs).isSome || srcs.any s.srcPoison
  let mask :=
    if poison || s.padTiming then List.replicate p.groups true
    else match srcs with
      | x :: p1 :: p2 :: _ => s.predMask p x p1 p2
      | _ => List.replicate p.groups true
  let steps := match srcs with | x :: _ => predSteps p x | [] => 0
  let e := s.effect none srcs (fun b => ⟨[], b, [], 0⟩)
  let (s1, r) := s.begin c k op none srcs e
  let s2 := s1.modCtx c k (fun x => { x with predX := some (prdSlot op, prdTile op), predXSerial := r.serial })
  let s3 := s2.modEddy c (fun e => e.modPred (prdSlot op) (prdTile op) (fun t => { t with prev := t.cur, cur := none }))
  s3.takeEddy c { r with
    predict := some (prdSlot op, prdTile op, mask, if prdPackEn op then some (prdVane op) else none)
    counts := [(6, steps), (7, mask.length), (8, (mask.filter (!·)).length)] }

/-- PREDICT (R180). (DEDUCED, log entry 66) -/
def execPredict (c : Fin 4) (k : Fin 8) (s : State) : Out := issue c k 0x26 s (predictIssue c k)

/-- The engine is free, the operation's counters have risen, and a poisoned one is seen and counted (R185). -/
def State.freeEddy (s : State) (c : Fin 4) (r : RunOp) (poison : Bool) : State :=
  s.modEddy c (fun e =>
    { e with
      run := none
      poisonSeen := e.poisonSeen || poison
      missSeen := e.missSeen || r.counts.any (fun q => q.1 == 10 && q.2 != 0)
      bank := (r.counts.foldl (fun (b : Bank 14) q => b.add q.1 q.2) e.bank).add 5 (b2n poison) })

/-- PREDICT_COMPLETE (R180): the mask is complete, an open speculation point resolves against it (R125), and PACK_VANE is
signalled with the number of packed tiles. -/
def execPredictComplete (c : Fin 4) (s : State) : Out :=
  match (s.core c).eddy.run with
  | none => stay s
  | some r =>
    match r.predict with
    | none => stay s
    | some (slot, tile, mask, vane) =>
      let s1 := (s.finish c r).freeEddy c r r.poison
      let s2 := s1.modEddy c (fun e => e.modPred slot tile (fun t => { t with cur := some mask }))
      let mine := match (s2.ctx c r.ctx).spec with | some p => p.pred == some (slot, tile, r.serial) | none => false
      let s3 := if mine then s2.resolve c r.ctx (activeGroups mask) 16 else s2
      match vane with
      | some v =>
        done (s3.signalNow [unitSig (.core c v) s.self (max 1 (ceilDiv (activeGroups mask).length 16)) 2 c])
      | none => done s3

/-! The bound of VERIFY (R182). -/

/-- The code of a positive magnitude `m × 2^e` in binary32 with directed rounding: away from zero, or towards it. -/
def dirCode (away : Bool) (m : Nat) (e : Int) : Nat :=
  let q : Int := max (e + (Nat.log2 m : Nat) - 23) (-149)
  let n := if e < q then (if away then ceilDiv m (2 ^ (q - e).toNat) else m / 2 ^ (q - e).toNat) else m * 2 ^ (e - q).toNat
  n + (q + 149).toNat * 2 ^ 23

/-- `t × 2^e` rounded toward plus infinity to binary32. -/
def upF32 (t : Int) (e : Int) : Word :=
  if t = 0 then 0
  else if 0 < t then BitVec.ofNat 32 (min (dirCode true t.natAbs e) 0x7F800000)
  else BitVec.ofNat 32 (0x80000000 + min (dirCode false t.natAbs e) 0x7F7FFFFF)

/-- A binary32 sum rounded toward plus infinity, for terms that are no NaN and no minus infinity. -/
def addUp (a b : Word) : Word :=
  let x := exOf a
  let y := exOf b
  if x.cls = .inf || y.cls = .inf then f32Inf false
  else
    let e := min x.e y.e
    let v (z : Ex) : Int := (if z.s then -1 else 1) * ((z.m <<< (z.e - e).toNat : Nat) : Int)
    if v x + v y = 0 then f32Zero (x.s && y.s) else upF32 (v x + v y) e

/-- One pair's share of a group's bound, in units of 2^(emax − 26). -/
def boundTerm (emax : Int) (a b : CF) : Int :=
  let d := (emax - (a.e + b.e)).toNat
  let ha := a.m >>> 8
  let hb := b.m >>> 8
  if a.s = b.s then ((ceilDiv ((ha + 1) * (hb + 1) * 2 ^ 20) (2 ^ d) : Nat) : Int)
  else -(((ha * hb * 2 ^ 20) / 2 ^ d : Nat) : Int)

/-- The bound of one group. -/
def boundGroup (pairs : List (CF × CF)) : Word :=
  let ps := pairs.filter (fun p => p.1.cls != .zero && p.2.cls != .zero)
  match ps with
  | [] => 0
  | p :: rest =>
    let emax := rest.foldl (fun m q => max m (q.1.e + q.2.e)) (p.1.e + p.2.e)
    upF32 (ps.foldl (fun acc q => acc + boundTerm emax q.1 q.2) 0) (emax - 26)

/-- The bound of R182 over groups of 32 pairs; none where it fails. -/
def boundOf (init : Word) (groups : List (List (CF × CF))) : Option Word :=
  if !isFinite init then none
  else groups.foldl (fun acc g =>
    match acc with
    | none => none
    | some u =>
      if g.any (fun p => p.1.cls == .nan || p.1.cls == .inf || p.2.cls == .nan || p.2.cls == .inf) then none
      else some (addUp u (boundGroup g))) (some init)

/-! VERIFY (R183). -/

def vfyFmt (op : BitVec 128) : Nat := field op 88 3
def vfyRound (op : BitVec 128) : Bool := bitAt op 91

/-- Some operand of a VERIFY carries poison: no group is then certified, and every unit it writes is poisoned (R134,
R182). -/
def State.verifyPoison (s : State) (srcs : List Opd) : Bool := srcs.any s.srcPoison

/-- An inactive row group is certified (R182). -/
def State.certified (s : State) (p : PredSlot) (srcs : List Opd) (g : Nat) : Bool :=
  match srcs with
  | a :: b :: _ =>
    let k := a.d.extent 0
    !s.verifyPoison srcs && (List.range 32).all (fun i => (List.range (b.d.extent 1)).all (fun j =>
      let pairs := (List.range k).map (fun q => (s.cf a q (32 * g + i), s.cf b q j))
      match boundOf (s.mergeInit .mac srcs (32 * g + i) j) (chunksOf 32 (ceilDiv k 32) pairs) with
      | some u => fge p.inactiveT u
      | none => false))
  | _ => false

/-- The rows of one inactive group: FILL, or the exact result (R183). -/
def State.verifyRows (s : State) (p : PredSlot) (op : BitVec 128) (g : Option GustRef) (o : Opd) (srcs : List Opd)
    (group : Nat) (ok : Bool) : List WBlk :=
  match srcs with
  | a :: b :: _ =>
    let n := b.d.extent 1
    (List.range 32).flatMap (fun i =>
      let r := 32 * group + i
      let row := if ok then List.replicate n p.fill
        else mergeRow .mac (a.d.extent 0) n (fun q => s.cf a q r) (fun q j => s.cf b q j)
          (fun j => s.mergeInit .mac srcs r j)
      let g := if ok then none else g
      o.putRow r (mergeCodes .mac (vfyFmt op) g (fun j => o.d.flat j r 0 0) row) (!ok && s.verifyPoison srcs))
  | _ => []

/-- The row groups of a mask that are inactive. -/
def inactiveGroups (m : List Bool) : List Nat := (List.range m.length).filter (fun i => !m.getD i true)

/-- VERIFY issues. -/
def verifyIssue (c : Fin 4) (k : Fin 8) (op : BitVec 128) (s : State) : State :=
  let lc := (s.ctx c k).lcX
  let dst := s.opDst c lc op
  let srcs := s.opSrcs c lc op
  let p := s.predSlot c (prdSlot op)
  let g := s.mergeGust c k op (vfyRound op)
  let idle := (((s.core c).eddy.predTile (prdSlot op) (prdTile op)).cur.map inactiveGroups).getD []
  let whole := (s.unmappedOpd dst srcs).isNone
  let passed := if whole then idle.filter (s.certified p srcs) else []
  let missed := idle.length - passed.length
  let e := s.effect dst srcs (fun _ =>
    match dst with
    | some o =>
      ⟨idle.flatMap (fun q => s.verifyRows p op g o srcs q (passed.contains q)),
        !idle.isEmpty && s.verifyPoison srcs, [], 0⟩
    | none => ⟨[], false, [], 0⟩)
  let (kk, n) := match srcs with | a :: b :: _ => (a.d.extent 0, b.d.extent 1) | _ => (0, 0)
  let bound := ceilDiv (32 * idle.length) 128 * ceilDiv n 128 * (kk / 32 + 4)
  let makeup := ceilDiv missed 4 * ceilDiv n 128 * (kk + 132)
  let (s, r) := s.begin c k op dst srcs e
  s.takeEddy c { r with
    counts := [(6, bound + makeup), (9, passed.length), (10, missed), (11, bound), (12, makeup)] }

/-- VERIFY (R183). -/
def execVerify (c : Fin 4) (k : Fin 8) (s : State) : Out := issue c k 0x27 s (verifyIssue c k)

/-! Completion (R102). -/

/-- A COMPACT has filled the bay of its last retained group (R172). -/
def State.compactDone (s : State) (r : RunOp) (q : CompactRun) : Bool :=
  let y := s.gale q.array
  let filling (f : Feeder) : Bool := f.items.any (fun b => b.st == .filling && b.ctx == r.ctx && b.serial == r.serial)
  q.rows.isEmpty && q.cols.isEmpty && !filling y.row && !filling y.col

/-- EDDY_OPERATION_COMPLETE (R102): the operation on the engine completes and its writes land. A COMPACT first claims the
bays it can; an EXPAND needs every row of its chain. -/
def execEddyOperationComplete (c : Fin 4) (s : State) : Out :=
  match (s.core c).eddy.run with
  | none => stay s
  | some r =>
    if r.predict.isSome then stay s
    else if opcode r.op = 0x23 then
      let s1 := s.feedCompact c
      match (s1.core c).eddy.run with
      | none => stay s
      | some r1 =>
        match r1.compact with
        | none => stay s
        | some q => if s1.compactDone r1 q then done ((s1.finish c r1).freeEddy c r1 r1.poison) else done s1
    else if opcode r.op = 0x24 then
      match ((s.core c).eddy.buf (expSide r.op)).head? with
      | none => stay s
      | some ch =>
        if ch.complete then
          let (s1, poison) := s.expandDone c r ch
          done ((s1.finish c { r with poison := poison }).freeEddy c r poison)
        else stay s
    else done ((s.finish c r).freeEddy c r r.poison)

end Sys2Proof.Machine
end

