-- ==== Sys2Proof/Machine/Veer.lean ====
section
/-! DEFINITION. The Veer router (R186 to R200): selection and admission, dispatch, and the end of a ROUTE. -/

namespace Sys2Proof.Machine

/-! Fields of a routing layer entry (R186). -/

def rteExperts (e : RouteEntry) : Nat := le e.head 0 2
def rteKMax (e : RouteEntry) : Nat := le e.head 2 1
def rteRouters (e : RouteEntry) : Nat := le e.head 3 1
def rteThreshold (e : RouteEntry) : Word := BitVec.ofNat 32 (le e.head 4 4)
def rteTokens (e : RouteEntry) : Nat := le e.head 8 4
def rteWidth (e : RouteEntry) : Nat := le e.head 12 4
def rteOwnFirst (e : RouteEntry) (c : Fin 4) : Nat := le e.head (16 + 4 * c.val) 4
def rtePitch (e : RouteEntry) : Nat := le e.head 32 4
def rteAdmitBase (e : RouteEntry) : Nat := le e.head 36 4
def rteDoneVane (e : RouteEntry) : Fin 48 := Fin.ofNat 48 (le e.head 40 1)
def expCapacity (x : BitVec 256) : Nat := le x 2 2
def expRows (x : BitVec 256) : Nat := le x 8 4
def expList (x : BitVec 256) : Nat := le x 12 4

/-- The experts of a layer that are homed on a core, in increasing index. -/
def homeExperts (e : RouteEntry) (c : Fin 4) : List Nat :=
  (List.range e.experts.length).filter (fun i => expHome (e.experts.getD i 0) == c)

/-! Selection (R188, R189). -/

/-- A candidate put among others: highest score first, then lowest index; candidates come by rising index. -/
def insCand (c : Nat × Word) : List (Nat × Word) → List (Nat × Word)
  | [] => [c]
  | x :: xs => if f32Key x.2 < f32Key c.2 then c :: x :: xs else x :: insCand c xs

/-- The candidates of a token in the order of R189. -/
def candidates (threshold : Word) (scores : List Word) : List (Nat × Word) :=
  ((List.range scores.length).map (fun i => (i, scores.getD i 0))).foldl (fun acc p =>
    if fge p.2 threshold then insCand p acc else acc) []

/-! Admission (R190). -/

/-- The decisions of a ROUTE: the admission and drop counts of the experts, the route records of owned tokens, and each token
with its pairs and what the counters 1 to 9 of R200 rise by. -/
structure RouteAcc where
  counts : List Nat
  drops : List Nat
  records : List (List Nat)
  tokens : List TokenPlan

/-- Nothing decided. -/
def RouteAcc.empty (n : Nat) : RouteAcc := ⟨List.replicate n 0, List.replicate n 0, [], []⟩

/-- One selected pair admitted or dropped (R190): the counts and drops, and its rank. -/
def giveRank (e : RouteEntry) (a : List Nat × List Nat × List (Option Nat)) (x : Nat) : List Nat × List Nat × List (Option Nat) :=
  let n := a.1.getD x 0
  if n < expCapacity (e.experts.getD x 0) then (modAt a.1 x (· + 1), a.2.1, a.2.2 ++ [some n])
  else (a.1, modAt a.2.1 x (· + 1), a.2.2 ++ [none])

/-- Slot j of a token's route record (R193). -/
def recordSlot (sel : List (Nat × Word)) (ranks : List (Option Nat)) (j : Nat) : Nat :=
  match sel[j]? with
  | some p => p.1 + 65536 * (((ranks.getD j none)).getD 0xFFFF)
  | none => 0xFFFFFFFF

/-- One token scored and decided (R188 to R190). -/
def routeToken (e : RouteEntry) (tok : Nat) (owned : Bool) (scores : List Word) (a : RouteAcc) : RouteAcc :=
  let cand := candidates (rteThreshold e) scores
  let sel := cand.take (rteKMax e)
  let (counts, drops, ranks) := sel.foldl (fun q p => giveRank e q p.1) (a.counts, a.drops, [])
  let pairs := (List.range sel.length).filterMap (fun j =>
    (ranks.getD j none).map (fun r => (⟨tok, (sel.getD j (0, 0)).1, r, (sel.getD j (0, 0)).2⟩ : Pair)))
  let cut := decide (rteKMax e < cand.length)
  let tie := cut && decide (f32Key (cand.getD (rteKMax e - 1) (0, 0)).2 = f32Key (cand.getD (rteKMax e) (0, 0)).2)
  let nans := (scores.filter isNaN).length
  { counts := counts
    drops := drops
    records := if owned then a.records ++ [(List.range 8).map (recordSlot sel ranks)] else a.records
    tokens := a.tokens ++ [
      { pairs := if owned then pairs else []
        adds := [(1, 1), (2, sel.length), (3, pairs.length), (4, sel.length - pairs.length), (5, b2n cand.isEmpty),
          (6, b2n (!sel.isEmpty && pairs.isEmpty)), (7, b2n cut), (8, b2n tie), (9, nans)]
        drops := decide (pairs.length < sel.length)
        nans := decide (0 < nans) }] }

/-- Pairs that the dispatch queue holds (R195). -/
def dispatchRoom : Nat := 64

/-- How a ROUTE runs in steps (the Timing table, R195): the steps its scoring has paused, the step at which the newest pair's
dispatch ends, and those ends for the pairs that may still be in the queue, newest first. -/
structure RouteClock where
  stalls : Nat
  last : Nat
  ends : List Nat

/-- A token's decision in step `due`, put off while its pairs find no room in the queue; each pair is dispatched in `w` steps,
after the pairs before it. (DESIGN CHOICE, log entry 67) -/
def RouteClock.token (k : RouteClock) (due w pairs : Nat) : RouteClock :=
  let due := due + k.stalls
  let free := if pairs = 0 then due else max due (k.ends.getD (dispatchRoom - pairs) 0)
  let ends := (List.range pairs).foldl (fun (e : List Nat) _ => (max free (e.headD 0) + w) :: e) k.ends
  ⟨k.stalls + (free - due), max k.last (ends.headD 0), ends.take dispatchRoom⟩

/-- The clock of a whole ROUTE. (DESIGN CHOICE, log entry 67) -/
def routeClock (experts width : Nat) (tokens : List TokenPlan) : RouteClock :=
  let sc := ceilDiv experts 128
  (List.range tokens.length).foldl (fun k t =>
    k.token ((t + 1) * sc + 3) (ceilDiv width 1024) ((tokens.map (·.pairs.length)).getD t 0)) ⟨0, 0, []⟩

/-- The step of a ROUTE's natural end: its last token is decided and its last pair is dispatched.
(DESIGN CHOICE, log entry 67) -/
def routeSteps (experts width : Nat) (tokens : List TokenPlan) : Nat :=
  let k := routeClock experts width tokens
  max (tokens.length * ceilDiv experts 128 + 4 + k.stalls) k.last

/-- Tokens decided while their pairs find room in the dispatch queue (R195): the queue, the tokens left, and those decided. -/
def routeFill : List Pair → List TokenPlan → List Pair × List TokenPlan × List TokenPlan
  | q, [] => (q, [], [])
  | q, t :: ts =>
    if q.length + t.pairs.length ≤ dispatchRoom then
      let (q', left, taken) := routeFill (q ++ t.pairs) ts
      (q', left, t :: taken)
    else (q, t :: ts, [])

/-- The router after its running ROUTE has decided the tokens that it can (R190, R195, R200). -/
def Veer.score (v : Veer) (r : RouteRun) : Veer :=
  let (q, left, taken) := routeFill r.pairs r.later
  { v with
    run := some { r with pairs := q, later := left }
    dropSeen := v.dropSeen || taken.any (·.drops)
    nanSeen := v.nanSeen || taken.any (·.nans)
    tokensDone := v.tokensDone + taken.length
    bank := taken.foldl (fun (b : Bank 13) t => t.adds.foldl (fun (b : Bank 13) q => b.add q.1 q.2) b) v.bank }

/-! ROUTE (R192). -/

def rteLayer (op : BitVec 128) : Nat := field op 80 10
def rtePredict (op : BitVec 128) : Nat := field op 96 16

/-- The scores of a token decoded to binary32 (R192). -/
def State.scores (s : State) (o : Opd) (n tok : Nat) : List Word := (List.range n).map (fun i => s.val o i tok 0 0)

/-- ROUTE issues: what it will decide for every token is settled (R190, R191, R199), it decides the tokens whose pairs find
room in the dispatch queue (R195), and its route records are written when it completes. -/
def routeIssue (c : Fin 4) (k : Fin 8) (op : BitVec 128) (s : State) : State :=
  let lc := (s.ctx c k).lcX
  let dst := s.opDst c lc op
  let srcs := s.opSrcs c lc op
  match Tbl.get? (s.core c).veer.table (rteLayer op), srcs with
  | some e, o :: rows :: _ =>
    let bad := (s.unmappedOpd dst srcs).isSome
    let first := rteOwnFirst e c
    let own := rows.d.extent 1
    let acc :=
      if bad then RouteAcc.empty (rteExperts e)
      else (List.range (rteTokens e)).foldl (fun a t =>
        routeToken e t (decide (first ≤ t) && decide (t < first + own)) (s.scores o (rteExperts e) t) a)
        (RouteAcc.empty (rteExperts e))
    let poison := bad || s.srcPoison o
    let eff := s.effect dst srcs (fun _ =>
      match dst with
      | some d => ⟨(List.range acc.records.length).flatMap (fun i =>
          d.rowWrites (i, 0, 0) ((acc.records.getD i []).flatMap (fun w => (leBytes 4 w).map BitVec.toNat)) poison), poison, [], 0⟩
      | none => ⟨[], poison, [], 0⟩)
    let (s1, r) := s.begin c k op dst [o, { rows with release := false }] eff
    let run : RouteRun :=
      { ctx := k, serial := r.serial, layer := rteLayer op, predDesc := rtePredict op, counts := acc.counts
        drops := acc.drops, pairs := [], later := acc.tokens
        stalls := (routeClock (rteExperts e) (rteWidth e) acc.tokens).stalls
        records := r.writes, fills := r.fills, poison := poison, bad := bad, rows := some rows
        steps := routeSteps (rteExperts e) (rteWidth e) acc.tokens
        padTo := rteTokens e * ceilDiv (rteExperts e) 128 + 4 + own * rteKMax e * ceilDiv (rteWidth e) 1024 }
    s1.modVeer c (fun v =>
      Veer.score
        { v with
          layer := rteLayer op
          ctx := k
          poisonSeen := v.poisonSeen || (poison && !bad)
          tokensDone := 0
          bank := v.bank.add 12 (b2n (poison && !bad)) } run)
  | _, _ => s.issued c k

/-- ROUTE (R190). (DESIGN CHOICE, log entry 68) -/
def execRoute (c : Fin 4) (k : Fin 8) (s : State) : Out := issue c k 0x50 s (routeIssue c k)

/-! Dispatch (R193, R195). -/

/-- The row of a pair's token copied to the dispatch area of its expert, and its list entry (R193, R198). -/
def State.dispatch (s : State) (c : Fin 4) (r : RouteRun) (e : RouteEntry) (p : Pair) : State :=
  let x := e.experts.getD p.expert 0
  let base := storeBase (expHome x)
  let s : State :=
    match r.rows with
    | some o =>
      let a := o.base + o.d.bitOff 0 (p.tok - rteOwnFirst e c) 0 0 / 8
      let n := ceilDiv (o.d.extent 0 * o.d.bits) 8
      let poison := r.poison || s.slotPoison o || s.peekPoison a n
      (s.touch [(a, n)]).writeBytes (base + expRows x + p.rank * rtePitch e) (s.peek a n) poison
    | none => s
  s.writeBytes (base + expList x + 8 * p.rank) (leBytes 4 p.tok ++ leBytes 4 p.score.toNat) r.poison

/-- DISPATCH_PAIR (R193, R195): the pair at the head of the dispatch queue; a paused scoring goes on where there is room.
(DESIGN CHOICE, log entry 67) -/
def execDispatchPair (c : Fin 4) (s : State) : Out :=
  match (s.core c).veer.run with
  | none => stay s
  | some r =>
    match r.pairs, Tbl.get? (s.core c).veer.table r.layer with
    | p :: rest, some e =>
      done ((s.dispatch c r e p).modVeer c (fun v => v.score { r with pairs := rest }))
    | _, _ => stay s

/-! The end of a ROUTE (R194). -/

/-- ADMIT_COUNT and DROP_COUNT of an expert risen, and whether one wrapped (R200). -/
def countExpert (x : BitVec 256) (admitted dropped : Nat) : BitVec 256 × Bool :=
  let a := field x 128 64 + admitted
  let d := field x 192 64 + dropped
  (setBits (setBits x 128 64 a) 192 64 d, decide (2 ^ 64 ≤ a) || decide (2 ^ 64 ≤ d))

/-- A layer's entry after a ROUTE on a core (R194): the counters of its home experts, PREV and PREV_VALID. -/
def routeEnded (e : RouteEntry) (c : Fin 4) (counts drops : List Nat) : RouteEntry :=
  let mine (i : Nat) : Bool := expHome (e.experts.getD i 0) == c
  let prev := (List.range e.experts.length).foldl (fun acc i =>
    acc + put i (b2n (mine i && decide (0 < counts.getD i 0)))) 0
  { head := setBits (setBits e.head 328 1 1) 512 1024 prev
    experts := (List.range e.experts.length).map (fun i =>
      let x := e.experts.getD i 0
      if mine i then (countExpert x (counts.getD i 0) (drops.getD i 0)).1 else x) }

/-- Some counter of a home expert wrapped at the end of a ROUTE. -/
def routeWraps (e : RouteEntry) (c : Fin 4) (counts drops : List Nat) : Bool :=
  (homeExperts e c).any (fun i => (countExpert (e.experts.getD i 0) (counts.getD i 0) (drops.getD i 0)).2)

/-- The admit table of a core's home experts (R194, R198). (DESIGN CHOICE, log entry 68) -/
def State.writeAdmits (s : State) (c : Fin 4) (r : RouteRun) (e : RouteEntry) : State :=
  (homeExperts e c).foldl (fun (s : State) i =>
    let a := storeBase c + rteAdmitBase e + 4 * expIndex (e.experts.getD i 0)
    if r.bad then s.poisonRanges [(a, 4)] else s.writeBytes a (leBytes 4 (r.counts.getD i 0)) r.poison) s

/-- A ROUTE whose PREDICT_DESC opened no speculation point is over: the fetch engine, which stood past it, performs the
descriptors of the experts that it admitted tokens to (R122, R197). (DESIGN CHOICE, log entry 51) -/
def Ctx.routeEnds (x : Ctx) (serial : Nat) (todo : List Nat) : Ctx :=
  if x.routeWait = some serial then { x with routeWait := none, routeTodo := todo } else x

/-- ROUTE_COMPLETE (R194, R196, R197): admit tables, counters, DONE_VANE on every home core, PREV, and the resolution of its
speculation point. (DESIGN CHOICE, log entry 67) -/
def execRouteComplete (c : Fin 4) (s : State) : Out :=
  match (s.core c).veer.run with
  | none => stay s
  | some r =>
    match r.pairs, Tbl.get? (s.core c).veer.table r.layer with
    | [], some e =>
      let s1 := s.landAll r.records
      let s2 := r.fills.foldl (fun (s : State) q => s.modRing q.1 q.2.1 (fun x => x.fill q.2.2 r.poison)) s1
      let s3 := s2.writeAdmits c r e
      let s4 : State := match r.rows with | some o => s3.releaseSrc o | none => s3
      let s5 := (s4.landed c r.ctx r.serial).modVeer c (fun v =>
        { v with
          run := none
          table := if r.bad then v.table else Tbl.set v.table r.layer (routeEnded e c r.counts r.drops)
          histOvf := v.histOvf || routeWraps e c r.counts r.drops
          bank := ((v.bank.add 0 1).add 10 r.stalls).add 11 (if s.padTiming then r.padTo - r.steps else 0) })
      let actual := (homeExperts e c).filter (fun i => decide (0 < r.counts.getD i 0))
      let mine := match (s5.ctx c r.ctx).spec with | some p => p.route == some (r.layer, r.serial) | none => false
      let s6 := if mine then s5.resolve c r.ctx actual 1
        else if r.predDesc = 0 then s5
        else s5.modCtx c r.ctx (fun x => x.routeEnds r.serial (actual.map (routeDesc e r.predDesc)))
      let homes := (allFin 4).filter (fun h => !(homeExperts e h).isEmpty)
      done (s6.signalNow (homes.map (fun h => unitSig (.core h (rteDoneVane e)) s.self 1 2 c)))
    | _, _ => stay s

end Sys2Proof.Machine
end

