-- ==== Sys2Proof/Machine/Draught.lean ====
section
/-! DEFINITION. The Draught engines (R155 to R163, R451): starting a descriptor, what it moves, and its completion. -/

namespace Sys2Proof.Machine

/-! Operands of a queued descriptor. -/

/-- The source of a descriptor. -/
def State.itemSrc (s : State) (x : DrtItem) : Option Opd :=
  (s.tdesc x.core (dscSrc x.raw)).map (fun d => ⟨d, x.srcBase, x.srcSlot, dscSrc x.raw / 8192 % 2 == 1⟩)

/-- The destinations of a descriptor, an MX_STORE's scales included. -/
def State.itemDsts (s : State) (x : DrtItem) : List Opd :=
  (((dscDsts x.raw).filterMap (s.tdesc x.core)).zip x.dstBases).map (fun p =>
    ⟨p.1, p.2, if p.1.ring then x.claims.find? (fun q => q.1 == p.1.ringCore && q.2.1 == p.1.ringIdx) else none, false⟩)

/-- The mask of a COMPRESS. -/
def State.itemMask (s : State) (x : DrtItem) : Option Opd :=
  (s.tdesc x.core (dscMask x.raw)).map (fun d => ⟨d, x.maskBase, none, false⟩)

/-! Source bytes. -/

/-- A byte among received blocks: its value, its poison, and whether its value is absent. -/
def gotByte (bs : List WBlk) (a : Nat) : Byte × Bool × Bool :=
  match bs.find? (fun b => decide (b.addr ≤ a) && decide (a < b.addr + b.len)) with
  | some b => (b.data.getD (a - b.addr) 0, b.poison, b.data.isEmpty)
  | none => (0, true, true)

/-- Source bytes of a descriptor with their poison: from local memory, or from what READ_DATA brought. -/
def State.got (s : State) (rx : Option (List WBlk)) (a n : Nat) : List Byte × Bool × Bool :=
  match rx with
  | none => (s.peek a n, s.peekPoison a n, false)
  | some bs =>
    let g := (List.range n).map (fun i => gotByte bs (a + i))
    (g.map (·.1), g.any (·.2.1), g.any (·.2.2))

/-- An element as it is moved: its code, its poison, and whether it is absent. -/
abbrev Moved := Nat × Bool × Bool

/-- One element of a source. -/
def State.gotCode (s : State) (rx : Option (List WBlk)) (o : Opd) (x0 x1 x2 x3 : Nat) : Moved :=
  let off := o.d.bitOff x0 x1 x2 x3
  let (bs, p, a) := s.got rx (o.base + off / 8) (ceilDiv (off % 8 + o.d.bits) 8)
  (ofLe bs / 2 ^ (off % 8) % 2 ^ o.d.bits, p, a)

/-! Destination writes. -/

/-- The writes of one run of bytes unit by unit, with the poison and the absence of each byte. -/
def unitWrites (addr : Nat) (data pz ab : List Byte) : List WBlk :=
  (WBlk.split ⟨addr, data.length, data, false⟩).map (fun b =>
    let bad (l : List Byte) : Bool := (slice l (b.addr - addr) b.len).any (· != 0)
    ⟨b.addr, b.len, if bad ab then [] else b.data, bad pz || bad ab⟩)

/-- The writes of one row of moved elements. -/
def Opd.moveRow (o : Opd) (x : Nat × Nat × Nat) (els : List Moved) : List WBlk :=
  let full (b : Bool) : Nat := if b then 2 ^ o.d.bits - 1 else 0
  let d := o.rowWrites x (els.map (·.1)) false
  let p := o.rowWrites x (els.map (fun e => full e.2.1)) false
  let a := o.rowWrites x (els.map (fun e => full e.2.2)) false
  (List.range d.length).flatMap (fun i =>
    match d[i]?, p[i]?, a[i]? with
    | some b, some q, some z => unitWrites b.addr b.data q.data z.data
    | _, _, _ => [])

/-- A MOVE into one destination (R147, R156, R162). (DESIGN CHOICE, log entry 57) -/
def State.moveWrites (s : State) (rx : Option (List WBlk)) (src dst : Opd) : List WBlk :=
  if dst.d.layout = 6 then
    let n := min (src.d.str 1) (dst.d.str 1)
    let g := (List.range n).map (fun i => s.got rx (src.base + i) 1)
    unitWrites dst.base (g.map (fun q => q.1.getD 0 0)) (g.map (fun q => if q.2.1 then 1 else 0))
      (g.map (fun q => if q.2.2 then 1 else 0))
  else dst.d.outer.flatMap (fun x => dst.moveRow x ((List.range (dst.d.extent 0)).map (fun x0 =>
    s.gotCode rx src x0 x.1 x.2.1 x.2.2)))

/-- One row of an MX_STORE (R55 to R59, R162): its elements, its scales, and the elements that underflowed.
(DEDUCED, log entry 56) -/
def mxRow (src : Fmt) (el : Elem) (g : Option GustRef) (flat : Nat → Nat) (row : List Moved) :
    List Moved × List Moved × Nat :=
  let blocks := (List.range (ceilDiv row.length 32)).map (fun b =>
    let part := (row.drop (32 * b)).take 32
    let ws := part.map (fun m => decodeF32 src m.1 127)
    let (sc, codes) := mxEncode el ((List.range part.length).map (fun i => roundOf g (flat (32 * b + i)))) ws
    let p := part.any (·.2.1)
    let a := part.any (·.2.2)
    let under := ((List.range part.length).filter (fun i => underflowed el sc (codes.getD i 0) (ws.getD i 0))).length
    (codes.map (fun c => (c, p, a)), (sc, p, a), under))
  (blocks.flatMap (·.1), blocks.map (·.2.1), blocks.foldl (fun n b => n + b.2.2) 0)

/-- An MX_STORE: the writes of elements and scales, and the elements that underflowed. (DESIGN CHOICE, log entry 55) -/
def State.mxWrites (s : State) (rx : Option (List WBlk)) (g : Option GustRef) (src dst : Opd) (scale : Option Opd) :
    List WBlk × Nat :=
  let rows := dst.d.outer.map (fun x => (x, mxRow src.d.format dst.d.format.elem g (fun i => dst.d.flat i x.1 x.2.1 x.2.2)
    ((List.range (dst.d.extent 0)).map (fun x0 => s.gotCode rx src x0 x.1 x.2.1 x.2.2))))
  (rows.flatMap (fun r => dst.moveRow r.1 r.2.1 ++ (match scale with | some o => o.moveRow r.1 r.2.2.1 | none => [])),
    rows.foldl (fun n r => n + r.2.2.2) 0)

/-! COMPRESS (R145, R156). -/

/-- An encoding of ±0. -/
def zeroCode (el : Elem) (code : Nat) : Bool :=
  if el = .int8 || el = .mxint8 then code == 0 else code % 2 ^ (el.bits - 1) == 0

/-- `n` rounded up to a multiple of 64. -/
def up64 (n : Nat) : Nat := ceilDiv n 64 * 64

/-- The bytes of a BITMAP tensor of `rows` by `cols` (R145), of which `mark` tells the stored positions and `code` their
codes. Answers the bytes of each section with its offset, and the number of stored values. -/
def bitmapBytes (rows cols fmt bits : Nat) (mark : Nat → Nat → Bool) (code : Nat → Nat → Nat) :
    List (Nat × List Byte) × Nat :=
  let rb := ceilDiv rows 64
  let cb := ceilDiv cols 64
  let has (r c : Nat) : Bool := decide (r < rows) && decide (c < cols) && mark r c
  let cells (r c : Nat) : List (Nat × Nat) := (List.range 64).map (fun i => (r + i / 8, c + i % 8))
  let sub (r c : Nat) : Nat := (List.range 64).foldl (fun v i => v + put i (b2n (has (r + i / 8) (c + i % 8)))) 0
  let subs (b : Nat) : List (Nat × Nat) := (List.range 64).map (fun i => (b / cb * 64 + i / 8 * 8, b % cb * 64 + i % 8 * 8))
  let l1 (b : Nat) : Nat := (List.range 64).foldl (fun v i =>
    let p := (subs b).getD i (0, 0)
    v + put i (b2n (sub p.1 p.2 != 0))) 0
  let blocks := (List.range (rb * cb)).filter (fun b => l1 b != 0)
  let l2 := (List.range (rb * cb)).foldl (fun v b => v + put b (b2n (l1 b != 0))) 0
  let live (b : Nat) : List (Nat × Nat) := (subs b).filter (fun p => sub p.1 p.2 != 0)
  let stored (b : Nat) : List Nat := (live b).flatMap (fun p =>
    ((cells p.1 p.2).filter (fun q => has q.1 q.2)).map (fun q => code q.1 q.2))
  let l0 := blocks.flatMap (fun b => (live b).map (fun p => sub p.1 p.2))
  let values := blocks.flatMap stored
  let starts := (blocks.foldl (fun (a : List Nat × Nat) b => (a.1 ++ [a.2], a.2 + (stored b).length)) ([], 0)).1
  let offL1 := 64 + up64 (ceilDiv (rb * cb) 8)
  let offL0 := offL1 + up64 (8 * blocks.length)
  let offStart := offL0 + up64 (8 * l0.length)
  let offVal := offStart + up64 (4 * blocks.length)
  let header := leBytes 4 rows ++ leBytes 4 cols ++ leBytes 1 fmt ++ zeros 3 ++ leBytes 4 blocks.length ++
    leBytes 4 l0.length ++ leBytes 4 values.length ++ leBytes 4 offL1 ++ leBytes 4 offL0 ++ leBytes 4 offStart ++
    leBytes 4 offVal ++ zeros 24
  let pad (bs : List Byte) : List Byte := bs ++ zeros (up64 bs.length - bs.length)
  ([(0, header), (64, pad (leBytes (ceilDiv (rb * cb) 8) l2)), (offL1, pad (blocks.flatMap (fun b => leBytes 8 (l1 b)))),
    (offL0, pad (l0.flatMap (leBytes 8))), (offStart, pad (starts.flatMap (leBytes 4))),
    (offVal, packCodes bits values)], values.length)

/-- A COMPRESS: its writes, and the values it stored. (DESIGN CHOICE, log entry 57) -/
def State.compressWrites (s : State) (rx : Option (List WBlk)) (src dst : Opd) (mask : Option Opd) : List WBlk × Nat :=
  let rows := src.d.extent 1
  let cols := src.d.extent 0
  let els := (List.range rows).map (fun r => (List.range cols).map (fun c => s.gotCode rx src c r 0 0))
  let el (r c : Nat) : Moved := (els.getD r []).getD c (0, false, false)
  let m := mask.map s.bitmap
  let poison := els.any (fun r => r.any (·.2.1)) ||
    (match mask with | some o => s.anyPoison o.ranges | none => false)
  let absent := els.any (fun r => r.any (·.2.2)) || (m.map (·.lost)).getD false
  let mark (r c : Nat) : Bool :=
    match m with
    | some b => b.entries.any (fun e => e.1 == r && e.2.1 == c)
    | none => !zeroCode dst.d.format.elem (el r c).1
  if absent then (dst.poisonWrites, 0)
  else
    let (parts, n) := bitmapBytes rows cols dst.d.fmt dst.d.bits mark (fun r c => (el r c).1)
    ((parts.filter (fun p => !p.2.isEmpty)).map (fun p => ⟨dst.base + p.1, p.2.length, p.2, poison⟩), n)

/-! Packets of a remote descriptor. -/

/-- The largest payload of a packet (R313). -/
def maxPayload : Nat := 4096

/-- Unit writes joined into WRITE payloads: address, bytes, poison mask by line. A value that is absent travels as zeros
under poison. -/
def writePayloads (bs : List WBlk) : List (Nat × List Byte × Nat) :=
  (bs.foldl (fun (acc : List (Nat × List Byte × Nat)) b =>
    let d := if b.data.isEmpty then zeros b.len else b.data
    match acc with
    | (a, ds, m) :: rest =>
      if a + ds.length = b.addr && a % 64 = 0 && ds.length % 64 = 0 && ds.length + b.len ≤ maxPayload then
        (a, ds ++ d, m + put (ds.length / 64) (b2n b.poison)) :: rest
      else (b.addr, d, b2n b.poison) :: acc
    | [] => [(b.addr, d, b2n b.poison)]) []).reverse

/-- A packet of a descriptor sent, and the answer that it awaits. -/
def State.sendItem (s : State) (p : Packet) (addr len : Nat) : State × Option Ack :=
  let d := s.addressed p.dst
  let q := s.nextPseq d p.vl
  match s.send? p with
  | some s' => (s', some ⟨d, p.vl, q, addr, len⟩)
  | none => (s, none)

/-- WRITE packets for the unit writes of a remote destination (R313, R316). -/
def State.sendWrites (s : State) (e : Fin 8) (dev : Nat) (bs : List WBlk) : State × List Ack :=
  (writePayloads bs).foldl (fun (a : State × List Ack) w =>
    let p := { mkPkt 0x01 dev w.1 1 w.2.1 with mask := w.2.2, poisoned := w.2.2 != 0, req := reqOf 1 e 0 }
    let (s', k) := a.1.sendItem p w.1 w.2.1.length
    (s', a.2 ++ k.toList)) (s, [])

/-- Byte ranges cut at the largest payload. -/
def readParts (rs : List (Nat × Nat)) : List (Nat × Nat) :=
  rs.flatMap (fun r => (List.range (ceilDiv r.2 maxPayload)).map (fun i =>
    (r.1 + maxPayload * i, min maxPayload (r.2 - maxPayload * i))))

/-- READ_REQ packets for the ranges of a remote source (R313). -/
def State.sendReads (s : State) (e : Fin 8) (dev : Nat) (rs : List (Nat × Nat)) : State × List Ack :=
  (readParts rs).foldl (fun (a : State × List Ack) r =>
    let (s', k) := a.1.sendItem { mkPkt 0x03 dev r.1 r.2 [] with req := reqOf 1 e 0 } r.1 r.2
    (s', a.2 ++ k.toList)) (s, [])

/-! Moving. -/

/-- An item of an engine's queue changed. -/
def State.modItem (s : State) (e : Fin 8) (i : Nat) (f : DrtItem → DrtItem) : State :=
  s.modDrt e (fun d => { d with queue := modAt d.queue i f })

/-- Units that some writes poison. (DESIGN CHOICE, log entry 59) -/
def poisonedUnits (bs : List WBlk) : Nat := ((spread bs).flatMap WBlk.split).foldl (fun acc b =>
  if b.poison then insSorted acc (b.addr / 64) else acc) [] |>.length

/-- Bytes that some writes cover. -/
def bytesOf (bs : List WBlk) : Nat := bs.foldl (fun n b => n + b.len) 0

/-- What a descriptor writes at each destination, and what it adds to the counters of R163 besides.
(DESIGN CHOICE, log entry 57) -/
def State.itemWrites (s : State) (x : DrtItem) (src : Opd) (dsts : List Opd) : List (List WBlk) × List (Nat × Nat) :=
  let rx := if s.isLocal (dscSrcDev x.raw) then none else some x.rx
  match dscKind x.raw, dsts with
  | 0, _ => (dsts.map (s.moveWrites rx src), [])
  | 1, d :: rest =>
    let (w, n) := s.mxWrites rx x.gust src d rest.head?
    ([w], [(7 + dscStream x.raw, n)])
  | _, d :: _ =>
    let (w, n) := s.compressWrites rx src d (s.itemMask x)
    ([w], [(6, n)])
  | _, [] => ([], [])

/-- Some line of some ranges is poisoned and lies in a STASH region (R343). -/
def State.stashPoison (s : State) (rs : List (Nat × Nat)) : Bool :=
  (linesOf rs).any (fun l => (match s.place (64 * l) with | .stash .. => true | _ => false) && (s.peekLine (64 * l)).2)

/-- The scale bytes that the blocks of a descriptor's destinations decode under: those of the blocks moved, or those that an
MX_STORE stored (R50, R202). (DESIGN CHOICE, log entry 36) -/
def State.itemScales (s : State) (x : DrtItem) (src : Opd) (dsts : List Opd) : List (Nat × Nat) :=
  let rx := if s.isLocal (dscSrcDev x.raw) then none else some x.rx
  match dscKind x.raw, dsts with
  | 0, _ => dsts.flatMap (fun d => s.movedScales d (fun y => if rx.isNone then some (src, y) else none))
  | 1, d :: _ =>
    d.d.outer.flatMap (fun y =>
      let scales := (mxRow src.d.format d.d.format.elem x.gust (fun i => d.d.flat i y.1 y.2.1 y.2.2)
        ((List.range (d.d.extent 0)).map (fun x0 => s.gotCode rx src x0 y.1 y.2.1 y.2.2))).2.1
      (List.range scales.length).map (fun b => (d.blockAt b y.1 y.2.1 y.2.2, (scales.getD b (127, false, false)).1)))
  | _, _ => []

/-- The destinations of a descriptor are written, or sent, and its source slot is released (R114, R159, R162). -/
def State.deliver (s : State) (e : Fin 8) (i : Nat) (x : DrtItem) : State :=
  match s.itemSrc x with
  | none => s.modItem e i (fun y => { y with moved := true })
  | some src =>
    let dsts := s.itemDsts x
    let (ws, extra) := s.itemWrites x src dsts
    let all := ws.map spread
    let remote := !s.isLocal (dscDstDev x.raw)
    let (s1, acks) := if remote then s.sendWrites e (dscDstDev x.raw) ((all.flatMap id).flatMap WBlk.split)
      else (((all.foldl State.landAll s).keepScales (s.itemScales x src dsts)).spent src.freeUse, [])
    let s2 := if s.isLocal (dscSrcDev x.raw) then s1.releaseSrc src else s1
    let bad := all.foldl (fun n w => n + poisonedUnits w) 0
    let counts := [(1, src.ranges.foldl (fun n r => n + r.2) 0), (2, bytesOf (all.flatMap id)),
      (3, bytesOf ((all.drop 1).flatMap id)), (5, bad)] ++ extra
    s2.modItem e i (fun y =>
      { y with
        moved := true, acks := y.acks ++ acks, rx := [], poisoned := y.poisoned || bad != 0, counts := counts
        stashPoison := s.isLocal (dscSrcDev x.raw) && s.stashPoison src.ranges })

/-- A descriptor's violation (R27, R451): its destinations are poisoned, here or by WRITE packets, and it moves nothing. For
CHAIN_UNROUTED no packet is sent, and the DONE vane is not signalled. -/
def State.failItem (s : State) (e : Fin 8) (i : Nat) (x : DrtItem) (kind addr dev : Nat) : State :=
  let dsts := s.itemDsts x
  let blocks := (dsts.flatMap Opd.poisonWrites).flatMap WBlk.split
  let remote := !s.isLocal (dscDstDev x.raw)
  let (s1, acks) :=
    if !remote then (s.landAll blocks, [])
    else if kind != 6 then s.sendWrites e (dscDstDev x.raw) blocks
    else (s, [])
  let s2 : State := match s.itemSrc x with | some o => s1.releaseSrc o | none => s1
  let n := if remote && acks.isEmpty then 0 else (blocks.foldl (fun a b => insSorted a (b.addr / 64)) []).length
  (s2.modItem e i (fun y =>
    { y with started := true, moved := true, acks := acks, noDone := y.noDone || kind == 6, poisoned := n != 0, counts := [(5, n)] })
    ).violate ⟨kind, srcWord s.self 1 e 0, addr, dev⟩

/-- What a descriptor violates at a list of operands of one device (R16, R137): kind, address and device of the first. -/
def State.opdVio (s : State) (dev : Nat) (opds : List Opd) (fit : Opd → Bool) : Option (Nat × Nat × Nat) :=
  if s.isLocal dev then (opds.find? (fun o => !fit o)).map (fun o => (5, o.base, s.self))
  else if s.reaches dev then none
  else some (6, (opds.head?.map (·.base)).getD 0, dev)

/-- What a descriptor violates (R16, R137): of several operands the first in field order, destinations before sources
(R445). -/
def State.itemVio (s : State) (x : DrtItem) : Option (Nat × Nat × Nat) :=
  ((s.opdVio (dscDstDev x.raw) (s.itemDsts x) s.dstFits).or
    (s.opdVio (dscSrcDev x.raw) (s.itemSrc x).toList (fun o => s.fits o o.ranges))).or
    (((s.itemMask x).toList.find? (fun o => !s.fits o o.ranges)).map (fun o => (5, o.base, s.self)))

/-- The first `n` items of a queue have started. -/
def startedBefore (q : List DrtItem) (n : Nat) : Bool := (q.take n).all (·.started)

/-- A descriptor starts (R159): item `i` of engine `e`, when those before it have started. A speculative one that would
violate waits for its point (R124). (DESIGN CHOICE, log entry 58) -/
def startItem (e : Fin 8) (i : Fin 4) (kind : Nat) (s : State) : Out :=
  match (s.drt e).queue[i.val]? with
  | none => stay s
  | some x =>
    if x.started || dscKind x.raw != kind || !startedBefore (s.drt e).queue i then stay s
    else
      match s.itemVio x with
      | some (k, a, d) => if x.spec then stay s else done (s.failItem e i x k a d)
      | none =>
        let x1 := { x with started := true }
        let s1 := s.modItem e i (fun _ => x1)
        if s.isLocal (dscSrcDev x.raw) then
          let reads := ((s.itemSrc x).map (·.ranges)).getD [] ++ ((s.itemMask x).map (·.ranges)).getD []
          done ((if x.spec then s1 else s1.touch reads).deliver e i x1)
        else
          let (s2, acks) := s1.sendReads e (dscSrcDev x.raw) (((s.itemSrc x).map (·.ranges)).getD [])
          done (s2.modItem e i (fun y => { y with acks := acks }))

/-- MOVE (R156). (DESIGN CHOICE, log entry 58) -/
def execMove (e : Fin 8) (i : Fin 4) (s : State) : Out := startItem e i 0 s

/-- MX_STORE (R156). -/
def execMxStore (e : Fin 8) (i : Fin 4) (s : State) : Out := startItem e i 1 s

/-- COMPRESS (R156). -/
def execCompress (e : Fin 8) (i : Fin 4) (s : State) : Out := startItem e i 2 s

/-! Completion (R159, R163). -/

/-- The signal of a descriptor's DONE vane (R155). -/
def State.doneSignal (s : State) (e : Fin 8) (x : DrtItem) : List PSig :=
  let d := x.raw
  if !dscDoneEn d || x.noDone then []
  else if dscDoneChain d then [unitSig (.chain (Fin.ofNat 64 (dscDoneVane d))) (dscDoneDev d) (dscDoneCount d) 1 e]
  else [unitSig (.core (dscDoneCore d) (Fin.ofNat 48 (dscDoneVane d))) s.self (dscDoneCount d) 1 e]

/-- An engine after its head descriptor has completed (R163). -/
def Draught.completed (d : Draught) (x : DrtItem) : Draught :=
  { d with
    queue := d.queue.tail
    poisonSeen := d.poisonSeen || x.poisoned
    underflowSeen := d.underflowSeen || x.counts.any (fun q => 7 ≤ q.1 && q.2 != 0)
    bank := (x.counts.foldl (fun (b : Bank 15) q => b.add q.1 q.2) d.bank).add 0 1 }

/-- A read-back of a poisoned stash line makes its recompute entry pending (R343). -/
def State.pendRecompute (s : State) (x : DrtItem) : State :=
  if !x.stashPoison then s
  else
    let t := (s.prog x.core).recompute
    let new := (List.range t.length).filter (fun i =>
      match t[i]? with | some r => recDesc r == x.desc && recCtx r == x.ctx.val | none => false)
    s.modCore x.core (fun y => { y with pendingRec := new.foldl insSorted y.pendingRec })

/-- DRAUGHT_DESC_COMPLETE (R159): the descriptor at the head, once its bytes are visible everywhere.
(DESIGN CHOICE, log entries 58, 59) -/
def execDraughtDescComplete (e : Fin 8) (s : State) : Out :=
  match (s.drt e).queue with
  | [] => stay s
  | x :: _ =>
    if !x.started || !x.moved || !x.acks.isEmpty || x.spec then stay s
    else
      let s1 := s.modDrt e (·.completed x)
      let s2 := x.claims.foldl (fun (s : State) q => s.modRing q.1 q.2.1 (fun r => r.fill q.2.2 x.poisoned)) s1
      let s3 := (s2.landed x.core x.ctx x.serial).pendRecompute x
      done (s3.signalNow (s.doneSignal e x))

/-! Answers to a descriptor's packets (R316). -/

/-- The engine and the item that await an answer. -/
def State.findAck (s : State) (dev vl pseq : Nat) : Option (Fin 8 × Nat × DrtItem × Ack) :=
  ((allFin 8).flatMap (fun e =>
    let q := (s.drt e).queue
    (List.range q.length).filterMap (fun i =>
      match q[i]? with
      | some x => (x.acks.find? (fun a => a.dev == dev && a.vl == vl && a.pseq == pseq)).map (fun a => (e, i, x, a))
      | none => none))).head?

/-- An answer taken: its packet waits no longer. READ_DATA, or an ERROR to a READ_REQ, brings `blocks`; with the last of
them the descriptor moves. -/
def State.answered (s : State) (e : Fin 8) (i : Nat) (x : DrtItem) (a : Ack) (blocks : List WBlk) (noDone : Bool) : State :=
  let x1 := { x with acks := x.acks.filter (· != a), rx := x.rx ++ blocks, noDone := x.noDone || noDone }
  let s1 := s.modItem e i (fun _ => x1)
  if x1.moved || !x1.acks.isEmpty then s1 else s1.deliver e i x1

end Sys2Proof.Machine
end

