-- ==== Sys2Proof/Machine/FitForm.lean ====
section
/-! DEFINITION. The plan fit check on single operations (R106 to R109, R127): reserved bits and codes, operands present and
absent, shapes, layouts, bay sizes and units that a core lacks. -/

namespace Sys2Proof.Machine

/-- An operation of a program of the plan: its core, its program and its index. -/
structure OpSite where
  core : Fin 4
  prog : CtxProg
  idx : Nat
  op : BitVec 128
deriving DecidableEq, Repr

/-- Operation indices of a program. -/
def progRange (p : CtxProg) : List Nat := (List.range p.len).map (p.first + ·)

/-- The operations of a program that the program store holds. -/
def State.sitesOf (s : State) (c : Fin 4) (p : CtxProg) : List OpSite :=
  (progRange p).filterMap (fun i => (s.opAt c i).map (fun op => ⟨c, p, i, op⟩))

/-- The operations of a core's programs. -/
def State.coreSites (s : State) (c : Fin 4) : List OpSite := (s.prog c).progs.flatMap (s.sitesOf c)

/-- Every operation of the plan. -/
def State.sites (s : State) : List OpSite := (allFin 4).flatMap s.coreSites

/-! Encodings (R105 to R108, R178). -/

/-- The bit ranges (first, last) above the header that an operation's layout defines; none for a reserved opcode (R106). -/
def opFields (code : Nat) : Option (List (Nat × Nat)) :=
  match code with
  | 0x00 | 0x01 => some []
  | 0x10 => some [(12, 66), (80, 127)]
  | 0x14 | 0x15 => some [(12, 14), (16, 23), (32, 63)]
  | 0x20 | 0x21 => some [(16, 81)]
  | 0x22 => some [(16, 84)]
  | 0x23 => some [(16, 88), (90, 105)]
  | 0x24 => some [(16, 82), (90, 113)]
  | 0x25 => some [(16, 86), (88, 127)]
  | 0x26 => some [(16, 94)]
  | 0x27 => some [(16, 91), (112, 127)]
  | 0x30 | 0x31 | 0x32 => some [(16, 81)]
  | 0x38 | 0x40 | 0x41 | 0x42 | 0x43 | 0x45 | 0x46 | 0x47 | 0x48 | 0x4A => some [(16, 84), (112, 127)]
  | 0x44 => some [(16, 89), (112, 127)]
  | 0x49 => some [(16, 84), (90, 90), (112, 127)]
  | 0x50 => some [(16, 89), (96, 111)]
  | 0x60 => some [(12, 13), (16, 57)]
  | 0x61 => some [(12, 12), (16, 39), (64, 95)]
  | 0x62 => some [(12, 12), (32, 42)]
  | 0x70 => some [(12, 12), (16, 31)]
  | 0x80 => some [(12, 14), (32, 63)]
  | 0x81 => some [(12, 14), (32, 47)]
  | 0x82 => some [(12, 12), (16, 39), (48, 63)]
  | 0x83 => some [(32, 47)]
  | _ => none

/-- The bits of some ranges. -/
def rangeMask (rs : List (Nat × Nat)) : Nat := rs.foldl (fun m r => m ||| (2 ^ (r.2 + 1) - 2 ^ r.1)) 0

/-- A reserved opcode, or a bit set that the operation's layout does not define (R105, R106). -/
def strayBits (op : BitVec 128) : Bool :=
  match opFields (opcode op) with
  | none => true
  | some fs => op.toNat &&& (2 ^ 128 - 1 - rangeMask ((0, 9) :: fs)) != 0

/-- A reference names an operand (R105). -/
def refUsed (ref : Nat) : Bool := ref % 8192 != 0

/-- DST, SRC0, SRC1 and SRC2 of the generic form (R106). -/
def genRef (op : BitVec 128) (i : Nat) : Nat := field op (16 + 16 * i) 16

/-- The operand references of an operation. -/
def opRefs (op : BitVec 128) : List Nat :=
  match opcode op with
  | 0x10 => [tileDest op, tileLoadSrc op]
  | 0x14 | 0x15 => [field op 32 16, field op 48 16]
  | code => if genericForm code then (List.range 4).map (genRef op) else []

/-- The references that an operation reads (R114). -/
def opSrcRefs (op : BitVec 128) : List Nat :=
  match opcode op with
  | 0x10 => [tileLoadSrc op]
  | 0x14 | 0x15 => [field op 32 16, field op 48 16]
  | code => if genericForm code then [genRef op 1, genRef op 2, genRef op 3] else []

/-- The references that an operation writes (R113). -/
def opDstRefs (op : BitVec 128) : List Nat :=
  match opcode op with
  | 0x10 => [tileDest op]
  | code => if genericForm code then [genRef op 0] else []

/-- A reference with a reserved bit set, or that names no descriptor of the table (R105). -/
def State.refBad (s : State) (c : Fin 4) (ref : Nat) : Bool :=
  ref / 16384 != 0 || (refUsed ref && (s.tdesc c ref).isNone)

/-- For each operand of the generic form, whether the operation uses it (R106, R177, R178, R446): `some true` it must be
there, `some false` it must be 0, `none` it may be either. ROUTE's are checked under R187. -/
def generic (op : BitVec 128) : List (Option Bool) :=
  match opcode op with
  | 0x20 | 0x21 | 0x22 | 0x31 | 0x40 | 0x41 | 0x42 | 0x48 => [some true, some true, some true, some false]
  | 0x23 => [some false, some true, some true, some (cmpTransposed op)]
  | 0x24 => [some true, some false, some false, some false]
  | 0x25 | 0x27 | 0x49 => [some true, some true, some true, none]
  | 0x26 => [some false, some true, some true, some true]
  | 0x30 | 0x32 | 0x38 | 0x44 | 0x47 | 0x4A => [some true, some true, some false, some false]
  | 0x45 | 0x46 => [some true, some true, none, some false]
  | 0x43 => [some true, some true, some true, some true]
  | _ => [none, none, none, none]

/-- An operand of the generic form is missing, or its field is not 0 where the operation takes none (R446). -/
def presenceBad (op : BitVec 128) : Bool :=
  genericForm (opcode op) && (List.range 4).any (fun i =>
    match (generic op).getD i none with
    | some true => !refUsed (genRef op i)
    | some false => genRef op i != 0
    | none => !refUsed (genRef op i) && genRef op i != 0)

/-- The descriptors that some references of a core name. -/
def State.descsOf (s : State) (c : Fin 4) (refs : List Nat) : List TDesc := refs.filterMap (s.tdesc c)

/-- The K extent that a PREDICT or a VERIFY takes from a descriptor is no multiple of 32 (R41). -/
def State.extentK (s : State) (c : Fin 4) (op : BitVec 128) : Bool :=
  (s.descsOf c [genRef op 1, genRef op 2]).any (fun d => d.extent 0 % 32 != 0)

/-- The K extent r of PREDICT's second product is no multiple of 32, as its slot, P1 or P2 gives it (R41, R180). -/
def State.rankK (s : State) (c : Fin 4) (op : BitVec 128) : Bool :=
  (s.descsOf c [genRef op 2]).any (fun d => d.extent 1 % 32 != 0) || (s.descsOf c [genRef op 3]).any (fun d => d.extent 0 % 32 != 0) ||
    (match Tbl.get? (s.prog c).preds (field op 80 5) with | some p => p.rank % 32 != 0 | none => false)

/-! Loop counters and keys (R109, R136, R209, R210). -/

/-- The loop counters that a program writes with VANE_TEST (R109). -/
def State.executeOnly (s : State) (c : Fin 4) (p : CtxProg) : List Nat := s.execOnly c p.first p.len

/-- The loop counters that a key entry names (R209). -/
def gustLoops (e : BitVec 256) : List Nat :=
  [le e 9 1, le e 10 1].filterMap (fun b => if b / 8 % 2 = 1 then some (b % 8) else none)

/-- A Draught descriptor of a core (R155). -/
def State.draughtDesc (s : State) (c : Fin 4) (i : Nat) : Option (BitVec 512) :=
  if i = 0 then none else Tbl.get? (s.prog c).descs i

/-- Every reference of a Draught descriptor. -/
def dscRefs (d : BitVec 512) : List Nat := dscSrc d :: dscDsts d ++ (if dscMask d = 0 then [] else [dscMask d])

/-- The loop counters that a fetch-side operation reads (R109). -/
def State.fetchLoops (s : State) (c : Fin 4) (op : BitVec 128) : List Nat :=
  match opcode op with
  | 0x14 | 0x15 => (s.descsOf c (opRefs op)).flatMap TDesc.loops
  | 0x70 =>
    match s.draughtDesc c (field op 16 16) with
    | some d =>
      (s.descsOf c (dscRefs d)).flatMap TDesc.loops ++
        (if dscKind d = 1 && dscRound d then gustLoops (s.gustEntry c (dscKey d)) else [])
    | none => []
  | _ => []

/-- An operation rounds stochastically (R51, R105, R178, R449). -/
def opStochastic (op : BitVec 128) : Bool :=
  match opcode op with
  | 0x10 => tileRound op
  | 0x25 => edtRound op
  | 0x27 => vfyRound op
  | code => (code == 0x38 || (0x40 ≤ code && code ≤ 0x4A)) && vecSr op

/-- The operation carries an SR_KEY field. -/
def hasKey (code : Nat) : Bool := code == 0x10 || code == 0x25 || code == 0x27 || code == 0x38 || (0x40 ≤ code && code ≤ 0x4A)

/-- An operation draws Gust words (R210). -/
def opDraws (op : BitVec 128) : Bool := opStochastic op || opcode op == 0x4A

/-- A selector above 1,023, entry 0 for an operation that draws, or a drop-out entry without KEEP or with a SCALE that is
not finite (R210). (DESIGN CHOICE, log entry 74) -/
def State.keyBad (s : State) (c : Fin 4) (op : BitVec 128) : Bool :=
  hasKey (opcode op) && (decide (1024 ≤ opKey op) || (opDraws op && opKey op == 0) ||
    (opcode op == 0x4A && (keyKeep (s.gustEntry c (opKey op)) == 0 || !isFinite (keyScale (s.gustEntry c (opKey op))))))

/-! Shapes (R147, R148, R150, R214, R446, R448). -/

/-- The extents of dimensions 0 to 3. -/
def TDesc.exts (d : TDesc) : List Nat := (List.range 4).map d.extent

/-- A reduction along dimension 0 (R448). -/
def reduces (code srcs : Nat) : Bool := code == 0x47 || code == 0x48 || ((code == 0x45 || code == 0x46) && srcs == 1)

/-- The shapes of a CONVERT, a vector operation or a VEC_DROPOUT break their rules (R214, R446, R448). -/
def vecShapesBad (code : Nat) (d : TDesc) (srcs : List TDesc) : Bool :=
  srcs.any (fun a => a.rank != d.rank) ||
  if code == 0x48 then
    d.extent 0 != 1 || (srcs.map (·.extent 0)).eraseDups.length != 1 ||
      [1, 2, 3].any (fun i =>
        d.extent i != (srcs.map (·.extent i)).foldl Nat.max 1 ||
          srcs.any (fun a => a.extent i != d.extent i && a.extent i != 1))
  else if reduces code srcs.length then
    d.extent 0 != 1 || srcs.any (fun a => [1, 2, 3].any (fun i => a.extent i != d.extent i))
  else srcs.any (fun a => (List.range 4).any (fun i => a.extent i != d.extent i && (code == 0x4A || a.extent i != 1)))

/-- The shapes of a GATHER, SCATTER or MERGE disagree, or DIM is no dimension of DST (R150). -/
def gatherShapesBad (code dim : Nat) (d a i : TDesc) : Bool :=
  let l := if code == 0x20 then d.extent dim else a.extent dim
  a.rank != d.rank || decide (d.rank ≤ dim) || i.extent 0 != l ||
    (List.range 4).any (fun k => k != dim && a.extent k != d.extent k) ||
    (if code == 0x20 then a.fmt != d.fmt else d.format.mx)

/-- The shapes or formats of a copy disagree (R147, R148). (DESIGN CHOICE, log entry 60) -/
def copyShapesBad (code axes : Nat) (d a : TDesc) (perm : Option TDesc) : Bool :=
  a.rank != d.rank || a.fmt != d.fmt ||
  match code with
  | 0x30 =>
    let p := axesPerm axes
    (List.range 4).any (fun i => d.extent i != a.extent (p.getD i i)) || (List.range 4).any (fun i => p.getD i i != i && decide (d.rank ≤ i))
  | 0x31 =>
    axes != 0 || !(d.exts.isPerm a.exts) ||
      (match perm with | some q => q.fmt != 4 || q.rank != 1 || q.extent 0 != a.rank | none => true)
  | _ => d.exts != a.exts

/-! MALFORMED_OP on one operation (code 0x01). -/

/-- A TILE whose parameters fall outside R69's ranges or whose combination it forbids. -/
def State.tileBad (s : State) (c : Fin 4) (op : BitVec 128) : Bool :=
  let mode := field op 13 3
  let dest := s.tdesc c (tileDest op)
  let inStoreOp : Bool :=
    match dest with
    | some d => d.ring || !d.loops.isEmpty || (inStore d.base 1)
    | none => true
  decide (5 < mode) || tileAcc op == 3 || decide (10 < field op 50 4) || decide (10 < field op 54 4) ||
    decide (4 < tileDrainFmt op) || (mode == 5 && tileDrainFmt op != 0) || (tileRound op && tileDrainFmt op == 0) ||
    (tileDestEddy op && tileDest op != 0) || (tileDrain op && !tileDestEddy op && !refUsed (tileDest op)) ||
    (refUsed (tileLoadSrc op) != (tileAcc op == 1)) || (tileAcc op != 1 && tileLoadSrc op != 0) || !inStoreOp ||
    (tileEligible op && (!tileDrain op || tileDestEddy op))

/-- A fill whose fields break R105's table. -/
def fillBad (op : BitVec 128) : Bool :=
  decide (10 < fillFmt op) || !refUsed (field op 32 16) ||
    (if ((Fmt.ofCode (fillFmt op)).map (·.mx)).getD false then !refUsed (field op 48 16) else field op 48 16 != 0)

/-- A vane number beyond its kind's range (R108). -/
def vaneBad (op : BitVec 128) : Bool := decide ((if bitAt op 12 then 64 else 48) ≤ field op 32 8)

/-- A branch target outside a program (R97, R108). (DEDUCED, log entry 49) -/
def targetBad (p : CtxProg) (t : Nat) : Bool := decide (t < p.first) || decide (p.first + p.len ≤ t)

/-- The branch target of an operation. -/
def opTarget (op : BitVec 128) : Option Nat :=
  match opcode op with
  | 0x81 | 0x83 => some (field op 32 16)
  | 0x82 => some (field op 48 16)
  | _ => none

/-- The row-bin table and bin that a COMPACT or an EXPAND names are not in the store (R168). -/
def State.binBad (s : State) (c : Fin 4) (op : BitVec 128) : Bool :=
  match Tbl.get? (s.prog c).rowBins (binTable op) with
  | some t => decide (ofLe (slice t 4 2) ≤ binIndex op)
  | none => true

/-- What an opcode's own rules refuse as MALFORMED_OP. -/
def State.kindBad (s : State) (x : OpSite) : Bool :=
  let op := x.op
  let code := opcode op
  let ds := s.descsOf x.core [genRef op 0]
  let srcs := s.descsOf x.core [genRef op 1, genRef op 2, genRef op 3]
  match code with
  | 0x10 => s.tileBad x.core op
  | 0x14 | 0x15 => fillBad op
  | 0x20 | 0x21 | 0x22 =>
    (code == 0x22 && decide (3 < field op 82 3)) ||
      (match ds, srcs with
       | [d], [a, i] => gatherShapesBad code (opDim op) d a i
       | _, _ => true)
  | 0x23 => s.binBad x.core op
  | 0x24 => expMode op == 3 || ((expMode op == 2) != opPred op) || (expMode op != 2 && s.binBad x.core op) ||
      (expMode op != 1 && expColTile op != 0)
  | 0x25 => !([0, 3, 4, 5].contains (field op 80 3)) || decide (4 < edtFmt op) || (field op 80 3 == 5 && edtFmt op != 0)
  | 0x26 => decide (47 < field op 88 6) || s.extentK x.core op || s.rankK x.core op
  | 0x27 => decide (4 < vfyFmt op) || s.extentK x.core op
  | 0x30 | 0x31 | 0x32 =>
    (match ds, srcs with
     | [d], a :: rest => copyShapesBad code (field op 80 2) d a rest.head?
     | _, _ => true)
  | 0x38 | 0x40 | 0x41 | 0x42 | 0x43 | 0x44 | 0x45 | 0x46 | 0x47 | 0x48 | 0x49 | 0x4A =>
    decide (11 < field op 80 4) ||
      (code == 0x44 && (Tbl.get? (s.prog x.core).funcs (vecTable op)).isNone) ||
      (match ds with
       | [d] => d.fmt != field op 80 4 || vecShapesBad code d srcs
       | _ => true)
  | 0x60 | 0x61 => vaneBad op || opCount op == 0
  | 0x62 | 0x82 => vaneBad op
  | 0x70 => (s.draughtDesc x.core (field op 16 16)).isNone
  | 0x81 => (s.executeOnly x.core x.prog).contains (field op 12 3)
  | _ => false

/-- An operation refused as MALFORMED_OP (R106 to R109, R178, R210, R446, R449). (DESIGN CHOICE, log entry 69) -/
def State.opMalformed (s : State) (x : OpSite) : Bool :=
  let code := opcode x.op
  let fetchOp := code == 0x14 || code == 0x15 || code == 0x70
  strayBits x.op || (opAhead x.op && !fetchOp) || (opPred x.op && code != 0x14 && code != 0x15 && code != 0x24) ||
    (opRefs x.op).any (s.refBad x.core) || presenceBad x.op || s.keyBad x.core x.op || s.kindBad x ||
    ((opTarget x.op).map (targetBad x.prog)).getD false ||
    (s.fetchLoops x.core x.op).any ((s.executeOnly x.core x.prog).contains ·)

/-! The other reasons that one operation can give. -/

/-- Groups of a bay by format code (R79). -/
def bayCap (code : Nat) : Nat :=
  match code with
  | 0 | 1 => 4
  | 2 | 3 | 4 => 8
  | 5 | 6 | 10 => 7
  | 7 | 8 => 10
  | _ => 15

/-- The side of the array on which an operation places work. -/
def workSide (op : BitVec 128) : Option Nat :=
  match opcode op with
  | 0x10 => some (tileSide op)
  | 0x14 | 0x15 => some (fillSide op)
  | 0x23 => some (cmpSide op)
  | _ => none

/-- Work on a FAILED array (R88). -/
def State.opMissing (s : State) (x : OpSite) : Bool :=
  match workSide x.op with
  | some side => (s.gale (arrayOf x.core side)).health == .failed
  | none => false

/-- A fill of more groups than a bay holds (R79). -/
def opBays (op : BitVec 128) : Bool :=
  (opcode op == 0x14 || opcode op == 0x15) && decide (bayCap (fillFmt op) < fillCount op)

/-- An operand's layout, or its format where `fmt` names one, is not one that its place allows (R138, R139).
(DEDUCED, log entry 66) -/
def State.wrongLayout (s : State) (c : Fin 4) (ref : Nat) (layouts : List Nat) (fmt : Option Nat := none) : Bool :=
  match s.tdesc c ref with
  | some d => !layouts.contains d.layout || (fmt.map (· != d.fmt)).getD false
  | none => false

/-- The format code of a DRAIN_FMT code (R107). -/
def drainCode (code : Nat) : Nat :=
  match code with
  | 0 => 11
  | 1 => 1
  | 2 => 0
  | 3 => 2
  | _ => 3

/-- A SCALE tensor does not hold the scales of an element tensor (R139, R142): its rank or its form is another, its group
stride or its extents leave some block without a byte. (DESIGN CHOICE, log entry 70) -/
def scalePairBad (d e : TDesc) : Bool :=
  e.rank != d.rank || e.grouped != d.isGrouped || (e.grouped && decide (e.str 1 < d.extent 1)) ||
    [1, 2, 3].any (fun i => decide (e.extent i < d.extent i))

/-- A fill's operands (R105, R139, R142, R181). (DESIGN CHOICE, log entry 70) -/
def State.fillLayoutBad (s : State) (c : Fin 4) (op : BitVec 128) : Bool :=
  s.wrongLayout c (field op 32 16) [if opcode op = 0x14 then 1 else 2] (some (fillFmt op)) ||
    (match s.tdesc c (field op 32 16) with
     | some d => (!(opcode op == 0x14 && opPred op) && decide (512 < d.extent 1)) || decide (d.extent 0 < 32 * fillCount op)
     | none => false) ||
    (match s.tdesc c (field op 48 16), s.tdesc c (field op 32 16) with
     | some e, some d => e.layout != 4 || scalePairBad d e || decide (e.extent 0 < fillCount op)
     | _, _ => false)

/-- A COMPACT whose elements are binary32, which no multiplier takes: those of its BITMAP, or of W where that is a transpose
map (R10, R166). -/
def State.compactWide (s : State) (c : Fin 4) (op : BitVec 128) : Bool :=
  (s.descsOf c [genRef op (if cmpTransposed op then 3 else 1)]).any (fun d => d.fmt == 11)

/-- A descriptor whose layout or format its operand position does not allow (R138, R139, R142).
(DESIGN CHOICE, log entry 70) -/
def State.opLayout (s : State) (x : OpSite) : Bool :=
  let op := x.op
  let c := x.core
  let g (i : Nat) (ls : List Nat) (fmt : Option Nat) : Bool := s.wrongLayout c (genRef op i) ls fmt
  match opcode op with
  | 0x10 => s.wrongLayout c (tileDest op) [3] (some (drainCode (tileDrainFmt op))) || s.wrongLayout c (tileLoadSrc op) [3] (some 11)
  | 0x14 | 0x15 => s.fillLayoutBad c op
  | 0x20 | 0x21 | 0x22 => g 0 [0] none || g 1 [0] none || g 2 [5] none
  | 0x23 => g 1 [6] (if cmpTransposed op then some 11 else none) || g 2 [2] none || g 3 [6] none || s.compactWide c op
  | 0x24 => g 0 (if expMode op = 1 then [0] else [0, 3]) none
  | 0x25 => g 0 [3] (some (drainCode (edtFmt op))) || g 1 [1] none || g 2 [2] none || g 3 [0, 3] (some 11)
  | 0x26 => g 1 [1, 2] none || g 2 [1] none || g 3 [1] none
  | 0x27 => g 0 [0, 3] (some (drainCode (vfyFmt op))) || g 1 [1] none || g 2 [2] none || g 3 [0, 3] (some 11)
  | 0x30 => g 0 [0] none || g 1 [0] none
  | 0x31 => g 0 [0] none || g 1 [0] none || g 2 [0] none
  | 0x32 | 0x38 => g 0 [0, 1, 2, 3] none || g 1 [0, 1, 2, 3] none
  | code => (0x40 ≤ code && code ≤ 0x4A) && (List.range 4).any (fun i => g i [0] none)

/-- KIND ADDRESS and no enabled advance term: the plan shows the footprint (R149). -/
def TDesc.shown (d : TDesc) : Bool := !d.ring && d.loops.isEmpty

/-- Source and destination of a TCOPY or PCOPY overlap in the plan as written (R149). -/
def State.opOverlap (s : State) (x : OpSite) : Bool :=
  (opcode x.op == 0x30 || opcode x.op == 0x31) &&
    match s.tdesc x.core (genRef x.op 0), s.tdesc x.core (genRef x.op 1) with
    | some d, some a => d.shown && a.shown && overlap (d.ranges d.base) (a.ranges a.base)
    | _, _ => false

/-- A declared bound of R165 that is none: M of no known code, or N at or above M. -/
def boundBad (op : BitVec 128) : Bool :=
  opcode op == 0x23 && (field op 87 2 == 3 || (cmpN op != 0 && decide (cmpM op ≤ cmpN op)))

/-- An operation that draws Gust words into a destination of 2^32 elements or more (R210). The rows that an EXPAND places
draw theirs by their place in its destination (R176, R211), and those may be of any context's chain of its side (R174). -/
def State.opHuge (s : State) (x : OpSite) : Bool :=
  (opDraws x.op || (opcode x.op == 0x24 && ((s.prog x.core).progs.flatMap (s.sitesOf x.core)).any (fun y =>
      opcode y.op == 0x10 && tileDestEddy y.op && tileRound y.op && tileSide y.op == expSide x.op))) && (s.descsOf x.core (opDstRefs x.op)).any (fun d => decide (2 ^ 32 ≤ d.exts.foldl (· * ·) 1))

end Sys2Proof.Machine
end

