-- ==== Sys2Proof/Machine/Hbm.lean ====
section
/-! DEFINITION. The memory controllers' own steps (spec/10): reads and writes of lines, correction write-backs, the
write-combining buffer's age and pressure, evictions from the check cache, refresh, and failure in service (R335). -/

namespace Sys2Proof.Machine

/-- A stack and its local line of a device address in HBM. -/
def State.hbmLine (s : State) (a : Nat) : Option (Fin 12 × Nat) :=
  match s.place a with
  | .hbm n loc _ => some (n, loc / 64)
  | _ => none

/-- A stash controller and its line of a device address in the stash tier. -/
def State.stashLineOf (s : State) (a : Nat) : Option (Fin 8 × Nat × Nat) :=
  match s.place a with
  | .stash n pos loc code => some (n, stashLine pos loc, code)
  | _ => none

/-- HBM_READ (R229, R258 to R262, R268): an error may have struck the codeword or the flags before the read. -/
def execHbmRead (addr : Nat) (upset : List Byte) (flags : BitVec 16) (s : State) : Out :=
  match s.hbmLine addr with
  | none => stay s
  | some (n, line) =>
    let s := s.modStack n (fun st => { st with arr := st.arr.strike line upset flags })
    done ({ s.touchLine addr with answer := some (s.peekLine addr) })

/-- The data of a write that stays within the line of its address. -/
def lineData (addr : Nat) (data : List Byte) : List Byte := data.take (64 - addr % 64)

/-- HBM_WRITE (R229, R262, R268, R270): one line or part of it. (DESIGN CHOICE, log entry 92) -/
def execHbmWrite (addr : Nat) (data : List Byte) (poison : Bool) (s : State) : Out :=
  match s.hbmLine addr with
  | none => stay s
  | some _ =>
    if s.inParameter addr || data.isEmpty then stay s
    else done (s.writeLine (addr / 64 * 64) (addr % 64) (lineData addr data) poison)

/-- CORRECTION_WRITE_BACK (R260): dropped where a newer write to the line has been accepted.
(DESIGN CHOICE, log entry 91) -/
def execCorrectionWriteBack (n : Fin 12) (line : Nat) (s : State) : Out :=
  match Tbl.get? (s.stack n).arr.fixes line with
  | none => stay s
  | some _ =>
    let (m, e) := (s.stack n).arr.fix line stackCache
    done (s.modStack n (fun st => { st with arr := m, bank := st.bank.stackEv e }))

/-- A stack or stash controller by unit number: stacks 0 to 11, then stash controllers. -/
def unitOf (u : Fin 20) : Fin 12 ⊕ Fin 8 := if u.val < 12 then .inl (Fin.ofNat 12 u) else .inr (Fin.ofNat 8 (u.val - 12))

/-- The lines of a unit's controller. -/
def State.unitLines (s : State) (u : Fin 20) : LineMem :=
  match unitOf u with
  | .inl n => (s.stack n).arr
  | .inr n => (s.stc n).arr

/-- Entries at which a unit's write-combining buffer is under pressure (R271). -/
def wcHighWater (u : Fin 20) : Nat := if u.val < 12 then 28672 else 3584

/-- An entry is to be finished: by age, or as the oldest under pressure (R271). -/
def State.wcDue (s : State) (u : Fin 20) (line : Nat) (w : WcEntry) : Bool :=
  let m := s.unitLines u
  (s.plan.wcAge != 0 && decide (w.since + s.plan.wcAge ≤ s.now)) ||
    (decide (wcHighWater u ≤ m.wc.length) && m.oldest == some line)

/-- WC_ENTRY_FINISH (R271). -/
def execWcEntryFinish (unit : Fin 20) (line : Nat) (s : State) : Out :=
  match Tbl.get? (s.unitLines unit).wc line with
  | none => stay s
  | some w =>
    if !s.wcDue unit line w then stay s
    else
      match unitOf unit with
      | .inl n => done (s.finishStack n line)
      | .inr n => done (s.finishStash n line)

/-- CHECK_LINE_EVICT (R269). -/
def execCheckLineEvict (unit : Fin 20) (group : Nat) (s : State) : Out :=
  if !(s.unitLines unit).cache.contains group then stay s
  else
    let (m, e) := (s.unitLines unit).evict group
    match unitOf unit with
    | .inl n => done (s.modStack n (fun st => { st with arr := m, bank := st.bank.stackEv e }))
    | .inr n => done (s.modStc n (fun c => { c with arr := m, bank := c.bank.stashEv e }))

/-- REFRESH (R274): one refresh command of a channel; doubled while the DRAM reports more than 85 °C. -/
def execRefresh (n : Fin 12) (channel : Fin 32) (hot : Bool) (s : State) : Out :=
  let _ := channel
  if (s.stack n).trained && !(s.stack n).selfRefresh then
    done (s.modStack n (fun st => { st with refresh2x := hot, bank := st.bank.add 8 1 }))
  else stay s

/-- STACK_FAULT (R335, R336): a stack or a core becomes FAILED in service, and the device halts as a lost device; a stash
device that fails in service makes every read of it uncorrectable (R343). -/
def execStackFault (what : ServiceFault) (s : State) : Out :=
  if !s.running then stay s
  else
    match what with
    | .stack n => done ((s.modStack n (fun st => { st with failed := true })).haltLost 7)
    | .core c => done ((s.modCore c (fun x => { x.halt 4 with health := .failed })).haltLost 7)
    | .stash n second => done (s.modStc n (fun c => { c with arr := { c.arr with dead := insSorted c.arr.dead (b2n second) } }))

/-- The CRC of a stash transfer fails some times before it passes, or fails a fourth time (R277). -/
def State.crcRetries (s : State) (n : Fin 8) (fails : Fin 5) : State :=
  s.modStc n (fun c => { c with
    crcRetrySeen := c.crcRetrySeen || fails.val != 0, bank := c.bank.add 6 (min fails.val 3) })

/-- STASH_READ (R261, R277, R280): a transfer that fails a fourth time is an uncorrectable read. -/
def execStashRead (addr : Nat) (upset : List Byte) (crcFails : Fin 5) (s : State) : Out :=
  match s.stashLineOf addr with
  | none => stay s
  | some (n, line, code) =>
    let s := (s.modStc n (fun c => { c with arr := c.arr.strike line upset 0 })).crcRetries n crcFails
    if crcFails.val < 4 then done ({ s.touchLine addr with answer := some (s.peekLine addr) })
    else
      let out := (s.peekLine addr).1
      let (m, e) := (s.stc n).arr.readLost line stashCache
      let s := s.stashTook n m e (addr / 64 * 64) line code
      done ({ s with answer := some (out, true) })

/-- STASH_WRITE (R270, R277, R280, R284): a transfer that fails a fourth time is a lost write, which poisons the line. -/
def execStashWrite (addr : Nat) (data : List Byte) (poison : Bool) (crcFails : Fin 5) (s : State) : Out :=
  match s.stashLineOf addr with
  | none => stay s
  | some (n, _, _) =>
    if data.isEmpty then stay s
    else
      let s := s.crcRetries n crcFails
      if crcFails.val < 4 then done (s.writeLine (addr / 64 * 64) (addr % 64) (lineData addr data) poison)
      else done (s.poisonLine addr)

end Sys2Proof.Machine
end

