-- ==== Sys2Proof/Machine/Health.lean ====
section
/-! DEFINITION. Health and the event recorder (spec/16): measurements of the canary lines and the ageing history (R412, R413,
R416), the re-planning of the margin (R414) with the voltage requests of R415, temperature warnings (R417), the record
allowance (R420), the SEQ mark (R421), flushing (R422, R423) and reading a record (R424). -/

namespace Sys2Proof.Machine

/-! Escalation. -/

/-- Fatal-error escalation in service: a device that runs reports and halts as a lost device first (R335, R336, R389). -/
def State.fatal (s : State) : State := if s.running then s.haltLost 7 else s.escalate

/-! Measurements (R412, R413, R416). -/

/-- The byte of a signed number. -/
def signedByte (v : Int) : Byte := BitVec.ofInt 8 v

/-- The smaller of two (slack, line), the lower line where they are equal. -/
def lowerSlack (a b : Int × Nat) : Int × Nat := if b.1 < a.1 then b else a

/-- The margin of the lines from `lo` on, `n` of them, and its line (R412). -/
def marginOf (m : Measurement) (lo n : Nat) : Int × Nat :=
  let at_ (i : Nat) : Int × Nat := (m.slacks.get (Fin.ofNat 128 i), i)
  (List.range (n - 1)).foldl (fun acc i => lowerSlack acc (at_ (lo + 1 + i))) (at_ lo)

/-- One line of the line table after a measurement (R416): FIRST never changes once written.
(DESIGN CHOICE, log entry 132) -/
def Canary.measure (c : Canary) (slack : Int) (rstCount : Nat) : Canary :=
  if c.measured = 0 then ⟨slack, slack, slack, 1, rstCount⟩
  else { c with min := Min.min c.min slack, last := slack, measured := Nat.min (c.measured + 1) 0xFFFFFFFF }

/-- VSET (R414, R415): the target that has been requested, or the voltage that stands. (DEDUCED, log entry 139) -/
def Hlt.target (h : Hlt) : Nat := match h.avs with | some (t, _) => t | none => h.vset

/-- A summary written into its slot of the ring (R416). (DESIGN CHOICE, log entry 134) -/
def Hlt.summarise (h : Hlt) (rstCount tick step reason : Nat) : Hlt :=
  let bytes := leBytes 4 h.nextSummary ++ leBytes 4 rstCount ++ leBytes 8 tick ++ leBytes 6 step ++ leBytes 2 h.target ++
    leBytes 2 h.vread ++ leBytes 1 h.computeCode ++ leBytes 1 h.linkCode ++ [signedByte h.mCompute, signedByte h.mLink] ++
    leBytes 1 h.worstCompute ++ leBytes 1 h.worstLink ++ leBytes 2 (BitVec.ofInt 16 h.hottest).toNat ++ leBytes 1 reason
  { h with
    summaries := Tbl.set h.summaries (h.nextSummary % 4032) ((bytes ++ zeros 64).take 64)
    nextSummary := (h.nextSummary + 1) % 2 ^ 32
    sinceSummary := 0
    lastMargins := some (h.mCompute, h.mLink)
    histVset := h.target }

/-- The health block after a measurement (R413, R416). -/
def Hlt.measure (h : Hlt) (m : Measurement) (rstCount tick step : Nat) (bringUp : Bool) : Hlt :=
  let (mc, wc) := marginOf m 0 96
  let (ml, wl) := marginOf m 96 32
  let h := { h with
    hottest := m.temp, measuring := false, mCompute := mc, worstCompute := wc, mLink := ml, worstLink := wl, valid := true, fresh := true
    history := true, histVset := h.target
    lines := Vector.ofFn (fun i => (h.lines.get i).measure (m.slacks.get i) rstCount)
    measurements := (h.measurements + 1) % 2 ^ 64
    sinceSummary := h.sinceSummary + 1
    bank := h.bank.add 0 1 }
  if h.lastMargins != some (mc, ml) || 64 ≤ h.sinceSummary then
    h.summarise rstCount tick step (if bringUp then 1 else 0)
  else h

/-- A margin of −1: some line's data arrives late at no shortening at all (R412). -/
def Hlt.late (h : Hlt) : Bool := h.mCompute < 0 || h.mLink < 0

/-- MEASUREMENT_START (R413): DEV_TICK[31:0] has wrapped since the last one started. (DESIGN CHOICE, log entry 133) -/
def execMeasurementStart (s : State) : Out :=
  if s.hlt.wraps < s.now / 2 ^ 32 && !s.hlt.measuring then
    done (s.modHlt (fun h => { h with measuring := true, wraps := s.now / 2 ^ 32 }))
  else stay s

/-- MEASUREMENT_COMPLETE (R413): the margins are taken; one of −1 escalates, and re-plans nothing. -/
def execMeasurementComplete (m : Measurement) (s : State) : Out :=
  if s.hlt.measuring then
    let s := s.modHlt (fun h => h.measure m s.rst.count s.now s.step false)
    if s.hlt.late then done (s.modHlt (fun h => { h with fresh := false })).fatal else done s
  else stay s

/-! Re-planning the margin (R414, R415). -/

/-- What a re-plan decides: a new voltage target, the codes, SPENT, and whether the COMPUTE or the LINK code rose. -/
structure Replan where
  target : Option Nat
  compute : Nat
  link : Nat
  spent : Bool
  /-- SPENT is set by this re-plan. -/
  setsSpent : Bool
deriving DecidableEq, Repr

/-- The re-plan of both domains (R414). While a voltage request has not settled no new one is made (R415), and the branch
that would change the voltage changes nothing. (DESIGN CHOICE, log entry 134) -/
def replanOf (h : Hlt) (c : HealthCfg) : Replan :=
  let free := h.avs.isNone
  let low := decide (h.mCompute < (c.marginLow : Int))
  let high := decide ((c.marginHigh : Int) < h.mCompute)
  let lowLink := decide (h.mLink < (c.marginLow : Int))
  let spends := (low && !(h.vset + 5 ≤ c.vmax) && !(h.computeCode < 15)) || (lowLink && !(h.linkCode < 15))
  { target :=
      if low then (if h.vset + 5 ≤ c.vmax && free then some (h.vset + 5) else none)
      else if high && h.computeCode = 0 && c.vmin + 5 ≤ h.vset && free then some (h.vset - 5)
      else none
    compute := if low && !(h.vset + 5 ≤ c.vmax) && h.computeCode < 15 then h.computeCode + 1 else h.computeCode
    link := if lowLink && h.linkCode < 15 then h.linkCode + 1 else h.linkCode
    spent := h.spent || spends
    setsSpent := spends }

/-- The re-plan of a commit (R414): with the newest measurement, once. (DESIGN CHOICE, log entry 134) -/
def State.replan (s : State) : State :=
  let h := s.hlt
  if !h.fresh then s
  else
    let r := replanOf h s.plan.health
    let rose := r.compute != h.computeCode
    let spentNow := r.setsSpent && !h.spentTold
    let change := r.target.isSome || rose || r.link != h.linkCode
    let s := s.modHlt (fun h =>
      let h := { h with
        fresh := false, computeCode := r.compute, linkCode := r.link, spent := r.spent
        spentTold := h.spentTold || r.setsSpent
        rateDownSeen := h.rateDownSeen || rose
        avs := match r.target with | some t => some (t, s.now) | none => h.avs
        bank := (h.bank.add 1 (b2n r.target.isSome)).add 2 (b2n rose) }
      if change || spentNow then
        h.summarise s.rst.count s.now s.step (if r.target.isSome then 2 else if spentNow then 4 else 3)
      else h)
    let s := if rose then s.ask 0x50 (s.unit 0xC 0x03 0) [] else s
    if spentNow then s.ask 0x50 (s.unit 0xC 0x03 0) [] else s

/-- AVS_SETTLED (R415): the regulator reports a value within 5 mV of the target. -/
def execAvsSettled (vread : Nat) (s : State) : Out :=
  match s.hlt.avs with
  | some (t, _) =>
    if vread ≤ t + 5 && t ≤ vread + 5 then
      done (s.modHlt (fun h => { h with vset := t, vread := vread % 1024, avs := none, histVset := t }))
    else stay s
  | none => stay s

/-- AVS_SETTLE_TIMEOUT (R415): the request has not settled within AVS_SETTLE device ticks, and VSET is unchanged. -/
def execAvsSettleTimeout (vread : Nat) (s : State) : Out :=
  match s.hlt.avs with
  | some (_, since) =>
    if since + s.plan.health.avsSettle ≤ s.now then
      let s := s.modHlt (fun h =>
        { h with vread := vread % 1024, avs := none, avsFailSeen := true, bank := h.bank.add 3 1 })
      done (s.ask 0x50 (s.unit 0xC 0x03 0) [])
    else stay s
  | none => stay s

/-- The window of VCORE in millivolts, its ends included (R430): about the boot voltage of 750 mV until a request is made, over the
old and the new target while one is unsettled, and about VSET after that. -/
def Hlt.coreWindow (h : Hlt) : Nat × Nat :=
  let old := if h.vset = 0 then 750 else h.vset
  match h.avs with
  | some (new, _) => (min old new - 30, max old new + 30)
  | none => (old - 30, old + 30)

/-! Temperature (R417). -/

/-- A sensor reads a temperature, in units of 0.125 °C. (DESIGN CHOICE, log entry 132) -/
def Hlt.reads (h : Hlt) (i : Fin 12) (t : Int) : Hlt :=
  let temps := h.temps.set i t
  { h with
    temps := temps, temMax := h.temMax.set i (max (h.temMax.get i) t)
    hottest := temps.toList.foldl (fun acc t => max acc t) (temps.get 0) }

/-- TEMP_WARN (R417): a sensor that is armed rises to TEMP_WARN. (DESIGN CHOICE, log entry 135) -/
def execTempWarn (sensor : Fin 12) (temp : Int) (s : State) : Out :=
  if s.loaded && !s.hlt.warned.get sensor && (s.plan.health.tempWarn : Int) ≤ temp then
    let s := s.modHlt (fun h =>
      { h.reads sensor temp with
        warned := h.warned.set sensor true, tempWarnSeen := true, bank := h.bank.add 6 1 })
    done (s.ask 0x51 (s.unit 0xC 0x03 0) [])
  else stay s

/-- TEMP_WARN_REARM (R417): a sensor that warned has fallen 5 °C, 40 units, below TEMP_WARN. -/
def execTempWarnRearm (sensor : Fin 12) (temp : Int) (s : State) : Out :=
  if s.hlt.warned.get sensor && temp + 40 ≤ (s.plan.health.tempWarn : Int) then
    done (s.modHlt (fun h => { h.reads sensor temp with warned := h.warned.set sensor false }))
  else stay s

/-! The recorder. -/

/-- RECORD_ALLOWANCE_RISE (R420): 256 device ticks have passed since the last rise. -/
def execRecordAllowanceRise (s : State) : Out :=
  if s.evr.rose + 256 ≤ s.now then
    done (s.modEvr (fun e => { e with allowance := min (e.allowance + 1) (2 ^ 24), rose := e.rose + 256 }))
  else stay s

/-- A slot once the first `p` of the nine pulses that write a record into it have ended (R422): word 0 with TYPE 0x00, words 1 to
7, and word 0 with its true TYPE. -/
def slotAfter (old new : List Byte) (p : Nat) : List Byte :=
  let old := (old ++ zeros 64).take 64
  if p = 0 then old
  else if 9 ≤ p then new
  else new.take 6 ++ [0] ++ slice new 7 (8 * p - 7) ++ old.drop (8 * p)

/-- The slot of the record region in which a record lies (R422). -/
def Evr.slotOf (e : Evr) (n : Nat) : List Byte := (Tbl.get? e.slots (n % 8192)).getD []

/-- The writing of the next unkept record begins: word 0 of its slot takes the SEQ with TYPE 0x00 (R422). -/
def Evr.beginWrite (e : Evr) : Evr :=
  match e.writing, e.unkept with
  | none, n :: _ =>
    match Tbl.get? e.ring n with
    | some r => { e with slots := Tbl.set e.slots (n % 8192) (slotAfter (e.slotOf n) r 1), writing := some n }
    | none => e
  | _, _ => e

/-- A record is kept (R422): its last pulse has ended in its slot of the keep store. -/
def Evr.keep (e : Evr) (n : Nat) : Evr :=
  match Tbl.get? e.ring n with
  | some r =>
    { e with
      slots := Tbl.set e.slots (n % 8192) (slotAfter (e.slotOf n) r 9)
      writing := if e.writing = some n then none else e.writing, kept := some n, unkept := e.unkept.filter (· != n)
      skipping := e.skipping && decide (2048 < (e.unkept.filter (· != n)).length), bank := e.bank.add 1 1 }
  | none => e

/-- ROUTINE_FLUSH (R422): the next unkept record, in SEQ order, while no fault flush takes the pulses. -/
def execRoutineFlush (s : State) : Out :=
  match s.evr.unkept with
  | n :: _ => if s.evr.flushing then stay s else done (s.modEvr (·.keep n))
  | [] => stay s

/-- What a command writes to the keep store may begin (R423): a command of SEC_CMD that waited for its last pulse is answered
DONE (R411). (DEDUCED, log entry 148) -/
def State.releaseKeep (s : State) : State :=
  if s.keepHeld.isNone then s
  else
    let s : State := { s with keepHeld := none }
    match s.sec.cmd.running with
    | some (op, p, tag) =>
      if keepsState op then
        (s.modSec (fun x => { x with cmd := { x.cmd with running := none } })).secAnswer p tag .done false
      else s
    | none => s

/-- FAULT_FLUSH_END (R423): every unkept record is kept, and the flush ends. -/
def execFaultFlushEnd (s : State) : Out :=
  if s.evr.flushing then
    done (s.modEvr (fun e => { e.unkept.foldl Evr.keep e with flushing := false })).releaseKeep
  else stay s

/-- The records that waited for a mark are made once it is in force (R421). -/
def Evr.takeMark (rstCount tick : Nat) (e : Evr) (m : Nat) : Evr :=
  e.waiting.foldl (fun (a : Evr) r =>
    if a.mark ≤ a.next || !a.waiting.isEmpty then { a with waiting := a.waiting ++ [r] }
    else a.place rstCount tick r) { e with mark := m, newMark := none, waiting := [] }

/-- SEQ_MARK_WRITE_END (R421): the new mark is in force, and the records that waited for it are made. It does not end while a
power-failure flush runs (R423). (DEDUCED, log entry 148) -/
def execSeqMarkWriteEnd (s : State) : Out :=
  match s.evr.newMark with
  | none => stay s
  | some m =>
    if s.keepHeld.isSome then stay s
    else done ((s.modEvr (fun e => e.takeMark s.rst.count s.now m)).atRecordLimit s.evr.next)

/-- The keep store as it stands, its records apart (R410). -/
def State.keepImage (s : State) : KeepImage :=
  { policy := s.sec.policy, pendingPolicy := s.sec.pending, minGrant := s.sec.minGrant, endorsement := s.sec.endorsement
    zeroiseFlag := s.sec.zeroiseFlag, slots := s.sec.slots, fails := s.rst.fails, resets := s.rst.history, histVset := s.hlt.histVset
    computeCode := s.hlt.computeCode, linkCode := s.hlt.linkCode, lines := s.hlt.lines, summaries := s.hlt.summaries
    nextSummary := s.hlt.nextSummary, measurements := s.hlt.measurements }

/-- Power goes before the writes that a power-failure flush held up: they are never made (R423).
(DEDUCED, log entry 148) -/
def State.loseHeld (s : State) : State :=
  match s.keepHeld with
  | none => s
  | some k =>
    let s := (s.modSec (fun x => { x with
      policy := k.policy, pending := k.pendingPolicy, minGrant := k.minGrant, endorsement := k.endorsement
      zeroiseFlag := k.zeroiseFlag, slots := k.slots })).modRst (fun r => { r with fails := k.fails, history := k.resets })
    { s.modHlt (fun h => { h with
        histVset := k.histVset, computeCode := k.computeCode, linkCode := k.linkCode, lines := k.lines
        summaries := k.summaries, nextSummary := k.nextSummary, measurements := k.measurements }) with keepHeld := none }

/-- PWR_FAIL (R423, R432): a POWER_FAIL record first, then a fault flush, which holds up every other write of the keep store.
(DEDUCED, log entries 110, 148) -/
def execPwrFail (s : State) : Out :=
  if s.ports.pwrFailLow then stay s
  else
    let s := s.modPorts (fun p => { p with pwrFailLow := true })
    let s : State := { s with keepHeld := some (s.keepHeld.getD s.keepImage) }
    done ((s.ask 0x11 (s.unit 0xC 0x02 0) []).modEvr Evr.flush)

/-- PWR_FAIL_RISE (R432): the rails are within their windows again, and the device runs on. -/
def execPwrFailRise (s : State) : Out :=
  if s.ports.pwrFailLow then done (s.modPorts (fun p => { p with pwrFailLow := false })) else stay s

/-- The record with a SEQ: from the volatile ring, else from its keep-store slot while that holds it (R424). -/
def Evr.record? (e : Evr) (n : Nat) : Option (List Byte) :=
  match Tbl.get? e.ring n with
  | some r => some r
  | none =>
    match Tbl.get? e.slots (n % 8192) with
    | some r => if ofLe (r.take 6) = n && r.getD 6 0 != 0 then some r else none
    | none => none

/-- Every record of a type that the recorder or the keep store holds. -/
def Evr.recordsOf (e : Evr) (type : Nat) : List (List Byte) :=
  (e.ring.map (·.2) ++ e.slots.map (·.2)).filter (fun r => (r.getD 6 0).toNat == type)

end Sys2Proof.Machine
end

