-- ==== Sys2Proof/Machine/Training.lean ====
section
/-! DEFINITION. The step fence (spec/08, R221 to R226, and the fence route of R323 to R325): the local fence, the close of the
chain, membership grants (R331), the commit handshake with all that takes place in it, and the end of the initial load
(R231). -/

namespace Sys2Proof.Machine

/-! Signals of the step vanes. -/

/-- The signal of a core's step vane by 1, after every other signal of its handshake (R224, R231, R287).
(DEDUCED, log entry 95) -/
def State.stepSignals (s : State) : List PSig :=
  (allFin 4).filterMap (fun c => (s.fenceCfg c).map (fun f =>
    { unitSig (.core c f.stepVane) s.self 1 0xC (0x10 + c.val) with last := true }))

/-- LOAD_COMPLETE (R231): every load is complete, and step s begins on a device that is a member; a device that stands
OUTSIDE begins with the grant of its ATTACH (R327, R330). -/
def execLoadComplete (s : State) : Out :=
  if s.running && s.loaded && s.loads.isEmpty && !s.begun then
    let s : State := { s with begun := true, foehn := s.foehn.map (fun f => { f with loading := false }) }
    done (if s.chain.role = .member then s.signalNow s.stepSignals else s)
  else stay s

/-! Foehn units between steps. -/

/-- A vane without its Foehn waiters. -/
def Vane.dropFoehn (v : Vane) : Vane :=
  { v with waiters := v.waiters.filter (fun w => match w.1 with | .ctx _ _ => true | .foehn _ _ => false) }

/-- The vanes of a core without their Foehn waiters. -/
def Core.dropFoehn (x : Core) : Core := { x with vanes := x.vanes.map Vane.dropFoehn }

/-- Every Foehn unit waits anew on the trigger vanes of its table (R236), and takes counts that stand there already. -/
def State.rearmFoehns (s : State) : State :=
  let s : State := { s with cores := s.cores.map Core.dropFoehn }
  let s := s.enlistFoehns
  let vs := (allFin 12).flatMap (fun n => (s.groupTable n).map (fun g => (groupTrigger g.2).1))
  vs.foldl State.serve s

/-! Membership (R330, R331). -/

/-- A device's pair as the plan gives it: its twin and whether the pair names a store (R329). -/
def State.pairOf (s : State) (d : Nat) : Option (Nat × Bool) :=
  (s.plan.pairs.find? (fun p => p.devA == d || p.devB == d)).map (fun p =>
    (if p.devA = d then p.devB else p.devA, p.namesStore))

/-- A change of a pair has been granted already: a takeover that waits for its RETRY (R331). -/
def State.pairTaken (s : State) (r : MemberReq) : Bool :=
  s.chain.takeovers.any (fun t => t.1 == r.dev || t.2 == r.dev || t.1 == r.twin || t.2 == r.twin)

/-- A request can be granted: its pair is known and free of other changes, a joiner is lost, a leaver is whole and its pair
names a store. (DEDUCED, log entry 104) -/
def State.grantable (s : State) (r : MemberReq) : Bool :=
  match s.pairOf r.dev with
  | none => false
  | some (_, store) =>
    !s.pairTaken r &&
      (if r.kind = 1 then s.addressed r.dev != r.dev
       else store && s.addressed r.dev == r.dev && s.addressed r.twin == r.twin)

/-- Two requests concern one pair. -/
def MemberReq.samePair (a b : MemberReq) : Bool := a.dev == b.dev || a.dev == b.twin

/-- The requests of a close in order of arrival: those granted, at most one for a pair, and those denied (R331). -/
def State.chooseGrants (s : State) : List MemberReq × List MemberReq :=
  s.chain.requests.foldl (fun acc r =>
    if s.grantable r && !acc.1.any (fun g => g.samePair r) then (acc.1 ++ [r], acc.2) else (acc.1, acc.2 ++ [r])) ([], [])

/-- The payload of a FENCE_CLOSE: its grants, 8 bytes each. (DESIGN CHOICE, log entry 103) -/
def grantsPayload (gs : List MemberReq) : List Byte :=
  gs.flatMap (fun g => leBytes 1 g.kind ++ zeros 1 ++ leBytes 2 g.dev ++ leBytes 2 g.twin ++ zeros 2)

/-- The grants that a payload carries; `n` bounds them. -/
def parseGrants : Nat → List Byte → List MemberReq
  | 0, _ => []
  | n + 1, bs =>
    if bs.length < 8 then []
    else ⟨ofLe (bs.take 1), ofLe (slice bs 2 2), ofLe (slice bs 4 2)⟩ :: parseGrants n (bs.drop 8)

/-- The answer of a membership request: its kind, the step that closes and the epoch after it.
(DESIGN CHOICE, log entry 103) -/
def State.memberAnswer (s : State) (type : Nat) (r : MemberReq) : Packet :=
  mkPkt type r.dev 0 r.kind (leBytes 6 s.step ++ leBytes 6 (seqNext s.chain.epoch))

/-- A membership command of this device is answered (R330, R32). -/
def State.answerChain (s : State) (a : Answer) : State :=
  match s.chain.cmd.running with
  | some (_, p, tag) =>
    (s.modChain (fun c => { c with cmd := { c.cmd.answer a p tag false with running := none } })).commandRecord 0x50 p tag a
  | none => s

/-- A request of this device is denied (R330). -/
def State.requestDenied (s : State) (kind : Nat) : State :=
  match kind with
  | 1 => if s.chain.role = .joining then (s.modChain (fun c => { c with role := .outside })).answerChain .failed else s
  | 2 =>
    if s.chain.role = .leaving then (s.modChain (fun c => { c with role := .member, leaveHeld := false })).answerChain .failed
    else s
  | _ => s

/-- A MEMBER_REQ of a device on its way to the root (R329, R330): AUX the kind, ADDR the device that asks.
(DESIGN CHOICE, log entry 103) -/
def memberReq (kind dev : Nat) : Packet := mkPkt 0x23 0 dev kind []

/-- The root holds a request for its next close (R331). -/
def State.holdRequest (s : State) (kind dev : Nat) : State :=
  let twin := ((s.pairOf dev).map (·.1)).getD 0
  s.modChain (fun c => { c with requests := c.requests ++ [⟨kind, dev, twin⟩] })

/-- A MEMBER_REQ of this device sent (R330): a root holds its own, and a joiner whose plan makes it the root asks the survivor
that stands for it. (DEDUCED, log entry 104) -/
def State.requestMember (s : State) (kind : Nat) : State :=
  if s.chain.isRoot && s.chain.role != .joining then s.holdRequest kind s.self
  else if s.chain.parent.isNone then s.send { memberReq kind s.self with dst := s.chain.twinDev }
  else s.toParent (memberReq kind s.self)

/-- The store has acknowledged step s, or its root is still to be closed, which a LEAVING device does only then (R333). -/
def State.storeHolds (s : State) : Bool :=
  !s.slip.rootClosed || (match s.slip.storeAck with | some n => decide (s.step ≤ n) | none => false)

/-- A DETACH that waited for the store is asked for (R333). -/
def State.askLeave (s : State) : State :=
  if s.chain.leaveHeld && s.storeHolds then (s.modChain (fun c => { c with leaveHeld := false })).requestMember 2 else s

/-- A context back at its normal step entry for the next step (R349). -/
def Ctx.toStepEntry (y : Ctx) : Ctx :=
  match y.stepEntry with
  | some e =>
    if y.st = .stopped then y
    else { y with st := .ready, fetchPos := e, execPos := e, queue := [], wait := none, lcF := y.lcX, endFetched := false
                  branchOpen := false, ending := false, spec := none, routeTodo := [], routeWait := none, ownStalled := false }
  | none => y

/-- The contexts of a core back at their normal step entries. -/
def Core.toStepEntries (x : Core) : Core := { x with ctxs := x.ctxs.map Ctx.toStepEntry }

/-- A LEAVING or JOINING device asks (R330): a DETACH only once the store holds the step whose root is closed (R333). -/
def State.seekMember (s : State) (kind : Nat) : State :=
  if kind = 2 && !s.storeHolds then s.modChain (fun c => { c with leaveHeld := true }) else s.requestMember kind

/-- The fence route as the plan gives it, without children that are lost (R347, R349). -/
def State.planFence (s : State) : State :=
  s.modChain (fun c =>
    { c with
      parent := s.plan.fenceParent
      isRoot := s.plan.fenceParent.isNone
      takeStep := none
      children := s.plan.fenceChildren.filter (fun l => !c.moved.any (fun m => m.1 == (s.link l).peerDev)) })

/-- A granted ATTACH takes effect (R330, R331, R349). The joiner's plan has started anew, so the packets of a device that
has not met it in a handshake are numbered from 0 again. -/
def State.applyAttach (s : State) (g : MemberReq) : State :=
  let s := s.modChain (fun c => { c with moved := c.moved.filter (fun m => m.1 != g.dev) })
  let s := if (allFin 36).any (fun l => (s.link l).session && (s.link l).peerDev == g.dev) then s else s.freshOrder g.dev
  if g.dev = s.self then
    (s.modChain (fun c => { c with role := .member, twin := .paired })).answerChain .done
  else if g.twin = s.self then
    let s := (s.modDev (fun d => { d with st := .run })).modChain (fun c =>
      { c with twin := .paired, lostDev := none, shardSent := false })
    let s : State := { s with foehn := Vector.ofFn (fun n =>
      let t := s.plan.foehns.get n
      { s.fhn n with awaiting := renumberAwaiting t.takeGroups t.groups (s.fhn n).awaiting }) }
    let s := s.leaveVanes (fun c k => (s.ctx c k).stepEntry.isSome)
    ({ s with cores := s.cores.map Core.toStepEntries }).planFence
  else if s.dev.st = .takeover then s
  else s.planFence

/-- A granted DETACH takes effect (R333): the leaver is answered; every other device holds its twin in its place.
(DEDUCED, log entry 104) -/
def State.applyDetach (s : State) (g : MemberReq) : State :=
  if g.dev = s.self then (s.modChain (fun c => { c with role := .outside })).answerChain .done
  else
    let s := s.applyTakeover (g.dev, g.twin)
    if g.twin = s.self then s.takeEntries else s

/-- The epoch advances (R330, R331): at its limit it escalates (R34). -/
def State.setEpoch (s : State) (n : Nat) : State :=
  let s := s.modChain (fun c => { c with epoch := n })
  if n = seqMax then s.escalate else s

/-- The step number advances: at its limit it escalates (R34). -/
def State.setStep (s : State) (n : Nat) : State :=
  let s : State := { s with step := n }
  if n = seqMax then s.escalate else s

/-- The grants of a close take effect in its commit (R331). -/
def State.applyGrants (s : State) (gs : List MemberReq) : State :=
  let s := gs.foldl (fun s g => if g.kind = 1 then s.applyAttach g else s.applyDetach g) s
  if gs.isEmpty then s else s.setEpoch (seqNext s.chain.epoch)

/-- A leaver after its commit: links DOWN, and HALTED (R333). -/
def State.departs (s : State) (gs : List MemberReq) : State :=
  if gs.any (fun g => g.kind == 2 && g.dev == s.self) then (s.stopLinks false).modDev (fun d => { d with st := .halted }) else s

/-! Ingest at a commit (R380, R381). -/

/-- Device address of a buffer. -/
def ingBuffer (e : BitVec 256) (b : Nat) : Nat := ingBase e + b * ingSize e

/-- The buffers that a channel releases at a commit. -/
def releaseOf (e : BitVec 256) (ch : IngestChan) : List Nat := ch.ready.take (ingPerStep e)

/-- H_c after the release of some buffers (R381). -/
def State.ingestHash (s : State) (e : BitVec 256) (bs : List Nat) : List Byte :=
  bs.foldl (fun h b =>
    let hd := s.peek (ingBuffer e b) 64
    sha384 (h ++ slice hd 24 8 ++ slice hd 32 16 ++ slice hd 0 8)) (zeros 48)

/-- The channel entry and its run state. -/
def State.channel (s : State) (c : Nat) : Option (BitVec 256 × IngestChan) :=
  match s.plan.ingest[c]?, Tbl.get? s.sec.channels c with
  | some e, some ch => some (e, ch)
  | _, _ => none

/-- The buffers that channel c releases at a commit; a load channel releases none here. -/
def State.released (s : State) (c : Nat) : List Nat :=
  match s.channel c with
  | some (e, ch) => if ingLoad e then [] else releaseOf e ch
  | none => []

/-- The ingest digest D of a commit of step s (R381). -/
def State.ingestDigest (s : State) : List Byte :=
  sha384 (leBytes 1 3 ++ leBytes 6 s.step ++ (List.range 8).flatMap (fun c =>
    let bs := s.released c
    let h := match s.channel c with | some (e, _) => s.ingestHash e bs | none => zeros 48
    leBytes 4 bs.length ++ h))

/-- The release of a commit (R380): each channel's oldest READY buffers become FREE. -/
def State.releaseIngest (s : State) : State :=
  (List.range 8).foldl (fun t c =>
    match s.channel c with
    | some (_, ch) =>
      let bs := s.released c
      t.modSec (fun x =>
        { x with channels := Tbl.set x.channels c { ch with ready := ch.ready.drop bs.length, free := ch.free ++ bs } })
    | none => t) s

/-! The commit (R222, R224, R228, R243, R252). -/

/-- Roots a shadow holds after another (R344): the last committed one, and those of the last 16 full steps. -/
def keepRoots (new : Nat × List Byte × Bool) (old : List (Nat × List Byte × Bool)) : List (Nat × List Byte × Bool) :=
  new :: (old.filter (fun r => r.2.2)).take (if new.2.2 then 15 else 16)

/-- The slipstream at a commit (R252): the root moves to SLP_ROOT, and the twin's acknowledged shadow is committed. -/
def State.commitSlip (s : State) : State :=
  let x := s.slip
  let dev := (s.plan.twin.map (·.dev)).getD 0
  let full := s.fullStep s.step
  let shadow := x.rx.acked && x.rx.step == s.step
  s.modSlip (fun x =>
    { x with
      committedRoot := x.root
      rootStep := some s.step
      leaves := []
      stepEndSent := false
      shadowAcked := false
      rootClosed := false
      rx := ShadowRx.none
      shadowRoots := if shadow then keepRoots (s.step, rootOf dev s.step full x.rx.leaves, full) x.shadowRoots
        else x.shadowRoots })

/-- The Foehn units at a commit: halves swap, and every group is neither completed nor due (R228, R243). -/
def State.swapHalves (s : State) : State :=
  { s with foehn := s.foehn.map (fun f => { f.restart with half := !f.half }) }

/-- A context at a commit: it has its step entry before it again. -/
def Core.newStep (x : Core) : Core := { x with ctxs := x.ctxs.map (fun y => { y with entered := false }), fenceMark := false }

/-! The shard of a joining twin (R332, R349). -/

/-- The twin-port links that are UP. -/
def State.twinLinksUp (s : State) : List (Fin 36) := (allFin 36).filter (fun l => 32 ≤ l.val && (s.link l).st == .up)

/-- Bytes cut into packets' payloads. -/
def payloads : Nat → List Byte → List (List Byte)
  | 0, _ => []
  | n + 1, bs => if bs.isEmpty then [] else bs.take 4096 :: payloads n (bs.drop 4096)

/-- The groups of a unit await the chunk at a device address (R345). -/
def State.awaitsAt (s : State) (n : Fin 12) (a : Nat) : Bool :=
  (s.fhn n).awaiting.any (fun w => match Tbl.get? (s.groupTable n) w.1 with
    | some g => grpBase g w.2.1 + chunkSize * w.2.2 == a
    | none => false)

/-- The last committed step r (R345). -/
def State.lastStep (s : State) : Nat := s.slip.rootStep.getD (s.step - 1)

/-- The groups of a shard on a stack with the numbers that name them: own 0, twin's 1. -/
def State.shardGroups (s : State) (n : Fin 12) (shard : Nat) : List (Nat × BitVec 512) :=
  if shard = 0 then (s.plan.foehns.get n).groups
  else (List.range (s.twinGroups n).length).filterMap (fun i => ((s.twinGroups n)[i]?).map (fun g => (i, g)))

/-- The chunks of a shard that the tree of a step names (R244, R248), with the bytes that this device holds: weights, and state of
a full step; none that it still awaits from the store itself. (DESIGN CHOICE, log entry 118) -/
def State.shardChunks (s : State) (dev shard step : Nat) : List Chunk :=
  (allFin 12).flatMap (fun n => (s.shardGroups n shard).flatMap (fun g =>
    ((groupKinds g.2).filter (fun k => k == 0 || s.fullStep step)).flatMap (fun k => (List.range (groupChunks g.2)).filterMap (fun i =>
      match s.chunkPlace dev step n g.1 k i with
      | some p =>
        if s.awaitsAt n p.1 then none
        else some ⟨step, 0, n, g.1, k, i, s.peek p.1 p.2, Vector.replicate 2 false, Vector.replicate 2 false, Vector.replicate 2 0⟩
      | none => none))))

/-- The root of a device's shard as of a step, over the chunks that this device holds of it (R248). -/
def State.shardRoot (s : State) (dev step : Nat) (cs : List Chunk) : List Byte :=
  rootOf dev step (s.fullStep step) (cs.map Chunk.leaf)

/-- The bytes of the joiner's whole shard by SHARD packets on a link (R332). (DESIGN CHOICE, log entry 118) -/
def State.sendShard (s : State) (l : Fin 36) (cs : List Chunk) : State :=
  cs.foldl (fun s c =>
    (payloads (c.bytes.length / 4096 + 1) c.bytes).foldl (fun s b => s.sendOn l (mkPkt 0x32 0 0 0 b)) s) s

/-- What a device that has taken over brings to a joiner once every twin-port link is keyed (R332): the root of its last committed
step by STEP_END; then the shard, at first whole by SHARD on the lowest twin-port link, and at each commit after that the chunks
of the step as frames of the slipstream. (DESIGN CHOICE, log entry 118) -/
def State.offerShard (s : State) : State :=
  match s.twinLinksUp, s.plan.twin with
  | m :: ls, some t =>
    if s.dev.st == .takeover && (m :: ls).all (fun l => (s.link l).session) then
      let r := s.lastStep
      let cs := s.shardChunks t.dev 1 r
      let s := s.emitFrame 0 { s.frame 3 (s.shardRoot t.dev r cs) with step := r, attempt := 0 }
      let s := if s.chain.shardSent then cs.foldl (fun s c => (chunkFrames s.self c).foldl (fun s f => s.emitFrame 0 f) s) s
        else s.sendShard m cs
      s.modChain (fun c => { c with shardSent := true })
    else s
  | _, _ => s

/-- A joiner's twin-port link is keyed: its shard goes out whole (R332). -/
def State.greetJoiner (s : State) : State := (s.modChain (fun c => { c with shardSent := false })).offerShard

/-- A commit can take place now (R224, R420). -/
def State.commitReady (s : State) : Bool :=
  (match s.chain.lastCommit with | some t => decide (t + 256 ≤ s.now) | none => true) &&
    decide (-(2 ^ 20 : Int) ≤ s.evr.allowance - 3)

/-- The commit records of step s (R419). -/
def State.commitRecords (s : State) (digest : List Byte) : State :=
  ((s.askBare 0x20 (leBytes 6 s.step ++ leBytes 6 s.chain.epoch ++ leBytes 2 s.chain.attempt ++
    leBytes 1 (b2n (s.fullStep s.step)))).askBare 0x21 s.slip.root).askBare 0x22 digest

/-- The commit handshake of step s with the grants of its close. -/
def State.commit (s : State) (gs : List MemberReq) : State :=
  let digest := s.ingestDigest
  let s := (s.commitRecords digest).releaseIngest.modSec (fun x => { x with ingestDigest := digest })
  let s := s.finishEntries.commitSlip.swapHalves
  let s : State := { s with
    cores := s.cores.map Core.newStep, gales := s.gales.map (fun x => { x with candidates := 0 })
    withheld := false }
  let s := s.modChain (fun c =>
    { c with
      attempt := 0, retried := false, reports := [], retrying := [], local_ := false, boundExpired := false
      closing := false, grants := [], inRetry := false, lastCommit := some s.now })
  let s := ((s.setStep (seqNext s.step)).replan).modRst (fun r => { r with wdtSince := s.now })
  let s := (s.offerShard.applyGrants gs).rearmFoehns
  (s.signalNow s.stepSignals).askLeave.departs gs

/-! The fence route. -/

/-- Each of some children has reported the local fence of step s, and none of them is still to answer a retry (R324, R340). -/
def State.reported (s : State) (ls : List (Fin 36)) : Bool :=
  ls.all (fun l => s.chain.reports.contains l && !s.chain.retrying.contains l)

/-- The children whose reports go on with the device's own to its parent: a survivor that has become the root reports to the
parent of its own place for its own children alone (R347). (DEDUCED, log entry 106) -/
def State.ownChildren (s : State) : List (Fin 36) :=
  if s.chain.isRoot then s.chain.children.filter (fun l => s.plan.fenceChildren.contains l) else s.chain.children

/-- The root closes the chain and commits in one handshake (R324): grants and refusals go out with the close.
(DEDUCED, log entry 87) -/
def State.rootClose (s : State) : State :=
  let (gs, no) := s.chooseGrants
  let s := s.toChildren (s.fencePacket 0x21 (grantsPayload gs))
  let s := gs.foldl (fun s g => s.send (s.memberAnswer 0x24 g)) s
  let s := no.foldl (fun s g => if g.dev = s.self then s.requestDenied g.kind else s.send (s.memberAnswer 0x25 g)) s
  (s.modChain (fun c => { c with requests := [] })).commit gs

/-- The root stands at its local fence with every report, and has learned of no failure of step s (R225, R324). -/
def State.rootReady (s : State) : Bool := s.chain.isRoot && s.chain.local_ && !s.abandoning && s.reported s.chain.children

/-- What a device does once its local fence or a child's report has come, unless it has learned of a failure (R225): it reports
to its parent, and the root closes as soon as a commit may take place (R324). -/
def State.fenceProgress (s : State) : State :=
  let s := if s.chain.local_ && !s.abandoning && s.chain.parent.isSome && s.reported s.ownChildren then
    s.toParent (s.fencePacket 0x20 []) else s
  if s.rootReady && s.commitReady then s.rootClose else s

/-- The device is a member of the chain, be it one that leaves (R330). -/
def State.belongs (s : State) : Bool := s.running && (s.chain.role == .member || s.chain.role == .leaving)

/-- The device takes part in training steps (R327, R330). (DEDUCED, log entry 75) -/
def State.trains (s : State) : Bool := s.belongs && s.begun

/-- The fence counts consumed at the local fence (R223). (DESIGN CHOICE, log entry 85) -/
def State.consumeFences (s : State) : State :=
  (allFin 4).foldl (fun s c =>
    match s.fenceCfg c with
    | some f => (s.modVane (.core c f.fenceVane) (fun v => { v with count := v.count - f.fenceCount })).modCore c
        (fun x => { x with fenceMark := true })
    | none => s) s

/-- LOCAL_FENCE (R223, R324). -/
def execLocalFence (s : State) : Out :=
  if s.trains && !s.chain.local_ && s.fenceReady then
    done ((s.consumeFences.modChain (fun c => { c with local_ := true, localTick := s.now })).fenceProgress)
  else stay s

/-- COMMIT (R224): a close that was held takes place. -/
def execCommit (s : State) : Out :=
  if !s.trains || !s.commitReady then stay s
  else if s.chain.closing then done (s.commit s.chain.grants)
  else if s.rootReady then done s.rootClose
  else stay s

/-- FENCE_BOUND_EXPIRY (R226). (DEDUCED, log entry 110) -/
def execFenceBoundExpiry (s : State) : Out :=
  if s.trains && s.chain.local_ && !s.chain.closing && !s.chain.boundExpired && s.chain.localTick + s.plan.fenceBound ≤ s.now then
    let s := s.modChain (fun c => { c with boundExpired := true, boundSeen := true })
    done ((s.ask 0x35 (s.unit 0xC 0x50 0) []).stepAbandon 5)
  else stay s

/-- A fence message that does not concern step s under the device's epoch is discarded, counted and recorded (R325). -/
def State.fenceDiscard (s : State) (l : Fin 36) : State :=
  let s := s.modChain (fun c =>
    let (n, w) := addWrap c.discarded 1
    { c with discarded := n, discardOvf := c.discardOvf || w })
  s.ask 0x40 (s.unit 6 l 0) (leBytes 1 4 ++ leBytes 1 l)

/-- A fence message concerns step s under the device's epoch (R325). -/
def State.fenceMine (s : State) (p : Packet) : Bool := pktStep p == s.step && pktEpoch p == s.chain.epoch % 2 ^ 32

/-- The fence child that a packet comes from, by whichever link it has come (R318, R335). -/
def State.childLink (s : State) (l : Fin 36) (p : Packet) : Fin 36 :=
  (s.chain.children.find? (fun m => (s.link m).peerDev == p.src)).getD l

/-- A FENCE_REPORT from a child (R324, R325, R340): one that comes before the device's own local fence is held. -/
def State.takeReport (s : State) (l : Fin 36) (p : Packet) : State :=
  let m := s.childLink l p
  if !s.belongs || !s.fenceMine p then s.fenceDiscard l
  else if s.chain.retrying.contains m || !s.chain.children.contains m || s.chain.reports.contains m then s
  else (s.modChain (fun c => { c with reports := c.reports ++ [m] })).fenceProgress

/-- A FENCE_CLOSE (R324): it goes on to every child, and the device commits, or holds the commit (R224).
(DEDUCED, log entry 87) -/
def State.takeClose (s : State) (l : Fin 36) (p : Packet) : State :=
  if !s.trains || !s.fenceMine p || s.chain.closing then s.fenceDiscard l
  else
    let gs := parseGrants (p.payload.length / 8) p.payload
    let s := s.toChildren (s.fencePacket 0x21 p.payload)
    if s.commitReady then s.commit gs else s.modChain (fun c => { c with closing := true, grants := gs })

end Sys2Proof.Machine
end

