-- ==== Sys2Proof/Machine/Links.lean ====
section
/-! DEFINITION. Trade links (spec/12, R303 to R319): wire flits, retry and retraining, sparing and failure, the order of packets
(R315), and what the packets that write, read, signal and answer do (R316). -/

namespace Sys2Proof.Machine

/-! Lost twins and lost routes (R328, R329, R335). -/

/-- The LINK record of an event (R419): sparing 0, failure 1, tag failure 2, pairing 3, fence discard 4, session refusal 5,
and the link. (DESIGN CHOICE, log entry 103) -/
def State.linkRecord (s : State) (l : Fin 36) (event : Nat) : State :=
  s.ask 0x40 (s.unit 6 l 0) (leBytes 1 event ++ leBytes 1 l)

/-- A device granted TAKEOVER (R329). -/
def State.takenOver (s : State) : State := s.modChain (fun c => { c with twin := .takenOver })

/-- A device denied TAKEOVER becomes HALTED (R329). -/
def State.deniedTakeover (s : State) : State := s.linksDown.modDev (fun d => { d with st := .halted })

/-- The root takes a TAKEOVER request of a device (R329, R337): granted to the first of its pair, else denied; either way it
is heard as a REPORT with cause TWIN_LOST. (DEDUCED, log entry 104) -/
def State.rootTakeover (s : State) (dev : Nat) : State :=
  let free (p : Nat × Bool) : Bool :=
    p.2 && !(s.chain.takeovers ++ s.chain.moved).any (fun m => m.1 == dev || m.2 == dev || m.1 == p.1 || m.2 == p.1)
  let ok := match s.pairOf dev with | some p => free p | none => false
  let twin := ((s.pairOf dev).map (·.1)).getD 0
  let s := if ok then s.modChain (fun c => { c with takeovers := c.takeovers ++ [(twin, dev)] }) else s
  let s :=
    if dev = s.self then (if ok then s.takenOver else s)
    else s.send (s.memberAnswer (if ok then 0x24 else 0x25) ⟨3, dev, twin⟩)
  let s := s.rootHear 8 dev s.chain.attempt
  if dev = s.self && !ok then s.deniedTakeover else s

/-- The twin is lost: arbitration starts (R328, R329, R335). (DEDUCED, log entry 105) -/
def State.arbitrate (s : State) (cause : Nat) : State :=
  if !s.running || s.chain.twin != .paired then s
  else
    let s := ((s.modChain (fun c => { c with twin := .lost })).linkRecord 32 3).learn cause
    if s.chain.isRoot then (s.rootTakeover s.self).rootJudge else s.toParent (memberReq 3 s.self)

/-- The route table entry of the twin. -/
def State.twinRoute (s : State) : Option (BitVec 128) := s.plan.twin.bind (fun t => s.routeOf t.dev)

/-- What follows a link's failure (R335): all twin-port links failed starts arbitration; a route other than the twin's with
no usable link makes the device abandon the step and halt as a lost device. (DEDUCED, log entry 105) -/
def State.afterFail (s : State) : State :=
  let dead (r : BitVec 128) : Bool :=
    (s.usable r).isEmpty && !(routeAlt r < 36 && (s.link (Fin.ofNat 36 (routeAlt r))).st != .failed)
  let twin := s.twinRoute
  if !s.running then s
  else if s.plan.routes.any (fun r => some r != twin && dead r) then s.haltLost 0x0A
  else if (twin.map dead).getD false then s.arbitrate 8
  else s

/-- A link becomes FAILED in service (R318, R335). -/
def State.linkFails (s : State) (l : Fin 36) (event : Nat := 1) : State :=
  if (s.link l).st = .failed then s else (s.failLink l event).afterFail.lowered

/-! Lanes (R305). -/

/-- The link-management flit that names a lane to be swapped (R305, R307). (DESIGN CHOICE, log entry 154) -/
def Link.emitSwap (x : Link) (lane : Nat) : Link := x.emit 3 0 x.txNext (leBytes 1 lane ++ zeros (flitBytes - 1))

/-- A failing lane's traffic moves onto the spare; with the spare in use, the link fails (R305). -/
def State.swapLane (s : State) (l : Fin 36) (lane : Nat) : State :=
  if (s.link l).spareUsed then s.linkFails l
  else
    let s := s.modLink l (fun x =>
      { x with
        spareUsed := true, failedLane := lane, sparedSeen := true, laneHits := x.laneHits.filter (fun h => h.2 != lane) })
    s.linkRecord l 0

/-- A lane is found failing at this end: the other end learns of the swap by a link-management flit (R305). -/
def State.spareLane (s : State) (l : Fin 36) (lane : Nat) : State :=
  let s := if (s.link l).spareUsed then s else s.modLink l (·.emitSwap lane)
  s.swapLane l lane

/-- The other end's link-management flit (R305): this end swaps the lane too, where it has not done so. A payload that names no
lane is none. (DESIGN CHOICE, log entry 154) -/
def State.takeSwap (s : State) (l : Fin 36) (payload : List Byte) : State :=
  let lane := (payload.getD 0 0).toNat
  if 8 ≤ lane || ((s.link l).spareUsed && (s.link l).failedLane == lane) then s else s.swapLane l lane

/-- LANE_SPARE (R305): the swap of a lane that one of the two ends has found failing. (DESIGN CHOICE, log entry 98) -/
def execLaneSpare (l : Fin 36) (lane : Fin 8) (s : State) : Out :=
  if (s.link l).st != .up then stay s else done (s.spareLane l lane)

/-- What the receiver's forward error correction counts of a wire flit (R305, R334). (DESIGN CHOICE, log entries 98, 100) -/
def Link.heard (x : Link) (w : WireIn) : Link :=
  let n := x.flitsIn + b2n (!w.bad && w.flit.ftype == 1)
  { x with
    flitsIn := n
    laneHits := x.laneHits.filter (fun h => n < h.1 + 2 ^ 24) ++ w.hits.map (fun k => (n, k))
    bank := ((x.bank.add 2 (b2n !w.hits.isEmpty)).add 3 (b2n w.bad)).add 6 (b2n x.stalled) }

/-- A lane on which more than LANE_LIMIT symbols have been corrected within 2^24 DATA flits (R305). -/
def Link.failing (x : Link) (limit : Nat) : Option (Fin 8) :=
  if limit = 0 then none else (allFin 8).find? (fun k => decide (limit < (x.laneHits.filter (fun h => h.2 == k.val)).length))

/-! Flits (R307 to R310). -/

/-- A link-sequence number is before another (R308). -/
def seqBefore (a b : Nat) : Bool := seqAfter b a

/-- The oldest number not acknowledged. -/
def Link.oldest (x : Link) : Nat := match x.retry with | f :: _ => f.seq | [] => x.txNext

/-- An ACK shows a number that was never in flight (R309). -/
def Link.badAck (x : Link) (ack : Nat) : Bool := seqBefore ack x.oldest || seqAfter ack x.txNext

/-- A held flit whose sendings are counted anew. -/
def HeldFlit.fresh (f : HeldFlit) : HeldFlit := { f with sent := 1 }

/-- The flits that an ACK names leave the retry buffer; progress starts the count of sendings anew (R310). -/
def Link.acked (x : Link) (ack : Nat) : Link :=
  let kept := x.retry.filter (fun (f : HeldFlit) => !seqBefore f.seq ack)
  { x with retry := if kept.length = x.retry.length then kept else kept.map HeldFlit.fresh }

/-- The held flits put on the wire, in order. -/
def Link.emitHeld (x : Link) : Link := x.retry.foldl (fun (x : Link) f => x.emit 1 f.vl f.seq f.payload) x

/-- Every held flit sent again (R310). -/
def Link.resend (x : Link) : Link :=
  let n := x.retry.length
  let y := x.emitHeld
  { y with
    retry := x.retry.map (fun f => { f with sent := f.sent + 1 })
    retrySeen := x.retrySeen || n != 0
    bank := (x.bank.add 0 n).add 4 n }

/-- A retrain begins (R310): a fourth within 2^32 device ticks makes the link FAILED. -/
def State.retrain (s : State) (l : Fin 36) : State :=
  let recent := (s.link l).retrains.filter (fun t => s.now < t + 2 ^ 32)
  let s := s.modLink l (fun x =>
    { x with st := .retraining, retrains := recent ++ [s.now], retrainSeen := true, bank := x.bank.add 7 1 })
  if 3 ≤ recent.length then s.linkFails l else s

/-- Held flits are sent again, and a flit sent 8 times without progress makes the link retrain (R310). -/
def State.resendHeld (s : State) (l : Fin 36) : State :=
  let s := s.modLink l Link.resend
  if (s.link l).retry.any (fun f => 8 ≤ f.sent) then s.retrain l else s

/-- A NAK sent for a gap, with ACK = E: one for each gap (R309). -/
def Link.nakOnce (x : Link) : Link :=
  if x.gap then x else { x with gap := true, bank := x.bank.add 5 1 }.emitBare 2

/-- What the bytes received on a lane hold: a whole packet's header, ciphertext and tag, and the bytes after it.
(DESIGN CHOICE, log entry 99) -/
def takePacket (bs : List Byte) : Option (List Byte × List Byte × List Byte × List Byte) :=
  let n := ofLe (slice bs 2 2)
  if bs.length < 32 || bs.length < 48 + n then none
  else some (bs.take 32, slice bs 32 n, slice bs (32 + n) 16, bs.drop (48 + n))

/-- A packet begins to arrive on a lane: the next number of the direction is its own, with the keys in force (R373).
(DEDUCED, log entry 116) -/
def State.beginArrival (s : State) (l : Fin 36) (vl : Fin 8) : State :=
  let x := s.link l
  if !x.session || (x.rxUnder.get vl).isSome || isPair (((x.rx.get vl).getD 0 0).toNat) then s
  else
    let (key, iv) := dirKey x.okmRx (!x.initiator)
    let (prk, okm, n, turned) := rekey x.prkRx x.okmRx x.rxCount
    let s := s.modLink l (fun x =>
      { x with rxUnder := upd x.rxUnder vl (fun _ => some (key, iv, x.rxCount)), prkRx := prk, okmRx := okm, rxCount := n })
    if turned then s.modSec (fun y => { y with bank := y.bank.add 6 1 }) else s

/-- One packet unprotected under its number (R313, R373); none where its tag fails. -/
def Link.unwire (x : Link) (vl : Fin 8) (h ct tag : List Byte) : Option Packet :=
  match x.rxUnder.get vl with
  | some (key, iv, n) => (Config.gcmOpen key (iv ++ leBytes 8 n) h ct tag).map (packetOf h)
  | none => some (packetOf h ct)

/-- A whole packet from a lane (R313, R314): one with a reserved TYPE or a wrong VL is discarded and counted, and one that comes
before the link's session is ready is discarded (spec/14, link sessions). -/
def State.tookWhole (s : State) (l : Fin 36) (vl : Fin 8) (p : Packet) (rest : List Byte) : State :=
  let keyed := (s.link l).session || isPair p.type
  s.modLink l (fun x =>
    let x := { x with rx := upd x.rx vl (fun _ => rest), rxUnder := upd x.rxUnder vl (fun _ => none) }
    if !keyed then x
    else if !pktOk p || p.vl != vl then { x with bank := x.bank.add 9 1 }
    else { x with arrived := x.arrived ++ [p] })

/-- The packets that the bytes of a lane hold (R307, R313, R314); bytes that are all zero fill a flit. `fuel` bounds them.
(DESIGN CHOICE, log entry 99) -/
def State.assemble (s : State) (l : Fin 36) (vl : Fin 8) : Nat → State
  | 0 => s
  | fuel + 1 =>
    if ((s.link l).rx.get vl).all (· == 0) then s.modLink l (fun x => { x with rx := upd x.rx vl (fun _ => []) })
    else
      let s := s.beginArrival l vl
      match takePacket ((s.link l).rx.get vl) with
      | none => s
      | some (h, ct, tag, rest) =>
        match (s.link l).unwire vl h ct tag with
        | none =>
          (s.modLink l (fun x => { x with authFailSeen := true, bank := x.bank.add 8 1 })).linkFails l 2
        | some p => (s.tookWhole l vl p rest).assemble l vl fuel

/-- Flits of a lane's receive buffer that its bytes fill (R312). -/
def Link.held (x : Link) (vl : Fin 8) : Nat := ceilDiv (x.rx.get vl).length flitBytes

/-- A flit that was accepted before a retrain comes again (R310): the packets that it completed, and what may come again after it. -/
def Link.repeated (x : Link) (vl : Nat) (payload : List Byte) : Option (List Packet × List (Nat × List Byte × List Packet)) :=
  match x.again.dropWhile (fun t => !(t.1 == vl && t.2.1 == payload)) with
  | t :: rest => some (t.2.2, rest)
  | [] => none

/-- Such a flit takes its number, and brings none of its bytes again; each packet that it completed is there a second time, which
R315 removes. -/
def Link.takeAgain (x : Link) (ps : List Packet) (rest : List (Nat × List Byte × List Packet)) : Link :=
  { x with
    rxNext := (x.rxNext + 1) % 2 ^ 24, gap := false, bank := x.bank.add 1 1, again := rest
    arrived := x.arrived ++ ps.filter (fun (p : Packet) => !isPair p.type) }.emitBare 0

/-- A DATA flit at its receiver (R309, R312): taken in its turn where the lane's buffer has room, with its credit returned as
its bytes leave; a duplicate is acknowledged again; a gap is answered by one NAK; a flit that a retrain brings again is not taken
twice (R310). (DESIGN CHOICE, log entries 98, 100, 154) -/
def State.takeData (s : State) (l : Fin 36) (f : Flit) : State :=
  let x := s.link l
  let vl : Fin 8 := Fin.ofNat 8 f.vl
  let payload := (f.payload ++ zeros flitBytes).take flitBytes
  let twice := if f.seq = x.rxNext then x.repeated vl payload else none
  if seqBefore f.seq x.rxNext then s.modLink l (·.emitBare 0)
  else if let some (ps, rest) := twice then s.modLink l (·.takeAgain ps rest)
  else if f.seq != x.rxNext || x.allot.get vl ≤ x.held vl then s.modLink l Link.nakOnce
  else
    let n := x.held vl + 1
    let s := s.modLink l (fun x =>
      { x with
        rxNext := (x.rxNext + 1) % 2 ^ 24, gap := false, bank := x.bank.add 1 1, again := []
        rx := upd x.rx vl (· ++ payload) })
    let s := s.assemble l vl 8
    let s := s.modLink l (fun y =>
      let t := y.taken ++ [(vl.val, payload, y.arrived.drop x.arrived.length)]
      { y with taken := t.drop (t.length - 1024) })
    if (s.link l).st != .up then s
    else s.modLink l (fun x => { x with owed := upd x.owed vl (· + (n - x.held vl)) }.emitBare 0)

/-- A good flit (R307, R309, R310, R312): its ACK and its credits, then what it brings; then what can leave, leaves. -/
def State.takeFlit (s : State) (l : Fin 36) (f : Flit) : State :=
  if (s.link l).badAck f.ack then s.retrain l
  else
    let vl : Fin 8 := Fin.ofNat 8 f.creditVl
    let s := s.modLink l (fun x => { x with credits := upd x.credits vl (· + f.creditCount) }.acked f.ack)
    let s := match f.ftype with
      | 1 => s.takeData l f
      | 2 => s.resendHeld l
      | 3 => s.takeSwap l f.payload
      | _ => s
    (s.pumpOn l).lowered

/-- FLIT_RECEIVE (R305 to R310, R312): the wire flit is decoded; a lane that has become failing is spared; a bad flit is taken
as a gap. (DESIGN CHOICE, log entry 98) -/
def execFlitReceive (l : Fin 36) (wire : List Byte) (s : State) : Out :=
  if (s.link l).st != .up then stay s
  else
    let w := decodeWire wire
    let s := s.modLink l (·.heard w)
    let s := match (s.link l).failing s.plan.laneLimit with | some lane => s.spareLane l lane | none => s
    if (s.link l).st != .up then done s
    else if w.bad then done (s.modLink l Link.nakOnce)
    else done (s.takeFlit l w.flit)

/-- NAK (R310). -/
def execNak (l : Fin 36) (ack : BitVec 24) (s : State) : Out :=
  if (s.link l).st != .up then stay s
  else if (s.link l).badAck ack.toNat then done (s.retrain l)
  else done ((((s.modLink l (·.acked ack.toNat)).resendHeld l).pumpOn l).lowered)

/-- ACK_TIMEOUT (R310): 512 flit times without progress while flits are held. -/
def execAckTimeout (l : Fin 36) (s : State) : Out :=
  if (s.link l).st != .up || (s.link l).retry.isEmpty then stay s else done (s.resendHeld l)

/-- Held flits numbered anew from 0. -/
def renumber (fs : List HeldFlit) : List HeldFlit :=
  (List.range fs.length).filterMap (fun i => (fs[i]?).map (fun f => { f with seq := i, sent := 1 }))

/-- A link after its retrain (R310): numbers start at 0, and the held flits are sent again with new ones; so does the peer, and
what it sends again is known by its bytes. (DESIGN CHOICE, log entry 154) -/
def Link.retrained (x : Link) : Link :=
  let n := x.retry.length
  { x with
    st := .up, retry := renumber x.retry, txNext := n, rxNext := 0, gap := false, again := x.taken
    retrySeen := x.retrySeen || n != 0, bank := (x.bank.add 0 n).add 4 n }.emitHeld

/-- RETRAIN_COMPLETE (R310). -/
def execRetrainComplete (l : Fin 36) (s : State) : Out :=
  if (s.link l).st != .retraining then stay s else done (((s.modLink l Link.retrained).pumpOn l).lowered)

/-- LINK_RETRAIN_FAILURE (R304, R310). -/
def execLinkRetrainFailure (l : Fin 36) (s : State) : Out :=
  if (s.link l).st = .retraining || (s.link l).st = .training then done (s.linkFails l) else stay s

/-! The order of packets (R315). -/

/-- The lane under which a packet is numbered: a WRITE past a dateline keeps the numbers of VL3. -/
def orderLane (vl : Nat) : Nat := if vl = 7 then 3 else vl

/-- The next PSEQ expected from a device on a lane (R315). -/
def State.expected (s : State) (src vl : Nat) : Nat :=
  match s.chain.rxSeq.find? (fun e => e.1 == (src, orderLane vl)) with
  | some e => e.2
  | none => 0

/-- A packet delivered: the next one is expected. -/
def State.tookPacket (s : State) (p : Packet) : State :=
  s.modChain (fun c =>
    { c with
      rxSeq := ((p.src, orderLane p.vl), (p.pseq + 1) % 2 ^ 24) ::
        c.rxSeq.filter (fun e => e.1 != (p.src, orderLane p.vl))
      heldPkts := c.heldPkts.filter (fun h => h.pkt != p) })

/-- A packet held until those before it have come (R315); a second copy of it is dropped and counted. It is not acknowledged, since
no byte of the first copy is visible yet (R316). (DEDUCED, log entry 116) -/
def State.holdPacket (s : State) (h : HeldPkt) : State :=
  if s.chain.heldPkts.any (fun x => x.pkt == h.pkt) then s.modLink h.link (fun x => { x with bank := x.bank.add 10 1 })
  else s.modChain (fun c => { c with heldPkts := c.heldPkts ++ [h] })

/-- A packet leaves the list of those that a link has assembled. -/
def State.collected (s : State) (l : Fin 36) (p : Packet) : State :=
  s.modLink l (fun x => { x with arrived := x.arrived.erase p })

/-- A link has a packet to hand on: it is UP, or assembled the packet before it failed (R296). -/
def State.hands (s : State) (l : Fin 36) (p : Packet) : Bool := (s.link l).st == .up || (s.link l).arrived.contains p

/-- A packet that a link hands on was authenticated under its session (R313, R314). -/
def State.authentic (s : State) (l : Fin 36) (p : Packet) : Bool := (s.link l).session || (s.link l).arrived.contains p

/-- A packet discarded with its count (R313, R372). -/
def State.discarded (s : State) (l : Fin 36) : State := s.modLink l (fun x => { x with bank := x.bank.add 9 1 })

/-- A store endpoint may send only SLIP, READ_DATA and ERROR (R372). -/
def storeMay (type : Nat) : Bool := type == 0x10 || type == 0x04 || type == 0x06

/-- The answer to a packet (R313, R316): the PSEQ of the packet answered in AUX [31:8] and its lane in ADDR [2:0].
(DESIGN CHOICE, log entry 101) -/
def answerPkt (type kind : Nat) (p : Packet) (payload : List Byte) : Packet :=
  { mkPkt type p.src p.vl (kind + 256 * p.pseq) payload with req := p.req }

/-- PACKET_FORWARD (R313, R318, R319): a packet for another device goes on by the route table.
(DEDUCED, log entry 116) -/
def execPacketForward (l : Fin 36) (pkt : Packet) (s : State) : Out :=
  if !s.hands l pkt || s.isLocal pkt.dst then stay s
  else
    let keyed := s.authentic l pkt
    let s := s.collected l pkt
    if !keyed then done s
    else if !pktOk pkt || ((s.link l).peerStore && !storeMay pkt.type) then done (s.discarded l)
    else
      let d := s.addressed pkt.dst
      match s.linkFor d pkt.pseq with
      | none => done s
      | some (m, dateline) =>
        let q := { pkt with dst := d, vl := if dateline && pkt.type = 1 then 7 else pkt.vl }
        done ((s.pushOn m q).modLink l (fun x => { x with bank := x.bank.add 11 1 }))

/-! Remote accesses (R316, R368). -/

/-- An access lies within one window that grants it (R368): bit 0 F0_READ, 1 F1_READ, 2 PEER_READ, 3 PEER_WRITE.
(DESIGN CHOICE, log entry 101) -/
def State.windowed (s : State) (right a n : Nat) : Bool :=
  s.plan.windows.any (fun w => (le w 12 1).testBit right && le w 0 6 ≤ a && a + n ≤ le w 0 6 + le w 6 6)

/-- An access denied under R23: counted, with DENIED_SEEN and a record that names the path and the address. -/
def State.deny (s : State) (p : Path) (block addr : Nat) : State :=
  let s := s.modSec (fun x => { x with deniedSeen := true, bank := x.bank.add 2 1 })
  s.ask 0x02 (s.unit 0xC block 0) (leBytes 1 (pathKind p) ++ leBytes 6 addr)

/-- A register access denied under R23: the record is made by the block of the offset and names the path and the offset. -/
def State.denyReg (s : State) (p : Path) (off : Nat) : State :=
  let s := s.modSec (fun x => { x with deniedSeen := true, bank := x.bank.add 2 1 })
  s.ask 0x02 (s.unit 0xC (off / 65536) 0) (leBytes 1 (pathKind p) ++ leBytes 3 off)

/-- The bytes of a payload by 64-byte lines, each with its bit of POISON_MASK. -/
def payloadLines (p : Packet) : List (Nat × List Byte × Bool) :=
  (List.range (ceilDiv p.payload.length 64)).map (fun i => (p.addr + 64 * i, slice p.payload (64 * i) 64, p.mask.testBit i))

/-- The lines of a byte range. -/
def lineAddrs (a n : Nat) : List Nat := (linesOf [(a, n)]).map (64 * ·)

/-- A remote write at its target (R316). -/
def State.remoteWrite (s : State) (l : Fin 36) (p : Packet) : State :=
  let n := p.payload.length
  if !(lineAddrs p.addr n).all s.writable then
    let s := (s.poisonRanges [(p.addr, n)]).violate ⟨0x05, srcWord p.src 6 l 0, p.addr, s.self⟩
    s.send (answerPkt 0x06 0x05 p [])
  else if !s.windowed 3 p.addr n then (s.deny (.peer l) 0x50 p.addr).send (answerPkt 0x06 0 p [])
  else
    let s := (payloadLines p).foldl (fun s x => s.writeBytes x.1 x.2.1 x.2.2) s
    if p.aux % 2 = 1 then s.send (answerPkt 0x02 0 p []) else s

/-- The POISON_MASK of a range that is read. -/
def State.maskOf (s : State) (a n : Nat) : Nat :=
  (List.range (ceilDiv n 64)).foldl (fun acc i => acc + put i (b2n (s.peekPoison (a + 64 * i) (min 64 (n - 64 * i))))) 0

/-- A remote read at its target (R316): at most the payload of one packet. (DESIGN CHOICE, log entry 101) -/
def State.remoteRead (s : State) (l : Fin 36) (p : Packet) : State :=
  let n := min p.aux 4096
  if !(lineAddrs p.addr n).all (fun a => (s.place a).isMemory) then
    (s.violate ⟨0x05, srcWord p.src 6 l 0, p.addr, s.self⟩).send (answerPkt 0x06 0x05 p [])
  else if !s.windowed 2 p.addr n then (s.deny (.peer l) 0x50 p.addr).send (answerPkt 0x06 0 p [])
  else
    let m := s.maskOf p.addr n
    let q := { answerPkt 0x04 0 p (s.peek p.addr n) with mask := m, poisoned := m != 0 }
    (s.touch [(p.addr, n)]).send q

/-- A WRITE_ACK (R316): the write waits no longer. -/
def State.takeWriteAck (s : State) (p : Packet) : State :=
  match s.findAck p.src 3 (p.aux / 256) with
  | some (e, i, x, a) => s.answered e i x a [] false
  | none => s

/-- READ_DATA (R316): the lines it brings, at their source addresses. -/
def State.takeReadData (s : State) (p : Packet) : State :=
  match s.findAck p.src 4 (p.aux / 256) with
  | some (e, i, x, a) =>
    let blocks := (payloadLines { p with addr := a.addr }).map (fun b => (⟨b.1, b.2.1.length, b.2.1, b.2.2⟩ : WBlk))
    s.answered e i x a blocks false
  | none => s

/-- A SIGNAL at its target (R286, R292, R300, R316): one that would pass 0xFFFF is a violation, answered with ERROR.
(DESIGN CHOICE, log entry 102) -/
def State.takeSignal (s : State) (l : Fin 36) (p : Packet) : State :=
  let k : Fin 64 := Fin.ofNat 64 p.addr
  let n := p.aux % 65536
  let bad := !s.frozen && decide (0xFFFF < (s.chainVanes.get k).count + n)
  let s := s.signalNow [⟨.chain k, s.self, n, 6, l, 0, none, some p.src, false⟩]
  if bad then s.send (answerPkt 0x06 0x04 p []) else s

/-- ERROR (R316): by the lane of the packet that it answers. -/
def State.takeError (s : State) (p : Packet) : State :=
  let kind := p.aux % 256
  let seq := p.aux / 256
  let lane := orderLane (p.addr % 8)
  if lane = 3 then
    match s.findAck p.src 3 seq with
    | some (e, i, x, a) => s.answered e i x a [] (kind = 0)
    | none => s
  else if lane = 4 then
    match s.findAck p.src 4 seq with
    | some (e, i, x, a) => s.answered e i x a [⟨a.addr, a.len, [], true⟩] false
    | none => s
  else
    s.modChain (fun c => { c with sentSigs := c.sentSigs.filter (fun g => !(g.1 == p.src && g.2.1 == lane && g.2.2.1 == seq)) })

end Sys2Proof.Machine
end

