-- ==== Sys2Proof/Machine/Chain.lean ====
section
/-! DEFINITION. What the messages of the chain do (spec/12, spec/13): the fence route, reports and the root's orders (R337 to R341),
membership (R329 to R331) and the heartbeat (R328). -/

namespace Sys2Proof.Machine

/-! STEP_ABANDON (R337). -/

/-- The fields of a STEP_ABANDON payload. -/
structure Abandon where
  action : Nat
  cause : Nat
  origin : Nat
  attempt : Nat
  pairs : List (Nat × Nat)
deriving DecidableEq, Repr

/-- A STEP_ABANDON read from its payload. -/
def abandonOf (bs : List Byte) : Abandon :=
  let n (off k : Nat) : Nat := ofLe (slice bs off k)
  { action := n 0 1, cause := n 1 1, origin := n 2 2, attempt := n 4 2
    pairs := (List.range (min (n 6 2) (bs.length / 4))).map (fun i => (n (8 + 4 * i) 2, n (10 + 4 * i) 2)) }

/-- A REPORT on its way up (R325, R338, R339): the root hears it; one for a step that is closed concerns the present one. -/
def State.takeUp (s : State) (p : Packet) (a : Abandon) : State :=
  if !s.running then s
  else if s.chain.isRoot then
    s.rootHear a.cause a.origin (if pktStep p = s.step then a.attempt else s.chain.attempt)
  else s.toParent { p with src := 0 }

/-- RETRY (R340): passed on, then acted on; one for another step or an attempt already begun has no effect.
(DEDUCED, log entry 107) -/
def State.takeRetry (s : State) (p : Packet) (a : Abandon) : State :=
  if s.running && pktStep p == s.step && decide (s.chain.attempt < a.attempt) then
    (s.retryDown (s.abandonPacket 1 a.cause a.origin a.attempt a.pairs) a.pairs).obeyRetry a.cause a.origin a.attempt a.pairs
  else s

/-- HALT (R340, R341): passed on, then acted on. -/
def State.takeHalt (s : State) (a : Abandon) : State :=
  if s.running then (s.haltDown (s.abandonPacket 2 a.cause a.origin a.attempt [])).obeyHalt a.cause a.origin else s

/-- RETRY_DONE (R340): the child's fence reports count again. -/
def State.takeRetryDone (s : State) (l : Fin 36) (p : Packet) (a : Abandon) : State :=
  if pktStep p == s.step && a.attempt == s.chain.attempt then
    s.modChain (fun c => { c with retrying := c.retrying.filter (· != s.childLink l p) })
  else s

/-- A STEP_ABANDON by its action (R337); the reserved ones have no effect. -/
def State.takeAbandon (s : State) (l : Fin 36) (p : Packet) : State :=
  let a := abandonOf p.payload
  match a.action with
  | 0 => s.takeUp p a
  | 1 => s.takeRetry p a
  | 2 => s.takeHalt a
  | 3 => s.takeRetryDone l p a
  | _ => s

/-- REPORT_RESEND (R338): SETTLE device ticks after the last one, while no order has come. -/
def execReportResend (s : State) : Out :=
  let due (r : Nat × Nat) : Bool := decide (r.2 + s.plan.settle ≤ s.now)
  let again := s.chain.myReports.filter due
  if s.running && !again.isEmpty then
    let t := s.modChain (fun c => { c with myReports := c.myReports.map (fun r => if due r then (r.1, s.now) else r) })
    done ((again.foldl (fun s r => s.report r.1) t).rootJudge)
  else stay s

/-- SETTLE_WINDOW_CLOSE (R339): RETRY is ordered with every takeover granted meanwhile. -/
def execSettleWindowClose (s : State) : Out :=
  match s.chain.settleSince with
  | some t =>
    if s.running && s.chain.isRoot && t + s.plan.settle ≤ s.now then done (s.orderRetry s.chain.lastCause s.chain.lastOrigin)
    else stay s
  | none => stay s

/-! Membership. -/

/-- A MEMBER_REQ (R329, R331): the root holds an ATTACH or a DETACH for its next close and judges a TAKEOVER; any other device
passes it up. (DEDUCED, log entry 104) -/
def State.takeMember (s : State) (p : Packet) : State :=
  let kind := p.aux % 4
  if !s.running then s
  else if !s.chain.isRoot then s.toParent (memberReq kind p.addr)
  else
    match kind with
    | 1 | 2 => s.holdRequest kind p.addr
    | 3 => s.rootTakeover p.addr
    | _ => s

/-- A joiner's grant (R330 to R332): it is a MEMBER from the step after the one that closed, at the new epoch, and waits till
then for the values of that step. (DESIGN CHOICE, log entry 118) -/
def State.joins (s : State) (payload : List Byte) : State :=
  if s.chain.role != .joining then s
  else if !(s.chain.shardCurrent && s.slip.rootStep == some (ofLe (payload.take 6))) then
    s.modChain (fun c => { c with grantHeld := some payload })
  else
    let s := s.modChain (fun c => { c with role := .member, twin := .paired, attempt := 0, grantHeld := none })
    let s := (s.setEpoch (ofLe (slice payload 6 6))).setStep (seqNext (ofLe (payload.take 6)))
    let s := s.answerChain .done
    if s.begun then s.signalNow s.stepSignals else s

/-- A MEMBER_GRANT (R329, R331): a leaver's grant takes effect in its commit. -/
def State.takeGrant (s : State) (p : Packet) : State :=
  match p.aux % 4 with
  | 1 => s.joins p.payload
  | 3 => if s.chain.twin = .lost then s.takenOver else s
  | _ => s

/-- A MEMBER_DENY (R329, R330). -/
def State.takeDeny (s : State) (p : Packet) : State :=
  if p.aux % 4 = 3 then (if s.chain.twin = .lost then s.deniedTakeover else s) else s.requestDenied (p.aux % 4)

/-! The heartbeat (R328). -/

/-- The payload of a HEARTBEAT: its number, DEV_STATE, s and the epoch. -/
def State.heartbeatPayload (s : State) : List Byte :=
  leBytes 6 s.chain.hbSeq ++ leBytes 4 (devStateWord s.dev) ++ leBytes 6 s.step ++ leBytes 6 s.chain.epoch

/-- HEARTBEAT_SEND (R328): every HB_PERIOD device ticks, on every UP twin-port link; the number at its limit
escalates (R34). -/
def execHeartbeatSend (s : State) : Out :=
  if s.running && s.chain.twin == .paired && s.chain.hbPeriod != 0 && s.chain.hbSent + s.chain.hbPeriod ≤ s.now then
    let p := mkPkt 0x30 0 0 0 s.heartbeatPayload
    let s := s.twinLinksUp.foldl (fun s l => s.sendOn l p) s
    let n := seqNext s.chain.hbSeq
    let s := s.modChain (fun c => { c with hbSeq := n, hbSent := s.now })
    done (if n = seqMax then s.escalate else s)
  else stay s

/-- A HEARTBEAT (R328): the silence is measured anew. -/
def State.takeHeartbeat (s : State) (l : Fin 36) : State :=
  if l.val < 32 then s else s.modChain (fun c => { c with hbLast := s.now })

/-- TWIN_SILENT (R328): HB_LIMIT periods have passed without a heartbeat. A device that stands OUTSIDE hears no heartbeat of
a survivor in TAKEN_OVER, and measures no silence. (DEDUCED, log entry 105) -/
def execTwinSilent (s : State) : Out :=
  if s.running && s.chain.twin == .paired && s.chain.role != .outside && s.chain.role != .joining && s.chain.hbPeriod != 0 &&
      s.chain.hbLast + s.chain.hbLimit * s.chain.hbPeriod ≤ s.now then
    done (s.arbitrate 8)
  else stay s

end Sys2Proof.Machine
end

