-- ==== Sys2Proof/Machine/Slip.lean ====
section
/-! DEFINITION. The slipstream's frames (spec/09, R244 to R252): sending chunks and roots, their answers, and the shadow that
receives the twin's. -/

namespace Sys2Proof.Machine

/-! Sending. -/

/-- Two chunks are one: the same place of the same step and attempt. -/
def Chunk.same (a b : Chunk) : Bool :=
  a.step == b.step && a.attempt == b.attempt && a.stack == b.stack && a.group == b.group && a.kind == b.kind && a.index == b.index

/-- A chunk of the buffer changed. -/
def State.modChunk (s : State) (c : Chunk) (f : Chunk → Chunk) : State :=
  s.modSlip (fun x => { x with chunks := x.chunks.map (fun d => if d.same c then f d else d) })

/-- A chunk's frames sent to one destination (R246, R254). -/
def State.sendChunk (s : State) (c : Chunk) (d : Fin 2) : State :=
  if s.destNamed d && !c.sent.get d then
    let s := (chunkFrames s.self c).foldl (fun s f => s.sendFrame d f) s
    (s.modSlip (fun x => { x with bank := x.bank.add 0 1 })).modChunk c (fun y => { y with sent := y.sent.set d true })
  else s

/-- The chunk of the buffer at a place that some named destination has not been sent, the oldest first. -/
def State.unsent (s : State) (n group kind chunk : Nat) : Option Chunk :=
  s.slip.chunks.find? (fun c => c.stack == n && c.group == group && c.kind == kind && c.index == chunk &&
    (allFin 2).any (fun d => s.destNamed d && !c.sent.get d))

/-- A running group hands on what waits, and its next block is updated when its chunk is the one to send, while the buffer has
room (R244). (DESIGN CHOICE, log entry 78) -/
def State.reachChunk (s : State) (n : Fin 12) (gi : Fin 256) (chunk : Nat) : State :=
  match Tbl.get? (s.fhn n).running gi, Tbl.get? (s.groupTable n) gi with
  | some (b, _), some g =>
    let t := s.handWaiting n gi g ((s.fhn n).waitsToHand gi).length
    if b = chunk && b < groupChunks g && ((t.fhn n).waitsToHand gi).isEmpty && t.slipRoom then t.updateBlock n gi g b else t
  | _, _ => s

/-- CHUNK_SEND (R244, R246). -/
def execChunkSend (n : Fin 12) (group : Fin 256) (kind : Fin 3) (chunk : Nat) (s : State) : Out :=
  if !s.running then stay s
  else
    let t := if (s.unsent n group kind chunk).isSome then s else s.reachChunk n group chunk
    match t.unsent n group kind chunk with
    | some c => done (((t.sendChunk c 0).sendChunk c 1).reportPoison s)
    | none => done (t.reportPoison s)

/-- Every Foehn unit has completed step s, and its chunks have been sent (R249). -/
def State.stepComplete (s : State) : Bool :=
  s.trains && (allFin 12).all s.foehnDone && !s.slip.stepEndSent &&
    s.slip.chunks.all (fun c => c.step != s.step || (allFin 2).all (fun d => !s.destNamed d || c.sent.get d))

/-- STEP_END_SEND (R248, R249). (DEDUCED, log entry 82) -/
def execStepEndSend (s : State) : Out :=
  if s.stepComplete then
    let root := rootOf s.self s.step (s.fullStep s.step) s.slip.leaves
    let f := s.frame 3 root
    let s := (s.sendFrame 0 f).sendFrame 1 f
    done (s.modSlip (fun x => { x with stepEndSent := true, root := root })).closeRoot
  else stay s

/-! Answers. -/

/-- The destination that an answer comes from: the twin's shadow or the store. (DEDUCED, log entry 82) -/
def State.answerFrom (s : State) (p : Packet) : Option (Fin 2) :=
  if s.paired && p.src == s.destDev 0 then some 0
  else if s.plan.storeDev == some p.src then some 1
  else none

/-- The chunk that an answer names. -/
def State.chunkOf (s : State) (f : Frame) : Option Chunk :=
  s.slip.chunks.find? (fun c => c.step == f.step && c.attempt == f.attempt && c.stack == f.stack && c.group == f.group &&
    c.kind == f.kind && c.index == f.chunk)

/-- A chunk acknowledged by a destination; it leaves the buffer once every named destination has acknowledged it (R244). -/
def State.ackChunk (s : State) (c : Chunk) (d : Fin 2) : State :=
  let s := s.modChunk c (fun y => { y with acked := y.acked.set d true })
  s.modSlip (fun x =>
    { x with chunks := x.chunks.filter (fun y => !(y.same c && (allFin 2).all (fun e => !s.destNamed e || y.acked.get e))) })

/-- A CHUNK_ACK (R244, R247, R251). -/
def State.takeChunkAck (s : State) (p : Packet) (f : Frame) : State :=
  match s.answerFrom p, s.chunkOf f with
  | some d, some c => s.ackChunk c d
  | _, _ => s

/-- A chunk that has been resent 3 times to a destination fails its stream (R247, R335): the shadow's starts arbitration,
the store's halts the chain. -/
def State.slipFails (s : State) (d : Fin 2) : State :=
  let s := s.modSlip (fun x => { x with failed := true, stopped := x.stopped.set d true })
  if d = 0 then s.arbitrate 9 else s.stepAbandon 0x0B

/-- A chunk sent again to a destination (R247). -/
def State.resendChunk (s : State) (c : Chunk) (d : Fin 2) : State :=
  let s := (chunkFrames s.self c).foldl (fun s f => s.sendFrame d f) s
  (s.modSlip (fun x => { x with bank := x.bank.add 4 1 })).modChunk c (fun y =>
    { y with resends := y.resends.set d (y.resends.get d + 1) })

/-- A CHUNK_NAK (R247): the chunk is sent again, and after 3 resends its stream fails. One that carries an aborted attempt is
ignored, whenever it arrives (R251). (DEDUCED, log entry 82) -/
def State.takeChunkNak (s : State) (p : Packet) (f : Frame) : State :=
  match s.answerFrom p with
  | none => s
  | some d =>
    if s.slip.aborted.contains (f.step, f.attempt) then s
    else
      let s := s.modSlip (fun x => { x with nakSeen := true, bank := x.bank.add 3 1 })
      match s.chunkOf f with
      | some c => if 3 ≤ c.resends.get d then s.slipFails d else s.resendChunk c d
      | none => s

/-- The attempt of a step that the store is answering for is the one its frames carry (R249, R251).
(DEDUCED, log entry 82) -/
def State.storeAttempt (s : State) (step attempt : Nat) : Bool :=
  if step = s.step then attempt == s.chain.attempt else s.slip.seq.any (fun e => e.1 == (1, step, attempt))

/-- A STEP_ACK taken (R249): the shadow's for step s, the store's when it stands above the highest. -/
def State.takeStepAck (s : State) (p : Packet) (f : Frame) : State :=
  match s.answerFrom p with
  | some 0 =>
    if f.step = s.step && f.attempt = s.chain.attempt && s.slip.stepEndSent then
      (s.modSlip (fun x => { x with shadowAcked := true, shadowAck := some f.step })).closeRoot
    else s
  | some _ =>
    if s.storeAttempt f.step f.attempt && (match s.slip.storeAck with | some n => decide (n < f.step) | none => true) then
      (s.modSlip (fun x =>
        { x with
          storeAck := some f.step
          seq := x.seq.filter (fun e => !(e.1.1 == 1 && e.1.2.1 < f.step)) })).closeRoot.askLeave
    else s
  | none => s

/-! The shadow (R247, R249, R251, R252). -/

/-- An answer of the shadow to a frame, numbered in its own direction. -/
def State.shadowAnswer (s : State) (type : Nat) (f : Frame) : State :=
  let n := s.slip.rx.txSeq
  let g := { f with type := type, offset := 0, seq := n, payload := [] }
  ((s.atSeqLimit (seqNext n)).modSlip (fun x => { x with rx := { x.rx with txSeq := seqNext n } })).sendTwin (slipPacket 0 g)

/-- A frame comes from the twin whose shadow the device holds. -/
def State.shadows (s : State) (f : Frame) : Bool := s.paired && f.srcDev == s.destDev 0

/-- A frame of the twin at its turn (R246, R247, R251): a frame of a lower attempt, or of a step that is not the present one,
is discarded; one out of order is answered as a CHUNK_NAK of its chunk. (DEDUCED, log entry 82) -/
def State.takeFrame (s : State) (f : Frame) (act : State → State) : State :=
  if !s.shadows f then s
  else
    let rx := s.slip.rx
    let sameStep := rx.step == f.step
    if f.step != s.step then s.shadowAnswer 6 f
    else if sameStep && f.attempt < rx.attempt then s
    else
      let s := if sameStep && rx.attempt == f.attempt then s
        else s.modSlip (fun x => { x with rx := { ShadowRx.none with step := f.step, attempt := f.attempt } })
      if f.seq != s.slip.rx.seq then s.shadowAnswer 6 f
      else act (s.modSlip (fun x => { x with rx := { x.rx with seq := x.rx.seq + 1 } }))

/-- The place of a frame's chunk. -/
def Frame.place (f : Frame) : Nat × Nat × Nat × Nat := (f.stack, f.group, f.kind, f.chunk)

/-- The bytes received of a chunk. -/
def ShadowRx.part (r : ShadowRx) (k : Nat × Nat × Nat × Nat) : List (Nat × Byte) :=
  ((r.parts.find? (fun e => e.1 == k)).map (·.2)).getD []

/-- The bytes of a chunk from its cells, in the order of their offsets and the newest at each; none where one is missing
(R245). -/
def chunkBytes (cells : List (Nat × Byte)) : Option (List Byte) :=
  let n := cells.foldl (fun m c => max m (c.1 + 1)) 0
  (List.range n).mapM (fun i => (cells.reverse.find? (fun c => c.1 == i)).map (·.2))

/-- A DATA frame (R246, R252): its bytes enter the chunk being received. -/
def State.takeFrameData (s : State) (f : Frame) : State :=
  s.modSlip (fun x =>
    let cells := (List.range f.payload.length).map (fun i => (f.offset + i, f.payload.getD i 0))
    let r := x.rx
    { x with rx := { r with
      parts := (Frame.place f, r.part (Frame.place f) ++ cells) :: r.parts.filter (fun e => e.1 != Frame.place f) } })

/-- Device address in the shadow regions of a byte of a chunk of the twin (R252). -/
def State.shadowAddr (s : State) (stack group kind chunk : Nat) : Option Nat :=
  ((s.twinGroups (Fin.ofNat 12 stack))[group]?).map (fun g => grpBase g kind + chunkSize * chunk)

/-- The shadow's acknowledgement of the twin's step, once its digests give the root that STEP_END brought (R249).
(DEDUCED, log entry 82) -/
def State.shadowCheck (s : State) (f : Frame) : State :=
  let r := s.slip.rx
  if !r.acked && r.wanted == some (rootOf f.srcDev f.step (s.fullStep f.step) r.leaves) then
    (s.modSlip (fun x => { x with rx := { x.rx with acked := true } })).shadowAnswer 7 f
  else s

/-- CHUNK_END (R247, R252): a chunk whose digest matches is written to the working half of its shadow region.
(DEDUCED, log entry 82) -/
def State.endChunk (s : State) (f : Frame) : State :=
  let drop (s : State) : State :=
    s.modSlip (fun x => { x with rx := { x.rx with parts := x.rx.parts.filter (fun e => e.1 != Frame.place f) } })
  match (chunkBytes (s.slip.rx.part (Frame.place f))).filter (fun bytes => f.payload == sha384 bytes) with
  | some bytes =>
    let s := match s.shadowAddr f.stack f.group f.kind f.chunk with
      | some a => s.writeBytes a bytes false true
      | none => s
    let s := (drop s).modSlip (fun x => { x with rx := { x.rx with
      leaves := insLeaf ⟨f.stack, f.group, f.kind, f.chunk, bytes.length, sha384 bytes⟩ x.rx.leaves } })
    (s.shadowAnswer 5 f).shadowCheck f
  | none => (drop s).shadowAnswer 6 f

/-- A STEP_END (R249). -/
def State.takeStepEnd (s : State) (f : Frame) : State :=
  (s.modSlip (fun x => { x with rx := { x.rx with wanted := some f.payload } })).shadowCheck f

/-- An ABORT (R251): everything received for the step is discarded. -/
def State.takeAbort (s : State) (f : Frame) : State :=
  s.modSlip (fun x => { x with rx :=
    { ShadowRx.none with step := f.step, attempt := f.attempt, seq := x.rx.seq, txSeq := x.rx.txSeq } })

/-- A slipstream frame by its TYPE (R246); one that is not defined is answered as a CHUNK_NAK of its chunk (R247). -/
def State.takeSlip (s : State) (p : Packet) : State :=
  let f := (frameOf p.payload).1
  match f.type with
  | 1 => s.takeFrame f (·.takeFrameData f)
  | 2 => s.takeFrame f (·.endChunk f)
  | 3 => s.takeFrame f (·.takeStepEnd f)
  | 4 => s.takeFrame f (·.takeAbort f)
  | 5 => s.takeChunkAck p f
  | 6 => s.takeChunkNak p f
  | 7 => s.takeStepAck p f
  | _ => if s.shadows f then s.shadowAnswer 6 f else s

end Sys2Proof.Machine
end

