-- ==== Sys2Proof/Machine/Secrecy.lean ====
section
/-! DEFINITION. The security block (spec/14): draws (R374), sessions (R354), tokens (R358, R359), the commands of R360, key
slots (R361 to R363), policy (R364), the debug unlock (R383) and the ingest channels (R377 to R379). -/

namespace Sys2Proof.Machine

/-! Draws (R374). -/

/-- The bytes of a draw. -/
def drawBytes (d n : Nat) : List Byte := (List.range n).map (Config.drawByte d)

/-- `n` draws taken. -/
def State.drew (s : State) (n : Nat) : State := s.modSec (fun x => { x with draws := x.draws + n })

/-- ENTROPY_FAIL (R374): every draw is refused from then on. -/
def execEntropyFail (s : State) : Out := done (s.modSec (fun x => { x with entropyFail := true }))

/-! Keys of the device. -/

/-- The identity public key, uncompressed; zeros before SHIP. -/
def State.idKey (s : State) : List Byte :=
  match s.sec.identity with
  | some d => 0x04 :: Config.publicKey d
  | none => zeros 97

/-- What an endorsement signs (R360). -/
def endorsed (kind : Nat) (serial : DWord) (idKey : List Byte) : List Byte :=
  leBytes 1 0x45 ++ leBytes 1 kind ++ leBytes 8 serial.toNat ++ sha384 idKey

/-- The nonce of a key slot's seal (R361). -/
def slotNonce (slot gen : Nat) : List Byte := leBytes 1 slot ++ zeros 7 ++ leBytes 4 gen

/-- The storage secret, fused at SHIP (R355); no bytes before. -/
def State.storageSecret (s : State) : List Byte := match s.sec.storage with | some d => drawBytes d 32 | none => []

/-- The sealing key of the key slots (R361). -/
def State.sealKey (s : State) : List Byte := hkdfExpand (hkdfExtract [] s.storageSecret) (ascii "tvx store") 32

/-- A key slot; none beyond slot 15. -/
def State.keySlot (s : State) (slot : Nat) : Option KeySlot :=
  if slot < 16 then some (s.sec.slots.get (Fin.ofNat 16 slot)) else none

/-- USE of a key slot: 0 where it is empty or there is none. -/
def State.slotUse (s : State) (slot : Nat) : Nat := ((s.keySlot slot).map (·.use)).getD 0

/-- The key that a slot holds, when its seal opens (R361). -/
def State.slotKey (s : State) (slot : Nat) : Option (List Byte) :=
  match s.keySlot slot with
  | some k =>
    if k.use = 0 then none
    else Config.gcmOpen s.sealKey (slotNonce slot k.generation) [] (k.sealed.take 32) (k.sealed.drop 32)
  | none => none

/-- A key sealed into a slot under the next generation (R361). -/
def State.storeKey (s : State) (slot use : Nat) (key : List Byte) : State :=
  let i := Fin.ofNat 16 slot
  let gen := ((s.sec.slots.get i).generation + 1) % 2 ^ 32
  let (ct, tag) := Config.gcmSeal s.sealKey (slotNonce slot gen) [] key
  s.modSec (fun x => { x with slots := x.slots.set i ⟨use, gen, ct ++ tag⟩ })

/-- The key slots that a plan names, each with the use it makes of it (R363): the DATA slots of its ingest channels (R377),
its CHECKPOINT slot (R376) and the PLAN slot of its seal (R369). -/
def State.planSlots (s : State) : List (Nat × Nat) :=
  s.plan.ingest.flatMap (fun e => ((List.range 16).filter (ingKeys e).testBit).map (fun n => (n, 1))) ++
    s.plan.ckptSlot.toList.map (fun n => (n, 2)) ++ s.sec.planSlot.toList.map (fun n => (n, 3))

/-- A slot is in use while the running plan names it (R363). -/
def State.slotInUse (s : State) (slot : Nat) : Bool := s.loaded && s.planSlots.any (fun k => k.1 == slot)

/-! Paths of the security block. -/

/-- The index of a path that may present tokens: function 1, then the management port. -/
def secPath : Path → Option (Fin 2)
  | .f1 => some 0
  | .mb => some 1
  | _ => none

/-- A session of a path. -/
def State.session (s : State) (i : Fin 2) : Option Session := s.sec.sessions.get i

/-- The role under which a path's access is judged (R351, R352). -/
inductive Party where
  | owner | service | operator | peer
deriving DecidableEq, Repr

/-- The role of a session while it lasts (R354). -/
def State.sessionParty (s : State) (i : Fin 2) : Party :=
  match s.session i with
  | some x => if s.now < x.since + x.ticks then (if x.role = 2 then .service else .owner) else .operator
  | none => .operator

/-- The role of a path (R352): a core carries the owner's rights, a host port function 1 or the management port those of its
session. -/
def State.party (s : State) : Path → Party
  | .f0 => .operator
  | .f1 => s.sessionParty 0
  | .mb => s.sessionParty 1
  | .peer _ => .peer
  | .core _ => .owner

/-- A session is open on a path (R354): it has been opened and its SESSION_TICKS have not passed. -/
def State.sessionOpen (s : State) (i : Fin 2) : Bool := match s.session i with | some x => decide (s.now < x.since + x.ticks) | none => false

/-- SEC_INGEST_CMD is written by the host port, as owner or operator (R367). -/
def State.mayIngest (s : State) (p : Path) : Bool :=
  match p with
  | .f0 => true
  | .f1 => s.party .f1 != .service
  | _ => false

/-- The session of a path ends. -/
def State.dropSession (s : State) (i : Fin 2) : State := s.modSec (fun x => { x with sessions := x.sessions.set i none })

/-- SESSION_EXPIRY (R354). -/
def execSessionExpiry (p : Path) (s : State) : Out :=
  match secPath p with
  | some i =>
    match s.session i with
    | some x => if x.since + x.ticks ≤ s.now then done (s.dropSession i) else stay s
    | none => stay s
  | none => stay s

/-! Tokens (R358, R359). -/

/-- The token in a path's mailbox. -/
def State.token (s : State) (i : Fin 2) : List Byte := memRead (s.sec.mailbox.get i) 0 4096

def tokLength (t : List Byte) : Nat := ofLe (slice t 0 4)
def tokRole (t : List Byte) : Nat := ofLe (slice t 5 1)
def tokSigner (t : List Byte) : List Byte := slice t 48 97
def tokBody (t : List Byte) : List Byte := slice t 288 (tokLength t - 384)
def tokGrantId (t : List Byte) : Nat := ofLe (slice t 160 4)

/-- Bytes that are all zero. -/
def allZero (bs : List Byte) : Bool := bs.all (· == 0)

/-- Bytes of the BODY of a command's token (R360). -/
def bodyLength (op : Nat) : Nat :=
  match op with
  | 2 => 4
  | 6 => 152
  | 7 => 4
  | 8 => 8
  | 9 => 100
  | _ => 0

/-- Operands of a BODY that are in range and reserved bytes that are 0 (R31, R360, R362, R364).
(DESIGN CHOICE, log entry 120) -/
def bodyOk (op : Nat) (b : List Byte) : Bool :=
  match op with
  | 2 => ofLe (b.take 4) != 0
  | 6 => ofLe (b.take 1) < 16 && 1 ≤ ofLe (slice b 1 1) && ofLe (slice b 1 1) ≤ 3 && allZero (slice b 2 2) && allZero (slice b 101 3)
  | 7 => ofLe (b.take 1) < 16 && allZero (slice b 1 3)
  | 8 => ofLe (b.take 4) < 16
  | 9 => allZero (b.take 4)
  | _ => true

/-- Stage 1 of R359. -/
def tokenForm (op : Nat) (i : Fin 2) (t : List Byte) : Bool :=
  let n := tokLength t
  n % 4 == 0 && 384 ≤ n && n ≤ 4096 && ofLe (slice t 4 1) == op && ofLe (slice t 6 1) == i.val + 1 && allZero (slice t 7 1) &&
    allZero (slice t 145 15) && allZero (slice t 272 16) &&
    (if tokRole t = 2 then allZero (slice t 172 4) else allZero (slice t 160 112)) && n - 384 == bodyLength op &&
    bodyOk op (tokBody t)

/-- A role may give a command in a lifecycle (R351, R360). -/
def roleMay (op role lifecycle : Nat) : Bool :=
  match op with
  | 2 => role == 1 || role == 2
  | 4 => role == 3 && lifecycle != 2
  | 10 => role == 1 || (role == 3 && lifecycle != 2)
  | _ => role == 1

/-- A service grant that is valid (R359). -/
def State.grantOk (s : State) (t : List Byte) : Bool :=
  let scope := slice t 164 8
  sha384 s.sec.ownerKey == s.sec.ownerHash && s.sec.lifecycle == 2 && s.sec.minGrant ≤ tokGrantId t &&
    (allZero scope || scope == leBytes 8 s.dev.serial.toNat) &&
    Config.ecdsaVerify s.sec.ownerKey (leBytes 1 0x53 ++ slice t 160 4 ++ scope ++ sha384 (tokSigner t)) (slice t 176 96)

/-- The signer is authorised for its role (R359). -/
def State.signerOk (s : State) (op : Nat) (t : List Byte) : Bool :=
  match tokRole t with
  | 1 => op == 5 || (s.sec.lifecycle == 2 && sha384 (tokSigner t) == s.sec.ownerHash)
  | 2 => s.grantOk t
  | 3 => sha384 (tokSigner t) == Config.vendorHash
  | _ => false

/-- Stage 2 of R359. -/
def State.tokenAuthority (s : State) (op : Nat) (i : Fin 2) (t : List Byte) : Bool :=
  slice t 8 8 == leBytes 8 s.dev.serial.toNat && s.sec.nonces.get i == some (slice t 16 32) &&
    roleMay op (tokRole t) s.sec.lifecycle && s.signerOk op t &&
    Config.ecdsaVerify (tokSigner t) (t.take (tokLength t - 96)) (slice t (tokLength t - 96) 96)

/-- DEBUG_OPEN as DEBUG_UNLOCK sets it (R384): the MANUFACTURE lifecycle sets it otherwise. -/
def State.unlocked (s : State) : Bool := s.sec.debugOpen && s.sec.lifecycle != 0

/-- Stage 3 of R359: the lifecycle and the state allow the command (R360, R363, R384). -/
def State.tokenState (s : State) (op : Nat) (t : List Byte) : Bool :=
  let lc := s.sec.lifecycle
  let slot := ofLe ((tokBody t).take 1)
  match op with
  | 2 => lc == 2 && !s.unlocked && !(tokRole t == 2 && s.sec.policy.testBit 3)
  | 4 => lc == 0
  | 5 => lc == 1
  | 6 => lc == 2 && !s.sec.debugOpen && !s.slotInUse slot
  | 7 => lc == 2 && !s.slotInUse slot
  | 8 | 9 => lc == 2
  | _ => (lc == 1 || lc == 2) && !s.sec.debugOpen && !s.sec.zeroising

/-- The answer of the three stages (R359): none where the token passes. (DESIGN CHOICE, log entry 120) -/
def State.tokenCheck (s : State) (op : Nat) (i : Fin 2) (t : List Byte) : Option Answer :=
  if !tokenForm op i t then some .malformed
  else if !s.tokenAuthority op i t then some .denied
  else if !s.tokenState op t then some .conflict
  else none

/-! Answers. -/

/-- A token answered (R359, R388): its TOKEN record, its counter, and the nonce consumed. (DESIGN CHOICE, log entry 121) -/
def State.tokenAnswer (s : State) (op : Nat) (i : Fin 2) (t : List Byte) (p : Path) (tag : Nat) (a : Answer) (busy : Bool) :
    State :=
  let s := s.modSec (fun x =>
    { x with
      nonces := x.nonces.set i none
      bank := match a with
        | .done | .accepted => x.bank.add 0 1
        | .malformed | .denied | .conflict => x.bank.add 1 1
        | .failed => x.bank })
  (s.secAnswer p tag a busy).ask 0x04 (s.unit 0xC 0x04 0) (leBytes 1 op ++ leBytes 1 (tokRole t) ++ leBytes 1 a.code ++
    (sha384 (tokSigner t)).take 8)

/-- Opcodes of SEC_CMD that need a token (R360). -/
def needsToken (op : Nat) : Bool := op == 2 || (4 ≤ op && op ≤ 10)

/-- STATE_CONFLICT for a command that is not taken (R32): a token that it presents is answered with it (R359).
(DESIGN CHOICE, log entry 120) -/
def State.secConflict (s : State) (op : Nat) (p : Path) (tag : Nat) : State :=
  match secPath p with
  | some i => if needsToken op then s.tokenAnswer op i (s.token i) p tag .conflict s.sec.cmd.busy else s.secAnswer p tag .conflict s.sec.cmd.busy
  | none => s.secAnswer p tag .conflict s.sec.cmd.busy

/-- A command of SEC_CMD (R32, R360): from another path than function 1 and the management port it is DENIED; while BUSY it
is a STATE_CONFLICT. -/
def State.secCommand (s : State) (op : Nat) (p : Path) (tag : Nat) (act : Fin 2 → State → State) : State :=
  match secPath p with
  | none => (s.denyReg p 0x040010).secAnswer p tag .denied s.sec.cmd.busy
  | some i => if s.sec.cmd.busy then s.secConflict op p tag else act i s

/-- A command that needs a token: `act` is its effect and its answer once the token passes. One that writes the owner security
state is answered DONE after its last pulse (R411), which a power-failure flush holds up (R423). (DESIGN CHOICE, log entry 120) -/
def State.tokenCommand (s : State) (op : Nat) (p : Path) (tag : Nat) (act : Fin 2 → List Byte → State → State × Answer) : State :=
  s.secCommand op p tag (fun i s =>
    let t := s.token i
    match s.tokenCheck op i t with
    | some a => s.tokenAnswer op i t p tag a false
    | none =>
      let (s', a) := act i (tokBody t) s
      if a = .done && keepsState op && s.keepHeld.isSome then
        (s'.modSec (fun x => { x with cmd := { x.cmd with running := some (op, p, tag) } })).tokenAnswer op i t p tag .accepted true
      else s'.tokenAnswer op i t p tag a (a == .accepted))

/-! The commands (R360). -/

/-- The effect of NONCE (R360, R374). -/
def State.cmdNonce (p : Path) (tag : Nat) (s : State) : State :=
  s.secCommand 1 p tag (fun i s =>
    if s.sec.entropyFail then s.secAnswer p tag .failed false
    else
      let d := s.sec.draws
      ((s.drew 1).modSec (fun x => { x with nonces := x.nonces.set i (some (drawBytes d 32)) })).secAnswer p tag .done false)

/-- The effect of SESSION (R354, R360). -/
def State.cmdSession (p : Path) (tag : Nat) (s : State) : State :=
  s.tokenCommand 2 p tag (fun i b s =>
    let t := s.token i
    (s.modSec (fun x => { x with sessions := x.sessions.set i (some ⟨tokRole t, tokGrantId t, ofLe (b.take 4), s.now⟩) }), .done))

/-- The effect of END_SESSION (R354, R360): it needs a session that is open. -/
def State.cmdEndSession (p : Path) (tag : Nat) (s : State) : State :=
  s.secCommand 3 p tag (fun i s =>
    if s.sessionOpen i then (s.dropSession i).secAnswer p tag .done false else s.secAnswer p tag .conflict false)

/-- A fuse programming begins (R357); the command is BUSY until it ends. (DESIGN CHOICE, log entry 142) -/
def State.beginFusing (op : Nat) (p : Path) (tag : Nat) (key : List Byte) (bad : List BadCopy) (s : State) : State :=
  (s.modRst (fun r => { r with fusing := some ⟨op, p, tag, s.sec.draws, key, s.now, bad⟩ })).modSec (fun x =>
    { x with cmd := { x.cmd with running := some (op, p, tag) } })

/-- The effect of SHIP (R355, R356, R360): the identity key and the storage secret are drawn, and their programming begins.
(DESIGN CHOICE, log entries 122, 142) -/
def State.cmdShip (p : Path) (tag : Nat) (bad : List BadCopy) (s : State) : State :=
  s.tokenCommand 4 p tag (fun _ _ s =>
    if s.sec.entropyFail then (s, .failed) else ((s.beginFusing 4 p tag [] bad).drew 2, .accepted))

/-- The effect of FUSE_OWNER (R355, R356, R360): the programming of the owner hash begins. (DESIGN CHOICE, log entry 142) -/
def State.cmdFuseOwner (p : Path) (tag : Nat) (bad : List BadCopy) (s : State) : State :=
  s.tokenCommand 5 p tag (fun i _ s => (s.beginFusing 5 p tag (tokSigner (s.token i)) bad, .accepted))

/-- The checks of a field's two copies, those in the list failing. -/
def copiesOf (f : FuseField) (bad : List BadCopy) : FuseCopies := ⟨!bad.contains ⟨f, false⟩, !bad.contains ⟨f, true⟩⟩

/-- A field reads (R357): one of its copies passes its check. -/
def FuseCopies.reads (c : FuseCopies) : Bool := c.first || c.second

/-- The lifecycle after a programming whose fields all read, with its own copies (R356, R357). -/
def Sec.advance (x : Sec) (ok : Bool) (next : Nat) (copies : FuseCopies) : Sec :=
  if ok then
    { x with fuses := { x.fuses with lifecycle := copies }, lifecycle := if copies.reads then next else x.lifecycle }
  else x

/-- What a programming leaves fused (R355 to R357): a field whose two copies fail reads as unwritten, and the lifecycle then
does not change. (DESIGN CHOICE, log entries 122, 142) -/
def Sec.fused (x : Sec) (f : Fusing) : Sec :=
  let lc := copiesOf .lifecycle f.bad
  if f.op = 4 then
    let id := copiesOf .identity f.bad
    let st := copiesOf .storage f.bad
    let y := { x with
      fuses := { x.fuses with identity := id, storage := st }
      identity := if id.reads then some f.draw else none, storage := if st.reads then some (f.draw + 1) else none }
    let y := y.advance (id.reads && st.reads) 1 lc
    if y.lifecycle = 1 then { y with debugOpen := false } else y
  else
    let oh := copiesOf .ownerHash f.bad
    let y := { x with
      fuses := { x.fuses with ownerHash := oh }
      ownerHash := if oh.reads then sha384 f.key else zeros 48, ownerKey := if oh.reads then f.key else [] }
    y.advance oh.reads 2 lc

/-- A fuse programming ends (R357): DONE, or FAILED where the lifecycle did not change. (DESIGN CHOICE, log entry 142) -/
def State.endFusing (s : State) (f : Fusing) : State :=
  let next := if f.op = 4 then 1 else 2
  let s := (s.modRst (fun r => { r with fusing := none })).modSec (fun x =>
    { x.fused f with cmd := { x.cmd with running := none } })
  s.secAnswer f.path f.tag (if s.sec.lifecycle = next then .done else .failed) false

/-- The effect of KEY_LOAD (R362): the key comes wrapped; a tag failure is DENIED. -/
def State.cmdKeyLoad (p : Path) (tag : Nat) (s : State) : State :=
  s.tokenCommand 6 p tag (fun i b s =>
    let slot := ofLe (b.take 1)
    let use := ofLe (slice b 1 1)
    let z := Config.ecdh (s.sec.identity.getD 0) (slice b 4 97)
    let info := ascii "tvx keyload" ++ leBytes 8 s.dev.serial.toNat ++ leBytes 1 slot ++ leBytes 1 use
    let kek := hkdfExpand (hkdfExtract (slice (s.token i) 16 32) z) info 32
    match Config.gcmOpen kek (zeros 12) (leBytes 1 slot ++ leBytes 1 use) (slice b 104 32) (slice b 136 16) with
    | some key => (s.storeKey slot use key, .done)
    | none => (s, .denied))

/-- The effect of KEY_DELETE (R361, R363): the slot's generation rises with the write that empties it.
(DESIGN CHOICE, log entry 122) -/
def State.cmdKeyDelete (p : Path) (tag : Nat) (s : State) : State :=
  s.tokenCommand 7 p tag (fun _ b s =>
    let slot := Fin.ofNat 16 (ofLe (b.take 1))
    (s.modSec (fun x => { x with slots := upd x.slots slot (fun k => ⟨0, (k.generation + 1) % 2 ^ 32, []⟩) }), .done))

/-- A service session that a POLICY ends (R354, R364). (DESIGN CHOICE, log entry 122) -/
def endsService (policy grant : Nat) (x : Option Session) : Option Session :=
  match x with
  | some y => if y.role == 2 && (policy.testBit 3 || y.grant < grant) then none else some y
  | none => none

/-- The effect of POLICY (R354, R364): the policy is pending until the next bring-up; MIN_GRANT is in force at once. -/
def State.cmdPolicy (p : Path) (tag : Nat) (s : State) : State :=
  s.tokenCommand 8 p tag (fun _ b s =>
    let pol := ofLe (b.take 4)
    let g := ofLe (slice b 4 4)
    (s.modSec (fun x => { x with pending := pol, minGrant := g, sessions := x.sessions.map (endsService pol g) }), .done))

/-- The effect of ENDORSE (R360): stored once it verifies under the owner key that signed the token.
(DESIGN CHOICE, log entry 122) -/
def State.cmdEndorse (p : Path) (tag : Nat) (s : State) : State :=
  s.tokenCommand 9 p tag (fun i b s =>
    let e := slice b 4 96
    if Config.ecdsaVerify (tokSigner (s.token i)) (endorsed 0 s.dev.serial s.idKey) e then
      (s.modSec (fun x => { x with endorsement := some e }), .done)
    else (s, .denied))

/-! The debug unlock (R383). -/

/-- A core whose store, program store and plan-loaded tables are zero-filled (R383): the routing table store, the rings, the
vanes' assignment and the contexts' programs go with them; counters stay. -/
def Core.wiped (c : Core) : Core :=
  { c with
    store := [], poison := [], rings := []
    veer := { c.veer with run := none, table := [] }
    eddy := { c.eddy with preds := [], served := [] }
    vanes := c.vanes.map (fun v => { v with assigned := false, stepScoped := false })
    ctxs := c.ctxs.map (fun x => { x with defined := false, first := 0, len := 0, prio := 0, queue := [], stepEntry := none, takeEntry := none }) }

/-- The core stores, the program stores and every plan-loaded table zero-filled (R383, R384). -/
def State.dropTables (s : State) : State :=
  { s with
    cores := s.cores.map Core.wiped
    gales := s.gales.map (fun g => { g with row := Feeder.none, col := Feeder.none })
    draughts := s.draughts.map (fun d => { d with queue := [] })
    chainVanes := s.chainVanes.map (fun v => { v with assigned := false, stepScoped := false })
    sec := { s.sec with channels := [], planSlot := none }
    plan := Plan.empty, loaded := false, loads := [], loadedChunks := [], hostLeaves := [] }

/-- Every memory that an unlock zero-fills (R383). -/
def State.zeroFill (s : State) : State :=
  { s.dropTables with
    mem := s.mem.map (fun m => { m with arr := LineMem.zero })
    stash := s.stash.map (fun m => { m with arr := LineMem.zero, key := none, keyReady := false }) }

/-- The key slots overwritten with zeros (R383). -/
def KeySlot.zero : KeySlot := ⟨0, 0, []⟩

/-- The effect of DEBUG_UNLOCK (R383): accepted with the ZEROISE flag; a running device halts as a lost device; sessions end.
(DESIGN CHOICE, log entry 122) -/
def State.cmdDebugUnlock (p : Path) (tag : Nat) (s : State) : State :=
  s.tokenCommand 10 p tag (fun _ _ s =>
    let s := s.haltSteps 7
    let s : State := { s with links := s.links.map Link.lower }
    (s.modSec (fun x =>
      { x with
        zeroising := true, zeroiseFlag := true, signingOff := true, slots := Vector.replicate 16 KeySlot.zero
        cmd := { x.cmd with running := some (10, p, tag) } }), .accepted))

/-- UNLOCK_COMPLETE (R383): the memories are zero-filled, and DEBUG_OPEN is set. -/
def execUnlockComplete (s : State) : Out :=
  if !s.sec.zeroising then stay s
  else
    let s := s.zeroFill.modSec (fun x => { x with zeroising := false, zeroiseFlag := false, debugOpen := true })
    match s.sec.cmd.running with
    | some (_, p, tag) =>
      done ((s.modSec (fun x => { x with cmd := { x.cmd with running := none } })).secAnswer p tag .done false)
    | none => done s

/-! Ingest (R378, R379). -/

/-- SEC_INGEST_CMD_STATUS shows an answer, with its COMMAND record. -/
def State.ingestAnswer (s : State) (p : Path) (tag : Nat) (a : Answer) (busy : Bool) : State :=
  (s.modSec (fun x => { x with ingestCmd := x.ingestCmd.answer a p tag busy })).commandRecord 0x04 p tag a

/-- A channel's run state changed. -/
def State.modChannel (s : State) (c : Nat) (f : IngestChan → IngestChan) : State :=
  match Tbl.get? s.sec.channels c with
  | some ch => s.modSec (fun x => { x with channels := Tbl.set x.channels c (f ch) })
  | none => s

/-- The answer of a SUBMIT that does not start (R379). -/
def State.submitRefused (s : State) (e : BitVec 256) (ch : IngestChan) : Option Answer :=
  let hd := s.peek (ingBuffer e ch.fill) 64
  let slot := ofLe (slice hd 8 1)
  if !ch.free.contains ch.fill then some .conflict
  else if ingSize e < ofLe (hd.take 8) + 64 then some .malformed
  else if slot = 0 && (ingSealed e || s.sec.policy.testBit 0) then some .denied
  else if slot != 0 && !(slot < 16 && (ingKeys e).testBit slot) then some .denied
  else none

/-- The effect of SUBMIT (R32, R379). -/
def State.cmdSubmit (p : Path) (chan : Fin 8) (tag : Nat) (s : State) : State :=
  if !s.mayIngest p then (s.denyReg p 0x040200).ingestAnswer p tag .denied s.sec.ingestCmd.busy
  else if s.sec.ingestCmd.busy then s.ingestAnswer p tag .conflict true
  else
    match s.channel chan with
    | none => s.ingestAnswer p tag .malformed false
    | some (e, ch) =>
      match s.submitRefused e ch with
      | some a => s.ingestAnswer p tag a false
      | none =>
        let s := s.modChannel chan (fun x => { x with free := x.free.filter (· != x.fill), busy := some x.fill })
        let s := s.modSec (fun x => { x with ingestCmd := { x.ingestCmd with running := some (chan.val, p, tag) } })
        s.ingestAnswer p tag .accepted true

/-- A submitted buffer checked (R379): its plaintext when it is good. (DESIGN CHOICE, log entry 89) -/
def State.openBuffer (s : State) (e : BitVec 256) (b : Nat) : Option (List Byte) :=
  let a := ingBuffer e b
  let hd := s.peek a 64
  let n := ofLe (hd.take 8)
  let slot := ofLe (slice hd 8 1)
  let body := s.peek (a + 64) n
  if slot = 0 then some body
  else
    match s.slotKey slot with
    | some key => Config.gcmOpen key (slice hd 12 12) (hd.take 32) body (slice hd 32 16)
    | none => none

/-- The answer that ends a SUBMIT. (DESIGN CHOICE, log entry 89) -/
def State.submitEnds (s : State) (p : Path) (tag : Nat) (a : Answer) : State :=
  (s.modSec (fun x => { x with ingestCmd := { x.ingestCmd with running := none } })).ingestAnswer p tag a false

end Sys2Proof.Machine
end

