-- ==== Sys2Proof/Machine/FitTables.lean ====
section
/-! DEFINITION. The plan fit check on the plan's tables (R127): function tables, key entries, tensor and Draught
descriptors, row bins, predictor slots, routing layers, regions, Foehn groups, links, windows and ingest channels. -/

namespace Sys2Proof.Machine

/-- Some bytes of an entry are not 0: `n` bytes from byte `off`. -/
def dirty {w : Nat} (v : BitVec w) (off n : Nat) : Bool := le v off n != 0

/-- Two ranges (first byte, length) share a byte. -/
def meets (x y : Nat × Nat) : Bool := x.2 != 0 && y.2 != 0 && decide (x.1 < y.1 + y.2) && decide (y.1 < x.1 + x.2)

/-- Some two ranges of a list share a byte. -/
def anyMeet : List (Nat × Nat) → Bool
  | [] => false
  | x :: xs => xs.any (meets x) || anyMeet xs

/-! Function tables (R62, R63). -/

/-- Numbers that rise strictly. -/
def rising (xs : List Int) : Bool := (xs.zip (xs.drop 1)).all (fun p => decide (p.1 < p.2))

/-- A function table that R63 refuses. -/
def funcBad (bs : List Byte) : Bool :=
  let n := ofLe (slice bs 0 1)
  let d := ofLe (slice bs 1 1)
  let t := FuncTab.parse bs
  n == 0 || decide (64 < n) || decide (7 < d) || ofLe (slice bs 2 2) != 0 || ofLe (slice bs 12 4) != 0 ||
    bs.length != 16 + 4 * (n - 1) + 4 * n * (d + 2) || t.bounds.any (fun b => !isFinite b) || !rising (t.bounds.map f32Key)

/-- Function tables refused for a unit that holds `cap` of them (R63, R235). -/
def funcsBad (cap : Nat) (ts : Tbl (List Byte)) : Bool :=
  decide (cap < ts.length) || ts.any (fun t => decide (cap ≤ t.1) || funcBad t.2)

/-! Key entries (R208, R210) and the recompute table (R342). -/

/-- A key entry with a reserved field that is not 0, or one at an index the table does not have. -/
def gustBad (i : Nat) (e : BitVec 256) : Bool :=
  i == 0 || decide (1024 ≤ i) || field e 77 3 != 0 || field e 85 3 != 0 || dirty e 11 1 || dirty e 14 2 || dirty e 22 2 ||
    dirty e 28 4

/-- The programs of a core that belong to a context. -/
def programOf (p : PlanCore) (k : Nat) : Option CtxProg := p.progs.find? (fun x => x.ctx == k)

/-- A recompute table entry that R342 refuses by itself. -/
def State.recBad (s : State) (c : Fin 4) (r : BitVec 128) : Bool :=
  field r 19 5 != 0 || dirty r 3 1 || dirty r 8 8 ||
    (match s.draughtDesc c (recDesc r) with | some d => dscKind d != 0 | none => true) ||
    (match programOf (s.prog c) (field r 16 3) with
     | some p =>
       targetBad p (recEntry r) || targetBad p (recWait r) || ((s.opAt c (recWait r)).map opcode != some 0x61)
     | none => true)

/-- Two entries of a recompute table name the same descriptor and context (R342). -/
def sameRec (rs : List (BitVec 128)) : Bool :=
  let ks := rs.map (fun r => (recDesc r, field r 16 3))
  ks.eraseDups.length != ks.length

/-! Tensor descriptors (R135, R138 to R140, R143, R146). -/

/-- Formats that a layout allows (R139). -/
def layoutFormat (layout fmt : Nat) : Bool :=
  match layout with
  | 0 => decide (fmt ≤ 11)
  | 1 | 2 => decide (fmt ≤ 10)
  | 3 => [11, 1, 0, 2, 3].contains fmt
  | 4 | 5 => fmt == 0
  | _ => [0, 1, 2, 3, 4, 11].contains fmt

/-- RANK that a layout allows (R139). -/
def layoutRank (layout rank : Nat) : Bool :=
  match layout with
  | 1 | 2 | 3 => decide (2 ≤ rank)
  | 5 => rank == 1
  | 6 => rank == 2
  | _ => true

/-- Alignment of BASE (R139). -/
def layoutAlign (layout bits : Nat) : Nat :=
  match layout with
  | 0 => Nat.max 1 (bits / 8)
  | 4 => 1
  | 5 => 4
  | _ => 64

/-- The capacity that a BITMAP tensor needs in the worst case (R146). -/
def bitmapWorst (d : TDesc) : Nat :=
  let rb := ceilDiv (d.extent 1) 64
  let cb := ceilDiv (d.extent 0) 64
  64 + up64 (ceilDiv (rb * cb) 8) + up64 (8 * rb * cb) + up64 (512 * rb * cb) + up64 (4 * rb * cb) +
    up64 (ceilDiv (d.extent 1 * d.extent 0 * d.bits) 8)

/-- A tensor descriptor that is refused with TENSOR_TABLE (R138, R140, R143, R146). (DESIGN CHOICE, log entry 69) -/
def tdescBad (i : Nat) (v : BitVec 512) : Bool :=
  let d := TDesc.parse v
  i == 0 || decide (8191 < i) || field v 50 6 != 0 || (d.grouped && d.layout != 4) || field v 70 2 != 0 || dirty v 9 7 ||
    dirty v 44 4 || (List.range 4).any (fun t => field v (8 * (48 + 4 * t) + 4) 4 != 0) ||
    (d.ring && (field v 6 2 != 0 || field v 10 6 != 0)) || decide (6 < d.layout) || !layoutRank d.layout d.rank ||
    (List.range 4).any (fun k =>
      if k < d.rank then d.ext.getD k 0 == 0 || decide (2 ^ 31 ≤ d.ext.getD k 0) else d.ext.getD k 0 != 0) ||
    !layoutFormat d.layout d.fmt || (if d.ring then d.ringOff else d.base) % layoutAlign d.layout d.bits != 0 ||
    (d.isGrouped && (d.extent 0 % 32 != 0 || d.str 1 % 64 != 0 || decide (d.str 1 < up64 (d.extent 1 * 4 * d.bits)))) ||
    (d.layout == 4 && d.grouped && decide (d.str 1 < d.extent 1)) ||
    (d.layout == 0 && d.extent 0 * d.bits % 8 != 0) || (d.layout == 6 && decide (d.str 1 < bitmapWorst d))

/-! Draught descriptors (R155 to R157). -/

/-- Layouts that a MOVE carries only into themselves (R156). -/
def special (layout : Nat) : Bool := 4 ≤ layout

/-- A source and a destination that R156 does not let a kind join. (DESIGN CHOICE, log entry 55) -/
def State.dscPairBad (s : State) (c : Fin 4) (d : BitVec 512) (a : TDesc) (ds : List TDesc) : Bool :=
  match dscKind d with
  | 0 => ds.any (fun b => b.rank != a.rank || b.exts != a.exts || b.fmt != a.fmt ||
      ((special a.layout || special b.layout) && a.layout != b.layout))
  | 1 =>
    match ds with
    | [b, sc] => a.rank != b.rank || a.exts != b.exts || !([11, 1, 0].contains a.fmt) || !b.format.mx || special a.layout ||
        special b.layout || sc.layout != 4 || sc.rank != b.rank || sc.extent 0 != ceilDiv (b.extent 0) 32 ||
        [1, 2, 3].any (fun i => sc.extent i != b.extent i)
    | _ => true
  | _ =>
    match ds with
    | [b] => a.layout != 0 || a.rank != 2 || b.layout != 6 || b.exts != a.exts || b.fmt != a.fmt ||
        (dscMask d != 0 &&
          match s.tdesc c (dscMask d) with
          | some m => m.layout != 6 || m.exts != a.exts
          | none => true)
    | _ => true

/-- A destination lies in a core store (R157). -/
def TDesc.inCore (d : TDesc) : Bool := d.ring || inStore d.base 1

/-- A Draught descriptor that is refused with TENSOR_TABLE (R155, R157). For MX_STORE, DST[1] names the scales beside
NDST = 1. -/
def State.dscBad (s : State) (c : Fin 4) (i : Nat) (d : BitVec 512) : Bool :=
  let kind := dscKind d
  let n := le d 3 1
  let used := if kind = 1 then 2 else n
  let refs := (List.range 4).map (fun j => le d (8 + 2 * j) 2)
  let ds := s.descsOf c (refs.take used)
  i == 0 || decide (4095 < i) || decide (2 < kind) || field d 11 5 != 0 || field d 19 5 != 0 || field d 202 6 != 0 ||
    dirty d 28 36 || (kind != 1 && dscRound d) || n == 0 || decide ((if kind = 0 then 4 else 1) < n) ||
    (refs.drop used).any (· != 0) || (refs.take used).any (fun r => !refUsed r) || (dscRefs d).any (s.refBad c) ||
    (dscDoneEn d && (dscDoneCount d == 0 || decide ((if dscDoneChain d then 64 else 48) ≤ dscDoneVane d))) ||
    (kind != 2 && dscMask d != 0) ||
    (match s.tdesc c (dscSrc d) with | some a => s.dscPairBad c d a ds | none => true) ||
    (decide (1 < n) && ds.any (fun b => !b.inCore)) || (dscDstDev d != s.self && ds.any (·.ring))

/-- An MX_STORE whose scale form does not match its elements' layout (R142). -/
def State.dscLayout (s : State) (c : Fin 4) (d : BitVec 512) : Bool :=
  dscKind d == 1 &&
    match s.descsOf c (dscDsts d) with
    | [b, sc] => sc.grouped != b.isGrouped
    | _ => false

/-- An MX_STORE that rounds stochastically with entry 0, or a selector of 1,024 or above (R210). -/
def dscKeyBad (d : BitVec 512) : Bool := decide (1024 ≤ dscKey d) || (dscKind d == 1 && dscRound d && dscKey d == 0)

/-- An MX_STORE that draws Gust words for 2^32 elements or more (R210). -/
def State.dscHuge (s : State) (c : Fin 4) (d : BitVec 512) : Bool :=
  dscKind d == 1 && dscRound d && (s.descsOf c ((dscDsts d).take 1)).any (fun b => decide (2 ^ 32 ≤ b.exts.foldl (· * ·) 1))

/-! Row bins (R168, R169). -/

/-- A row-bin table that R169 refuses. -/
def binsBad (i : Nat) (t : List Byte) : Bool :=
  let n (off k : Nat) : Nat := ofLe (slice t off k)
  let rows := n 0 4
  let bins := n 4 2
  let starts := (List.range bins).map (fun b => (n (16 + 8 * b) 4, n (16 + 8 * b + 4) 2))
  let list := (List.range rows).map (fun r => n (16 + 8 * bins + 4 * r) 4)
  decide (16 ≤ i) || rows == 0 || decide (2 ^ 31 ≤ rows) || bins == 0 || decide (4096 < bins) || n 6 10 != 0 ||
    t.length != 16 + 8 * bins + 4 * rows || starts.any (fun b => b.2 == 0 || decide (512 < b.2)) ||
    starts.foldl (fun (acc : Option Nat) b => if acc = some b.1 then some (b.1 + b.2) else none) (some 0) != some rows ||
    list.any (fun r => decide (rows ≤ r)) || list.eraseDups.length != rows

/-- Bytes of the row-bin store (R168). -/
def binStore : Nat := 0x100000

/-! Predictor slots (R179, R184). -/

/-- A binary32 value is exactly representable in a DRAIN_FMT (R184). -/
def exactIn (drain : Nat) (w : Word) : Bool :=
  let f : Fmt := ⟨drainElem drain, false⟩
  let back := decodeF32 f (convert f.elem .rne w) 127
  f32Key back == f32Key w && isFinite back

/-- A predictor slot out of its ranges, or one that breaks the first condition of R184. -/
def slotBad (i : Nat) (p : PredSlot) : Bool :=
  decide (31 < i) || p.groups == 0 || decide (1024 < p.groups) || p.rank == 0 || p.rank % 32 != 0 || decide (128 < p.rank) ||
    decide (4 < p.drainFmt) || !isFinite p.inactiveT || !isFinite p.fill || decide (f32Key p.inactiveT < f32Key p.fill) ||
    !exactIn p.drainFmt p.inactiveT || !exactIn p.drainFmt p.fill

/-- A segment of the constant form (R184): origin ±0, C[1] to C[d] all +0 and C[0] = c. -/
def constSegment (c : Word) (g : Word × List Word) : Bool :=
  isZero g.1 && g.2.head? == some c && (g.2.drop 1).all (· == 0)

/-- A function table that is constant at and below INACTIVE_T (R184's third condition). -/
def constBelow (t : FuncTab) (bound : Word) : Bool :=
  let c := t.negInf
  let b := f32Key bound
  let i := (t.bounds.filter (fun x => decide (f32Key x ≤ b))).length
  let lower := if i = 0 then none else t.bounds[i - 1]?
  let here := (t.segs.getD i (0, [])) 
  c != 0x80000000#32 && (t.segs.take i).all (constSegment c) &&
    (constSegment c here ||
      (lower.map f32Key == some b && t.eval bound == c && (bound != 0 || t.eval 0x80000000#32 == c)))

/-! Routing layers (R186, R187). -/

/-- Experts of an entry whose home is a core, by expert record. -/
def homed (e : RouteEntry) (c : Fin 4) : List (BitVec 256) := e.experts.filter (fun x => expHome x == c)

/-- The home indices of an entry are the ranks of the experts in their homes. (DEDUCED, log entry 76) -/
def homeRanks (e : RouteEntry) : Bool :=
  (allFin 4).all (fun c =>
    let hs := (homed e c).map expIndex
    hs == List.range hs.length)

/-- A field of a routing entry out of its range, or a reserved field that is not 0 (R186, R187). -/
def entryBad (layer : Nat) (e : RouteEntry) : Bool :=
  decide (1023 < layer) || rteExperts e == 0 || decide (1024 < rteExperts e) || e.experts.length != rteExperts e ||
    rteKMax e == 0 || decide (8 < rteKMax e) || rteRouters e == 0 || decide (15 < rteRouters e) || isNaN (rteThreshold e) ||
    rteTokens e == 0 || decide (65535 < rteTokens e) || rteWidth e == 0 || decide (65536 < rteWidth e) ||
    rtePitch e % 64 != 0 || decide (47 < le e.head 40 1) || dirty e.head 41 23 ||
    e.experts.any (fun x => field x 2 6 != 0 || dirty x 1 1 || decide (65534 < expCapacity x) || dirty x 6 2) || !homeRanks e

/-- An expert's home core is no router of the layer, or FAILED (R187). -/
def State.homeBad (s : State) (e : RouteEntry) : Bool :=
  e.experts.any (fun x => !(rteRouters e).testBit (expHome x) || (s.core (expHome x)).health == .failed)

/-- The areas that an entry places in a core's store: dispatch areas, dispatch lists and the admit table (R187). -/
def areas (e : RouteEntry) (c : Fin 4) : List (Nat × Nat) :=
  let hs := homed e c
  (rteAdmitBase e, 4 * hs.length) :: hs.flatMap (fun x =>
    [(expRows x, expCapacity x * rtePitch e), (expList x, 8 * expCapacity x)])

/-- An area outside its store, or two that overlap in one core's store, of one layer or of several (R187).
(DEDUCED, log entry 76) -/
def State.areasBad (s : State) (layer : Nat) (e : RouteEntry) : Bool :=
  let others := (allFin 4).foldl (fun (t : Tbl RouteEntry) c => (s.prog c).routing.foldl (fun t q => Tbl.set t q.1 q.2) t) []
  (allFin 4).any (fun c => (areas e c).any (fun a => decide (storeSize < a.1 + a.2)) || anyMeet (areas e c) ||
    others.any (fun q => q.1 != layer && (areas e c).any (fun a => (areas q.2 c).any (meets a))))

/-- The configuration fields of an entry (R186). -/
def entryCfg (e : RouteEntry) : Nat × List Nat := (field e.head 0 328, e.experts.map (fun x => field x 0 128))

/-- The copy of a layer's entry on a lower-numbered core differs (R187). -/
def State.copiesDiffer (s : State) (c : Fin 4) (layer : Nat) (e : RouteEntry) : Bool :=
  (allFin 4).any (fun b => decide (b < c) &&
    match Tbl.get? (s.prog b).routing layer with
    | some f => entryCfg f != entryCfg e
    | none => false)

/-- The ROUTE operations of a core for a layer. -/
def State.routesOf (s : State) (c : Fin 4) (layer : Nat) : List OpSite :=
  (s.coreSites c).filter (fun x => opcode x.op == 0x50 && rteLayer x.op == layer)

/-- The tokens that a core owns in a layer, by its ROUTE's SRC1: first and number. -/
def State.ownRange (s : State) (c : Fin 4) (layer : Nat) (e : RouteEntry) : Option (Nat × Nat) :=
  match s.routesOf c layer with
  | x :: _ => (s.tdesc c (genRef x.op 2)).map (fun d => (rteOwnFirst e c, d.extent 1))
  | [] => none

/-- Ranges that follow one another from 0 to `t`, whatever their order in the list. -/
def partition (t : Nat) (rs : List (Nat × Nat)) : Bool :=
  (rs.filter (·.2 != 0)).all (fun r => r.1 == 0 || rs.any (fun q => q.2 != 0 && q.1 + q.2 == r.1)) && !anyMeet rs &&
    rs.foldl (fun n r => n + r.2) 0 == t

/-- The routers' token ranges do not partition the tokens (R187). -/
def State.tokensBad (s : State) (layer : Nat) (e : RouteEntry) : Bool :=
  let rs := ((allFin 4).filter (fun c : Fin 4 => (rteRouters e).testBit c.val)).map (fun c => s.ownRange c layer e)
  rs.any Option.isNone || !partition (rteTokens e) (rs.filterMap id)

/-- Bytes of a core's routing table store (R186). -/
def routeStore : Nat := 0x100000

/-- A routing layer that R187 refuses by its entry. -/
def State.layerBad (s : State) (c : Fin 4) (layer : Nat) (e : RouteEntry) : Bool :=
  entryBad layer e || s.homeBad e || s.areasBad layer e || s.copiesDiffer c layer e || s.tokensBad layer e

/-- A ROUTE whose operands disagree with its entry, whose predicted descriptors run past the table, or whose layer another
context of the core routes (R187, R192). -/
def State.routeBad (s : State) (x : OpSite) : Bool :=
  opcode x.op == 0x50 &&
    match Tbl.get? (s.prog x.core).routing (rteLayer x.op), s.tdesc x.core (genRef x.op 0), s.tdesc x.core (genRef x.op 1),
        s.tdesc x.core (genRef x.op 2) with
    | some e, some d, some a, some r =>
      genRef x.op 3 != 0 || !(rteRouters e).testBit x.core || a.layout != 0 || a.rank != 2 || !([11, 1, 0].contains a.fmt) ||
        a.extent 0 != rteExperts e || a.extent 1 != rteTokens e || r.layout != 0 || r.rank != 2 ||
        r.extent 0 != rteWidth e || d.layout != 0 || d.rank != 2 || d.fmt != 4 || d.extent 0 != 32 ||
        d.extent 1 != r.extent 1 || (s.ownRange x.core (rteLayer x.op) e).map (·.2) != some (r.extent 1) || decide (8 * rtePitch e < rteWidth e * r.bits) ||
        (rtePredict x.op != 0 && decide (4096 < rtePredict x.op + (homed e x.core).length)) ||
        (s.routesOf x.core (rteLayer x.op)).any (fun y => y.prog.ctx != x.prog.ctx)
    | _, _, _, _ => true

/-! Regions (R264, R265, R232). -/

/-- The local extents of a region: (stack, first byte, length). -/
def localExtents (r : BitVec 256) : List (Nat × Nat × Nat) :=
  match regKind r with
  | 0 => (List.range 12).map (fun n => (n, regLocal r, regSize r / 12))
  | 2 => [(regStack r, regLocal r, 2 * regSize r)]
  | 1 | 3 => [(regStack r, regLocal r, regSize r)]
  | _ => []

/-- An HBM region with a reserved field or code, a field that breaks its alignment, or device addresses outside the HBM
range (R264, R265). -/
def regionBad (r : BitVec 256) : Bool :=
  let kind := regKind r
  let mib2 := 0x200000
  decide (4 < kind) || dirty r 23 9 || decide (2 < regCode r) || regBase r % mib2 != 0 || regSize r % mib2 != 0 ||
    regLocal r % mib2 != 0 || regSize r == 0 || (kind == 0 && regSize r % (12 * mib2) != 0) ||
    (kind == 4 && regSize r % (16 * mib2) != 0) || (if kind = 0 || kind = 4 then regStack r != 0 else decide (11 < regStack r)) ||
    (kind != 4 && decide (0x008700000000 < regBase r + regSize r))

/-- A region whose local extent leaves its stack, or that uses a FAILED stack (R265). -/
def State.extentBad (s : State) (r : BitVec 256) : Bool :=
  (localExtents r).any (fun x => decide (stackSize < x.2.1 + x.2.2) || (s.stack (Fin.ofNat 12 x.1)).failed)

/-- Two local extents of one stack share a byte (R265). -/
def extentsMeet (rs : List (BitVec 256)) : Bool :=
  let xs := rs.flatMap localExtents
  (List.range 12).any (fun n => anyMeet ((xs.filter (·.1 == n)).map (·.2)))

/-- A stash region that R265 refuses by itself. -/
def State.stashBad (s : State) (r : BitVec 256) : Bool :=
  let d := s.dev.stashDevices
  regKind r == 4 && (d == 0 || decide (regBase r < stashBase) ||
    decide (stashBase + d * stashDeviceSize < regBase r + regSize r) ||
    decide (stashDeviceSize < regLocal r + regSize r / Nat.max 1 d))

/-- Two stash regions share a byte of some stash device (R265). -/
def State.stashMeet (s : State) : Bool :=
  anyMeet ((s.plan.regions.filter (regKind · == 4)).map (fun r => (regLocal r, regSize r / Nat.max 1 s.dev.stashDevices)))

/-- The weight and state ranges of a group: device address and length (R232). -/
def paramRanges (g : BitVec 512) : List (Nat × Nat) := (groupKinds g).map (fun k => (grpBase g k, 2 * grpCount g))

/-- A range lies in one region of a kind, on a stack. -/
def State.liesIn (s : State) (kind stack : Nat) (x : Nat × Nat) : Bool :=
  s.plan.regions.any (fun r => regKind r == kind && regStack r == stack && decide (regBase r ≤ x.1) &&
    decide (x.1 + x.2 ≤ regBase r + regSize r))

/-- A group whose ranges are not in the stack of its Foehn unit, or not in parameter and gradient regions (R232). -/
def State.placedBad (s : State) (n : Nat) (g : BitVec 512) : Bool :=
  (paramRanges g).any (fun x => !s.liesIn 2 n x) || !s.liesIn 3 n (grpGBase g, grpGSize g * grpCount g)

/-- The ranges of a Foehn unit's tables that lie in a region. -/
def rangesIn (gs : Tbl (BitVec 512)) (r : BitVec 256) : List (Nat × Nat) :=
  (gs.flatMap (fun g => paramRanges g.2)).filter (fun x => decide (regBase r ≤ x.1) && decide (x.1 < regBase r + regSize r))

/-- Some byte of a parameter region belongs to no group's range, or to more than one (R232). A region that the device holds
for its twin is covered by the groups of the takeover section (R346). (DEDUCED, log entry 76) -/
def State.uncovered (s : State) (r : BitVec 256) : Bool :=
  let u := s.plan.foehns.get (Fin.ofNat 12 (regStack r))
  let shadow := s.plan.loads.any (fun l => loadBase l == regBase r && loadShard l == 1)
  let full (gs : Tbl (BitVec 512)) : Bool :=
    let xs := rangesIn gs r
    anyMeet xs || xs.foldl (fun n x => n + x.2) 0 != regSize r
  regKind r == 2 && ((!shadow && full u.groups) || ((shadow || s.plan.twin.isSome) && full u.takeGroups))

/-! Foehn tables (R233, R234). -/

/-- A group table entry that R233 refuses. -/
def groupBad (u : PlanStack) (i : Nat) (g : BitVec 512) : Bool :=
  decide (255 < i) || decide (3 < grpRule g) || field g 11 5 != 0 || decide (1 < field g 16 2) || decide (1 < field g 18 2) ||
    field g 21 3 != 0 || decide (3 < le g 3 1) || (grpRule g != 2 && dirty g 4 1) || decide (3 < le g 4 1) ||
    (grpRule g == 2 && (Tbl.get? u.funcs (le g 4 1)).isNone) || (Tbl.get? u.scheds (le g 3 1)).isNone || field g 42 6 != 0 ||
    decide (47 < le g 6 1) || decide (47 < le g 7 1) || grpCount g == 0 || le g 12 2 == 0 || field g 114 6 != 0 || dirty g 15 1 ||
    (List.range 6).any (fun k => !isFinite (grpConst g k)) ||
    (List.range 3).any (fun k => grpBase g k % 64 != 0 || (!(groupKinds g).contains k && grpBase g k != 0)) ||
    grpGBase g % 64 != 0

/-- A schedule that R234 refuses. -/
def schedBad (i : Nat) (t : List (BitVec 192)) : Bool :=
  decide (3 < i) || t.isEmpty || decide (256 < t.length) || t.any (fun e => dirty e 6 2 || dirty e 20 4 ||
    [8, 12, 16].any (fun o => !isFinite (BitVec.ofNat 32 (le e o 4)))) || (t.head?.map (le · 0 6)) != some 0 ||
    !rising (t.map (fun e => (le e 0 6 : Int)))

/-- A Foehn unit's tables refused as MALFORMED_OP (R233, R234). -/
def foehnBad (u : PlanStack) : Bool :=
  (u.groups ++ u.takeGroups).any (fun g => groupBad u g.1 g.2) || u.scheds.any (fun t => schedBad t.1 t.2)

/-- A load table entry that R231 refuses. -/
def State.loadBad (s : State) (l : BitVec 128) : Bool :=
  decide (2 < loadSource l) || decide (1 < loadShard l) || dirty l 14 2 || (loadSource l != 0 && loadStep l != 0) ||
    !s.plan.regions.any (fun r => regKind r == 2 && regBase r == loadBase l) ||
    (loadSource l == 1 && (!s.plan.ingest.any ingLoad || s.plan.hostRoot.isNone))

/-! Windows and ingest channels (R368, R377). -/

def winBase (w : BitVec 128) : Nat := le w 0 6
def winSize (w : BitVec 128) : Nat := le w 6 6

/-- A window's form is broken (R368). -/
def windowBad (w : BitVec 128) : Bool :=
  winBase w % 4096 != 0 || winSize w % 4096 != 0 || field w 100 4 != 0 || dirty w 13 3

/-- A window reaches a parameter region, a STASH region or control space (R368). A program store has no device address
(R97). -/
def State.windowReach (s : State) (w : BitVec 128) : Bool :=
  let x := (winBase w, winSize w)
  s.plan.regions.any (fun r => (regKind r == 2 || regKind r == 4) && meets x (regBase r, regSize r)) || meets x (ctlBase, 0x1000000)

/-- An ingest channel entry's form is broken (R377). -/
def ingestBad (e : BitVec 256) : Bool :=
  let n := ingBuffers e
  let size := ingSize e
  ingBase e % 4096 != 0 || decide (n < 2) || decide (64 < n) ||
    (if ingLoad e then ingPerStep e != 0 || dirty e 13 1 else ingPerStep e == 0 || decide (n - 1 < ingPerStep e) || decide (47 < le e 13 1)) ||
    size % 4096 != 0 || decide (size < 0x2000) || decide (0x10000000 < size) || field e 98 6 != 0 || field e 114 6 != 0 ||
    dirty e 15 1 || dirty e 18 14

/-- The bytes of a channel's buffers. -/
def ingRange (e : BitVec 256) : Nat × Nat := (ingBase e, ingBuffers e * ingSize e)

/-- A channel whose buffers leave an AFFINE or INTERLEAVED region (R377). -/
def State.ingestOutside (s : State) (e : BitVec 256) : Bool :=
  !s.plan.regions.any (fun r => decide (regKind r ≤ 1) && decide (regBase r ≤ ingBase e) &&
    decide (ingBase e + (ingRange e).2 ≤ regBase r + regSize r))

/-- Buffers overlap other buffers or windows (R377). -/
def buffersMeet (p : Plan) : Bool :=
  let bs := p.ingest.map ingRange
  anyMeet bs || bs.any (fun b => p.windows.any (fun w => meets b (winBase w, winSize w)))

/-- A slot is named for a use that it does not have (R363, R377). -/
def State.slotsBad (s : State) : Bool := s.planSlots.any (fun k => s.slotUse k.1 != k.2)

/-! Links (R312, R317, R320, R323, R328, R250). -/

/-- A link is not USED or is FAILED. -/
def State.linkBad (s : State) (l : Nat) : Bool :=
  decide (36 ≤ l) || !s.plan.usedLinks.getLsbD l || (s.link (Fin.ofNat 36 l)).st == .failed

/-- The links of a route entry's group. -/
def groupLinks (r : BitVec 128) : List Nat := (List.range 40).filter (routeGroup r).testBit

/-- A route table entry that R317 or R320 refuses. -/
def State.routeEntryBad (s : State) (r : BitVec 128) : Bool :=
  let ls := groupLinks r
  let alt := routeAlt r
  let all := if alt = 0xFF then ls else ls ++ [alt]
  decide (routeLast r < routeFirst r) || (decide (routeFirst r ≤ s.self) && decide (s.self ≤ routeLast r)) || ls.isEmpty ||
    decide (4 < ls.length) || ls.contains alt || all.any s.linkBad || field r 81 7 != 0 || dirty r 11 5 ||
    (all.any (fun l => decide (32 ≤ l)) &&
      match s.plan.twin with
      | some t => !(decide (routeFirst r ≤ t.dev) && decide (t.dev ≤ routeLast r))
      | none => true)

/-- The links by which packets for a device may leave (R317, R318). -/
def State.farLinks (s : State) (d : Nat) : List Nat :=
  if d = s.self then [] else
    match s.routeOf d with
    | none => []
    | some r => groupLinks r ++ (if routeAlt r = 0xFF then [] else [routeAlt r])

/-- The (link, lane) pairs that the plan uses, by the traffic of R311 that its tables name: VL1 of every used link, whose
session takes its handshake there (R371); VL0 of a fence link and of the route of a chain vane signal; VL2 of the shadow's
links and of the store's route; VL3, VL4 and VL5 of the routes of remote descriptors. (DESIGN CHOICE, log entry 72) -/
def State.usedLanes (s : State) : List (Nat × Nat) :=
  let p := s.plan
  let reach (d : Nat) (vs : List Nat) : List (Nat × Nat) := (s.farLinks d).flatMap (fun l => vs.map (fun v => (l, v)))
  ((List.range 36).filter p.usedLinks.getLsbD).map (fun l => (l, 1)) ++
    (p.fenceParent.toList ++ p.fenceChildren).map (fun l => (l.val, 0)) ++
    (if p.twin.isSome then ((List.range 4).filter p.shadowLinks.testBit).map (fun i => (32 + i, 2)) else []) ++
    (p.storeDev.toList.flatMap (fun d => reach d [2])) ++
    p.cores.toList.flatMap (fun c =>
      (c.descs.flatMap (fun d => reach (dscDstDev d.2) [3, 5] ++ reach (dscSrcDev d.2) [4, 5] ++
        (if dscDoneEn d.2 && dscDoneChain d.2 then reach (dscDoneDev d.2) [0] else []))) ++
      c.ops.flatMap (fun o => if opcode o.2 == 0x60 && bitAt o.2 12 then reach (field o.2 42 16) [0] else []))

/-- The receive allotments break R312: more than 512 flits on a used link, or fewer than 8 on a lane that the plan uses or
gives flits to. (DESIGN CHOICE, log entry 72) -/
def State.allotBad (s : State) : Bool :=
  let p := s.plan
  let flits (l v : Nat) : Nat := (Tbl.get? p.allot (8 * l + v)).getD 0
  (List.range 36).any (fun l => p.usedLinks.getLsbD l &&
    decide (512 < ((List.range 8).map (flits l)).foldl (· + ·) 0)) ||
  s.usedLanes.any (fun x => decide (flits x.1 x.2 < 8)) ||
  p.allot.any (fun a => decide (288 ≤ a.1) || (a.2 != 0 && decide (a.2 < 8)))

/-- What the plan says of links is refused with LINKS (R250, R305, R312, R317, R320, R323, R328, R346). LANE_LIMIT is read
wherever a link is used.
(DESIGN CHOICE, log entry 72) -/
def State.linksBad (s : State) : Bool :=
  let p := s.plan
  decide (256 < p.routes.length) || p.routes.any s.routeEntryBad ||
    anyMeet (p.routes.map (fun r => (routeFirst r, routeLast r + 1 - routeFirst r))) || s.allotBad ||
    (p.usedLinks != 0 && (p.laneLimit == 0 || decide (2 ^ 20 < p.laneLimit))) ||
    (p.fenceParent.toList ++ p.fenceChildren).any (fun l => s.linkBad l) ||
    (p.twin.isSome && (p.takeParent.toList ++ p.takeChildren).any (fun l => s.linkBad l)) ||
    (match p.twin with
     | some t => decide (t.hbLimit < 2) || decide (15 < t.hbLimit) || decide (t.hbPeriod < 256) || decide (16777215 < t.hbPeriod)
     | none => p.storeDev.isNone)

end Sys2Proof.Machine
end

