-- ==== Sys2Proof/Machine/Fit.lean ====
section
/-! DEFINITION. The plan fit check (R127, R128): what spans several operations of a plan, and the first failure in the
order of the reason codes, then of cores, contexts and operation indices. -/

namespace Sys2Proof.Machine

/-! Chains and ownership in program order (R70, R71, R117). -/

/-- What the operations of one chain share: MODE, M, N, DEST and DEST_EDDY (R70). (DESIGN CHOICE, log entry 38) -/
def chainForm (op : BitVec 128) : Nat × Nat × Nat × Nat × Bool :=
  (field op 13 3, tileM op, tileN op, tileDest op, tileDestEddy op)


/-- The side, FIRST and LAST of an operation that uses an array's feeders (R117, R172). -/
def feederUse (op : BitVec 128) : Option (Nat × Bool × Bool) :=
  match opcode op with
  | 0x14 | 0x15 => some (fillSide op, fillFirst op, fillLast op)
  | 0x23 => some (cmpSide op, cmpFirst op, cmpLast op)
  | _ => none

/-- What the plan shows of one side of a core when a context reaches an operation: the loop counters above 1, the form of the
open chain, whether the context owns the feeders, the slot of the most recent PREDICT, and the slots under which the chains
that are not drained yet were filled, oldest first (`none` for a chain without PRED fills); the newest chain stays behind its
drain, marked as drained, until another fill. -/
structure Flow where
  above : List Nat
  form : Option (Nat × Nat × Nat × Nat × Bool)
  own : Bool
  slot : Option Nat
  filled : List (Option Nat × Bool)
deriving DecidableEq, Repr

/-- A program begins with every counter 0, no open chain and no ownership. -/
def Flow.start : Flow := ⟨[], none, false, none, []⟩

/-- A retry drops chains, ownership and bays, and keeps the counters of the step entry (R227). -/
def Flow.dropped (f : Flow) : Flow := { Flow.start with above := f.above }

/-- The slots under which chains were filled, after a fill of the side (R181, R184): FIRST starts a chain's bays, and a PRED
fill puts the newest chain under the slot of the most recent PREDICT. -/
def Flow.fills (f : Flow) (first pred : Bool) : List (Option Nat × Bool) :=
  let open' := f.filled.filter (fun x => !x.2)
  let base := if first || open'.isEmpty then open' ++ [(none, false)] else open'
  (if pred then base.dropLast ++ [(f.slot, false)] else base).drop (base.length - 5)

/-- The slots under which chains were filled, after a chain of the side has drained. -/
def Flow.drained (f : Flow) : List (Option Nat × Bool) :=
  match f.filled with
  | [x] => [(x.1, true)]
  | xs => xs.tail

/-- The form of a chain after a TILE: none is open after its drain. -/
def formAfter (op : BitVec 128) : Option (Nat × Nat × Nat × Nat × Bool) := if tileDrain op then none else some (chainForm op)

/-- What an operation makes of it on one side (R70, R117, R172, R178). -/
def Flow.after (side : Nat) (f : Flow) (op : BitVec 128) : Flow :=
  let f : Flow :=
    match feederUse op with
    | some (sd, first, last) =>
      if sd = side then { f with own := (f.own || first) && !last, filled := f.fills first (opPred op && opcode op != 0x23) } else f
    | none => f
  match opcode op with
  | 0x10 =>
    if tileSide op = side then
      { f with form := formAfter op, filled := if tileDrain op then f.drained else f.filled }
    else f
  | 0x26 => { f with slot := some (prdSlot op) }
  | _ => f

/-- Where an operation at an index leads, with the loop counters that are then above 1 (R97, R109, R110, R120): both ways at
a BRANCH_VANE, and at a LOOP_NEXT by its counter, which a LOOP_NEXT that branches leaves at 1 or above it. -/
def Flow.leads (f : Flow) (i : Nat) (op : BitVec 128) : List (Nat × Flow) :=
  let r := field op 12 3
  let less := f.above.filter (· != r)
  match opcode op with
  | 0x01 => []
  | 0x80 => [(i + 1, { f with above := if 1 < field op 32 32 then insSorted less r else less })]
  | 0x81 => if f.above.contains r then [(field op 32 16, f), (field op 32 16, { f with above := less })] else [(i + 1, f)]
  | 0x82 => [(i + 1, f), (field op 48 16, f)]
  | 0x83 => [(field op 32 16, f)]
  | _ => [(i + 1, f)]

/-- The pairs that can be reached from a list of pairs, given what each leads to, within a number of steps. -/
def reachFrom {α : Type} [DecidableEq α] (leads : α → List α) : Nat → List α → List α → List α
  | 0, _, seen => seen
  | _ + 1, [], seen => seen
  | n + 1, p :: todo, seen =>
    if seen.contains p then reachFrom leads n todo seen else reachFrom leads n (leads p ++ todo) (p :: seen)

/-- Where a retry or a takeover sends a context from the wait at its step entry or its takeover entry (R227, R347): behind
either entry with its work dropped, or to the takeover entry before it has passed the wait. -/
def Flow.retried (p : CtxProg) (i : Nat) (f : Flow) : List (Nat × Flow) :=
  if p.stepEntry == some i || p.takeEntry == some i then
    (i + 1, f.dropped) :: (match p.takeEntry with | some e => [(e, f), (e + 1, f.dropped)] | none => [])
  else []

/-- Where the recompute table of the core sends a context from a wait (R343). -/
def Flow.recomputed (recs : List (BitVec 128)) (p : CtxProg) (i : Nat) (f : Flow) : List (Nat × Flow) :=
  (recs.filter (fun r => recCtx r % 8 == p.ctx && recWait r == i)).map (fun r => (recEntry r, f))

/-- Each operation of a program with what the plan shows of one side on every path that reaches it, along branches, loops and
jumps, retries, takeovers and recompute programs. (DESIGN CHOICE, log entry 70) -/
def flows (side : Nat) (recs : List (BitVec 128)) (xs : List OpSite) : List (OpSite × Flow) :=
  let site (i : Nat) : Option OpSite := xs.find? (fun x => x.idx == i)
  let leads (p : Nat × Flow) : List (Nat × Flow) :=
    match site p.1 with
    | some x => (p.2.after side x.op).leads p.1 x.op ++ p.2.retried x.prog p.1 ++ p.2.recomputed recs x.prog p.1
    | none => []
  let first := ((xs.head?.map (·.prog.first)).getD 0, Flow.start)
  (reachFrom leads (2 ^ 24 * (xs.length + 1) * (xs.length + 2)) [first] []).filterMap (fun p => (site p.1).map (·, p.2))

/-- A TILE of one side that continues no open chain of its own form (R70, R71). (DESIGN CHOICE, log entry 70) -/
def chainBreaks (side : Nat) (q : OpSite × Flow) : Bool :=
  opcode q.1.op == 0x10 && tileSide q.1.op == side && tileAcc q.1.op == 2 && q.2.form != some (chainForm q.1.op)

/-- A fill of one side that finds its context not the owner (R117). (DESIGN CHOICE, log entry 70) -/
def ownBreaks (side : Nat) (q : OpSite × Flow) : Bool :=
  match feederUse q.1.op with
  | some (sd, first, _) => sd == side && !first && !q.2.own
  | none => false

/-- The operations of a program that CHAIN_FORM refuses. -/
def chainFaults (recs : List (BitVec 128)) (xs : List OpSite) : List OpSite :=
  [0, 1].flatMap (fun side => ((flows side recs xs).filter (fun q => chainBreaks side q || ownBreaks side q)).map (·.1))

/-! Ring and memory use over the whole plan (R112, R121). -/

/-- The Draught descriptors that an operation performs or may perform: DRAUGHT's, and those of a ROUTE's PREDICT_DESC. -/
def State.opDescs (s : State) (x : OpSite) : List (BitVec 512) :=
  match opcode x.op with
  | 0x70 => (s.draughtDesc x.core (field x.op 16 16)).toList
  | 0x50 =>
    if rtePredict x.op = 0 then []
    else
      match Tbl.get? (s.prog x.core).routing (rteLayer x.op) with
      | some e => (List.range (homed e x.core).length).filterMap (fun i => s.draughtDesc x.core (rtePredict x.op + i))
      | none => []
  | _ => []

/-- The descriptors that an operation reads. -/
def State.readsOf (s : State) (x : OpSite) : List TDesc :=
  s.descsOf x.core (opSrcRefs x.op) ++ (s.opDescs x).flatMap (fun d =>
    if dscSrcDev d = s.self then s.descsOf x.core (dscSrc d :: (if dscMask d = 0 then [] else [dscMask d])) else [])

/-- The descriptors that an operation writes. -/
def State.writesOf (s : State) (x : OpSite) : List TDesc :=
  s.descsOf x.core (opDstRefs x.op) ++ (s.opDescs x).flatMap (fun d =>
    if dscDstDev d = s.self then s.descsOf x.core (dscDsts d) else [])

/-- The ring that a descriptor names. -/
def TDesc.ringOf (d : TDesc) : Option (Fin 4 × Nat) := if d.ring then some (d.ringCore, d.ringIdx) else none

/-- An operation of a context with a step entry: one that runs within training steps (R221). -/
def OpSite.inStep (x : OpSite) : Bool := x.prog.stepEntry.isSome

/-- A ring's step-scoped mark differs from what R112 asks. -/
def State.markBad (s : State) (xs : List OpSite) (c : Fin 4) (i : Nat) (cfg : RingCfg) : Bool :=
  cfg.stepScoped != xs.any (fun x => x.inStep && (s.readsOf x ++ s.writesOf x).any (fun d => d.ringOf == some (c, i)))

/-- AHEAD on an operation whose source the plan visibly writes within the training step (R121). -/
def State.aheadBad (s : State) (xs : List OpSite) (x : OpSite) : Bool :=
  opAhead x.op && (s.readsOf x).any (fun a => a.shown &&
    xs.any (fun y => y.inStep && (s.writesOf y).any (fun d => d.shown && overlap (d.ranges d.base) (a.ranges a.base))))

/-- A SPEC_ALLOWED ring that a consumer reads which another context produces (R127, code 0x11). -/
def State.specRingBad (s : State) (xs : List OpSite) (x : OpSite) : Bool :=
  (s.readsOf x).any (fun a =>
    match a.ringOf with
    | some (c, i) =>
      ((Tbl.get? (s.prog c).rings i).map (·.specAllowed)).getD false &&
        xs.any (fun y => (y.core != x.core || y.prog.ctx != x.prog.ctx) &&
          (s.writesOf y).any (fun d => d.ringOf == some (c, i)))
    | none => false)

/-! Vanes (R294, R298, R243). -/

/-- The core vane that an operation waits on. -/
def waitsOn (x : OpSite) : Option VaneId := if opcode x.op = 0x61 && !vaneBad x.op then some (opVane x.core x.op) else none

/-- What the plan states of a vane. -/
def State.vaneCfg (s : State) : VaneId → Option VaneCfg
  | .core c k => Tbl.get? (s.prog c).vanes k
  | .chain k => Tbl.get? s.plan.chainVanes k

/-- A vane is marked step-scoped. -/
def State.scoped (s : State) (v : VaneId) : Bool := ((s.vaneCfg v).map (·.stepScoped)).getD false

/-- A vane is the fence vane of its core. -/
def State.isFence (s : State) : VaneId → Bool
  | .core c k => ((s.prog c).fence.map (fun f => f.fenceVane == k)).getD false
  | .chain _ => false

/-- A wait on a fence vane, or on a step-scoped vane that contexts of another training role wait on too (R294). A role is
having a step entry or having none. -/
def State.waitBad (s : State) (xs : List OpSite) (x : OpSite) : Bool :=
  match waitsOn x with
  | some v => s.isFence v || (s.scoped v && xs.any (fun y => waitsOn y == some v && y.inStep != x.inStep))
  | none => false

/-- The vane tables of a core are refused (R294, R298). -/
def State.coreVanes (s : State) (c : Fin 4) : Bool :=
  let p := s.prog c
  p.defaultBound == 0 || decide (2 ^ 32 ≤ p.defaultBound) ||
    p.vanes.any (fun v => decide (48 ≤ v.1) || decide (65535 < v.2.initial) || (v.2.stepScoped && v.2.initial != 0)) ||
    (p.fence.map (fun f => f.fenceVane.val == f.stepVane.val)).getD false

/-- The chain vanes, or the trigger vane of some Foehn group, are refused (R243, R294). -/
def State.deviceVanes (s : State) : Bool :=
  s.plan.chainVanes.any (fun v => decide (64 ≤ v.1) || decide (65535 < v.2.initial) || (v.2.stepScoped && v.2.initial != 0)) ||
    s.plan.foehns.toList.any (fun u => (u.groups ++ u.takeGroups).any (fun g =>
      let v := (groupTrigger g.2).1
      s.isFence v || !s.scoped v))

/-! Predictor slots over a program (R179, R184). -/

/-- The slot that an operation names. -/
def slotOf (x : OpSite) : Option Nat := if opcode x.op = 0x26 || opcode x.op = 0x27 then some (prdSlot x.op) else none

/-- Two descriptors may name the same bytes as the plan shows them: one ring, or footprints that share a byte.
(DESIGN CHOICE, log entry 77) -/
def mayMeet (a b : TDesc) : Bool :=
  match a.ringOf, b.ringOf with
  | some r, some q => r == q
  | none, none => overlap (a.ranges a.base) (b.ranges b.base)
  | _, _ => false

/-- What COPY operations and Draught MOVEs copy: source and destinations (R184). -/
def State.copies (s : State) (xs : List OpSite) : List (TDesc × List TDesc) :=
  xs.flatMap (fun x =>
    (if opcode x.op = 0x32 then
      match s.tdesc x.core (genRef x.op 1), s.tdesc x.core (genRef x.op 0) with
      | some a, some d => [(a, [d])]
      | _, _ => []
     else []) ++
    (s.opDescs x).filterMap (fun d =>
      if dscKind d = 0 then (s.tdesc x.core (dscSrc d)).map (fun a => (a, s.descsOf x.core (dscDsts d))) else none))

/-- The tensors that hold a copy of some tensors, by rounds over the copies. -/
def spreadCopies (cs : List (TDesc × List TDesc)) : Nat → List TDesc → List TDesc
  | 0, ds => ds
  | n + 1, ds =>
    let more := cs.flatMap (fun c => if ds.any (mayMeet c.1) then c.2.filter (fun d => !ds.contains d) else [])
    if more.isEmpty then ds else spreadCopies cs n (ds ++ more)

/-- An operation copies without looking: a COPY or a Draught MOVE. -/
def State.copiesOnly (s : State) (x : OpSite) : Bool :=
  opcode x.op == 0x32 || (opcode x.op == 0x70 && (s.opDescs x).all (fun d => dscKind d == 0))

/-- A reader of some tensors that R184 does not allow: no VEC_FUNC whose table is constant at and below the bound.
(DESIGN CHOICE, log entry 77) -/
def State.readerBad (s : State) (bound : Word) (ds : List TDesc) (x : OpSite) : Bool :=
  (s.readsOf x).any (fun a => ds.any (mayMeet a)) && !s.copiesOnly x &&
    !(opcode x.op == 0x44 && constBelow (s.funcTab x.core (vecTable x.op)) bound)

/-- A VERIFY whose slot is not configured, whose DRAIN_FMT or ROUND differs from its slot's, or whose results something other
than R184 allows reads. -/
def State.verifyBad (s : State) (xs : List OpSite) (x : OpSite) : Bool :=
  match Tbl.get? (s.prog x.core).preds (prdSlot x.op) with
  | some p =>
    vfyFmt x.op != p.drainFmt || b2n (vfyRound x.op) != p.round ||
      let cs := s.copies xs
      let ds := spreadCopies cs (cs.length + 1) (s.descsOf x.core [genRef x.op 0])
      xs.any (s.readerBad p.inactiveT ds)
  | none => true

/-- A draining TILE whose chain was filled under a slot and whose DRAIN_FMT or ROUND differs from the slot's (R184). -/
def predBreak (preds : Tbl PredSlot) (side : Nat) (q : OpSite × Flow) : Bool :=
  opcode q.1.op == 0x10 && tileSide q.1.op == side && tileDrain q.1.op &&
    match (q.2.filled.head?.bind (·.1)).bind (Tbl.get? preds) with
    | some p => tileDrainFmt q.1.op != p.drainFmt || b2n (tileRound q.1.op) != p.round
    | none => false

/-- The operations of a program that the fourth condition of R184 refuses. -/
def predBreaks (preds : Tbl PredSlot) (recs : List (BitVec 128)) (xs : List OpSite) : List OpSite :=
  [0, 1].flatMap (fun side => ((flows side recs xs).filter (predBreak preds side)).map (·.1))

/-- A slot that another context of the core uses too (R179). -/
def slotShared (xs : List OpSite) (x : OpSite) : Bool :=
  (slotOf x).isSome && xs.any (fun y => y.core == x.core && slotOf y == slotOf x && y.prog.ctx != x.prog.ctx)

/-- An operation that SPARSE_FORM refuses (R165, R179, R184). (DESIGN CHOICE, log entry 63) -/
def State.opSparse (s : State) (xs : List OpSite) (x : OpSite) : Bool :=
  boundBad x.op || slotShared xs x || (opcode x.op == 0x26 && (Tbl.get? (s.prog x.core).preds (prdSlot x.op)).isNone) ||
    (opcode x.op == 0x27 && s.verifyBad xs x)

/-! Cores (R62, R81, R92, R97, R112, R208, R221). -/

/-- A step entry that is no VANE_WAIT on the core's step vane, or an entry outside its program (R221), or a context with a
step entry and no takeover entry in a plan that names a twin (R346). (DESIGN CHOICE, log entry 69) -/
def State.entryIndexBad (s : State) (c : Fin 4) (p : CtxProg) : Bool :=
  ((p.stepEntry.toList ++ p.takeEntry.toList).any (targetBad p)) ||
    (s.plan.twin.isSome && p.stepEntry.isSome && p.takeEntry.isNone) ||
    (match p.stepEntry with
     | some i =>
       match s.opAt c i, (s.prog c).fence with
       | some op, some f => opcode op != 0x61 || opVane c op != .core c f.stepVane
       | _, _ => true
     | none => false)

/-- What a core's tables give for MALFORMED_OP (R92, R208, R210, R342). (DESIGN CHOICE, log entry 69) -/
def State.coreMalformed (s : State) (c : Fin 4) : Bool :=
  let p := s.prog c
  p.gust.any (fun e => gustBad e.1 e.2) || p.recompute.any (s.recBad c) || sameRec p.recompute ||
    decide (256 < p.recompute.length) || (p.xchk.enable && p.xchk.ctx.isNone) || decide (16 < p.xchk.log2) ||
    decide (1024 ≤ p.xchk.key) || p.depths.any (fun d => decide (4 < d)) || p.descs.any (fun d => dscKeyBad d.2)

/-- The bytes of a core store that the plan gives out: rings and buffers (R112, R127). -/
def storeUse (p : PlanCore) : List (Nat × Nat) := p.rings.map (fun r => (r.2.base, r.2.slotSize * r.2.slots)) ++ p.buffers

/-- A core's rings are malformed (R112). -/
def State.ringsBad (s : State) (xs : List OpSite) (c : Fin 4) : Bool :=
  (s.prog c).rings.any (fun r => decide (64 ≤ r.1) || decide (r.2.slots < 2) || decide (256 < r.2.slots) || r.2.slotSize == 0 ||
    r.2.slotSize % 4096 != 0 || s.markBad xs c r.1 r.2)

/-- The reasons that a core's own tables give, whatever its operations: by code (R127). -/
def State.coreCodes (s : State) (xs : List OpSite) (c : Fin 4) : List Nat :=
  let p := s.prog c
  let use := storeUse p
  (if s.coreMalformed c then [0x01] else []) ++
  (if !p.progs.isEmpty && (s.core c).health == .failed then [0x02] else []) ++
  (if use.any (fun x => decide (storeSize < x.1 + x.2)) || anyMeet use then [0x03] else []) ++
  (if (!p.progs.isEmpty || !p.depths.isEmpty) && (p.depths.length != 4 || p.depths.any (fun d => decide (d < 3))) then [0x04] else []) ++
  (if s.coreVanes c then [0x05] else []) ++
  (if decide (8 < p.progs.length) || p.progs.any (fun x => decide (8 ≤ x.ctx)) ||
      (p.progs.map (·.ctx)).eraseDups.length != p.progs.length || anyMeet (p.progs.map (fun x => (x.first, x.len))) then [0x06] else []) ++
  (if p.ops.any (fun o => decide (65536 ≤ o.1)) || p.progs.any (fun x => decide (65536 < x.first + x.len)) then [0x0B] else []) ++
  (if funcsBad 32 p.funcs then [0x0C] else []) ++
  (if p.descs.any (fun d => s.dscLayout c d.2) then [0x0E] else []) ++
  (if s.ringsBad xs c then [0x12] else []) ++
  (if p.rowBins.any (fun t => binsBad t.1 t.2) || decide (binStore < p.rowBins.foldl (fun n t => n + t.2.length) 0) ||
      p.preds.any (fun q => slotBad q.1 q.2) then [0x13] else []) ++
  (if p.routing.any (fun e => s.layerBad c e.1 e.2) ||
      decide (routeStore < p.routing.foldl (fun n e => n + 192 + 32 * e.2.experts.length) 0) then [0x14] else []) ++
  (if p.tensors.any (fun d => tdescBad d.1 d.2) || p.descs.any (fun d => s.dscBad c d.1 d.2 || s.dscHuge c d.2) then [0x15] else [])

/-- The reasons that one operation gives. DATAFLOW has none: no operation of R105 can ask for weight-stationary mode. -/
def State.opCodes (s : State) (xs : List OpSite) (x : OpSite) : List Nat :=
  (if s.opMalformed x then [0x01] else []) ++
  (if s.opMissing x then [0x02] else []) ++
  (if opBays x.op then [0x04] else []) ++
  (if s.waitBad xs x then [0x05] else []) ++
  (if ((opTarget x.op).map (targetBad x.prog)).getD false then [0x0B] else []) ++
  (if s.opLayout x then [0x0E] else []) ++
  (if s.opOverlap x then [0x0F] else []) ++
  (if s.aheadBad xs x || s.specRingBad xs x then [0x11] else []) ++
  (if s.opSparse xs x then [0x13] else []) ++
  (if s.routeBad x then [0x14] else []) ++
  (if s.opHuge x then [0x15] else [])

/-- The reasons of a program as a whole: an entry out of place, an index that the program store holds no operation for, a
priority above 7 (R97, R100, R221). (DEDUCED, log entry 49) -/
def State.progCodes (s : State) (c : Fin 4) (p : CtxProg) : List Nat :=
  if s.entryIndexBad c p || decide (7 < p.prio) || p.len == 0 || (progRange p).any (fun i => (s.opAt c i).isNone) then [0x01] else []

/-- The reasons that concern a device-wide resource. (DESIGN CHOICE, log entries 71, 73) -/
def State.deviceCodes (s : State) : List Nat :=
  let p := s.plan
  let hbm := p.regions.filter (fun r => regKind r != 4)
  (if p.foehns.toList.any foehnBad || p.loads.any s.loadBad || decide (64 < p.windows.length) || p.windows.any windowBad ||
      decide (8 < p.ingest.length) || p.ingest.any ingestBad then [0x01] else []) ++
  (if s.deviceVanes then [0x05] else []) ++
  (if decide (512 < p.regions.length) || p.regions.any regionBad || anyMeet (p.regions.map (fun r => (regBase r, regSize r))) ||
      hbm.any s.extentBad || extentsMeet hbm || p.regions.any s.uncovered ||
      (allFin 12).any (fun n => ((p.foehns.get n).groups ++ (p.foehns.get n).takeGroups).any (fun g => s.placedBad n g.2)) ||
      p.windows.any s.windowReach || p.ingest.any s.ingestOutside || buffersMeet p then [0x07] else []) ++
  (if p.regions.any s.stashBad || s.stashMeet then [0x08] else []) ++
  (if s.linksBad then [0x09] else []) ++
  (if s.slotsBad || (p.keepBytes != 0 && decide (Config.keepQuota < p.keepBytes)) then [0x0A] else []) ++
  (if p.foehns.toList.any (fun u => funcsBad 4 u.funcs) then [0x0C] else [])

/-! The first failure. -/

/-- A failure: reason code, core, context, operation index. -/
abbrev Failure := Nat × Nat × Nat × Nat

/-- Failure `a` comes before `b` in the order of R127. -/
def Failure.before (a b : Failure) : Bool :=
  decide (a.1 < b.1) || (a.1 == b.1 && (decide (a.2.1 < b.2.1) || (a.2.1 == b.2.1 &&
    (decide (a.2.2.1 < b.2.2.1) || (a.2.2.1 == b.2.2.1 && decide (a.2.2.2 < b.2.2.2))))))

/-- The earlier of two failures. -/
def Failure.min (a b : Failure) : Failure := if Failure.before b a then b else a

/-- Every failure of the plan that the device holds (R127). -/
def State.failures (s : State) : List Failure :=
  let xs := s.sites
  let ofOp (code : Nat) (x : OpSite) : Failure := (code, x.core.val, x.prog.ctx, x.idx)
  s.deviceCodes.map (fun code => (code, 0xF, 0, 0)) ++
  (allFin 4).flatMap (fun c => (s.coreCodes xs c).map (fun code => (code, c.val, 0, 0))) ++
  (allFin 4).flatMap (fun c => (s.prog c).progs.flatMap (fun p => (s.progCodes c p).map (fun code => (code, c.val, p.ctx, 0)))) ++
  (allFin 4).flatMap (fun c => (s.prog c).progs.flatMap (fun p =>
    (chainFaults (s.prog c).recompute (s.sitesOf c p)).map (ofOp 0x0D) ++
      (predBreaks (s.prog c).preds (s.prog c).recompute (s.sitesOf c p)).map (ofOp 0x13))) ++
  xs.flatMap (fun x => (s.opCodes xs x).map (fun code => ofOp code x))

/-- The first failure, if the plan has one (R127). (DEDUCED, log entry 49) -/
def State.firstFailure (s : State) : Option Failure :=
  match s.failures with
  | [] => none
  | f :: fs => some (fs.foldl Failure.min f)

end Sys2Proof.Machine
end

