-- ==== Sys2Proof/Machine/Keep.lean ====
section
/-! DEFINITION. The keep store (R410, R411): where its 64-bit words lie, what each holds, and what the loss of a word leaves. -/

namespace Sys2Proof.Machine

/-- Words of the keep store (R410). -/
def keepWords : Nat := 0x20000

/-- The bank in which a word lies (R410). -/
def keepBank (w : Nat) : Nat := (w + w / 8) % 16

/-- The first words of the ageing history, the reset history and the owner security state (R410). -/
def ageingWord : Nat := 0x10000
def resetWord : Nat := 0x18000
def ownerWord : Nat := 0x1C000

/-- The header of the ageing history (R416). -/
def Hlt.header (h : Hlt) : List Byte :=
  leBytes 2 h.histVset ++ leBytes 1 h.computeCode ++ leBytes 1 h.linkCode ++ leBytes 4 h.nextSummary ++ leBytes 8 h.measurements

/-- A line of the line table (R416). -/
def Canary.bytes (c : Canary) : List Byte :=
  [signedByte c.first, signedByte c.min, signedByte c.last, 0] ++ leBytes 4 c.measured ++ leBytes 4 c.firstReset ++ zeros 4

/-- Bytes from an offset of the ageing history on (R416). -/
def Hlt.keepBytes (h : Hlt) (o : Nat) : List Byte :=
  if o < 64 then h.header.drop o
  else if o < 64 + 2048 then ((h.lines.get (Fin.ofNat 128 ((o - 64) / 16))).bytes).drop ((o - 64) % 16)
  else if o < 4096 then []
  else ((Tbl.get? h.summaries ((o - 4096) / 64)).getD []).drop (o % 64)

/-- Bytes from an offset of the reset history on (R408): FAILS, the two copies of the SEQ mark and the ring of records, of which
the manual numbers no slot. (DESIGN CHOICE, log entry 149) -/
def State.resetBytes (s : State) (o : Nat) : List Byte :=
  if o < 64 then (leBytes 1 s.rst.fails ++ zeros 7 ++ leBytes 6 s.evr.mark ++ zeros 2 ++ leBytes 6 s.evr.mark).drop o
  else (s.rst.history.getD ((o - 64) / 64) []).drop (o % 64)

/-- A word of the keep store (R410). The manual gives the owner security state no layout: its words are none of these.
(DESIGN CHOICE, log entry 149) -/
def State.keepWord (s : State) (w : Nat) : Option Nat :=
  if w < ageingWord then some (ofLe ((((Tbl.get? s.evr.slots (w / 8)).getD []).drop (8 * (w % 8))).take 8))
  else if w < resetWord then some (ofLe ((s.hlt.keepBytes (8 * (w - ageingWord))).take 8))
  else if w < ownerWord then some (ofLe ((s.resetBytes (8 * (w - resetWord))).take 8))
  else none

/-! A word that cannot be corrected reads as 0 (R411). -/

/-- Word `j` of a byte string read as 0. -/
def dropWord (bs : List Byte) (j : Nat) : List Byte :=
  if bs.isEmpty then bs else bs.take (8 * j) ++ zeros (min 8 (bs.length - 8 * j)) ++ bs.drop (8 * j + 8)

/-- A line of the line table of which a word is lost. -/
def Canary.dropWord (c : Canary) (second : Bool) : Canary :=
  if second then { c with firstReset := 0 } else { c with first := 0, min := 0, last := 0, measured := 0 }

/-- The ageing history after the loss of the word at an offset. -/
def Hlt.dropWord (h : Hlt) (o : Nat) : Hlt :=
  if o = 0 then { h with histVset := 0, computeCode := 0, linkCode := 0, nextSummary := 0 }
  else if o = 8 then { h with measurements := 0 }
  else if o < 64 then h
  else if o < 64 + 2048 then { h with lines := upd h.lines (Fin.ofNat 128 ((o - 64) / 16)) (fun c => c.dropWord (o % 16 == 8)) }
  else if o < 4096 then h
  else
    match Tbl.get? h.summaries ((o - 4096) / 64) with
    | some b => { h with summaries := Tbl.set h.summaries ((o - 4096) / 64) (Sys2Proof.Machine.dropWord b (o % 64 / 8)) }
    | none => h

/-- The reset history after the loss of the word at an offset; a copy of the mark is judged where it is read.
(DESIGN CHOICE, log entry 149) -/
def Rst.dropWord (r : Rst) (o : Nat) : Rst :=
  if o = 0 then { r with fails := 0 }
  else if o < 64 then r
  else { r with history := (List.range r.history.length).map (fun i =>
    if i = (o - 64) / 64 then Sys2Proof.Machine.dropWord (r.history.getD i []) (o % 64 / 8) else r.history.getD i []) }

/-- The keep store after the loss of a word. -/
def State.dropKeep (s : State) (w : Nat) : State :=
  if w < ageingWord then
    (match Tbl.get? s.evr.slots (w / 8) with
     | some b => s.modEvr (fun e => { e with slots := Tbl.set e.slots (w / 8) (dropWord b (w % 8)) })
     | none => s)
  else if w < resetWord then s.modHlt (fun h => h.dropWord (8 * (w - ageingWord)))
  else s.modRst (fun r => r.dropWord (8 * (w - resetWord)))

/-- The words of the two copies of the SEQ mark (R408). -/
def markWordA : Nat := resetWord + 1
def markWordB : Nat := resetWord + 2

/-- Words of the keep store that fail their check: counted, KEEP_ERR_SEEN set, and one record each, whose fields no rule
names (R411). (DEDUCED, log entry 141) -/
def State.keepErrors (s : State) (n : Nat) : State :=
  if n = 0 then s
  else (List.range n).foldl (fun s _ => s.ask 0x30 (s.unit 0xC 0x03 0) [])
    (s.modHlt (fun h => { h with keepErrSeen := true, bank := h.bank.add 5 n }))

/-- What phase 1 reads of the keep store (R411): corrected words are counted, and words that cannot be corrected read as 0. -/
def State.readKeep (s : State) (fixed lost : List Nat) : State :=
  (lost.foldl State.dropKeep ((s.keepErrors lost.length).modHlt (fun h => { h with bank := h.bank.add 4 fixed.length })))

/-- A loss of VKEEP stopped the flush that ran on at a loss of power (R431): of the records named, only the pulses that had ended
stand in their slots. -/
def Evr.cutShort (e : Evr) (stopped : List (Nat × Nat)) : Evr :=
  { stopped.foldl (fun e x =>
      match Tbl.get? e.cut x.1 with
      | some old => { e with slots := Tbl.set e.slots (x.1 % 8192) (slotAfter old (e.slotOf x.1) x.2) }
      | none => e) e with cut := [] }

end Sys2Proof.Machine
end

