-- ==== Sys2Proof/Machine/Restore.lean ====
section
/-! DEFINITION. Restored parameters (spec/09 R231, spec/13 R344, R345, spec/12 R332, spec/14 R375, R376): chunks with their
proofs, the host load through a load channel, and the end of a SUBMIT (R379). -/

namespace Sys2Proof.Machine

/-! Places of chunks. -/

/-- The chunks (stack, group, kind, chunk) that lie in the region of a load table entry. -/
def State.loadChunks (s : State) (l : BitVec 128) : List (Nat × Nat × Nat × Nat) :=
  match s.region (loadBase l) with
  | none => []
  | some r =>
    (allFin 12).flatMap (fun n => (s.shardGroups n (loadShard l)).flatMap (fun g => (groupKinds g.2).flatMap (fun k =>
      if regBase r ≤ grpBase g.2 k && grpBase g.2 k < regBase r + regSize r then
        (List.range (groupChunks g.2)).map (fun i => (n.val, g.1, k, i))
      else [])))

/-! Proofs (R344). -/

/-- The node that a leaf and its path give: at each level the sibling, or none where the node rises unpaired. -/
def climb : List (Option (List Byte)) → Nat → List Byte → List Byte
  | [], _, h => h
  | none :: t, i, h => climb t (i / 2) h
  | some sib :: t, i, h => climb t (i / 2) (if i % 2 = 0 then nodeHash h sib else nodeHash sib h)

/-- The root that a chunk's bytes and its proof give. -/
def proofRoot (p : ChunkProof) (bytes : List Byte) : List Byte :=
  let leaf := Leaf.hash ⟨p.stack, p.group, p.kind, p.chunk, bytes.length, sha384 bytes⟩
  rootOver p.srcDev p.step p.full p.leaves (climb p.path p.leafIndex leaf)

/-- The root in the device's own commit record of a step (R344): the COMMIT_ROOT that follows its COMMIT. -/
def State.recordedRoot (s : State) (step : Nat) : Option (List Byte) :=
  match (s.evr.recordsOf 0x20).find? (fun r => ofLe (slice r 16 6) == step) with
  | some r =>
    ((s.evr.record? (ofLe (r.take 6) + 1)).filter (fun t => (t.getD 6 0).toNat == 0x21)).map (fun t => slice t 16 48)
  | none => none

/-- The device stands outside the chain or joins it: its twin brings it its own shard (R330, R332). -/
def State.outsider (s : State) : Bool := s.chain.role == .outside || s.chain.role == .joining

/-- The reference root of a step of a device (R344): one named in the plan before any other; for a joiner's own shard also the
one that its twin's stream brought (R332). -/
def State.referenceRoot (s : State) (dev step : Nat) : Option (List Byte) :=
  match s.plan.roots.find? (fun r => r.dev == dev && r.step == step) with
  | some r => some r.root
  | none =>
    if dev = s.self then
      if s.outsider && s.slip.rx.step == step && s.slip.rx.wanted.isSome then s.slip.rx.wanted
      else if s.slip.rootStep = some step then some s.slip.committedRoot
      else s.recordedRoot step
    else if (s.plan.twin.map (·.dev)) = some dev then
      (s.slip.shadowRoots.find? (fun r => r.1 == step)).map (·.2.1)
    else none

/-- A chunk is accepted (R344). -/
def State.proofOk (s : State) (p : ChunkProof) (bytes : List Byte) : Bool :=
  match s.chunkPlace p.srcDev p.step p.stack p.group p.kind p.chunk, s.referenceRoot p.srcDev p.step with
  | some (_, n), some root => bytes.length == n && p.length == n && root == proofRoot p bytes
  | _, _ => false

/-- A sealed chunk record opened with the plan's CHECKPOINT slot (R375, R376). -/
def State.openRecord (s : State) (p : ChunkProof) (r : List Byte) : Option (List Byte) :=
  let h := r.take 48
  let want := leBytes 2 p.srcDev ++ leBytes 6 p.step ++ leBytes 1 p.stack ++ leBytes 1 p.kind ++ leBytes 2 p.group ++
    leBytes 4 p.chunk ++ leBytes 4 p.length ++ leBytes 1 (b2n p.full) ++ zeros 3
  if h.take 24 != want || r.length != 64 + p.length then none
  else
    match s.plan.ckptSlot.bind s.slotKey with
    | some key =>
      let k := hkdfExpand (hkdfExtract (zeros 48) key) (ascii "tvx ckpt" ++ leBytes 2 p.srcDev ++ leBytes 6 p.step) 32
      Config.gcmOpen k (slice h 24 12) h (slice r 48 p.length) (r.drop (48 + p.length))
    | none => none

/-- The plaintext that a source brings. -/
def State.restoredBytes (s : State) (p : ChunkProof) : ChunkSource → Option (List Byte)
  | .twin bs => some bs
  | .store r => s.openRecord p r

/-- A chunk refused (R344): counted, reported, never written. (DEDUCED, log entry 111) -/
def State.refuseRestore (s : State) : State :=
  (((s.modChain (fun c => { c with restoreRefused := true })).countRec 4).ask 0x23 (s.unit 0xC 0x50 0) (leBytes 1 4)).stepAbandon 0x0C

/-- The load table entries, still to be loaded, whose region holds a device address. -/
def State.loadsOf (s : State) (a : Nat) (dev : Nat) : List Nat :=
  s.loads.filter (fun i =>
    match s.plan.loads[i]? with
    | some l => (match s.region (loadBase l) with | some r => decide (regBase r ≤ a && a < regBase r + regSize r) | none => false) &&
        (loadShard l == (if dev = s.self then 0 else 1))
    | none => false)

/-- The stack of a load table entry's region. -/
def State.loadStack (s : State) (i : Nat) : Option (Fin 12) :=
  (s.plan.loads[i]?).bind (fun l => (s.region (loadBase l)).map (fun r => Fin.ofNat 12 (regStack r)))

/-- FHN_STATUS.LOADING is set while the loads of a stack run (R231). -/
def State.showLoading (s : State) : State :=
  { s with foehn := Vector.ofFn (fun n => { s.fhn n with loading := s.loads.any (fun i => s.loadStack i == some n) }) }

/-- Loads whose region's chunks have all been accepted are complete (R231): a STORE load of a member, and whatever its source, a
load of a device that its twin brings up to date (R332). -/
def State.settleLoads (s : State) : State :=
  ({ s with loads := s.loads.filter (fun i =>
      match s.plan.loads[i]? with
      | some l => (loadSource l != 0 && s.chain.role == .member) ||
          !(s.loadChunks l).all (fun c => s.loadedChunks.contains (i, c.2.1, c.2.2.1, c.2.2.2))
      | none => true) } : State).showLoading

/-- The newest full step before the last committed one that the store has acknowledged (R345). -/
def State.storeFull (s : State) : Nat :=
  let n := min (s.lastStep - 1) (s.slip.storeAck.getD 0)
  n - n % max 1 s.plan.stateEvery

/-- The steps as of which an awaited chunk of a kind is restored, each with whether its source is the store (R345): in TAKEOVER the
store as of r; otherwise the twin's shadow as of r; and where r is no full step, state also from the store as of the newest full step,
in TAKEOVER too, since no tree of r names it (R244, R348). (DESIGN CHOICE, log entry 146) -/
def State.restoreFrom (s : State) (kind : Nat) : List (Nat × Bool) :=
  let older := if kind = 0 || s.fullStep s.lastStep then [] else [(s.storeFull, true)]
  if s.dev.st == .takeover then (s.lastStep, true) :: older
  else if older.isEmpty then [(s.lastStep, false)] else older

/-- A source is the store. -/
def fromStore : ChunkSource → Bool
  | .twin _ => false
  | .store _ => true

/-- The STORE loads that ask for a chunk as of its step (R231), and, on a device that is no member, every load of its own shard,
which its twin brings (R332). (DESIGN CHOICE, log entry 146) -/
def State.loadsFor (s : State) (p : ChunkProof) (a : Nat) (store : Bool) : List Nat :=
  (s.loadsOf a p.srcDev).filter (fun i =>
    match s.plan.loads[i]? with
    | some l =>
      if store then loadSource l == 0 && loadStep l == p.step else s.chain.role != .member && p.srcDev == s.self
    | none => false)

/-- A unit awaits the chunk at a device address, as of its step and from its source (R345).
(DESIGN CHOICE, log entry 146) -/
def State.awaited (s : State) (p : ChunkProof) (a : Nat) (store : Bool) : Bool :=
  s.awaitsAt p.stack a && (s.restoreFrom p.kind).contains (p.step, store)

/-- A joiner takes its shard anew from its twin (R332). (DESIGN CHOICE, log entry 146) -/
def State.joinerTakes (s : State) (p : ChunkProof) (store : Bool) : Bool :=
  s.chain.role != .member && !store && p.srcDev == s.self

/-- A chunk holds state older than the step that it is restored for (R231, R345): an awaited one than the last committed step,
a loaded one than the weights of its group. -/
def State.staleChunk (s : State) (p : ChunkProof) (a : Nat) : Bool :=
  p.kind != 0 &&
    ((s.awaitsAt p.stack a && p.step < s.lastStep) ||
      (match s.groupNamed p.srcDev p.step p.stack p.group with
      | some g => s.plan.loads.any (fun l =>
          match s.region (loadBase l) with
          | some r => loadSource l == 0 && decide (regBase r ≤ grpBase g 0) && decide (grpBase g 0 < regBase r + regSize r) &&
              decide (p.step < loadStep l)
          | none => false)
      | none => false))

/-- A chunk of some loads is there. -/
def State.loadedAt (s : State) (loads : List Nat) (group kind chunk : Nat) : State :=
  { s with loadedChunks := loads.foldl (fun acc i =>
      if acc.contains (i, group, kind, chunk) then acc else acc ++ [(i, group, kind, chunk)]) s.loadedChunks }

/-- An accepted chunk written into its committed half (R231, R344, R345). -/
def State.acceptChunk (s : State) (p : ChunkProof) (a : Nat) (bytes : List Byte) (store : Bool) : State :=
  let n := p.stack
  let stale := s.staleChunk p a
  let loads := s.loadsFor p a store
  let s := (s.writeBytes a bytes false).countRec 3
  let s := if stale then s.modChain (fun c => { c with staleState := true }) else s
  let s := s.ask 0x23 (s.unit 4 n 0) (leBytes 6 p.step ++ leBytes 1 p.stack ++ leBytes 1 p.kind ++ leBytes 2 p.group ++
    leBytes 4 p.chunk ++ leBytes 1 (b2n stale))
  let s := s.loadedAt loads p.group p.kind p.chunk
  let tab := s.groupTable n
  let s := s.modFhn n (fun f => { f with awaiting := f.awaiting.filter (fun w =>
    match Tbl.get? tab w.1 with | some g => grpBase g w.2.1 + chunkSize * w.2.2 != a | none => true) })
  s.settleLoads.startDue

/-- A chunk offered to the device (R231, R332, R344, R345): refused unless its bytes open and its proof gives the reference root;
taken where a load, a Foehn unit or a joiner waits for it as of its step and from its source, and left alone where nothing
does. (DESIGN CHOICE, log entry 146) -/
def State.offerChunk (s : State) (p : ChunkProof) (bytes : Option (List Byte)) (store : Bool) : State :=
  match bytes with
  | none => s.refuseRestore
  | some bs =>
    if !s.proofOk p bs then s.refuseRestore
    else
      match s.chunkPlace p.srcDev p.step p.stack p.group p.kind p.chunk with
      | some (a, _) =>
        if !(s.loadsFor p a store).isEmpty || s.awaited p a store || s.joinerTakes p store then s.acceptChunk p a bs store
        else s
      | none => s

/-- RESTORE_CHUNK (R231, R344, R345, R376): while the plan runs. -/
def execRestoreChunk (proof : ChunkProof) (src : ChunkSource) (s : State) : Out :=
  if s.running then done (s.offerChunk proof (s.restoredBytes proof src) (fromStore src)) else stay s

/-- A joiner's shard is current (R332): no load is left, and what it holds of the step whose root its twin brought gives that root.
A grant that waited for it takes effect. State is as of the last full step (R244), which is shown where that step is older (R345).
(DESIGN CHOICE, log entry 118) -/
def State.shardCheck (s : State) : State :=
  let x := s.slip.rx
  let cs := s.shardChunks s.self 0 x.step
  if s.outsider && s.loads.isEmpty && x.wanted.isSome && x.wanted == some (s.shardRoot s.self x.step cs) then
    let s := (s.modSlip (fun y => { y with committedRoot := x.wanted.getD [], rootStep := some x.step })).modChain (fun c =>
      { c with
        shardCurrent := true
        staleState := c.staleState || (!s.fullStep x.step && (allFin 12).any (fun n =>
          (s.shardGroups n 0).any (fun g => groupKinds g.2 != [0]))) })
    match s.chain.grantHeld with
    | some payload => s.joins payload
    | none => s
  else s

/-- A frame of the twin's stream to a joiner, in its turn (R246, R332): the first one of a later step makes the shard no longer
current. -/
def State.joinFrame (s : State) (f : Frame) (act : State → State) : State :=
  let x := s.slip.rx
  if !s.shadows f || f.step < x.step then s
  else
    let s := if x.step = f.step && x.attempt = f.attempt then s
      else (s.modSlip (fun x => { x with rx := { ShadowRx.none with step := f.step, attempt := f.attempt } })).modChain (fun c =>
        { c with shardCurrent := false })
    if f.seq != s.slip.rx.seq then s.shadowAnswer 6 f
    else act (s.modSlip (fun x => { x with rx := { x.rx with seq := x.rx.seq + 1 } }))

/-- CHUNK_END at a joiner (R247, R332): a whole chunk whose digest matches is written into its committed half. -/
def State.joinChunk (s : State) (f : Frame) : State :=
  let bytes := (chunkBytes (s.slip.rx.part (Frame.place f))).filter (fun bs => f.payload == sha384 bs)
  let place := s.chunkPlace s.self f.step f.stack f.group f.kind f.chunk
  let s := s.modSlip (fun x => { x with rx := { x.rx with parts := x.rx.parts.filter (fun e => e.1 != Frame.place f) } })
  match bytes, place with
  | some bs, some (a, n) =>
    if bs.length = n then
      (((s.writeBytes a bs false).loadedAt (s.loadsOf a s.self) f.group f.kind f.chunk).settleLoads.shadowAnswer 5 f).shardCheck
    else s.shadowAnswer 6 f
  | _, _ => s.shadowAnswer 6 f

/-- The stream that keeps a joiner's shard current (R332), by the TYPE of its frames. (DESIGN CHOICE, log entry 118) -/
def State.takeJoin (s : State) (p : Packet) : State :=
  let f := (frameOf p.payload).1
  match f.type with
  | 1 => s.joinFrame f (·.takeFrameData f)
  | 2 => s.joinFrame f (·.joinChunk f)
  | 3 => s.joinFrame f (fun s => (s.modSlip (fun x => { x with rx := { x.rx with wanted := some f.payload } })).shardCheck)
  | _ => s.takeSlip p

/-- SHARD (R332): bytes of a chunk or of a partner image; the packet that ends a chunk brings its proof. -/
def State.takeShard (s : State) (pkt : Packet) (proof : Option ChunkProof) : State :=
  let bytes := s.chain.shardRx ++ pkt.payload
  match proof with
  | none => s.modChain (fun c => { c with shardRx := bytes })
  | some p =>
    ((s.modChain (fun c => { c with shardRx := [] })).offerChunk p (some bytes) false).shardCheck

/-! The host load (R231). -/

/-- STEP of the frames of a load channel. -/
def hostStep : Nat := 2 ^ 48 - 1

/-- The next frame of a load channel's payload: none where it is refused. (DESIGN CHOICE, log entry 88) -/
def hostFrame (bs : List Byte) : Option (Frame × List Byte) :=
  let (f, n) := frameOf bs
  if bs.length < 64 || bs.length < 64 + n || !(f.type == 1 || f.type == 2) || f.step != hostStep then none
  else some (f, bs.drop (64 + n))

/-- The chunks that every HOST load of the device must bring, as the places of their leaves; a leaf of the twin's shard is
numbered behind the device's own (DESIGN CHOICE, log entry 88). -/
def State.hostExpected (s : State) : List (Nat × Nat × Nat × Nat) :=
  (s.plan.loads.filter (fun l => loadSource l == 1)).flatMap (fun l =>
    (s.loadChunks l).map (fun c => (c.1, c.2.1 + (if loadShard l = 0 then 0 else 65536), c.2.2.1, c.2.2.2)))

/-- A host load runs (R231): before step s begins, with a HOST range still to arrive. -/
def State.hostLoading (s : State) : Bool :=
  !s.begun && s.loads.any (fun i => ((s.plan.loads[i]?).map (fun l => loadSource l == 1)).getD false)

/-- A write to a parameter region that is no part of a load (R229). -/
def State.strayWrite (s : State) (stack a : Nat) : State := s.violate ⟨0x05, srcWord s.self 4 stack 0, a, s.self⟩

/-- One frame of the host load written or checked: false where its digest fails. A frame that names no place of a HOST range
is ignored (DESIGN CHOICE, log entry 88); the bytes of one that comes when no host load runs are a stray write (R229). -/
def State.hostTake (s : State) (f : Frame) : State × Bool :=
  let g := f.group + (if f.srcDev = s.self then 0 else 65536)
  match s.chunkPlace f.srcDev f.step f.stack f.group f.kind f.chunk with
  | none => (s, true)
  | some (a, n) =>
    if !s.hostExpected.contains (f.stack, g, f.kind, f.chunk) then (s, true)
    else if !s.hostLoading then (if f.type = 1 then s.strayWrite f.stack (a + f.offset) else s, true)
    else if f.type = 1 then
      (if f.offset + f.payload.length ≤ n then s.writeBytes (a + f.offset) f.payload false else s, true)
    else
      let d := sha384 (s.peek a n)
      if f.payload == d then ({ s with hostLeaves := insLeaf ⟨f.stack, g, f.kind, f.chunk, n, d⟩ s.hostLeaves }, true)
      else (s, false)

/-- The frames of a buffer's payload in order, until one is refused; `fuel` bounds them. -/
def State.hostFrames (s : State) : Nat → List Byte → State × Bool
  | 0, _ => (s, true)
  | fuel + 1, bs =>
    if bs.isEmpty then (s, true)
    else
      match hostFrame bs with
      | none => (s, false)
      | some (f, rest) =>
        match s.hostTake f with
        | (s', true) => s'.hostFrames fuel rest
        | (s', false) => (s', false)

/-- The order of R248 over the chunks of both shards: a chunk of the device's own comes before the twin's of the same place.
(DESIGN CHOICE, log entry 88) -/
def hostBefore (a b : Leaf) : Bool :=
  let x : Leaf := { a with group := a.group % 65536 }
  let y : Leaf := { b with group := b.group % 65536 }
  if x.key = y.key then a.group < b.group else x.before y

/-- A leaf put at its place among those of both shards. -/
def insHost (l : Leaf) : List Leaf → List Leaf
  | [] => [l]
  | x :: xs => if hostBefore l x then l :: x :: xs else x :: insHost l xs

/-- Every HOST range has arrived: the root over its chunks is compared with HOST_ROOT (R231). -/
def State.hostDone (s : State) : State :=
  let want := s.hostExpected
  if want.isEmpty || !want.all (fun k => s.hostLeaves.any (fun l => l.key == k)) then s
  else if s.plan.hostRoot = some (rootOf s.self hostStep true (s.hostLeaves.foldl (fun acc l => insHost l acc) [])) then
    ({ s with loads := s.loads.filter (fun i => ((s.plan.loads[i]?).map (fun l => loadSource l != 1)).getD true) } : State).showLoading
  else s.refuseRestore

/-- A load channel's buffer taken, and released at once (R231); nothing of a refused one is written (DESIGN CHOICE, log entry
88). -/
def State.loadBuffer (s : State) (c b : Nat) (plain : List Byte) : State :=
  let (s', ok) := s.hostFrames (plain.length / 64 + 1) plain
  let s := if ok then s' else s
  let s := s.modChannel c (fun x => { x with ready := x.ready.filter (· != b), free := x.free ++ [b] })
  if ok then (if s.hostLoading then s.hostDone else s) else s.refuseRestore

/-- INGEST_BUFFER_READY (R379): the buffer that is being checked opens, or fails its tag. -/
def execIngestBufferReady (s : State) : Out :=
  match s.sec.ingestCmd.running with
  | none => stay s
  | some (c, p, tag) =>
    match s.channel c with
    | some (e, ch) =>
      match ch.busy with
      | none => stay s
      | some b =>
        let n := ofLe (s.peek (ingBuffer e b) 8)
        let sealed_ := (s.peek (ingBuffer e b + 8) 1) != [0]
        match s.openBuffer e b with
        | none =>
          let s := (s.writeBytes (ingBuffer e b + 64) ((s.freeCodes n).map (BitVec.ofNat 8)) false).spent n
          let s := s.modChannel c (fun x => { x with free := x.free ++ [b], busy := none })
          let s := s.modSec (fun x => { x with ingestFailSeen := true, bank := x.bank.add 4 1 })
          done (s.submitEnds p tag .failed)
        | some plain =>
          let s := if sealed_ then s.writeBytes (ingBuffer e b + 64) plain false else s
          let s := s.modChannel c (fun x =>
            { x with ready := x.ready ++ [b], busy := none, fill := (x.fill + 1) % (max 1 (ingBuffers e)) })
          let s := s.modSec (fun x => { x with bank := (x.bank.add 3 1).add 5 n })
          let s := if ingLoad e then s.loadBuffer c b plain else s.signalNow [ingSignal s.self 1 e]
          done (s.submitEnds p tag .done)
    | none => stay s

end Sys2Proof.Machine
end

