-- ==== Sys2Proof/Machine/Reset.lean ====
section
/-! DEFINITION. Resets (spec/15): their sources (R389), the commands of RST_CMD (R396), what a reset does before it takes
effect (R393, R394), what each scope keeps (R390), the reset history (R408), and a bring-up that fails (R403, R405). -/

namespace Sys2Proof.Machine

/-! The reset history (R408). -/

/-- The record that phase 1 writes, its outcome fields as yet 0 but for the phase reached.
(DESIGN CHOICE, log entry 127) -/
def resetRecord (count : Nat) (t : Taking) : List Byte :=
  leBytes 4 count ++ leBytes 1 (t.source + 16 * scopeCode t.scope) ++ leBytes 1 1 ++ leBytes 2 (t.sources.toNat % 1024) ++
    zeros 8 ++ leBytes 8 t.tick ++ leBytes 6 t.step ++ zeros 34

/-- A record with its outcome fields: REACHED, FAIL_CODE, BOOT and PLAN. (DESIGN CHOICE, log entry 127) -/
def withOutcome (r : List Byte) (reached code boot : Nat) (plan : List Byte) : List Byte :=
  r.take 5 ++ leBytes 1 reached ++ slice r 6 2 ++ leBytes 1 code ++ leBytes 1 boot ++ slice r 10 22 ++
    (plan ++ zeros 16).take 16 ++ zeros 16

/-- BOOT of a reset record: the source used and FALLBACK. -/
def Rst.boot (r : Rst) : Nat := r.bootSrc + 4 * b2n r.fallback

/-- The scope of the bring-up that runs is a core reset's. -/
def State.coreBringUp (s : State) : Bool := s.rst.cur.scope == .core

/-- The outcome of the bring-up that runs, written into the newest record. A core reset's bring-up accepts no plan (R391, R408). -/
def State.outcome (s : State) (reached code : Nat) : State :=
  let plan := if s.loaded && !s.coreBringUp then s.dev.digest.take 16 else []
  s.modRst (fun r =>
    { r with history := match r.history with
        | x :: xs => withOutcome x reached code r.boot plan :: xs
        | [] => [] })

/-! Bring-up phases. -/

/-- A phase of the bring-up begins. -/
def State.enterPhase (s : State) (n : Nat) : State :=
  (s.modDev (fun d => { d with st := .bringUp, phase := n })).modRst (fun r => { r with phaseSince := s.now, linksBegun := false })

/-- The bring-up stands in a phase, with no reset to be taken and no failure to wait out. -/
def State.inPhase (s : State) (n : Nat) : Bool :=
  s.dev.st == .bringUp && s.dev.phase == n && s.rst.taking.isNone && s.rst.failedWait.isNone

/-- The safe state (R405): links and BAR2 are held off, and no session is open. -/
def State.enterSafe (s : State) (phase : Nat) : State :=
  (((s.linksDown.dropSession 0).dropSession 1).modDev (fun d => { d with st := .safe, phase := phase })).modRst (fun r => { r with safe := true, failedWait := none })

/-- The detail that a BRING_UP record of a failure carries: PLAN_CHECK, or the reason of a refused plan. -/
def State.failDetail (s : State) (code : Nat) : Nat := if code = 6 then s.sec.planCheck else if code = 9 then s.fit.1 else 0

/-- A bring-up fails in the phase that runs (R403, R404): RST_STATUS, the reset history and one record; code 0x01 or 0x02
enters the safe state (R405). (DEDUCED, log entries 110, 128; DESIGN CHOICE, log entry 129) -/
def State.failBringUp (s : State) (code : Nat) : State :=
  let phase := s.dev.phase
  let s := s.modRst (fun r =>
    { r with fails := min 255 (r.fails + 1), failPhase := phase, failCode := code, failedWait := some s.now })
  let s := (s.outcome phase code).ask 0x10 (s.unit 0xC 0x01 0) (leBytes 1 phase ++ leBytes 1 code ++ leBytes 1 (s.failDetail code))
  if code = 1 || code = 2 then s.enterSafe phase else s

/-- FAILED_BRING_UP_WAIT_EXPIRY (R403): 2^24 device ticks after the failure, a reset of the scope that failed. -/
def execFailedBringUpWaitExpiry (s : State) : Out :=
  match s.rst.failedWait with
  | some t =>
    if s.rst.taking.isNone && t + 2 ^ 24 ≤ s.now then done (s.recognise 8 s.rst.cur.scope) else stay s
  | none => stay s

/-! Sources (R389, R392). -/

/-- What holds a device in reset has been released: the bound of phase 1 runs from here, if that is where the device stands
(R394, R398). -/
def State.holdReleased (s : State) : State :=
  if s.dev.st = .bringUp ∧ s.dev.phase = 1 then s.modRst (fun r => { r with phaseSince := s.now }) else s

/-- POWER_ON_RESET (R389): every rail is within its window. -/
def execPowerOnReset (s : State) : Out := done ((s.modRst (fun r => { r with held := false })).holdReleased.recognise 0 .cold)

/-- PIN_RESET (R389, R392): RESET_N has fallen. -/
def execPinReset (s : State) : Out :=
  if s.ports.resetLow then stay s else done ((s.modPorts (fun p => { p with resetLow := true })).recognise 1 .cold)

/-- TWIN_RESET (R389, R392): TWIN_RST_IN_N has fallen. -/
def execTwinReset (s : State) : Out :=
  if s.ports.twinInLow then stay s else done ((s.modPorts (fun p => { p with twinInLow := true })).recognise 4 .warm)

/-- RESET_RELEASE (R392): the pin has been high for 1 µs. -/
def execResetRelease (twin : Bool) (s : State) : Out :=
  if twin then
    (if s.ports.twinInLow then done (s.modPorts (fun p => { p with twinInLow := false })).holdReleased else stay s)
  else if s.ports.resetLow then done (s.modPorts (fun p => { p with resetLow := false, boundaryOut := false })).holdReleased
  else stay s

/-- WATCHDOG_EXPIRY (R389): in RUN or TAKEOVER, RST_WDT.TICKS device ticks without a commit, RETRY or HALT. -/
def execWatchdogExpiry (s : State) : Out :=
  if s.running && s.rst.wdt != 0 && s.rst.wdtSince + s.rst.wdt ≤ s.now then done (s.recognise 5 .warm) else stay s

/-- THERMAL_TRIP (R389): a sensor reads 110 °C, 880 units, or more; the reset is held until every sensor is below 95 °C. -/
def execThermalTrip (sensor : Fin 12) (temp : Int) (s : State) : Out :=
  if temp < 880 then stay s
  else
    let s := s.modHlt (fun h => h.reads sensor temp)
    if s.rst.heldThermal then done s
    else done ((s.modRst (fun r => { r with heldThermal := true })).recognise 6 .cold)

/-- The sensors read anew. -/
def Hlt.readAll (h : Hlt) (temps : Vector Int 12) : Hlt := (allFin 12).foldl (fun h i => h.reads i (temps.get i)) h

/-- THERMAL_TRIP_RELEASE (R394): every sensor reads below 95 °C, 760 units. -/
def execThermalTripRelease (temps : Vector Int 12) (s : State) : Out :=
  if s.rst.heldThermal && temps.all (fun t => t < 760) then
    done ((s.modHlt (fun h => h.readAll temps)).modRst (fun r => { r with heldThermal := false })).holdReleased
  else stay s

/-- SUPPLY_MONITOR_RESET (R389): a monitored rail has been outside its window for more than 10 µs; the device is held until
every rail is back, which a power-on reset tells (R434). -/
def execSupplyMonitorReset (s : State) : Out := done ((s.modRst (fun r => { r with held := true })).recognise 7 .cold)

/-! RST_CMD (R367, R396). -/

/-- RST_CMD_STATUS shows an answer, with its COMMAND record. -/
def State.rstAnswer (s : State) (p : Path) (tag : Nat) (a : Answer) (busy : Bool) : State :=
  (s.modRst (fun r => { r with cmd := r.cmd.answer a p tag busy })).commandRecord 0x01 p tag a

/-- The reset source of a path's command (R389): a core's stands among the host's. (DESIGN CHOICE, log entry 125) -/
def resetSource : Path → Nat
  | .mb => 2
  | _ => 3

/-- RST_ commands are the owner's, and so a core's (R352), and the service's on the management port (R367).
(DESIGN CHOICE, log entry 125) -/
def State.mayReset (s : State) (p : Path) : Bool := s.party p == .owner || (s.party p == .service && p == .mb)

/-- A command of RST_CMD (R31, R32, R396): accepted, and then taken under R394. -/
def State.resetCommand (s : State) (p : Path) (tag : Nat) (scope : Scope) : State :=
  if !s.mayReset p then (s.denyReg p 0x010000).rstAnswer p tag .denied s.rst.cmd.busy
  else if s.rst.taking.isSome || (scope = .core && (s.dev.st = .bringUp || s.dev.st = .safe)) then
    s.rstAnswer p tag .conflict s.rst.cmd.busy
  else (s.rstAnswer p tag .accepted true).recognise (resetSource p) scope

/-! What each scope keeps (R390). -/

/-- A context with its run state cleared; its counters stay. -/
def Ctx.cleared (x : Ctx) : Ctx := { Ctx.idle with bank := x.bank }

/-- A core with its run state cleared; counters, sticky bits and the routing table store stay. -/
def Core.cleared (x : Core) : Core :=
  { Core.zero with
    health := x.health
    ctxs := x.ctxs.map Ctx.cleared
    eddy := { Eddy.zero with
      groupBoundSeen := x.eddy.groupBoundSeen, formErrorSeen := x.eddy.formErrorSeen, poisonSeen := x.eddy.poisonSeen
      missSeen := x.eddy.missSeen, bank := x.eddy.bank }
    veer := { Veer.zero with
      dropSeen := x.veer.dropSeen, nanSeen := x.veer.nanSeen, poisonSeen := x.veer.poisonSeen, table := x.veer.table
      histOvf := x.veer.histOvf, bank := x.veer.bank }
    vaneOverflowSeen := x.vaneOverflowSeen
    boundExpiredSeen := x.boundExpiredSeen
    vaneBank := x.vaneBank
    bank := x.bank
    recomputes := x.recomputes
    recOvf := x.recOvf }

/-- The health of an array that a new self-test judges (R341): a SUSPECT one is SUSPECT until then. -/
def Health.kept : Health → Health
  | .suspect => .suspect
  | _ => .ok

/-- An array with its run state cleared; counters, sticky bits and the last mismatch and self-test stay. -/
def Gale.cleared (x : Gale) : Gale :=
  { Gale.zero with
    health := x.health, mismatch := x.mismatch, xchkSkip := x.xchkSkip, poisonSeen := x.poisonSeen, xhigh := x.xhigh
    mmAddr := x.mmAddr, mmRow := x.mmRow, mmCol := x.mmCol, mmValid := x.mmValid, stDone := x.stDone, stPass := x.stPass
    stFailFlow := x.stFailFlow, stFailSig := x.stFailSig, stFirst := x.stFirst, bank := x.bank }

/-- An engine with its queue cleared. -/
def Draught.cleared (x : Draught) : Draught := { x with queue := [] }

/-- A Foehn unit with its work cleared; the committed half, counters and sticky bits stay. -/
def Foehn.cleared (x : Foehn) : Foehn :=
  { x with due := [], running := [], toHand := [], done := [], dead := [], awaiting := [], withheld := false, loading := false }

/-- The slipstream with its stream cleared; what concerns committed steps stays. -/
def Slip.cleared (x : Slip) : Slip :=
  { Slip.zero with
    nakSeen := x.nakSeen, abortSeen := x.abortSeen, failed := x.failed, rootStep := x.rootStep, shadowAck := x.shadowAck
    storeAck := x.storeAck, committedRoot := x.committedRoot, shadowRoots := x.shadowRoots, bank := x.bank }

/-- A stash controller after any reset (R281): contents and key discarded; counters stay with a core reset. -/
def Stash.cleared (x : Stash) : Stash := { x with arr := LineMem.zero, key := none, keyReady := false }

/-- The chain after a core reset: progress within the step is gone; epoch, counters and sticky bits stay. -/
def ChainSt.cleared (c : ChainSt) : ChainSt :=
  { ChainSt.reset with
    discarded := c.discarded, discardOvf := c.discardOvf, epoch := c.epoch, twinDev := c.twinDev, hbPeriod := c.hbPeriod
    hbLimit := c.hbLimit, pairBound := c.pairBound, txSeq := c.txSeq, rxSeq := c.rxSeq, lastCommit := c.lastCommit
    lastCause := c.lastCause, lastAction := c.lastAction, staleState := c.staleState, restoreRefused := c.restoreRefused
    haltSeen := c.haltSeen, retrySeen := c.retrySeen, boundSeen := c.boundSeen, recBank := c.recBank, recOvf := c.recOvf }

/-- What a core reset leaves (R390). (DEDUCED, log entry 126) -/
def State.coreScope (s : State) : State :=
  { s with
    cores := s.cores.map Core.cleared
    gales := s.gales.map Gale.cleared
    draughts := s.draughts.map Draught.cleared
    chainVanes := Vector.replicate 64 Vane.zero
    frozen := false
    signals := []
    stash := s.stash.map Stash.cleared
    foehn := s.foehn.map Foehn.cleared
    slip := s.slip.cleared
    links := s.links.map Link.unkeyed
    chain := s.chain.cleared
    sec := { s.sec with sessions := Vector.replicate 2 none, zeroising := false, cmd := CmdStatus.idle }
    withheld := false
    answer := none }

/-- A stack after a cold or warm reset: its contents stay until phase 5. -/
def Stack.cleared (x : Stack) : Stack := { Stack.zero with arr := { x.arr with wcHigh := 0 }, selfRefresh := x.selfRefresh }

/-- The ports after a cold or warm reset: the levels of the pins and the test access port stay. -/
def Ports.cleared (p : Ports) (cold : Bool) : Ports :=
  { Ports.reset with
    mbAddr := p.mbAddr, perstLow := p.perstLow, linkUp := cold || p.linkUp, twinOutLow := p.twinOutLow, tap := p.tap, tapOut := p.tapOut
    boundaryOut := p.boundaryOut, resetLow := p.resetLow, twinInLow := p.twinInLow, pwrFailLow := p.pwrFailLow }

/-- The security block after a cold or warm reset: fuses, owner security state, and DEBUG_OPEN unless power came on, with
what a power-on alone ends (R383, R384, R390). -/
def Sec.cleared (x : Sec) (powerOn : Bool) : Sec :=
  { Sec.reset with
    fuses := x.fuses, lifecycle := x.lifecycle, ownerHash := x.ownerHash, ownerKey := x.ownerKey, identity := x.identity, storage := x.storage
    endorsement := x.endorsement, debugOpen := if powerOn then x.lifecycle == 0 && x.fuses.lifecycle.reads else x.debugOpen
    zeroiseFlag := x.zeroiseFlag, signingOff := !powerOn && x.signingOff, policy := x.policy, pending := x.pending
    minGrant := x.minGrant, slots := x.slots, draws := x.draws }

/-- The reset controller after a cold or warm reset: the backup domain and the reset history stay.
(DEDUCED, log entry 128) -/
def Rst.cleared (r : Rst) : Rst :=
  { Rst.reset with
    count := r.count, lastSource := r.lastSource, lastScope := r.lastScope, cause := r.cause, straps := r.straps
    strapsLatched := r.strapsLatched, fails := r.fails, taking := r.taking, heldThermal := r.heldThermal, held := r.held
    cur := r.cur, history := r.history, safe := r.safe }

/-- The recorder after a cold or warm reset (R390, R420): the keep store and the mark stay, the ring is cleared. -/
def Evr.cleared (e : Evr) : Evr :=
  { Evr.reset with slots := e.slots, cut := e.cut, next := e.next, kept := e.kept, mark := e.mark, bank := Bank.zero 5 }

/-- The health block after a cold or warm reset: the ageing history stays, and the sensors read on.
(DEDUCED, log entry 126) -/
def Hlt.cleared (h : Hlt) (cold : Bool) : Hlt :=
  { Hlt.reset with
    computeCode := h.computeCode, linkCode := h.linkCode, wraps := if cold then 0 else h.wraps, histVset := h.histVset
    history := h.history, lines := h.lines, summaries := h.summaries, nextSummary := h.nextSummary
    measurements := h.measurements, sinceSummary := h.sinceSummary, lastMargins := h.lastMargins, temps := h.temps
    temMax := h.temps, hottest := h.hottest }

/-- What a cold or warm reset leaves (R390). (DEDUCED, log entry 126) -/
def State.wideScope (s : State) (cold powerOn : Bool) : State :=
  { State.reset with
    pending := s.pending
    dev := { Dev.reset with stepping := s.dev.stepping, serial := s.dev.serial, tick := if cold then 0 else s.dev.tick }
    ports := s.ports.cleared cold
    mem := s.mem.map Stack.cleared
    gales := s.gales.map (fun g => { Gale.zero with health := if powerOn then .ok else g.health.kept })
    sec := s.sec.cleared powerOn
    rst := s.rst.cleared
    evr := s.evr.cleared
    hlt := s.hlt.cleared cold
    mxScales := if cold then [] else s.mxScales
    fresh := s.fresh }

/-- A scope applied (R390): RST_CMD_STATUS returns to IDLE. -/
def State.applyScope (s : State) (t : Taking) : State :=
  let s := match t.scope with
    | .core => s.coreScope
    | .warm => s.wideScope false (t.sources.getLsbD 0)
    | .cold => s.wideScope true (t.sources.getLsbD 0)
  s.modRst (fun r => { r with cmd := CmdStatus.idle, failedWait := none })

/-! Taking a reset (R393 to R395). -/

/-- The records that wait for a mark are made, and every unkept record is kept (R394 order 2, R421, R423). -/
def Evr.flushAll (rstCount tick : Nat) (e : Evr) : Evr :=
  let e := match e.newMark with
    | some m => e.waiting.foldl (Evr.place rstCount tick) { e with mark := m, newMark := none, waiting := [] }
    | none => e
  { e.flush.unkept.foldl Evr.keep e.flush with flushing := false }

/-- A flush that runs on through a loss of power (R431), with the slots as they stood before it. -/
def Evr.flushCut (rstCount tick : Nat) (e : Evr) : Evr :=
  let u := e.flushAll rstCount tick
  { u with cut := e.unkept.foldl (fun t n => Tbl.set t n (e.slotOf n)) [] }

/-- Every stack enters self-refresh: entries finished, modified check lines written back (R273). -/
def State.selfRefresh (s : State) : State :=
  let s := s.finishEntries
  { s with mem := s.mem.map (fun m =>
      let (a, e) := m.arr.cache.foldl (fun (acc : LineMem × LineEv) g => let (a, e) := acc.1.evict g; (a, acc.2.plus e)) (m.arr, LineEv.none)
      { m with arr := a, selfRefresh := m.selfRefresh || m.trained, bank := m.bank.stackEv e }) }

/-- A reset for which a running device first halts as a lost device (R394 order 1): by command, twin, watchdog, escalation
or debug, and not with a thermal trip. (DEDUCED, log entry 123) -/
def Taking.halts (t : Taking) : Bool := !t.cut && !t.sources.getLsbD 6 && (t.sources &&& 0x33C#32) != 0

/-- RESET_TAKE (R393 to R395): orders 1 to 4, after which the device is held, or phase 1 may begin; a device whose links wait for
its REPORT to leave stands at order 1 (R336). (DEDUCED, log entry 123) -/
def execResetTake (s : State) : Out :=
  match s.rst.taking with
  | none => stay s
  | some t =>
    if t.applied || (s.rst.fusing.isSome && !t.cut) then stay s
    else
      let s := if t.halts && s.running then close (s.haltSteps 7) else s
      if t.halts && s.chain.lowering then stay s else
      let s := if !t.cut then ((s.modEvr (fun e => e.flushAll s.rst.count s.now)).releaseKeep).atRecordLimit s.evr.next
        else (if s.evr.flushing then s.modEvr (fun e => e.flushCut s.rst.count s.now) else s).loseHeld
      let t := match s.rst.taking with | some t => t | none => t
      let s := if t.scope = .warm && !t.cut then s.selfRefresh else s
      let s := s.applyScope t
      let t := match s.rst.taking with | some t => t | none => t
      done ((s.modDev (fun d => { d with st := .bringUp, phase := 1 })).modRst (fun r =>
        { r with taking := some { t with applied := true }, linksBegun := false, phaseSince := s.now }))

end Sys2Proof.Machine
end

