-- ==== Sys2Proof/Machine/Pairing.lean ====
section
/-! DEFINITION. Link sessions and the pairing of twins (R326, R327, R371 to R373), and the boot handshake through which a
device gets its plan from its twin (R402). -/

namespace Sys2Proof.Machine

/-! Fields of the messages (R371). -/

/-- The fields of HELLO and REPLY up to EPH: 393 bytes. A booting device sends DEV and RUN_ID as zeros and sets FLAGS.BOOT
(R402). Draw d is the nonce, draw d + 1 the ephemeral key. -/
def State.helloFields (s : State) (boot : Bool) (d : Nat) : List Byte :=
  leBytes 2 (if boot then 0 else s.self) ++ leBytes 2 (b2n boot) ++ leBytes 8 (if boot then 0 else s.sec.runId) ++
    leBytes 8 s.dev.serial.toNat ++ drawBytes d 32 ++ s.sec.ownerHash ++ s.idKey ++ zeros 3 ++
    (s.sec.endorsement.getD (zeros 96)) ++ (0x04 :: Config.publicKey (d + 1))

/-- Bytes of the fields up to EPH. (DEDUCED, log entry 112) -/
def helloBytes : Nat := 393

def msgDev (m : List Byte) : Nat := ofLe (m.take 2)
def msgFlags (m : List Byte) : Nat := ofLe (slice m 2 2)
def msgRun (m : List Byte) : Nat := ofLe (slice m 4 8)
def msgSerial (m : List Byte) : DWord := BitVec.ofNat 64 (ofLe (slice m 12 8))
def msgOwner (m : List Byte) : List Byte := slice m 52 48
def msgIdKey (m : List Byte) : List Byte := slice m 100 97
def msgEndorsement (m : List Byte) : List Byte := slice m 200 96
def msgEph (m : List Byte) : List Byte := slice m 296 97
/-- EK of a HELLO, behind 3 reserved bytes; CT of a REPLY. -/
def helloEk (m : List Byte) : List Byte := slice m 396 1568
def replyCt (m : List Byte) : List Byte := slice m 393 1568
def replyDigest (m : List Byte) : List Byte := slice m 1961 48
def replySig (m : List Byte) : List Byte := slice m 2009 96

/-- TH1: HELLO followed by REPLY up to its SIG. -/
def th1 (hello reply : List Byte) : List Byte := sha384 (hello ++ reply.take 2009)

/-- TH2: TH1, REPLY's SIG and CONFIRM's PLAN_DIGEST. -/
def th2 (hello reply confirm : List Byte) : List Byte := sha384 (th1 hello reply ++ replySig reply ++ confirm.take 48)

/-- PRK and OKM of a session (R373). -/
def sessionKeys (hello reply z k : List Byte) : List Byte × List Byte :=
  let prk := hkdfExtract (th1 hello reply) (z ++ k)
  (prk, hkdfExpand prk (ascii "tvx link v1") 120)

/-- K_CONF. -/
def kConf (okm : List Byte) : List Byte := slice okm 72 48

/-! What a device can do in a handshake. -/

/-- The device can take part: it holds an endorsement and an identity, may sign, and may draw (R360, R374, R383).
(DEDUCED, log entry 114) -/
def State.canHandshake (s : State) : Bool :=
  s.sec.endorsement.isSome && s.sec.identity.isSome && !s.sec.signingOff && !s.sec.entropyFail && s.dev.st != .safe

/-- The signature of the identity key. -/
def State.sign (s : State) (m : List Byte) : List Byte := Config.ecdsaSign (s.sec.identity.getD 0) m

/-- The device boots from its twin: its plan is not yet read (R402). -/
def State.booting (s : State) : Bool := s.dev.st == .bringUp && s.dev.phase == 4

/-- A PAIR message handed to a link, unprotected and outside the order of R315. -/
def State.pair (s : State) (l : Fin 36) (kind : Nat) (m : List Byte) : State :=
  s.pushOn l { mkPkt 0x31 (s.link l).peerDev 0 kind m with src := s.self }

/-- HELLO sent on a link (R326, R371). -/
def State.sendHello (s : State) (l : Fin 36) (boot : Bool) : State :=
  if !s.canHandshake then s
  else
    let d := s.sec.draws
    let m := s.helloFields boot d ++ zeros 3 ++ Config.kemPublic (d + 2)
    let s := (s.drew 3).modLink l (fun x => { x with hs := ⟨true, 1, m, [], [], boot, d⟩, initiator := true })
    s.pair l 0 m

/-! Checks (R326, R327, R372). -/

/-- The endorsement of a message verifies with a KIND under the owner key: that of the plan's seal, or on a booting device
that of the fused hash (R402). -/
def State.endorsementOk (s : State) (kind : Nat) (m : List Byte) : Bool :=
  let key := if s.booting then s.sec.ownerKey else s.sec.planKey
  Config.ecdsaVerify key (endorsed kind (msgSerial m) (msgIdKey m)) (msgEndorsement m)

/-- DEV of a message lies in a route entry that holds the link. -/
def State.devOnLink (s : State) (l : Fin 36) (d : Nat) : Bool :=
  s.plan.routes.any (fun r => ((routeGroup r).testBit l || routeAlt r == l.val) && decide (routeFirst r ≤ d) && decide (d ≤ routeLast r))

/-- A peer endorsed as a store endpoint, where DEV is the store's (R372). -/
def State.storePeer (s : State) (l : Fin 36) (m : List Byte) : Bool :=
  l.val < 32 && s.plan.storeDev == some (msgDev m) && s.endorsementOk 1 m

/-- The checks of HELLO and REPLY that concern the peer; `boot` says that the handshake is that of R402, `asks` that the
message comes from the booting device. -/
def State.peerOk (s : State) (l : Fin 36) (m : List Byte) (boot asks : Bool) : Bool :=
  msgFlags m == b2n asks && msgOwner m == s.sec.ownerHash && (boot || msgRun m == s.sec.runId) &&
    (s.endorsementOk 0 m || (!boot && s.storePeer l m)) &&
    (if boot then 32 ≤ l.val
     else if 32 ≤ l.val then (s.plan.twin.map (·.dev)) == some (msgDev m)
     else s.devOnLink l (msgDev m))

/-- PLAN_DIGEST of the twin is the one that the plan names. -/
def State.digestOk (s : State) (l : Fin 36) (boot : Bool) (d : List Byte) : Bool :=
  boot || l.val < 32 || (s.plan.twin.map (·.digest)) == some d

/-- PLAN_DIGEST as this device sends it. -/
def State.ownDigest (s : State) : List Byte := if s.booting then zeros 48 else s.dev.digest

/-- A session or a pairing refused (R327, R372): one record; the link FAILED, or on the twin port the pairing REFUSED, which
fails a bring-up in phase 6. A device that is paired stays so. (DEDUCED, log entry 115) -/
def State.refuseSession (s : State) (l : Fin 36) : State :=
  let s := s.modLink l (fun x => { x with hs := Handshake.none })
  if l.val < 32 then s.linkFails l 5
  else
    let s := s.linkRecord l 5
    let s := if s.chain.twin = .paired || s.chain.twin = .takenOver then s else s.modChain (fun c => { c with twin := .refused })
    if s.inPhase 6 then s.failBringUp 8 else s

/-! The end of phase 6. -/

/-- A twin-port link. -/
def twinPort (l : Fin 36) : Bool := 32 ≤ l.val

/-- Every used link is keyed or FAILED; a twin that is absent is not awaited (R327). -/
def State.linksSettled (s : State) : Bool :=
  s.chain.twin != .pairing &&
    (allFin 36).all (fun l => !(s.link l).used || (s.link l).st == .failed || (s.link l).session || twinPort l)

/-- Phase 6 ends once the links are settled. -/
def State.settleLinks (s : State) : State :=
  if s.inPhase 6 && s.rst.linksBegun && s.linksSettled then s.enterPhase 7 else s

/-- The pairing is complete when every twin-port link that is UP is keyed (R326). (DESIGN CHOICE, log entry 119) -/
def State.settlePairing (s : State) : State :=
  let up := s.twinLinksUp
  if !up.isEmpty && up.all (fun l => (s.link l).session) &&
      (s.chain.twin == .pairing || s.chain.twin == .unpaired || s.chain.twin == .refused) then
    (s.modChain (fun c => { c with twin := .paired, hbLast := s.now, hbSent := s.now })).modSlip (fun x =>
      { x with stopped := x.stopped.set 0 false })
  else s

/-- A link takes its session keys (R326, R373); the first session with a device begins the order of its packets (R315). -/
def State.keyed (s : State) (l : Fin 36) (initiator : Bool) (peer : List Byte) (prk okm : List Byte) : State :=
  let boot := (s.link l).hs.boot
  let s := s.modLink l (fun x =>
    { x with
      session := true, okm := okm.take 72, prk := prk, okmRx := okm.take 72, prkRx := prk, initiator := initiator
      txCount := 0, rxCount := 0, peerDev := msgDev peer, peerValid := true, hs := { x.hs with stage := 4 } })
  if boot then s
  else
    let known := (allFin 36).any (fun m => m != l && (s.link m).session && (s.link m).peerDev == msgDev peer)
    let s := (if known then s else s.freshOrder (msgDev peer)).modLink l (fun x => { x with peerStore := s.storePeer l peer && !s.endorsementOk 0 peer })
    (if twinPort l then (s.linkRecord l 3).settlePairing else s).settleLinks

/-! The partner image (R402). -/

/-- The twin sends its partner image in SHARD packets, numbered from 0, and closes the session once they have left; it sends nothing where its
plan carries none. (DESIGN CHOICE, log entry 117) -/
def State.sendImage (s : State) (l : Fin 36) : State :=
  match s.plan.partnerImage with
  | none => s
  | some (a, n) =>
    let parts := payloads (n / 4096 + 1) (s.peek a n)
    let s := (List.range parts.length).foldl (fun s i =>
      s.pushOn l { mkPkt 0x32 0 0 0 (parts.getD i []) with src := s.self, pseq := i }) s
    (s.modLink l (fun x => { x with ends := true })).pumpOn l

/-! The four messages. -/

/-- A PAIR message of a kind on an UP link: `act` is its effect; one on a wrong lane, or from an accepted store endpoint, is
discarded and counted (R313, R372). -/
def State.takePair (s : State) (l : Fin 36) (p : Packet) (kind : Nat) (act : State → State) : Out :=
  if (s.link l).st != .up || !isPair p.type || p.aux % 4 != kind then stay s
  else
    let s := s.collected l p
    if !pktOk p || ((s.link l).session && (s.link l).peerStore) then done (s.discarded l)
    else done (act (if twinPort l && kind ≤ 1 then s.modChain (fun c => { c with twinSpoke := true }) else s))

/-- REPLY to a HELLO that has passed its checks. -/
def State.answerHello (s : State) (l : Fin 36) (m : List Byte) (boot : Bool) : State :=
  let d := s.sec.draws
  let (ct, _) := Config.kemEncaps (helloEk m) (d + 2)
  let r := s.helloFields false d ++ ct ++ s.dev.digest
  let r := r ++ s.sign (sha384 (m ++ r))
  let s := (s.drew 3).modLink l (fun x => { x with hs := ⟨false, 2, m, r, [], boot, d⟩, initiator := false })
  let s := if boot || s.chain.twin != .unpaired || !twinPort l || !s.inPhase 6 then s
    else s.modChain (fun c => { c with twin := .pairing })
  s.pair l 1 r

/-- HELLO received (R326, R327, R372, R402). The device that has itself begun refuses in a bring-up, for both sides are then
the same. A HELLO on the twin port of a running device from another than its twin is refused and recorded.
(DEDUCED, log entry 113) -/
def State.takeHello (s : State) (l : Fin 36) (m : List Byte) : State :=
  let asks := twinPort l && (msgFlags m).testBit 0
  if !s.canHandshake || !s.loaded then s
  else if !asks && (s.link l).hs.initiator && (s.link l).hs.stage == 1 && s.dev.st == .bringUp then s.refuseSession l
  else if !s.peerOk l m asks asks then s.refuseSession l
  else s.answerHello l m asks

/-- HELLO (R326, R327, R371, R372). -/
def execHello (l : Fin 36) (pkt : Packet) (s : State) : Out := s.takePair l pkt 0 (·.takeHello l pkt.payload)

/-- The keys of a link's initiator. -/
def State.initiatorKeys (s : State) (l : Fin 36) (r : List Byte) : List Byte × List Byte :=
  let h := (s.link l).hs
  sessionKeys h.hello r (Config.ecdh (h.draw + 1) (msgEph r)) (Config.kemDecaps (h.draw + 2) (replyCt r))

/-- REPLY received: its checks, then CONFIRM (R326, R371, R372). -/
def State.takeReply (s : State) (l : Fin 36) (r : List Byte) : State :=
  let h := (s.link l).hs
  if !(h.initiator && h.stage == 1) then s
  else if !(s.peerOk l r h.boot false && s.digestOk l h.boot (replyDigest r) &&
      Config.ecdsaVerify (msgIdKey r) (th1 h.hello r) (replySig r)) then s.refuseSession l
  else
    let (_, okm) := s.initiatorKeys l r
    let t2 := th2 h.hello r s.ownDigest
    let m := s.ownDigest ++ s.sign t2 ++ hmac (kConf okm) (t2 ++ [0x49])
    (s.modLink l (fun x => { x with hs := { x.hs with stage := 3, reply := r, confirm := m } })).pair l 2 m

/-- REPLY (R326, R371, R372). -/
def execReply (l : Fin 36) (pkt : Packet) (s : State) : Out := s.takePair l pkt 1 (·.takeReply l pkt.payload)

/-- The keys of a link's responder. -/
def State.responderKeys (s : State) (l : Fin 36) : List Byte × List Byte :=
  let h := (s.link l).hs
  sessionKeys h.hello h.reply (Config.ecdh (h.draw + 1) (msgEph h.hello)) (Config.kemEncaps (helloEk h.hello) (h.draw + 2)).2

/-- CONFIRM received: its checks, then FINISH, and the link takes its keys (R326, R371 to R373, R402). -/
def State.takeConfirm (s : State) (l : Fin 36) (m : List Byte) : State :=
  let h := (s.link l).hs
  if !(!h.initiator && h.stage == 2) then s
  else
    let (prk, okm) := s.responderKeys l
    let t2 := th2 h.hello h.reply (m.take 48)
    let sig := slice m 48 96
    if !(s.digestOk l h.boot (m.take 48) && Config.ecdsaVerify (msgIdKey h.hello) t2 sig &&
        slice m 144 48 == hmac (kConf okm) (t2 ++ [0x49])) then s.refuseSession l
    else
      let s := s.pair l 3 (hmac (kConf okm) (t2 ++ sig ++ [0x52]))
      let s := s.keyed l false h.hello prk okm
      if h.boot then s.sendImage l else if twinPort l then s.greetJoiner else s

/-- CONFIRM (R326, R371, R372). -/
def execConfirm (l : Fin 36) (pkt : Packet) (s : State) : Out := s.takePair l pkt 2 (·.takeConfirm l pkt.payload)

/-- FINISH received: the link takes its keys (R326, R371 to R373). -/
def State.takeFinish (s : State) (l : Fin 36) (m : List Byte) : State :=
  let h := (s.link l).hs
  if !(h.initiator && h.stage == 3) then s
  else
    let (prk, okm) := s.initiatorKeys l h.reply
    let t2 := th2 h.hello h.reply h.confirm
    if m == hmac (kConf okm) (t2 ++ slice h.confirm 48 96 ++ [0x52]) then
      (let s := s.keyed l true h.reply prk okm
       if twinPort l then s.greetJoiner else s)
    else s.refuseSession l

/-- FINISH (R326, R371 to R373). -/
def execFinish (l : Fin 36) (pkt : Packet) (s : State) : Out := s.takePair l pkt 3 (·.takeFinish l pkt.payload)

/-- Pairing offered on every twin-port link that is UP and not keyed (R327). (DEDUCED, log entry 113) -/
def State.offerPair (s : State) : State :=
  let s := s.modChain (fun c => { c with pairSince := s.now })
  (s.twinLinksUp.filter (fun l => !(s.link l).session)).foldl (fun s l => s.sendHello l false) s

/-- PAIR_BOUND_EXPIRY (R327): no HELLO or REPLY has come within PAIR_BOUND device ticks of the start of phase 6; the twin is
absent, and the device keeps offering pairing, once in every PAIR_BOUND ticks. (DEDUCED, log entry 113) -/
def execPairBoundExpiry (s : State) : Out :=
  if s.inPhase 6 && s.rst.linksBegun && s.chain.twin == .pairing && !s.chain.twinSpoke &&
      s.rst.phaseSince + s.chain.pairBound ≤ s.now then
    done ((s.modChain (fun c => { c with twin := .unpaired })).offerPair.settleLinks)
  else if s.running && s.chain.twin == .unpaired && s.plan.twin.isSome && s.chain.pairSince + s.chain.pairBound ≤ s.now then
    done s.offerPair
  else stay s

end Sys2Proof.Machine
end

