-- ==== Sys2Proof/Machine/BringUp.lean ====
section
/-! DEFINITION. The nine phases of a bring-up (spec/15, R397 to R407) and what they do in every block: the fuse and entropy
checks (R357, R374), the plan's seal (R369, R370, R400 to R402), the memories (R272, R278, R281), the links (R304, R326), the
self-test (R87), the fit check (R127) and the start of the plan (R231, R293). -/

namespace Sys2Proof.Machine

/-! Phase 1: the backup domain, the reset history and the records' SEQ. -/

/-- The phase in which the last failed bring-up of the history failed, or 1. -/
def Rst.lastFailPhase (r : Rst) : Nat :=
  match r.history.find? (fun x => x.getD 8 0 != 0) with
  | some x => (x.getD 5 0).toNat % 16
  | none => 1

/-- The backup domain found lost (R406). -/
def Rst.loseBackup (r : Rst) : Rst :=
  { r with count := 0, lastSource := 0, lastScope := 0, cause := 0, strapsLatched := false, backupLost := true }

/-- RST_COUNT, RST_LAST, RST_CAUSE and FAILS as phase 1 leaves them, with a new reset record (R404, R407, R408).
(DEDUCED, log entry 124) -/
def Rst.counted (r : Rst) (t : Taking) : Rst :=
  let count := Nat.min (r.count + 1) 0xFFFFFFFF
  { r with
    count := count, lastSource := t.source, lastScope := scopeCode t.scope, cause := r.cause ||| t.sources
    fails := if t.sources.getLsbD 0 then 0 else r.fails
    safe := r.safe && !t.sources.getLsbD 0
    history := resetRecord count t :: r.history.take 2046 }

/-- The highest SEQ found in the event record region plus 16,385, or 0 where it holds none. -/
def Evr.found (e : Evr) : Option Nat :=
  match e.slots.map (fun x => ofLe (x.2.take 6)) with
  | [] => none
  | n :: ns => some (ns.foldl Nat.max n)

/-- SEQ resumed after a reset other than a core reset (R421). -/
def Evr.resume (e : Evr) (markOk : Bool) (now : Nat) : Evr :=
  let next := match e.found with
    | some n => if markOk then Nat.max e.mark (n + 16385) else n + 2 ^ 24
    | none => if markOk then e.mark else 2 ^ 24
  { e with next := next, mark := if markOk then e.mark else next, allowance := 0, rose := now }

/-- Where phase 1 leads: a device in the safe state runs phases 1 to 3 again, too many failures lead to it, and otherwise a stop
under DEBUG_OPEN, or the next phase that the scope has (R384, R405). -/
def State.afterPhase1 (s : State) : State :=
  if s.rst.safe then s.enterPhase 2
  else if 32 ≤ s.rst.fails then s.enterSafe s.rst.lastFailPhase
  else if !s.coreBringUp || s.sec.zeroiseFlag then s.enterPhase 2
  else if s.unlocked then s.modDev (fun d => { d with st := .halted })
  else s.enterPhase 5

/-- The reset whose phase 1 stands to run: it has been applied, and nothing holds the device (R394). -/
def State.phase1Due (s : State) : Option Taking :=
  s.rst.taking.filter (fun t => t.applied && s.dev.st == .bringUp && s.dev.phase == 1 && !s.ports.resetLow && !s.ports.twinInLow &&
    !s.rst.heldThermal && !s.rst.held)

/-- Phase 1 begins its count (R404, R407): the reset is no longer being taken, and SPENT has not been set in this bring-up. -/
def State.countReset (s : State) (t : Taking) : State :=
  (s.modRst (fun r => { r.counted t with taking := none, cur := t })).modHlt (fun h => { h with spentTold := false })

/-- PHASE_1 (R394 order 5, R406 to R408, R411, R421, R431); a copy of the SEQ mark whose word cannot be corrected is ignored, and
the BRING_UP record says by code 3 that both were. (DEDUCED, log entries 111, 141; DESIGN CHOICE, log entry 150) -/
def execPhase1 (env : Phase1Env) (s : State) : Out :=
  match s.phase1Due with
  | none => stay s
  | some t =>
      let s := if env.backupOk then s
        else (s.modRst Rst.loseBackup).ask 0x10 (s.unit 0xC 0x01 0) (leBytes 1 1)
      let s := s.modEvr (fun e => e.cutShort (if t.sources.getLsbD 0 then env.flushCut else []))
      let s := (s.readKeep env.fixedWords env.lostWords).countReset t
      let markOk := !(env.lostWords.contains markWordA && env.lostWords.contains markWordB)
      let s := if t.scope = .core then s
        else
          let s := s.modEvr (fun e => e.resume markOk s.now)
          if markOk then s else s.ask 0x10 (s.unit 0xC 0x01 0) (leBytes 1 3)
      done s.afterPhase1

/-! Phases 2 and 3: the fuses, the boot ROM, the DRBG, the key slots, the regulator and the straps. -/

/-- Key slots whose seal fails read as empty, one record each (R361); a slot of which a keep-store word cannot be corrected
reads as zeros (R411). (DESIGN CHOICE, log entry 122; DEDUCED, log entry 111) -/
def State.unseal (s : State) (lost : List (Fin 16)) : State :=
  let s := (s.keepErrors lost.length).modSec (fun x =>
    { x with slots := lost.foldl (fun v i => upd v i (fun k => { k with sealed := zeros 48 })) x.slots })
  ((allFin 16).filter (fun i => (s.sec.slots.get i).use != 0 && (s.slotKey i.val).isNone)).foldl (fun s i =>
    (s.modSec (fun x => { x with slots := upd x.slots i (fun k => { k with use := 0 }) })).ask 0x10 (s.unit 0xC 0x04 0)
      (leBytes 1 2 ++ leBytes 1 i.val)) s

/-- The fuses as phase 2 reads them (R357): a copy whose check fails reads as unwritten. -/
def Fuses.read (f : Fuses) (bad : List BadCopy) : Fuses :=
  let keep (x : FuseCopies) (n : FuseField) : FuseCopies :=
    ⟨x.first && (copiesOf n bad).first, x.second && (copiesOf n bad).second⟩
  ⟨keep f.lifecycle .lifecycle, keep f.serial .serial, keep f.identity .identity, keep f.storage .storage, keep f.ownerHash .ownerHash⟩

/-- Every fused field reads from one of its copies (R357, R398). -/
def Fuses.readable (f : Fuses) : Bool :=
  f.lifecycle.reads && f.serial.reads && f.identity.reads && f.storage.reads && f.ownerHash.reads

/-- The fused values as they then read: a field whose two copies fail reads as unwritten (R357). -/
def State.readFuses (s : State) : State :=
  let f := s.sec.fuses
  (s.modDev (fun d => { d with serial := if f.serial.reads then d.serial else 0 })).modSec (fun x => { x with
    lifecycle := if f.lifecycle.reads then x.lifecycle else 0
    identity := if f.identity.reads then x.identity else none
    storage := if f.storage.reads then x.storage else none
    ownerHash := if f.ownerHash.reads then x.ownerHash else zeros 48
    ownerKey := if f.ownerHash.reads then x.ownerKey else [] })

/-- The voltage that phase 2 requests (R415). (DESIGN CHOICE, log entry 11) -/
def Hlt.startVoltage (h : Hlt) : Nat := if h.history then Nat.min 800 (Nat.max 700 h.histVset) else 750

/-- The key slots in phase 2: overwritten when zeroisation is pending, otherwise unsealed (R361, R384). -/
def State.readySlots (s : State) (lost : List (Fin 16)) : State :=
  if s.sec.zeroiseFlag then s.modSec (fun x => { x with slots := Vector.replicate 16 KeySlot.zero }) else s.unseal lost

/-- PHASE_2 (R357, R361, R374, R384, R398, R415). (DEDUCED, log entry 111) -/
def execPhase2 (env : Phase2Env) (s : State) : Out :=
  if !s.inPhase 2 then stay s
  else
    let s := (s.modSec (fun x => { x with fuses := x.fuses.read env.badCopies })).readFuses
    if !s.sec.fuses.readable then done (s.failBringUp 2)
    else if !env.bootRomOk then done (s.failBringUp 1)
    else if !env.entropyOk then done ((s.modSec (fun x => { x with entropyFail := true })).failBringUp 3)
    else
      let s := (s.modSec (fun x => { x with seeded := true })).readySlots env.lostSlots
      let s := s.modHlt (fun h => { h with avs := some (h.startVoltage, s.now) })
      done (s.enterPhase 3)

/-- Where phase 3 leads (R384, R398, R405). -/
def State.afterPhase3 (s : State) : State :=
  if s.rst.safe then s.enterSafe s.rst.lastFailPhase
  else if s.sec.zeroiseFlag then s.enterPhase 5
  else if s.unlocked then s.modDev (fun d => { d with st := .halted })
  else s.enterPhase 4

/-- PHASE_3 (R397): the straps are sampled after a power-on reset or where the latch was lost (R406).
(DESIGN CHOICE, log entry 8) -/
def execPhase3 (straps : Straps) (s : State) : Out :=
  if !s.inPhase 3 then stay s
  else
    let s := if s.rst.cur.sources.getLsbD 0 || !s.rst.strapsLatched then
      s.modRst (fun r => { r with straps := straps, strapsLatched := true }) else s
    if s.rst.straps.paceSel = 2 then done (s.failBringUp 4) else done s.afterPhase3

/-! Phase 4: the plan. -/

def sealMagic (z : List Byte) : Nat := ofLe (z.take 4)
def sealSigner (z : List Byte) : Nat := ofLe (slice z 5 1)
def sealEnc (z : List Byte) : Nat := ofLe (slice z 6 1)
def sealSlot (z : List Byte) : Nat := ofLe (slice z 7 1)
def sealSignerKey (z : List Byte) : List Byte := slice z 64 97

/-- Check 1 of R370: MAGIC, VERSION, the reserved and coded fields and BODY_LENGTH. -/
def sealForm (z : List Byte) (bodyLen : Nat) : Bool :=
  sealMagic z == 0x28125EA1 && ofLe (slice z 4 1) == 1 && sealEnc z ≤ 1 && (sealEnc z == 1 || sealSlot z == 0) &&
    ofLe (slice z 8 8) == bodyLen && allZero (slice z 52 12) && allZero (slice z 161 31)

/-- Check 2 of R370: the signer and its key's hash (R351, R356). -/
def State.sealSignerOk (s : State) (z : List Byte) : Bool :=
  if s.sec.lifecycle = 2 then sealSigner z == 1 && sha384 (sealSignerKey z) == s.sec.ownerHash
  else sealSigner z == 3 && sha384 (sealSignerKey z) == Config.vendorHash

/-- The code of the first check of R370 that an image fails, or 0. -/
def State.sealCheck (s : State) (image : List Byte) : Nat :=
  let n := image.length - 288
  let body := image.take n
  let z := image.drop n
  if !sealForm z n then 1
  else if !s.sealSignerOk z then 2
  else if !Config.ecdsaVerify (sealSignerKey z) (body ++ z.take 192) (slice z 192 96) then 3
  else if s.sec.policy.testBit 2 && sealEnc z != 1 then 4
  else if sealEnc z = 1 && s.slotUse (sealSlot z) != 3 then 5
  else if sealEnc z = 1 &&
      ((s.slotKey (sealSlot z)).bind (fun k => Config.gcmOpen k (slice z 16 12) (z.take 16) body (slice z 28 16))).isNone then 6
  else 0

/-- The registers that an accepted plan sets (R369, R377, R389). (DESIGN CHOICE, log entry 6) -/
def State.takePlan (s : State) (image : List Byte) (body : Plan) : State :=
  let n := image.length - 288
  let z := image.drop n
  let s : State := { s with plan := body, loaded := true }
  let s := s.modDev (fun d =>
    { d with digest := sha384 (image.take n ++ z.take 192), chainId := BitVec.ofNat 16 body.chainId, chainValid := true })
  let s := s.modSec (fun x => { x with
    planCheck := 0, runId := ofLe (slice z 44 8), planKey := sealSignerKey z
    planSlot := if sealEnc z = 1 then some (sealSlot z) else none })
  let s := s.modChain (fun c => match body.twin with
    | some t => { c with twinDev := t.dev, hbPeriod := t.hbPeriod, hbLimit := t.hbLimit, pairBound := t.pairBound }
    | none => { c with twinDev := 0, hbPeriod := 0, hbLimit := 0, pairBound := 0 })
  s.modRst (fun r => { r with wdt := body.watchdog })

/-- An image read whole: its seal is checked, and the plan taken or the bring-up failed (R370, R403). -/
def State.checkImage (s : State) (image : List Byte) (body : Plan) : State :=
  match s.sealCheck image with
  | 0 => (s.takePlan image body).enterPhase 5
  | n + 1 => (s.modSec (fun x => { x with planCheck := n + 1 })).failBringUp 6

/-- The largest and the smallest length of an image (R400). -/
def imageLengthOk (n : Nat) : Bool := decide (288 ≤ n) && decide (n ≤ 0x6000000)

/-- The source that phase 4 reads (R399): the fallback configuration memory once 16 bring-ups have failed in a row. -/
def Rst.source (r : Rst) : Nat := if 16 ≤ r.fails then 1 else r.straps.bootSel.toNat

/-- Links 32 to 35 trained, and the boot handshake begun on those that rise (R402). No plan gives allotments yet: each lane has an eighth of the
512 flits of the receive buffer (R312), at both ends. (DESIGN CHOICE, log entry 100) -/
def State.beginBoot (s : State) (failed : List (Fin 36)) : State :=
  let ports := (allFin 36).filter twinPort
  let s := ports.foldl (fun s l => s.modLink l (fun x =>
    { x with
      st := if failed.contains l then .failed else .up
      allot := Vector.replicate 8 64, credits := Vector.replicate 8 64 })) s
  let s := (ports.filter (fun l => !failed.contains l)).foldl (fun s l => s.sendHello l true) s
  s.modRst (fun r => { r with linksBegun := true })

/-- A configuration memory's image (R400): byte 0 holds an 8-byte length, and the image follows from byte 64. None where the read
cannot complete or the length is out of range. -/
def memoryImage (bs : List Byte) : Option (List Byte) :=
  let n := ofLe (bs.take 8)
  if imageLengthOk n && 64 + n ≤ bs.length then some (slice bs 64 n) else none

/-- The boot handshake's session is closed (R402). -/
def State.endBoot (s : State) : State :=
  let s : State := { s with links := s.links.map Link.unkeyed }
  s.modChain (fun c => { c with shardRx := [] })

/-- PHASE_4 (R364, R370, R399 to R402): what the pending policy says becomes active.
(DESIGN CHOICE, log entries 5, 117) -/
def execPhase4 (env : Phase4Env) (s : State) : Out :=
  if !s.inPhase 4 then stay s
  else
    let s := s.modSec (fun x => { x with policy := x.pending })
    let src := s.rst.source
    let s := s.modRst (fun r => { r with fallback := decide (16 ≤ r.fails), bootSrc := src })
    match src with
    | 2 =>
      match s.rst.staging with
      | some n => if imageLengthOk n then done (s.checkImage (s.peek (storeBase 0) n) env.body) else done (s.failBringUp 5)
      | none => done s
    | 3 =>
      if s.sec.entropyFail then done (s.failBringUp 3)
      else if !s.rst.linksBegun then done (s.beginBoot env.failedLinks)
      else if s.chain.shardRx.isEmpty then done s
      else if imageLengthOk s.chain.shardRx.length then done (s.endBoot.checkImage s.chain.shardRx env.body)
      else done (s.endBoot.failBringUp 5)
    | _ =>
      match env.memory.bind memoryImage with
      | some image => done (s.checkImage image env.body)
      | none => done (s.failBringUp 5)

/-- What the device drives on the lands of a configuration memory (R442): CFGn_RESET_N, and whether it drives the others or
leaves them at high impedance. -/
structure CfgLands where
  resetHigh : Bool
  driven : Bool
deriving DecidableEq, Repr

/-- The lands of CFG0 (`false`) and CFG1 (`true`): out of reset and driven in phase 4 alone, on the memory that the phase reads
(R400, R442). -/
def State.cfgLands (s : State) (second : Bool) : CfgLands :=
  let reads := s.inPhase 4 && s.rst.source == b2n second
  { resetHigh := reads, driven := reads }

/-! Phase 5: the memories. -/

/-- A stack trained or FAILED; a cold bring-up or a pending unlock zero-fills it (R272, R384). -/
def Stack.train (x : Stack) (failed fill : Bool) : Stack :=
  { x with trained := !failed, failed := failed, selfRefresh := false, arr := if fill && !failed then LineMem.zero else x.arr }

/-- The stash configuration that training establishes (R278): `ok d` says that device d is fitted and trained. -/
def stashDevicesOf (ok : Nat → Bool) : Nat :=
  if (List.range 16).all ok then 16 else if (List.range 8).all (fun c => ok (2 * c)) then 8 else 0

/-- A stash controller trained under a new key (R278, R280, R281): its devices are numbers 2n and 2n + 1 of the package. -/
def Stash.train (x : Stash) (n devices key : Nat) (fitted ok : Nat → Bool) : Stash :=
  { x with
    fitted0 := fitted (2 * n), fitted1 := fitted (2 * n + 1), trained0 := ok (2 * n), trained1 := ok (2 * n + 1)
    inUse0 := devices != 0, inUse1 := devices == 16, keyReady := true, key := some key, arr := LineMem.zero }

/-- The stash tier trained, its key drawn (R278, R280, R281, R374). (DEDUCED, log entry 93) -/
def State.trainStash (s : State) (env : Phase5Env) : State :=
  let fitted (d : Nat) : Bool := env.fitted.any (fun x => x.val == d)
  let ok (d : Nat) : Bool := fitted d && !env.failedStash.any (fun x => x.val == d)
  let n := stashDevicesOf ok
  let key := s.sec.draws
  let s : State := { s.drew 1 with stash := Vector.ofFn (fun i : Fin 8 => (s.stash.get i).train i.val n key fitted ok) }
  s.modDev (fun d => { d with stashDevices := n })

/-- The stacks trained in a bring-up that is not a core reset's, and zero-filled where the scope or a pending unlock asks. -/
def State.trainStacks (s : State) (env : Phase5Env) : State :=
  let fill := s.rst.cur.scope == .cold || s.sec.zeroiseFlag
  if s.coreBringUp then
    (if s.sec.zeroiseFlag then { s with mem := s.mem.map (fun m => m.train m.failed true) } else s)
  else { s with mem := Vector.ofFn (fun i : Fin 12 => (s.mem.get i).train (env.failedStacks.contains i) fill) }

/-- The core stores and program stores zero-filled, DEBUG_OPEN set, and the device HALTED (R384). -/
def State.endUnlock (s : State) : State :=
  let s := s.dropTables
  (s.modSec (fun x => { x with zeroiseFlag := false, debugOpen := true })).modDev (fun d => { d with st := .halted })

/-- PHASE_5 (R272, R278, R280, R281, R384). -/
def execPhase5 (env : Phase5Env) (s : State) : Out :=
  if !s.inPhase 5 then stay s
  else if s.sec.entropyFail then done (s.failBringUp 3)
  else
    let s := (s.trainStacks env).trainStash env
    if s.sec.zeroiseFlag then done s.endUnlock else done (s.enterPhase 6)

/-! Phase 6: the links. -/

/-- A link that the plan uses, before its handshake: UP, with the peer that training meets and a credit for each flit of the
peer's allotment (R304, R312). (DESIGN CHOICE, log entry 100) -/
def State.trainLink (s : State) (env : Phase6Env) (l : Fin 36) : State :=
  let flits (t : Tbl Nat) : Vector Nat 8 := Vector.ofFn (fun v : Fin 8 => (Tbl.get? t (8 * l.val + v.val)).getD 0)
  let peer := env.peers.find? (fun p => p.1 == l)
  let s := s.modLink l (fun x =>
    { Link.zero with
      bank := x.bank, st := .up, used := true, allot := flits s.plan.allot, credits := flits env.allots
      peerDev := (peer.map (fun p => p.2.1)).getD 0, peerLink := (peer.map (fun p => p.2.2)).getD 0 })
  if env.failedLinks.contains l then s.failLink l else s

/-- The links that the plan uses. -/
def State.usedLinks (s : State) : List (Fin 36) := (allFin 36).filter (fun l => s.plan.usedLinks.getLsbD l.val)

/-- A core reset's links: those not FAILED are UP and lose their sessions. -/
def Link.rise (x : Link) : Link := if x.used && x.st != .failed then { x.unkeyed with st := .up } else x

/-- The device begins the handshake on a link (R326, R371): side 0 on the twin port, elsewhere the lower identifier. -/
def State.begins (s : State) (l : Fin 36) : Bool :=
  if twinPort l then !s.rst.straps.twinSide else decide (s.self < (s.link l).peerDev)

/-- The pairing of two devices with the same TWIN_SIDE is refused (R327). (DEDUCED, log entry 113) -/
def State.judgeSides (s : State) (env : Phase6Env) : State :=
  match s.twinLinksUp with
  | l :: _ => if env.sameSide && s.plan.twin.isSome then s.refuseSession l else s
  | [] => s

/-- The used links trained, the pairing awaited and the handshakes begun (R304, R326, R371). -/
def State.beginLinks (s : State) (env : Phase6Env) : State :=
  let s := if s.coreBringUp then { s with links := s.links.map Link.rise }
    else s.usedLinks.foldl (fun s l => s.trainLink env l) s
  let s := s.modChain (fun c =>
    { c with
      twin := if s.plan.twin.isSome then .pairing else .unpaired, twinTaken := env.twinTaken && s.plan.twin.isSome
      twinSpoke := false, pairSince := s.now })
  let s := s.modRst (fun r => { r with linksBegun := true })
  ((s.usedLinks.filter (fun l => (s.link l).st == .up && s.begins l)).foldl (fun s l => s.sendHello l false) s).judgeSides env

/-- PHASE_6 (R304, R326, R371): the phase ends with the last handshake. Its handshakes draw their ephemerals (R374). -/
def execPhase6 (env : Phase6Env) (s : State) : Out :=
  if !s.inPhase 6 then stay s
  else if s.rst.linksBegun then done s.settleLinks
  else if s.sec.entropyFail && !s.usedLinks.isEmpty then done (s.failBringUp 3)
  else done (s.beginLinks env).settleLinks

/-! Phase 7: the self-test of the arrays and a measurement. -/

/-- An array after its self-test (R87, R88), whose steps count in ACTIVE_STEPS and WS_STEPS (R96). How many they are is open.
(DESIGN CHOICE, log entry 131) -/
def Gale.selfTest (x : Gale) (t : Option SelfTest) (active ws : Nat) : Gale :=
  let flow := match t with | some t => t.firstFail | none => none
  let signatureBad := match t with | some t => !t.signatureOk | none => false
  let pass := flow.isNone && !signatureBad
  { x with
    health := if pass then .ok else .failed, stDone := true, stPass := pass, stFailFlow := flow.isSome
    stFailSig := signatureBad, stFirst := (flow.map (fun i => i.val)).getD 0
    bank := (x.bank.add 0 active).add 11 ws }

/-- PHASE_7 (R87, R412, R413). -/
def execPhase7 (env : Phase7Env) (s : State) : Out :=
  if !s.inPhase 7 then stay s
  else
    let s : State := { s with
      gales := Vector.ofFn (fun g : Fin 8 => (s.gales.get g).selfTest (env.fails.find? (fun t => t.array == g))
        (Config.freeNat (s.fresh + 2 * g.val)) (Config.freeNat (s.fresh + 2 * g.val + 1)))
      fresh := s.fresh + 16
      cores := s.cores.map (fun c => { c with health := .ok }) }
    let s := s.modHlt (fun h => h.measure env.meas s.rst.count s.now s.step true)
    if s.hlt.late then done s.escalate else done (s.enterPhase 8)

/-! Phase 8: the fit check. -/

/-- PHASE_8 (R127, R128): the first failure is shown in CORE_FIT and fails the bring-up.
(DESIGN CHOICE, log entry 129) -/
def execPhase8 (s : State) : Out :=
  if !s.inPhase 8 then stay s
  else
    match s.firstFailure with
    | some (code, core, ctx, idx) => done (({ s with fit := (code, core, ctx, idx, true) } : State).failBringUp 9)
    | none => done (({ s with fit := (0, 0, 0, 0, true) } : State).enterPhase 9)

/-! Phase 9: the plan runs. -/

/-- A context as the plan gives it (R97 to R99): at its first operation, or at its step entry in a core reset's bring-up. -/
def Ctx.start (x : Ctx) (p : CtxProg) (core : Bool) : Ctx :=
  let pos := if core then p.stepEntry.getD p.first else p.first
  { Ctx.idle with
    defined := true, first := p.first, len := p.len, prio := p.prio, st := .ready, fetchPos := pos, execPos := pos
    stepEntry := p.stepEntry, takeEntry := p.takeEntry, bank := x.bank }

/-- The context that a core's plan gives a number. -/
def progFor (pc : PlanCore) (k : Fin 8) : Option CtxProg := pc.progs.find? (fun p => p.ctx == k.val)

/-- A vane at its initial count (R293). -/
def Vane.start (cfg : Option VaneCfg) : Vane :=
  match cfg with
  | some c => ⟨c.initial, [], true, c.stepScoped⟩
  | none => Vane.zero

/-- A core as its plan starts it (R97, R112, R186, R293). -/
def Core.start (x : Core) (pc : PlanCore) (core : Bool) : Core :=
  { x with
    ctxs := Vector.ofFn (fun k : Fin 8 => match progFor pc k with
      | some p => (x.ctxs.get k).start p core
      | none => { Ctx.idle with bank := (x.ctxs.get k).bank })
    rings := pc.rings.map (fun r => (r.1, Ring.fresh r.2))
    vanes := Vector.ofFn (fun k : Fin 48 => Vane.start (Tbl.get? pc.vanes k.val))
    veer := { x.veer with table := if core then x.veer.table else pc.routing } }

/-- An array's feeders as its core's plan gives their depths (R81): array g is array g mod 2 of core g / 2. -/
def Gale.start (x : Gale) (pc : PlanCore) (g : Fin 8) : Gale :=
  let i := 2 * (g.val % 2)
  { x with row := Feeder.fresh (pc.depths.getD i 0), col := Feeder.fresh (pc.depths.getD (i + 1) 0) }

/-- An ingest channel with every buffer FREE (R379). -/
def IngestChan.start (e : BitVec 256) : IngestChan :=
  { fill := 0, free := List.range (ingBuffers e), ready := [], busy := none }

/-- Bytes of a range of lines, all zero and not poisoned (R231, ZERO). (DESIGN CHOICE, log entry 91) -/
def LineMem.wipe (m : LineMem) (lo n : Nat) : LineMem :=
  let keep (a : Nat) : Bool := decide (a < lo) || decide (lo + n ≤ a)
  let m := { m with
    data := m.data.filter (fun e => keep e.1)
    upset := m.upset.filter (fun e => keep (64 * (e.1 / 68)))
    fixes := m.fixes.filter (fun e => keep (64 * e.1)), wc := m.wc.filter (fun e => keep (64 * e.1)) }
  (m.poison ++ m.poisonInv).foldl (fun m g =>
    (List.range 15).foldl (fun m i =>
      let line := g.1 * 15 + i
      if keep (64 * line) then m else m.setPoison line false) m) m

/-- The check lines of a range of lines that are all written, group by group: through the check cache, with the direction of
their channels (R269, R275). -/
def LineMem.writeGroups (m : LineMem) (first n max : Nat) : LineMem × LineEv :=
  if n = 0 then (m, LineEv.none)
  else
    (List.range (groupOf (first + n - 1) - groupOf first + 1)).foldl (fun (a : LineMem × LineEv) i =>
      let g := groupOf first + i
      let bits := (List.range 15).foldl (fun (b : BitVec 16) j =>
        if decide (first ≤ 15 * g + j) && decide (15 * g + j < first + n) then b ||| BitVec.ofNat 16 (1 <<< j) else b) 0
      let (m, e) := a.1.touchGroup g bits max
      let (m, t) := m.turn g true
      (m, (a.2.plus e).plus t)) (m, LineEv.none)

/-- The regions of ZERO entries of the load table filled with zeros in their committed half, each line a line written
(R231, R269, R275, R282). -/
def State.loadZeros (s : State) : State :=
  (s.plan.loads.filter (fun l => loadSource l == 2)).foldl (fun s l =>
    match s.region (loadBase l) with
    | some r =>
      let n := Fin.ofNat 12 (regStack r)
      let lo := regLocal r + s.halfOf n false * regSize r
      let (m, e) := (s.stack n).arr.writeGroups (lo / 64) (regSize r / 64) stackCache
      s.modStack n (fun x => { x with arr := m.wipe lo (regSize r), bank := x.bank.stackEv { e with writes := regSize r / 64 } })
    | none => s) s

/-- What only a cold or warm reset's bring-up starts (R223, R231, R379): the first step, the epoch, the loads, the ingest. -/
def State.startRun (s : State) : State :=
  let p := s.plan
  let s : State := { s with
    step := p.startStep, begun := false
    loads := (List.range p.loads.length).filter (fun i => loadSource (p.loads.getD i 0) != 2)  }
  let s := s.modChain (fun c => { c with epoch := p.startEpoch })
  let s := s.modSec (fun x =>
    { x with channels := (List.range p.ingest.length).map (fun i => (i, IngestChan.start (p.ingest.getD i 0))) })
  s.loadZeros

/-- The role of a device when its plan starts (R327): with a twin, OUTSIDE after a core reset (R391), and where the twin is
absent or found TAKEN_OVER (R336). (DEDUCED, log entry 140) -/
def State.startRole (s : State) : Role :=
  if s.plan.twin.isNone then .member
  else if s.coreBringUp || s.chain.twinTaken || s.chain.twin != .paired then .outside
  else .member

/-- After a core reset, a device that stands OUTSIDE awaits every chunk of its own shard from the survivor (R332, R391).
(DEDUCED, log entry 140) -/
def State.awaitShard (s : State) : State :=
  { s with
    loads := (List.range s.plan.loads.length).filter (fun i => loadShard (s.plan.loads.getD i 0) == 0)
    loadedChunks := [] }

/-- The plan starts (R231, R293, R391). -/
def State.startPlan (s : State) : State :=
  let core := s.coreBringUp
  let s : State := { s with
    cores := Vector.ofFn (fun c : Fin 4 => (s.cores.get c).start (s.prog c) core)
    gales := Vector.ofFn (fun g : Fin 8 => (s.gales.get g).start (s.prog (Fin.ofNat 4 (g.val / 2))) g)
    chainVanes := Vector.ofFn (fun k : Fin 64 => Vane.start (Tbl.get? s.plan.chainVanes k.val)) }
  let s := if core then s else s.startRun
  let role := s.startRole
  let s := (if core && role == .outside then s.awaitShard else s).showLoading
  let s := (s.modChain (fun c => { c with role := role })).planFence.enlistFoehns
  if core && s.begun && role == .member then s.signalNow s.stepSignals else s

/-- PHASE_9 (R404, R408): DEV_STATE is RUN, FAILS is zeroed and the history takes its outcome.
(DESIGN CHOICE, log entry 5) -/
def execPhase9 (s : State) : Out :=
  if !s.inPhase 9 then stay s
  else
    let s := s.modDev (fun d => { d with st := .run })
    let s := (s.modRst (fun r => { r with fails := 0, wdtSince := s.now })).outcome 25 0
    done s.startPlan

/-! Bounds. -/

/-- The bound of the phase that runs, in device ticks; phase 9 has none. -/
def State.phaseBound (s : State) : Option Nat :=
  match s.dev.phase with
  | 1 => some (2 ^ 20)
  | 2 => some (2 ^ 27)
  | 3 => some (2 ^ 20)
  | 4 => some (if s.rst.source < 2 then 2 ^ 28 else 2 ^ 33)
  | 5 => some (2 ^ 30)
  | 6 => some (2 ^ 28 + s.chain.pairBound)
  | 7 => some (2 ^ 24)
  | 8 => some (2 ^ 28)
  | _ => none

/-- The code of an expired bound (R398, R403): a host or twin that has sent no image is its own failure. -/
def State.boundCode (s : State) : Nat :=
  if s.dev.phase = 4 && ((s.rst.source = 2 && s.rst.staging.isNone) || (s.rst.source = 3 && s.chain.shardRx.isEmpty)) then 0x07
  else 0x0A

/-- PHASE_BOUND_EXPIRY (R398). -/
def execPhaseBoundExpiry (s : State) : Out :=
  match s.phaseBound with
  | some b =>
    if s.now < s.rst.phaseSince + b then stay s
    else if s.inPhase s.dev.phase then done (s.failBringUp s.boundCode)
    else
      match s.phase1Due with
      | some t => done ((s.countReset t).failBringUp s.boundCode)
      | none => stay s
  | none => stay s

end Sys2Proof.Machine
end

