-- ==== Sys2Proof/Machine/Flags.lean ====
section
/-! DEFINITION. Sticky bits and overflow bits under a write (R20, R26, R33): the device's only flags. -/

namespace Sys2Proof.Machine

/-- A sticky bit after a write: bit `i` of the word clears it. -/
def keepBit (old : Bool) (v : Word) (i : Nat) : Bool := old && !v.getLsbD i

/-- The word of a write to bits [lo + n − 1 : lo], moved to bit 0. -/
def wordBits (v : Word) (lo n : Nat) : Word := BitVec.ofNat 32 (field v lo n)

/-- Overflow bits 0 to n − 1 of a bank cleared by the ones of a write. -/
def Bank.w1c {n : Nat} (b : Bank n) (v : Word) : Bank n := b.clearOvf (wordBits v 0 n)

end Sys2Proof.Machine
end

