-- ==== Sys2Proof/Machine/Registers.lean ====
section
/-! DEFINITION. Control space as it reads (R17 to R21, R25, R366, R367): every register of every block, with its class and
what a requester path sees in it, and the rights of each role. -/

namespace Sys2Proof.Machine

/-- Classes of R366, with one class for each register that R367 names by itself. Routing, sparsity and speculation statistics are
`metric`, OWNER_METRIC, which no operator reads (R387). -/
inductive RegClass where
  | ident | throughput | secStatus | veerStatus | health | metric | event | ageing | perfClear | scratch
  | aperture (fn : Fin 2)
  | secCmd | mailbox | ingestCmd | chainCmd | rstCmd
deriving DecidableEq, Repr

/-- A register as a path sees it: a 32-bit word, or a half of a 64-bit pair, with the whole value. -/
inductive RegHalf where
  | word | lo | hi
deriving DecidableEq, Repr

/-- A register: its class, its half and its value. -/
structure Reg where
  cls : RegClass
  half : RegHalf
  val : Nat
deriving DecidableEq, Repr

/-- A register of one word. -/
def reg (cls : RegClass) (v : Nat) : Option Reg := some ⟨cls, .word, v⟩

/-- A half of a pair: the low one at an offset that is a multiple of 8. -/
def pairHalf (cls : RegClass) (off v : Nat) : Option Reg := some ⟨cls, if off % 8 = 0 then .lo else .hi, v⟩

/-- Word `k` of a byte string. -/
def wordOf (bs : List Byte) (k : Nat) : Nat := ofLe (slice bs (4 * k) 4)

/-- Byte `off` of a string that starts at a register offset `base` and is `n` words long, as a word register. -/
def strReg (cls : RegClass) (bs : List Byte) (base n off : Nat) : Option Reg :=
  if base ≤ off && off < base + 4 * n then reg cls (wordOf bs ((off - base) / 4)) else none

/-- Counter pairs: counter i at `base` + 8 i, of `n`. -/
def ctrReg (cls : Nat → RegClass) (n : Nat) (v : Nat → Nat) (base off : Nat) : Option Reg :=
  if base ≤ off && off < base + 8 * n then pairHalf (cls ((off - base) / 8)) off (v ((off - base) / 8)) else none

/-- Every counter of a bank is of class HEALTH. -/
def healthCtr (_ : Nat) : RegClass := .health

/-- The value under a key of an association list. -/
def assoc {α β : Type} [DecidableEq α] (l : List (α × β)) (a : α) : Option β := (l.find? (fun e => e.1 = a)).map (·.2)

/-- An association list with a key's value set. -/
def assocSet {α β : Type} [DecidableEq α] (l : List (α × β)) (a : α) (b : β) : List (α × β) :=
  (a, b) :: l.filter (fun e => e.1 ≠ a)

/-- A flag above a 64-bit value's low 63 bits: VALID of the pairs that carry one. -/
def validPair (v : Option Nat) : Nat :=
  match v with
  | some n => n % 2 ^ 48 + put 63 1
  | none => 0

/-- The plan runs: phase 9 has been reached (registers that are 0 until then). (DESIGN CHOICE, log entry 23) -/
def State.planShown (s : State) : Bool := s.loaded && s.dev.phase == 9

/-- A value from the plan, 0 until the plan runs. (DESIGN CHOICE, log entry 23) -/
def State.ofPlan (s : State) (v : Nat) : Nat := if s.planShown then v else 0

/-- The layout of R30. -/
def cmdStatusWord (c : CmdStatus) : Nat := c.code + put 4 (b2n c.busy) + put 8 c.src + put 16 c.tag

/-! Blocks of one instance. -/

/-- DEV_ (spec/01). -/
def State.devReg (s : State) (o : Nat) : Option Reg :=
  let d := s.dev
  match o with
  | 0x00 => reg .ident 0x54582812
  | 0x04 => reg .ident d.stepping.toNat
  | 0x08 | 0x0C => pairHalf .ident o d.serial.toNat
  | 0x10 => reg .ident (d.chainId.toNat + put 31 (b2n d.chainValid))
  | 0x14 => reg .ident (devStateWord d)
  | 0x18 =>
    let t := s.rst.straps
    reg .ident (d.stashDevices + put 5 (b2n t.twinSide) + put 6 t.bootSel.toNat + put 8 t.paceSel.toNat)
  | 0x20 | 0x24 => pairHalf .ident o d.tick.toNat
  | 0x28 => reg .perfClear 0
  | 0x2C => reg .scratch d.scratch.toNat
  | _ => strReg .ident d.digest 0x40 12 o

/-- The reset record that a path has selected (R408). -/
def State.histSelected (s : State) (p : Path) : Nat := (assoc s.ports.histSel p).getD 0

/-- RST_ (spec/15). -/
def State.rstReg (s : State) (p : Path) (o : Nat) : Option Reg :=
  let r := s.rst
  let i := s.histSelected p
  match o with
  | 0x00 => reg .rstCmd 0
  | 0x04 => reg .health (cmdStatusWord r.cmd)
  | 0x08 => reg .health r.count
  | 0x0C => reg .health (r.lastSource + put 4 r.lastScope)
  | 0x10 => reg .health r.cause.toNat
  | 0x14 => reg .health (r.fails + put 8 (b2n r.fallback) + put 9 r.bootSrc + put 11 (b2n r.backupLost) + put 12 r.failPhase +
      put 16 r.failCode)
  | 0x18 => reg .health r.wdt
  | 0x20 => reg .health (i + put 31 (b2n (decide (i < r.history.length))))
  | _ => strReg .health (r.history.getD i []) 0x40 16 o

/-- The record under a path's cursor (R424): none where neither the ring nor the keep store holds it.
(DESIGN CHOICE, log entry 20) -/
def State.cursorRecord (s : State) (p : Path) : Option (List Byte) := (assoc s.ports.cursor p).bind s.evr.record?

/-- EVR_ (spec/16). (DESIGN CHOICE, log entry 20) -/
def State.evrReg (s : State) (p : Path) (o : Nat) : Option Reg :=
  let e := s.evr
  match o with
  | 0x00 => reg .event (b2n (s.ports.gone.contains p) + put 1 (b2n e.flushing) + put 2 (b2n e.skippedSeen) +
      put 3 e.unkept.length + put 16 (b2n e.suppressedSeen))
  | 0x08 | 0x0C => pairHalf .event o (validPair (if e.made then some (e.next - 1) else none))
  | 0x10 | 0x14 => pairHalf .event o (validPair e.kept)
  | 0x18 => reg .event e.bank.ovf.toNat
  | 0x20 | 0x24 => pairHalf .event o (validPair (assoc s.ports.cursor p))
  | _ =>
    if o < 0x100 then strReg .event ((s.cursorRecord p).getD []) 0x40 16 o
    else ctrReg (fun _ => .event) 5 e.bank.val 0x100 o

/-- The 16 bits of a signed number. -/
def signed16 (v : Int) : Nat := (BitVec.ofInt 16 v).toNat

/-- The canary line that a path has selected (R416). -/
def State.canaryLine (s : State) (p : Path) : Fin 128 := Fin.ofNat 128 ((assoc s.ports.canarySel p).getD 0)

/-- HLT_CANARY of a line. -/
def canaryWord (c : Canary) : Nat :=
  if c.measured = 0 then 0
  else (signedByte c.first).toNat + put 8 (signedByte c.min).toNat + put 16 (signedByte c.last).toNat + put 31 1

/-- HLT_ (spec/16). -/
def State.hltReg (s : State) (p : Path) (o : Nat) : Option Reg :=
  let h := s.hlt
  let c := s.plan.health
  match o with
  | 0x00 => reg .ageing (h.computeCode + put 4 h.linkCode + put 8 (b2n h.spent) + put 9 (b2n h.measuring) +
      put 10 (b2n h.rateDownSeen) + put 11 (b2n h.avsFailSeen) + put 12 (b2n h.tempWarnSeen) + put 13 (b2n h.keepErrSeen))
  | 0x04 => reg .ageing ((signedByte h.mCompute).toNat + put 8 (signedByte h.mLink).toNat + put 16 h.worstCompute +
      put 24 h.worstLink + put 31 (b2n h.valid))
  | 0x08 => reg .ageing (h.target + put 16 h.vread)
  | 0x0C => reg .ageing (s.ofPlan (c.vmin + put 10 c.vmax + put 20 c.marginLow + put 26 c.marginHigh))
  | 0x10 => reg .ageing (s.ofPlan (c.tempWarn + put 11 c.avsSettle))
  | 0x14 => reg .ageing (s.canaryLine p).val
  | 0x18 => reg .ageing (canaryWord (h.lines.get (s.canaryLine p)))
  | 0x1C => reg .ageing (h.rate % 2 ^ 24)
  | 0x20 => reg .ageing h.bank.ovf.toNat
  | _ =>
    if 0x40 ≤ o && o < 0x70 then
      let i : Fin 12 := Fin.ofNat 12 ((o - 0x40) / 4)
      reg .ageing (signed16 (h.temps.get i) + put 16 (signed16 (h.temMax.get i)))
    else ctrReg (fun _ => .ageing) 7 h.bank.val 0x100 o

/-- ROLE of SEC_SESSION for a path: 0 base, 1 owner, 2 service. -/
def State.sessionRole (s : State) (p : Path) : Nat :=
  match secPath p with
  | some i => (match s.sessionParty i with | .owner => 1 | .service => 2 | _ => 0)
  | none => 0

/-- SEC_INGEST_c (R377, R379). -/
def State.ingestWord (s : State) (c : Nat) : Nat :=
  match s.channel c with
  | some (e, ch) => ch.fill + put 7 ch.free.length + put 14 ch.ready.length + put 21 (ingBuffers e) + put 28 (b2n (ingSealed e)) + put 29 1
  | none => 0

/-- SEC_SLOT_k (R361). -/
def State.slotWord (s : State) (k : Nat) : Nat :=
  let x := s.sec.slots.get (Fin.ofNat 16 k)
  x.use + put 2 (b2n (s.slotInUse k)) + put 8 (x.generation % 2 ^ 24)

/-- SEC_ (spec/14). SEC_NONCE, SEC_SESSION and SEC_MBOX are the path's own. -/
def State.secReg (s : State) (p : Path) (o : Nat) : Option Reg :=
  let x := s.sec
  match o with
  | 0x00 => reg .secStatus (x.lifecycle + put 2 (b2n x.endorsement.isSome) + put 3 (b2n x.debugOpen) + put 4 (b2n x.zeroising) +
      put 5 (b2n x.entropyFail) + put 6 x.planCheck + put 9 (b2n x.deniedSeen) + put 10 (b2n x.ingestFailSeen))
  | 0x04 => reg .ident x.policy
  | 0x08 => reg .ident x.pending
  | 0x0C => reg .ident x.minGrant
  | 0x10 => reg .secCmd 0
  | 0x14 => reg .ident (cmdStatusWord x.cmd)
  | 0x18 => reg .ident (s.sessionRole p)
  | 0x1C => reg .health x.bank.ovf.toNat
  | 0x200 => reg .ingestCmd 0
  | 0x204 => reg .ident (cmdStatusWord x.ingestCmd)
  | _ =>
    if o < 0x40 then strReg .ident (((secPath p).bind (fun i => x.nonces.get i)).getD []) 0x20 8 o
    else if o < 0x80 then strReg .ident x.ownerHash 0x40 12 o
    else if o < 0x100 then strReg .ident (s.idKey.drop 1) 0x80 24 o
    else if o < 0x140 then ctrReg healthCtr 7 x.bank.val 0x100 o
    else if o < 0x180 then reg .ident (s.slotWord ((o - 0x140) / 4))
    else if o < 0x200 then strReg .metric x.ingestDigest 0x180 12 o
    else if 0x210 ≤ o && o < 0x230 then reg .ident (s.ingestWord ((o - 0x210) / 4))
    else if 0x1000 ≤ o && o < 0x2000 then reg .mailbox 0
    else none

/-- VIO_ (spec/01). -/
def State.vioReg (s : State) (o : Nat) : Option Reg :=
  let v := s.vio
  match o with
  | 0x00 | 0x04 => pairHalf .health o (v.addr + v.dev * 2 ^ 48)
  | 0x08 => reg .health v.src
  | 0x0C => reg .health (if v.valid then v.kind else 0)
  | 0x10 => reg .health (b2n v.valid + put 1 (b2n v.lost) + put 2 (b2n v.ovf))
  | 0x18 | 0x1C => pairHalf .health o v.count.toNat
  | _ => none

/-! The windows of a core. -/

/-- CORE_RING_k (R112). -/
def ringWord (r : Ring) : Nat :=
  r.head + put 8 r.tail + put 16 (b2n r.headWrap) + put 17 (b2n r.tailWrap) + put 18 (b2n r.cfg.specAllowed) + put 19 1 +
    put 20 r.slots.length + put 29 (b2n (r.slots.any (·.spec))) +
    put 30 (b2n (r.slots.any (fun x => x.st == .full && x.poison))) + put 31 (b2n r.cfg.stepScoped)

/-- CORE_RECOVERY (spec/13). -/
def State.recoveryWord (s : State) : Nat :=
  let c := s.chain
  c.lastCause + put 8 c.lastAction + put 10 (b2n (s.dev.st == .takeover)) + put 11 (b2n c.settleSince.isSome) +
    put 12 (b2n c.staleState) + put 13 (b2n c.restoreRefused) + put 14 (b2n c.haltSeen) + put 16 (c.attempt % 2 ^ 16)

/-- CORE_REC_OVF of a core: counter 2 is the core's own. -/
def State.recOvfWord (s : State) (c : Fin 4) : Nat := s.chain.recOvf.toNat + put 2 (b2n (s.core c).recOvf)

/-- A recovery counter of R350 as a core shows it. -/
def State.recCounter (s : State) (c : Fin 4) (n : Nat) : Nat :=
  if n = 2 then (s.core c).recomputes.toNat
  else (s.chain.recBank.get (Fin.ofNat 5 (if n < 2 then n else n - 1))).toNat

/-- CORE_FENCE_CFG (R221). -/
def State.fenceCfgWord (s : State) (c : Fin 4) : Nat :=
  match (s.prog c).fence with
  | some f => s.ofPlan (f.fenceVane.val + put 8 f.stepVane.val + put 15 1 + put 16 f.fenceCount)
  | none => 0

/-- CORE_FIT (R127). -/
def State.fitWord (s : State) : Nat :=
  let (code, core, ctx, idx, ran) := s.fit
  code + put 8 core + put 12 (ctx % 8) + put 15 (b2n ran) + put 16 idx

/-- CORE_PRIORITY (R100). -/
def prioWord (x : Core) : Nat := (allFin 8).foldl (fun acc k => acc + put (3 * k.val) (x.ctxs.get k).prio) 0

/-- CORE_ (spec/04, spec/08, spec/13). -/
def State.coreReg (s : State) (c : Fin 4) (o : Nat) : Option Reg :=
  let x := s.core c
  match o with
  | 0x00 => reg .health (coreStatusWord x)
  | 0x04 => reg .health s.fitWord
  | 0x08 => reg .health (prioWord x)
  | 0x0C => reg .health x.bank.ovf.toNat
  | 0x20 | 0x24 => pairHalf .throughput o s.step
  | 0x28 => reg .health (s.fenceCfgWord c)
  | 0x2C => reg .health (s.ofPlan s.plan.fenceBound)
  | 0x30 => reg .health (s.coreFenceWord c)
  | 0x34 => reg .health (s.ofPlan ((s.prog c).xchk.key + put 16 (s.prog c).gust.length))
  | 0x40 => reg .health s.recoveryWord
  | 0x44 => reg .health (match s.chain.lostDev with | some d => d + put 31 1 | none => 0)
  | 0x48 => reg .health (s.ofPlan s.plan.settle)
  | 0x4C => reg .health (s.ofPlan (s.prog c).recompute.length + put 16 x.pendingRec.length)
  | 0x50 => reg .health (s.recOvfWord c)
  | _ =>
    if o < 0x180 then ctrReg (fun i => if i = 0 then .throughput else .health) 3 x.bank.val 0x100 o
    else if o < 0x800 then ctrReg healthCtr 6 (s.recCounter c) 0x180 o
    else if o < 0x900 then reg .health (match Tbl.get? x.rings ((o - 0x800) / 4) with | some r => ringWord r | none => 0)
    else none

/-- CTX_CREDITS (R82, R117). -/
def State.creditsWord (s : State) (c : Fin 4) (k : Fin 8) : Nat :=
  let side (i : Nat) : Nat × Nat × Nat :=
    let g := s.gale (arrayOf c i)
    if g.owner = some k then (g.row.free, g.col.free, 1) else (0, 0, 0)
  let (ra, ca, oa) := side 0
  let (rb, cb, ob) := side 1
  ra + put 3 ca + put 6 rb + put 9 cb + put 12 oa + put 13 ob

/-- An entry index with its VALID bit. -/
def entryWord (e : Option Nat) : Nat := match e with | some i => i + put 31 1 | none => 0

/-- CTX_ (spec/04, spec/08, spec/13). -/
def State.ctxReg (s : State) (c : Fin 4) (k : Fin 8) (o : Nat) : Option Reg :=
  let x := s.ctx c k
  match o with
  | 0x00 => reg .health (ctxStateWord x (if x.st = .ready then s.blockOf c k else 0))
  | 0x04 => reg .health x.fetchPos
  | 0x08 => reg .health x.execPos
  | 0x0C => reg .health (x.queue.length + put 16 x.highWater)
  | 0x10 => reg .health (s.creditsWord c k)
  | 0x14 => reg .health (ctxWaitWord x)
  | 0x18 => reg .health (entryWord x.stepEntry)
  | 0x1C => reg .health (entryWord x.takeEntry)
  | 0x40 => reg .health x.bank.ovf.toNat
  | _ =>
    if 0x20 ≤ o && o < 0x40 then reg .health (x.lcX.get (Fin.ofNat 8 ((o - 0x20) / 4))).toNat
    else ctrReg (fun i => if 6 ≤ i then .metric else .health) 11 x.bank.val 0x80 o

/-- VANE_OVF of a core: bits 9 to 7 are device-wide. -/
def State.vaneOvfWord (s : State) (c : Fin 4) : Nat := (s.core c).vaneBank.ovf.toNat % 128 + put 7 (s.chainBank.ovf.toNat % 8)

/-- A vane counter of R302 as a core shows it. -/
def State.vaneCounter (s : State) (c : Fin 4) (n : Nat) : Nat := if n < 7 then (s.core c).vaneBank.val n else s.chainBank.val (n - 7)

/-- VANE_ (spec/11). -/
def State.vaneReg (s : State) (c : Fin 4) (o : Nat) : Option Reg :=
  let x := s.core c
  match o with
  | 0x00 => reg .health (s.ofPlan (s.prog c).defaultBound)
  | 0x04 => reg .health (b2n x.vaneOverflowSeen + put 1 (b2n x.boundExpiredSeen) + put 2 (b2n s.chainDiscardSeen) +
      put 3 (b2n s.frozen) + put 4 (b2n s.chainOverflowSeen))
  | 0x08 => reg .health (s.vaneOvfWord c)
  | _ =>
    if o < 0x400 then ctrReg healthCtr 10 (s.vaneCounter c) 0x100 o
    else if o < 0x4C0 then
      let k : Fin 48 := Fin.ofNat 48 ((o - 0x400) / 4)
      let v := x.vanes.get k
      reg .health (v.count + put 16 v.held + put 21 (s.coreVaneFlags c k))
    else if 0x500 ≤ o && o < 0x600 then
      let v := s.chainVanes.get (Fin.ofNat 64 ((o - 0x500) / 4))
      reg .health (v.count + put 16 v.held + put 22 v.chainFlags)
    else none

/-- BAY_STATE codes (R80). -/
def BaySt.code : BaySt → Nat
  | .empty => 0 | .filling => 1 | .full => 2 | .active => 3

/-- A value for each bay of a feeder in fields of `w` bits. -/
def bayBits (f : Feeder) (w : Nat) (v : Bay → Nat) : Nat :=
  (List.range f.bays.length).foldl (fun acc i => acc + put (w * i) (v (f.bays.getD i Bay.none))) 0

/-- GALE_ROW_RING and GALE_COL_RING (R80 to R82). -/
def feederWord (f : Feeder) : Nat :=
  f.head + put 2 (b2n f.headWrap) + put 4 f.tail + put 6 (b2n f.tailWrap) + put 8 f.depth +
    put 16 (bayBits f 2 (fun b => b.st.code)) + put 24 (bayBits f 1 (fun b => b2n b.spec)) +
    put 28 (bayBits f 1 (fun b => b2n b.poison))

/-- States of GALE_BANKS. -/
def BankSt.code : BankSt → Nat
  | .free => 0 | .loading => 1 | .accumulating => 2 | .waitingDrain => 3 | .draining => 4 | .weights => 5 | .partials => 6

/-- Classes of the counters of R96 (R366). -/
def galeCtrClass (i : Nat) : RegClass := if i = 0 || i = 6 then .throughput else if i = 3 then .metric else .health

/-- GALE_ (spec/03). -/
def State.galeReg (s : State) (g : Fin 8) (o : Nat) : Option Reg :=
  let x := s.gale g
  let q := (s.prog (coreOf g)).xchk
  match o with
  | 0x00 => reg .health (x.health.code + put 2 (b2n x.ws) + put 3 x.opMode + put 6 (b2n x.mismatch) + put 7 (b2n x.xchkSkip) +
      put 8 (b2n x.poisonSeen))
  | 0x04 => reg .health (feederWord x.row)
  | 0x08 => reg .health (feederWord x.col)
  | 0x0C => reg .health (x.bank0.st.code + put 3 (b2n x.bank0.poison) + put 4 x.bank1.st.code + put 7 (b2n x.bank1.poison) +
      put 8 (b2n x.drainBank) + put 16 x.drainRow)
  | 0x10 => reg .health (s.ofPlan (q.log2 + put 5 (b2n q.enable) + put 7 (q.ctx.getD 0)) + put 6 (b2n x.selfCheck))
  | 0x14 => reg .health (x.xqueue.length + put 4 x.xhigh)
  | 0x18 | 0x1C => pairHalf .health o x.mmAddr
  | 0x20 => reg .health (x.mmRow + put 16 x.mmCol + put 31 (b2n x.mmValid))
  | 0x24 => reg .health (b2n x.stDone + put 1 (b2n x.stPass) + put 2 (b2n x.stFailFlow) + put 3 (b2n x.stFailSig) +
      put 16 x.stFirst)
  | 0x28 => reg .health x.bank.ovf.toNat
  | _ => ctrReg galeCtrClass 12 x.bank.val 0x100 o

/-- EDDY_PRED_k (R179 to R181). -/
def predWord (t : PredTile) : Nat :=
  let active := ((t.cur.getD []).filter id).length
  active + put 11 (ceilDiv active 16) + put 18 (t.next % 128) + put 25 (b2n t.cur.isSome) + put 26 (b2n t.prev.isSome)

/-- EDDY_ (spec/06). (DESIGN CHOICE, log entry 33) -/
def State.eddyReg (s : State) (c : Fin 4) (o : Nat) : Option Reg :=
  let x := (s.core c).eddy
  match o with
  | 0x00 => reg .metric (b2n x.run.isSome + put 1 x.lastOp + put 9 x.lastCtx.val + put 12 (b2n x.groupBoundSeen) +
      put 13 (b2n x.formErrorSeen) + put 14 (b2n x.poisonSeen) + put 15 (b2n x.missSeen))
  | 0x04 => reg .metric (ceilDiv (bufferBytes x.bufA) 1024 + put 16 (ceilDiv (bufferBytes x.bufB) 1024))
  | 0x08 => reg .metric x.bank.ovf.toNat
  | _ =>
    if 0x400 ≤ o && o < 0x800 then
      reg .metric (match Tbl.get? x.preds ((o - 0x400) / 4) with | some t => predWord t | none => 0)
    else ctrReg (fun _ => .metric) 14 x.bank.val 0x100 o

/-- The selection of a path in a router's histogram window. -/
def State.veerSelected (s : State) (p : Path) (c : Fin 4) : Nat := ((assoc s.ports.veerSel (p, c.val)).getD 0).toNat

/-- The record of the selected expert, when its layer has an entry on the core and it is homed there. -/
def State.histExpert (s : State) (p : Path) (c : Fin 4) : Option (BitVec 256) :=
  let w := s.veerSelected p c
  (Tbl.get? (s.core c).veer.table (w % 1024)).bind (fun e =>
    if (homeExperts e c).contains (w / 65536 % 1024) then e.experts[w / 65536 % 1024]? else none)

/-- VEER_ (spec/07). -/
def State.veerReg (s : State) (p : Path) (c : Fin 4) (o : Nat) : Option Reg :=
  let x := (s.core c).veer
  match o with
  | 0x00 => reg .veerStatus (b2n x.run.isSome + put 1 x.layer + put 11 x.ctx.val + put 14 (b2n x.dropSeen) + put 15 (b2n x.nanSeen) +
      put 16 (b2n x.poisonSeen) + put 17 (b2n s.padTiming))
  | 0x04 => reg .metric (x.tokensDone + put 16 (min 64 ((x.run.map (fun r => r.pairs.length)).getD 0)))
  | 0x08 => reg .metric (x.bank.ovf.toNat % 2 ^ 13 + put 13 (b2n x.histOvf))
  | 0x10 => reg .metric (s.veerSelected p c + put 31 (b2n (s.histExpert p c).isSome))
  | 0x18 | 0x1C => pairHalf .metric o (((s.histExpert p c).map (fun e => field e 128 64)).getD 0)
  | 0x20 | 0x24 => pairHalf .metric o (((s.histExpert p c).map (fun e => field e 192 64)).getD 0)
  | _ => ctrReg (fun i => if i < 2 then .throughput else .metric) 13 x.bank.val 0x100 o

/-- The window of a core (spec/04, Registers). -/
def State.coreWindow (s : State) (p : Path) (c : Fin 4) (o : Nat) : Option Reg :=
  if o < 0x1000 then s.coreReg c o
  else if o < 0x1800 then s.ctxReg c (Fin.ofNat 8 ((o - 0x1000) / 0x100)) (o % 0x100)
  else if o < 0x2000 then none
  else if o < 0x3000 then s.vaneReg c (o - 0x2000)
  else if o < 0x4000 then none
  else if o < 0x4800 then s.galeReg (arrayOf c ((o - 0x4000) / 0x400)) (o % 0x400)
  else if o < 0x6000 then none
  else if o < 0x7000 then s.eddyReg c (o - 0x6000)
  else if o < 0x8000 then s.veerReg p c (o - 0x7000)
  else none

/-! Engines, memories and links. -/

/-- Classes of the counters of R163 (R366). -/
def drtCtrClass (i : Nat) : RegClass := if i < 3 then .throughput else if 6 ≤ i then .metric else .health

/-- DRT_ (spec/05). -/
def State.drtReg (s : State) (e : Fin 8) (o : Nat) : Option Reg :=
  let x := s.drt e
  match o with
  | 0x00 => reg .health (drtStatusWord x)
  | 0x04 => reg .health (drtHeadWord x)
  | 0x08 => reg .health x.bank.ovf.toNat
  | _ => ctrReg drtCtrClass 15 x.bank.val 0x100 o

/-- MEM_ (spec/10). -/
def State.memReg (s : State) (n : Fin 12) (o : Nat) : Option Reg :=
  let x := s.stack n
  match o with
  | 0x00 => reg .health (b2n x.trained + put 1 (b2n x.failed) + put 2 (b2n x.selfRefresh) + put 3 (b2n x.refresh2x) +
      put 4 (b2n x.correctedSeen) + put 5 (b2n x.uncorrSeen) + put 6 (b2n x.poisonWordSeen) +
      put 7 (b2n (decide (wcHighWater (Fin.ofNat 20 n.val) ≤ x.arr.wc.length))))
  | 0x04 => reg .health (x.arr.wc.length + put 16 x.arr.wcHigh)
  | 0x08 => reg .health (s.ofPlan s.plan.wcAge)
  | 0x10 | 0x14 => pairHalf .health o (x.errAddr + put 48 x.errChannel + put 63 (b2n x.errValid))
  | 0x18 => reg .health x.bank.ovf.toNat
  | _ => ctrReg healthCtr 9 x.bank.val 0x100 o

/-- FHN_STATUS (spec/09): GROUP is the lowest running, or the last one run. (DEDUCED, log entry 80) -/
def State.fhnWord (s : State) (n : Fin 12) : Nat :=
  let x := s.fhn n
  let group := match x.running with | [] => x.last | r :: rs => rs.foldl (fun a y => min a y.1) r.1
  b2n (!x.running.isEmpty) + put 1 (group % 256) + put 9 (b2n (s.planShown && s.foehnDone n)) + put 10 (b2n x.withheld) +
    put 11 (b2n x.gradPoisonSeen) + put 12 (b2n x.paramPoisonSeen) + put 13 (b2n x.nonfiniteSeen) + put 14 (b2n x.half) +
    put 15 (b2n x.loading)

/-- FHN_ (spec/09). -/
def State.fhnReg (s : State) (n : Fin 12) (o : Nat) : Option Reg :=
  let x := s.fhn n
  match o with
  | 0x00 => reg .health (s.fhnWord n)
  | 0x04 => reg .health (s.ofPlan (s.groupTable n).length + put 16 x.done.length)
  | 0x08 | 0x0C => pairHalf .health o (x.pAddr + put 48 (b2n x.pKind) + put 63 (b2n x.pValid))
  | 0x10 => reg .health x.bank.ovf.toNat
  | _ => ctrReg (fun i => if i = 0 then .throughput else .health) 6 x.bank.val 0x100 o

/-- STC_ (spec/10). -/
def State.stcReg (s : State) (n : Fin 8) (o : Nat) : Option Reg :=
  let x := s.stc n
  match o with
  | 0x00 => reg .health (b2n x.fitted0 + put 1 (b2n x.fitted1) + put 2 (b2n x.trained0) + put 3 (b2n x.trained1) +
      put 4 (b2n x.inUse0) + put 5 (b2n x.inUse1) + put 6 (b2n x.keyReady) + put 7 (b2n x.correctedSeen) +
      put 8 (b2n x.uncorrSeen) + put 9 (b2n x.crcRetrySeen))
  | 0x04 => reg .health (x.arr.wc.length + put 16 x.arr.wcHigh)
  | 0x10 | 0x14 => pairHalf .health o (x.errAddr + put 48 (b2n x.errPos) + put 63 (b2n x.errValid))
  | 0x18 => reg .health x.bank.ovf.toNat
  | _ => ctrReg healthCtr 8 x.bank.val 0x100 o

/-- STATE codes of TL_STATUS. -/
def LinkSt.code : LinkSt → Nat
  | .down => 0 | .training => 1 | .up => 2 | .retraining => 3 | .failed => 4

/-- ROLE codes of TL_CHAIN. -/
def Role.code : Role → Nat
  | .member => 0 | .joining => 1 | .leaving => 2 | .outside => 3

/-- STATE codes of TL_TWIN. -/
def TwinSt.code : TwinSt → Nat
  | .unpaired => 0 | .pairing => 1 | .paired => 2 | .lost => 3 | .takenOver => 4 | .refused => 5

/-- TL_CHAIN. -/
def chainWord (c : ChainSt) : Nat :=
  c.role.code + put 2 (b2n c.isRoot) + put 3 (b2n c.shardCurrent) + put 4 ((c.parent.map (·.val)).getD 0x3F) +
    put 10 c.children.length + put 16 (min 0xFFFF c.discarded.toNat)

/-- TL_TWIN. -/
def State.twinWord (s : State) : Nat :=
  let up := (allFin 4).foldl (fun acc i =>
    let l := s.link (Fin.ofNat 36 (32 + i.val))
    acc + put i.val (b2n (l.st == .up && l.session))) 0
  s.chain.twin.code + put 3 (b2n s.rst.straps.twinSide) + put 4 up + put 16 s.chain.twinDev

/-- The device-wide registers of the TL_ windows (spec/12). -/
def State.chainReg (s : State) (o : Nat) : Option Reg :=
  let c := s.chain
  match o with
  | 0x800 => reg .chainCmd 0
  | 0x804 => reg .health (cmdStatusWord c.cmd)
  | 0x808 => reg .health (chainWord c)
  | 0x810 | 0x814 => pairHalf .throughput o c.epoch
  | 0x818 => reg .health s.twinWord
  | 0x81C => reg .health (s.ofPlan (c.hbPeriod + put 24 c.hbLimit))
  | 0x820 => reg .health c.pairBound
  | 0x828 | 0x82C => pairHalf .health o c.discarded.toNat
  | 0x830 => reg .health (b2n c.discardOvf)
  | _ => none

/-- TL_ of a link (spec/12). -/
def State.linkReg (s : State) (l : Fin 36) (o : Nat) : Option Reg :=
  let x := s.link l
  match o with
  | 0x00 => reg .health (x.st.code + put 3 (b2n x.spareUsed) + put 4 x.failedLane + put 8 (b2n x.used) + put 9 (b2n x.session) +
      put 10 (b2n x.sparedSeen) + put 11 (b2n x.retrySeen) + put 12 (b2n x.retrainSeen) + put 13 (b2n x.authFailSeen))
  | 0x04 => reg .health (x.peerDev + put 16 x.peerLink + put 31 (b2n x.peerValid))
  | 0x08 => reg .health x.txNext
  | 0x0C => reg .health x.rxNext
  | 0x10 => reg .health (x.retry.length + put 16 x.retryHigh)
  | 0x18 => reg .health x.bank.ovf.toNat
  | _ =>
    if 0x40 ≤ o && o < 0x60 then
      let v : Fin 8 := Fin.ofNat 8 ((o - 0x40) / 4)
      reg .health (x.allot.get v + put 16 (x.credits.get v))
    else if o < 0x800 then ctrReg (fun i => if i < 2 then .throughput else .health) 12 x.bank.val 0x100 o
    else s.chainReg o

/-- FAULT_N and MB_ALERT_N are low while DEV_STATE is HALTED or SAFE (spec/17). -/
def State.alert (s : State) : Bool := s.dev.st == .halted || s.dev.st == .safe

/-- The bus address of the management port (R440). -/
def State.mbAddress (s : State) : Nat := 0x58 + s.ports.mbAddr % 8

/-- HP_ and MB_ (spec/01, spec/17). -/
def State.portReg (s : State) (o : Nat) : Option Reg :=
  let x := s.ports
  match o with
  | 0x00 => reg (.aperture 0) (x.aperture.get 0).toNat
  | 0x04 => reg (.aperture 1) (x.aperture.get 1).toNat
  | 0x100 => reg .health (s.mbAddress + put 7 (b2n s.alert) + put 8 (b2n x.mbPecSeen) + put 9 (b2n x.mbTimeoutSeen) +
      put 10 (b2n x.mbBadSeen))
  | 0x104 => reg .health x.mbBank.ovf.toNat
  | _ => ctrReg healthCtr 4 x.mbBank.val 0x180 o

/-- SLP_ (spec/09). -/
def State.slpReg (s : State) (o : Nat) : Option Reg :=
  let x := s.slip
  let p := s.plan
  match o with
  | 0x00 => reg .health (s.ofPlan (p.stateEvery + put 8 p.storeLag + put 12 p.shadowLinks + put 16 (p.storeDev.getD 0)))
  | 0x04 => reg .health (b2n (x.chunks.any (fun c => c.step == s.step)) + put 1 (b2n (s.planShown && s.fullStep s.step)) +
      put 2 (b2n x.shadowAcked) + put 3 (b2n x.rootClosed) + put 4 (b2n s.storeLagging) + put 5 (b2n x.nakSeen) +
      put 6 (b2n x.abortSeen) + put 7 (b2n x.failed) + put 8 (b2n (s.planShown && p.storeDev.isSome)))
  | 0x08 | 0x0C => pairHalf .health o (validPair x.rootStep)
  | 0x10 | 0x14 => pairHalf .health o (validPair x.shadowAck)
  | 0x18 | 0x1C => pairHalf .health o (validPair x.storeAck)
  | 0x20 => reg .health x.bank.ovf.toNat
  | _ =>
    if o < 0x100 then strReg .health x.committedRoot 0x40 12 o
    else ctrReg (fun i => if i = 0 then .throughput else .health) 8 x.bank.val 0x100 o

/-! Control space as a whole (R17). -/

/-- The register at an offset of control space, as a path sees it (R17, R18): none where the offset is misaligned, lies in no
block or names no register. -/
def State.register (s : State) (p : Path) (off : Nat) : Option Reg :=
  if off % 4 != 0 then none
  else if off < 0x010000 then s.devReg off
  else if off < 0x020000 then s.rstReg p (off % 0x10000)
  else if off < 0x030000 then s.evrReg p (off % 0x10000)
  else if off < 0x040000 then s.hltReg p (off % 0x10000)
  else if off < 0x050000 then s.secReg p (off % 0x10000)
  else if off < 0x060000 then s.vioReg (off % 0x10000)
  else if off < 0x100000 then none
  else if off < 0x140000 then s.coreWindow p (Fin.ofNat 4 ((off - 0x100000) / 0x10000)) (off % 0x10000)
  else if off < 0x200000 then none
  else if off < 0x208000 then s.drtReg (Fin.ofNat 8 ((off - 0x200000) / 0x1000)) (off % 0x1000)
  else if off < 0x300000 then none
  else if off < 0x3C0000 then
    let n : Fin 12 := Fin.ofNat 12 ((off - 0x300000) / 0x10000)
    if off % 0x10000 < 0x8000 then s.memReg n (off % 0x10000) else s.fhnReg n (off % 0x8000)
  else if off < 0x400000 then none
  else if off < 0x408000 then s.stcReg (Fin.ofNat 8 ((off - 0x400000) / 0x1000)) (off % 0x1000)
  else if off < 0x500000 then none
  else if off < 0x524000 then s.linkReg (Fin.ofNat 36 ((off - 0x500000) / 0x1000)) (off % 0x1000)
  else if off < 0x600000 then none
  else if off < 0x610000 then s.portReg (off % 0x10000)
  else if off < 0x700000 then none
  else if off < 0x710000 then s.slpReg (off % 0x10000)
  else none

/-! Rights (R351, R352, R366, R367). -/

/-- Owner or service. -/
def Party.privileged : Party → Bool
  | .owner | .service => true
  | _ => false

/-- Who may use the aperture register of a function: on function 1 every session and the operator, on function 0 the operator;
an owner reaches function 0's as well. (DEDUCED, log entry 21) -/
def State.mayAperture (s : State) (p : Path) (fn : Fin 2) : Bool :=
  if fn = 0 then s.party p == .owner || p == .f0 else p == .f1

/-- A path may read a class (R367). (DEDUCED, log entry 21) -/
def State.mayRead (s : State) (p : Path) : RegClass → Bool
  | .ident | .throughput | .secStatus | .veerStatus | .scratch => true
  | .health => s.party p != .operator
  | .metric => s.party p == .owner
  | .event | .ageing => (s.party p).privileged
  | .aperture fn => s.mayAperture p fn
  | .perfClear | .secCmd | .mailbox | .ingestCmd | .chainCmd | .rstCmd => false

/-- A path may write a class (R367). (DEDUCED, log entry 21) -/
def State.mayWrite (s : State) (p : Path) : RegClass → Bool
  | .ident | .throughput => false
  | .secStatus | .health | .event | .ageing | .chainCmd => (s.party p).privileged
  | .veerStatus | .metric | .perfClear => s.party p == .owner
  | .scratch => s.party p != .peer
  | .aperture fn => s.mayAperture p fn
  | .secCmd | .mailbox => (secPath p).isSome
  | .ingestCmd => s.mayIngest p
  | .rstCmd => s.mayReset p

end Sys2Proof.Machine
end

