-- ==== Sys2Proof/Machine/RegWrite.lean ====
section
/-! DEFINITION. Accesses to control space (R18 to R33, R367): how a read and a write are answered, what a write does to each
register, the command registers with their opcodes, and the rows of a path's accesses. -/

namespace Sys2Proof.Machine

/-! W1C bits, by block (R20, R26). -/

/-- The W1C bits of the blocks that have one instance. -/
def State.clearCommon (s : State) (off : Nat) (v : Word) : State :=
  match off with
  | 0x010010 => s.modRst (fun r => { r with cause := r.cause &&& ~~~ v })
  | 0x010014 => s.modRst (fun r => { r with backupLost := keepBit r.backupLost v 11 })
  | 0x020000 => s.modEvr (fun e => { e with skippedSeen := keepBit e.skippedSeen v 2, suppressedSeen := keepBit e.suppressedSeen v 16 })
  | 0x020018 => s.modEvr (fun e => { e with bank := e.bank.w1c v })
  | 0x030000 => s.modHlt (fun h =>
      { h with
        rateDownSeen := keepBit h.rateDownSeen v 10, avsFailSeen := keepBit h.avsFailSeen v 11
        tempWarnSeen := keepBit h.tempWarnSeen v 12, keepErrSeen := keepBit h.keepErrSeen v 13 })
  | 0x030020 => s.modHlt (fun h => { h with bank := h.bank.w1c v })
  | 0x040000 => s.modSec (fun x => { x with deniedSeen := keepBit x.deniedSeen v 9, ingestFailSeen := keepBit x.ingestFailSeen v 10 })
  | 0x04001C => s.modSec (fun x => { x with bank := x.bank.w1c v })
  | 0x050010 =>
    let l := s.vio
    { s with vio := { l with valid := keepBit l.valid v 0, lost := keepBit l.lost v 1, ovf := keepBit l.ovf v 2 } }
  | 0x600100 => s.modPorts (fun p =>
      { p with mbPecSeen := keepBit p.mbPecSeen v 8, mbTimeoutSeen := keepBit p.mbTimeoutSeen v 9, mbBadSeen := keepBit p.mbBadSeen v 10 })
  | 0x600104 => s.modPorts (fun p => { p with mbBank := p.mbBank.w1c v })
  | 0x700004 => s.modSlip (fun x =>
      { x with nakSeen := keepBit x.nakSeen v 5, abortSeen := keepBit x.abortSeen v 6, failed := keepBit x.failed v 7 })
  | 0x700020 => s.modSlip (fun x => { x with bank := x.bank.w1c v })
  | _ => s

/-- The W1C bits of the CORE_ block of a core. -/
def State.clearCore (s : State) (c : Fin 4) (o : Nat) (v : Word) : State :=
  match o with
  | 0x0C => s.modCore c (fun x => { x with bank := x.bank.w1c v })
  | 0x30 => s.modChain (fun x => { x with retrySeen := keepBit x.retrySeen v 7, boundSeen := keepBit x.boundSeen v 8 })
  | 0x40 => s.modChain (fun x =>
      { x with
        staleState := keepBit x.staleState v 12, restoreRefused := keepBit x.restoreRefused v 13
        haltSeen := keepBit x.haltSeen v 14 })
  | 0x50 =>
    (s.modChain (fun x => { x with recOvf := x.recOvf &&& ~~~ v })).modCore c (fun x => { x with recOvf := keepBit x.recOvf v 2 })
  | _ => s

/-- The W1C bits of the VANE_ block of a core. -/
def State.clearVanes (s : State) (c : Fin 4) (o : Nat) (v : Word) : State :=
  match o with
  | 0x04 =>
    let s := s.modCore c (fun x =>
      { x with vaneOverflowSeen := keepBit x.vaneOverflowSeen v 0, boundExpiredSeen := keepBit x.boundExpiredSeen v 1 })
    { s with chainDiscardSeen := keepBit s.chainDiscardSeen v 2, chainOverflowSeen := keepBit s.chainOverflowSeen v 4 }
  | 0x08 =>
    let s := s.modCore c (fun x => { x with vaneBank := x.vaneBank.clearOvf (wordBits v 0 7) })
    { s with chainBank := s.chainBank.clearOvf (wordBits v 7 3) }
  | _ => s

/-- The W1C bits of an array: clearing MISMATCH releases its captured mismatch. -/
def State.clearGale (s : State) (g : Fin 8) (o : Nat) (v : Word) : State :=
  match o with
  | 0x00 => s.modGale g (fun x =>
      let m := keepBit x.mismatch v 6
      { x with mismatch := m, mmValid := x.mmValid && m, xchkSkip := keepBit x.xchkSkip v 7, poisonSeen := keepBit x.poisonSeen v 8 })
  | 0x28 => s.modGale g (fun x => { x with bank := x.bank.w1c v })
  | _ => s

/-- The W1C bits of an Eddy engine. -/
def State.clearEddy (s : State) (c : Fin 4) (o : Nat) (v : Word) : State :=
  match o with
  | 0x00 => s.modEddy c (fun x =>
      { x with
        groupBoundSeen := keepBit x.groupBoundSeen v 12, formErrorSeen := keepBit x.formErrorSeen v 13
        poisonSeen := keepBit x.poisonSeen v 14, missSeen := keepBit x.missSeen v 15 })
  | 0x08 => s.modEddy c (fun x => { x with bank := x.bank.w1c v })
  | _ => s

/-- The W1C bits of a Veer router. -/
def State.clearVeer (s : State) (c : Fin 4) (o : Nat) (v : Word) : State :=
  match o with
  | 0x00 => s.modVeer c (fun x =>
      { x with dropSeen := keepBit x.dropSeen v 14, nanSeen := keepBit x.nanSeen v 15, poisonSeen := keepBit x.poisonSeen v 16 })
  | 0x08 => s.modVeer c (fun x => { x with bank := x.bank.w1c v, histOvf := keepBit x.histOvf v 13 })
  | _ => s

/-- The W1C bits of a core's window. -/
def State.clearWindow (s : State) (c : Fin 4) (o : Nat) (v : Word) : State :=
  if o < 0x1000 then s.clearCore c o v
  else if o < 0x1800 then
    (if o % 0x100 = 0x40 then s.modCtx c (Fin.ofNat 8 ((o - 0x1000) / 0x100)) (fun x => { x with bank := x.bank.w1c v }) else s)
  else if o < 0x3000 then s.clearVanes c (o - 0x2000) v
  else if o < 0x4800 then s.clearGale (arrayOf c ((o - 0x4000) / 0x400)) (o % 0x400) v
  else if o < 0x7000 then s.clearEddy c (o - 0x6000) v
  else s.clearVeer c (o - 0x7000) v

/-- The W1C bits of a Draught engine. -/
def State.clearDrt (s : State) (e : Fin 8) (o : Nat) (v : Word) : State :=
  match o with
  | 0x00 => s.modDrt e (fun x => { x with poisonSeen := keepBit x.poisonSeen v 12, underflowSeen := keepBit x.underflowSeen v 13 })
  | 0x08 => s.modDrt e (fun x => { x with bank := x.bank.w1c v })
  | _ => s

/-- The W1C bits of a stack: clearing UNCORR_SEEN releases the captured address. -/
def State.clearStack (s : State) (n : Fin 12) (o : Nat) (v : Word) : State :=
  match o with
  | 0x00 => s.modStack n (fun x =>
      let u := keepBit x.uncorrSeen v 5
      { x with
        correctedSeen := keepBit x.correctedSeen v 4, uncorrSeen := u, errValid := x.errValid && u
        poisonWordSeen := keepBit x.poisonWordSeen v 6 })
  | 0x18 => s.modStack n (fun x => { x with bank := x.bank.w1c v })
  | _ => s

/-- The W1C bits of a Foehn unit: the captured address is released once both poison bits are clear. -/
def State.clearFoehn (s : State) (n : Fin 12) (o : Nat) (v : Word) : State :=
  match o with
  | 0x00 => s.modFhn n (fun x =>
      let g := keepBit x.gradPoisonSeen v 11
      let p := keepBit x.paramPoisonSeen v 12
      { x with
        gradPoisonSeen := g, paramPoisonSeen := p, pValid := x.pValid && (g || p), nonfiniteSeen := keepBit x.nonfiniteSeen v 13 })
  | 0x10 => s.modFhn n (fun x => { x with bank := x.bank.w1c v })
  | _ => s

/-- The W1C bits of a stash controller. -/
def State.clearStash (s : State) (n : Fin 8) (o : Nat) (v : Word) : State :=
  match o with
  | 0x00 => s.modStc n (fun x =>
      let u := keepBit x.uncorrSeen v 8
      { x with
        correctedSeen := keepBit x.correctedSeen v 7, uncorrSeen := u, errValid := x.errValid && u
        crcRetrySeen := keepBit x.crcRetrySeen v 9 })
  | 0x18 => s.modStc n (fun x => { x with bank := x.bank.w1c v })
  | _ => s

/-- The W1C bits of a link, and of the device-wide link block. -/
def State.clearLink (s : State) (l : Fin 36) (o : Nat) (v : Word) : State :=
  match o with
  | 0x00 => s.modLink l (fun x =>
      { x with
        sparedSeen := keepBit x.sparedSeen v 10, retrySeen := keepBit x.retrySeen v 11
        retrainSeen := keepBit x.retrainSeen v 12, authFailSeen := keepBit x.authFailSeen v 13 })
  | 0x18 => s.modLink l (fun x => { x with bank := x.bank.w1c v })
  | 0x830 => s.modChain (fun c => { c with discardOvf := keepBit c.discardOvf v 0 })
  | _ => s

/-- What the W1C bits of a register do on a write (R20, R26). -/
def State.clearBits (s : State) (off : Nat) (v : Word) : State :=
  if off < 0x100000 || 0x600000 ≤ off then s.clearCommon off v
  else if off < 0x200000 then s.clearWindow (Fin.ofNat 4 ((off - 0x100000) / 0x10000)) (off % 0x10000) v
  else if off < 0x300000 then s.clearDrt (Fin.ofNat 8 ((off - 0x200000) / 0x1000)) (off % 0x1000) v
  else if off < 0x400000 then
    let n : Fin 12 := Fin.ofNat 12 ((off - 0x300000) / 0x10000)
    if off % 0x10000 < 0x8000 then s.clearStack n (off % 0x10000) v else s.clearFoehn n (off % 0x8000) v
  else if off < 0x500000 then s.clearStash (Fin.ofNat 8 ((off - 0x400000) / 0x1000)) (off % 0x1000) v
  else s.clearLink (Fin.ofNat 36 ((off - 0x500000) / 0x1000)) (off % 0x1000) v

/-! DEV_PERF_CLEAR (R33). -/

/-- A routing layer entry with the counters of its experts cleared. -/
def clearCounts (e : RouteEntry) : RouteEntry :=
  { e with experts := e.experts.map (fun x => BitVec.ofNat 256 (field x 0 128)) }

/-- A context's counters cleared; its high-water mark starts again. (DESIGN CHOICE, log entry 22) -/
def Ctx.clearPerf (x : Ctx) : Ctx := { x with bank := Bank.zero 11, highWater := x.queue.length }

/-- A core's counters cleared. -/
def Core.clearPerf (x : Core) : Core :=
  { x with
    ctxs := x.ctxs.map Ctx.clearPerf
    bank := Bank.zero 3, vaneBank := Bank.zero 7, recomputes := 0, recOvf := false
    eddy := { x.eddy with bank := Bank.zero 14 }
    veer := { x.veer with
      bank := Bank.zero 13, histOvf := false, table := x.veer.table.map (fun e => (e.1, clearCounts e.2)) } }

/-- Lines whose high-water mark starts again. (DESIGN CHOICE, log entry 22) -/
def LineMem.clearHigh (m : LineMem) : LineMem := { m with wcHigh := m.wc.length }

/-- CORES: every counter in CORE_, VANE_, CTX_, GALE_, EDDY_ and VEER_, and the recovery counters of R350. -/
def State.perfCores (s : State) : State :=
  { s with
    cores := s.cores.map Core.clearPerf
    gales := s.gales.map (fun x => { x with bank := Bank.zero 12, xhigh := x.xqueue.length })
    chainBank := Bank.zero 3
    chain := { s.chain with recBank := Vector.replicate 5 0, recOvf := 0 } }

/-- DRAUGHT. -/
def State.perfDraught (s : State) : State := { s with draughts := s.draughts.map (fun x => { x with bank := Bank.zero 15 }) }

/-- MEMORY: MEM_ and FHN_. -/
def State.perfMemory (s : State) : State :=
  { s with
    mem := s.mem.map (fun x => { x with bank := Bank.zero 9, arr := x.arr.clearHigh })
    foehn := s.foehn.map (fun x => { x with bank := Bank.zero 6 }) }

/-- STASH. -/
def State.perfStash (s : State) : State :=
  { s with stash := s.stash.map (fun x => { x with bank := Bank.zero 8, arr := x.arr.clearHigh }) }

/-- LINKS: the counters of every link and TL_FENCE_DISCARDED. -/
def State.perfLinks (s : State) : State :=
  { s with
    links := s.links.map (fun x => { x with bank := Bank.zero 12, retryHigh := x.retry.length })
    chain := { s.chain with discarded := 0, discardOvf := false } }

/-- SLIPSTREAM. -/
def State.perfSlip (s : State) : State := { s with slip := { s.slip with bank := Bank.zero 8 } }

/-- VIOLATIONS: VIO_COUNT and VIO_STATUS.OVF. -/
def State.perfVio (s : State) : State := { s with vio := { s.vio with count := 0, ovf := false } }

/-- Each 1 written to DEV_PERF_CLEAR clears its group. (DESIGN CHOICE, log entry 22) -/
def State.perfClear (s : State) (v : Word) : State :=
  let go (i : Nat) (f : State → State) (s : State) : State := if v.getLsbD i then f s else s
  go 6 State.perfVio (go 5 State.perfSlip (go 4 State.perfLinks (go 3 State.perfStash (go 2 State.perfMemory
    (go 1 State.perfDraught (go 0 State.perfCores s))))))

/-! Plain writes. -/

/-- The core whose VEER_HIST_SEL lies at an offset. -/
def histSelCore (off : Nat) : Option (Fin 4) :=
  if 0x100000 ≤ off && off < 0x140000 && off % 0x10000 = 0x7010 then some (Fin.ofNat 4 ((off - 0x100000) / 0x10000)) else none

/-- What a permitted write of a whole word does to a register that is no command and no half of a pair (R19, R20). -/
def State.store (s : State) (p : Path) (off : Nat) (v : Word) : State :=
  match off with
  | 0x000028 => s.perfClear v
  | 0x00002C => s.modDev (fun d => { d with scratch := v })
  | 0x010020 => s.modPorts (fun x => { x with histSel := assocSet x.histSel p (field v 0 11) })
  | 0x030014 => s.modPorts (fun x => { x with canarySel := assocSet x.canarySel p (field v 0 7) })
  | 0x600000 => s.modPorts (fun x => { x with aperture := x.aperture.set 0 (BitVec.ofNat 12 (field v 0 12)) })
  | 0x600004 => s.modPorts (fun x => { x with aperture := x.aperture.set 1 (BitVec.ofNat 12 (field v 0 12)) })
  | _ =>
    match histSelCore off with
    | some c => s.modPorts (fun x => { x with veerSel := assocSet x.veerSel (p, c.val) (v &&& 0x03FF03FF#32) })
    | none =>
      if 0x041000 ≤ off && off < 0x042000 then
        (match secPath p with
         | some i => s.modSec (fun x => { x with mailbox := upd x.mailbox i (fun m => memWrite m (off - 0x041000) (leBytes 4 v.toNat)) })
         | none => s)
      else s.clearBits off v

/-- The offset of EVR_CURSOR_LO; it is the one pair that can be written. -/
def cursorLo : Nat := 0x020020

/-- EVR_CURSOR written (R424): a SEQ, and GONE clears for the path. (DESIGN CHOICE, log entry 18) -/
def State.setCursor (s : State) (p : Path) (seq : Nat) : State :=
  s.modPorts (fun x => { x with cursor := assocSet x.cursor p (seq % 2 ^ 48), gone := x.gone.filter (· != p) })

/-- A write of a half of a pair (R21): the low half is held, the high half applies both, or itself alone. -/
def State.storeHalf (s : State) (p : Path) (off : Nat) (v : Word) : State :=
  if off = cursorLo then s.modPorts (fun x => { x with held := assocSet x.held (p, cursorLo) v })
  else if off = cursorLo + 4 then
    let low := match assoc s.ports.held (p, cursorLo) with
      | some h => h.toNat
      | none => ((assoc s.ports.cursor p).getD 0) % 2 ^ 32
    (s.modPorts (fun x => { x with held := x.held.filter (fun e => e.1 ≠ (p, cursorLo)) })).setCursor p (low + put 32 v.toNat)
  else s

/-! Answers. -/

/-- The answer that a path's access is given. -/
def State.respond (s : State) (p : Path) (r : Resp) (data : List Byte) : State :=
  s.modPorts (fun x => { x with resp := (p, r, data) :: x.resp.filter (fun e => e.1 ≠ p) })

/-- The device that issues an access on a path: for a peer, the packet's source. -/
def State.regVio (s : State) (p : Path) (dev off : Nat) : State :=
  s.violate ⟨0x07, srcWord dev (pathKind p) (pathUnit p) 0, ctlBase + off, s.self⟩

/-- A reset has been taken and holds the device (R394): no port answers before phase 1. (DESIGN CHOICE, log entry 19) -/
def State.inReset (s : State) : Bool := match s.rst.taking with | some t => t.applied | none => false

/-- Accesses of a path reach the device (R405, R438, R440). (DESIGN CHOICE, log entry 19) -/
def State.portReaches (s : State) (p : Path) : Bool :=
  !s.inReset &&
    (match p with
     | .f0 | .f1 => s.ports.linkUp && !s.ports.perstLow && s.dev.st != .safe
     | _ => true)

/-- How an access is answered (R18, R23, R27). -/
def State.verdict (s : State) (p : Path) (off : Nat) (write : Bool) : Resp :=
  match s.register p off with
  | none => .violation
  | some r => if (if write then s.mayWrite p r.cls else s.mayRead p r.cls) then .ok else .denied

/-! Reads. -/

/-- The word that a read of a register returns (R20, R21): a high half is the latched one where the path has read the low. -/
def State.readWord (s : State) (p : Path) (off : Nat) (r : Reg) : Nat :=
  match r.half with
  | .word => r.val % 2 ^ 32
  | .lo => r.val % 2 ^ 32
  | .hi => match assoc s.ports.latch (p, off - 4) with | some h => h.toNat | none => r.val / 2 ^ 32 % 2 ^ 32

/-- What a read changes: a low half latches the high one (R21), and a window of a record that is held nowhere sets GONE
(R424). -/
def State.readEffect (s : State) (p : Path) (off : Nat) (r : Reg) : State :=
  let s := if r.half = .lo then
      s.modPorts (fun x => { x with latch := assocSet x.latch (p, off) (BitVec.ofNat 32 (r.val / 2 ^ 32)) })
    else s
  if 0x020040 ≤ off && off < 0x020080 && (assoc s.ports.cursor p).isSome && (s.cursorRecord p).isNone then
    s.modPorts (fun x => { x with gone := p :: x.gone.filter (· != p) })
  else s

/-- A read of control space: the state after it and its data word. -/
def State.readAt (s : State) (p : Path) (dev off : Nat) : State × Nat :=
  match s.register p off with
  | none => (s.regVio p dev off, 0)
  | some r => if s.mayRead p r.cls then (s.readEffect p off r, s.readWord p off r) else (s.denyReg p off, 0)

/-! Command registers (R30 to R32). -/

/-- TL_CHAIN_CMD_STATUS shows an answer, with its COMMAND record. -/
def State.chainAnswer (s : State) (p : Path) (tag : Nat) (a : Answer) (busy : Bool) : State :=
  (s.modChain (fun c => { c with cmd := c.cmd.answer a p tag busy })).commandRecord 0x50 p tag a

/-- ATTACH or DETACH (R330), written at an offset: `ok` says that the state allows it. -/
def State.chainCommand (s : State) (off kind : Nat) (p : Path) (tag : Nat) (ok : Bool) (role : Role) : State :=
  let busy := s.chain.cmd.busy
  if !(s.party p).privileged then (s.denyReg p off).chainAnswer p tag .denied busy
  else if busy || !ok then s.chainAnswer p tag .conflict busy
  else
    let s := s.modChain (fun c => { c with role := role, cmd := { c.cmd with running := some (kind, p, tag) } })
    (s.chainAnswer p tag .accepted true).seekMember kind

/-- ATTACH needs ROLE OUTSIDE, the twin PAIRED or TAKEN_OVER, and SHARD_CURRENT. -/
def State.mayAttach (s : State) : Bool :=
  s.chain.role == .outside && (s.chain.twin == .paired || s.chain.twin == .takenOver) && s.chain.shardCurrent

/-- DETACH needs ROLE MEMBER, TL_TWIN.STATE PAIRED and a plan that names a store. -/
def State.mayDetach (s : State) : Bool := s.chain.role == .member && s.chain.twin == .paired && s.plan.storeDev.isSome

/-- TAG and OPCODE of a command word. -/
def cmdTag (v : Word) : Nat := field v 16 16
def cmdOp (v : Word) : Nat := field v 0 4

/-- A write to RST_CMD. (DESIGN CHOICE, log entry 25) -/
def State.writeRstCmd (s : State) (p : Path) (v : Word) : State :=
  let t := cmdTag v
  match cmdOp v with
  | 1 => s.resetCommand p t .cold
  | 2 => s.resetCommand p t .warm
  | 3 => s.resetCommand p t .core
  | _ =>
    if !s.mayReset p then (s.denyReg p 0x010000).rstAnswer p t .denied s.rst.cmd.busy
    else if s.rst.cmd.busy then s.rstAnswer p t .conflict true
    else s.rstAnswer p t .malformed false

/-- A write to SEC_CMD (R360); in the safe state the block does not answer (R405). (DESIGN CHOICE, log entry 25) -/
def State.writeSecCmd (s : State) (p : Path) (v : Word) : State :=
  let t := cmdTag v
  if s.dev.st = .safe then s
  else
    match cmdOp v with
    | 1 => s.cmdNonce p t
    | 2 => s.cmdSession p t
    | 3 => s.cmdEndSession p t
    | 4 => s.cmdShip p t []
    | 5 => s.cmdFuseOwner p t []
    | 6 => s.cmdKeyLoad p t
    | 7 => s.cmdKeyDelete p t
    | 8 => s.cmdPolicy p t
    | 9 => s.cmdEndorse p t
    | 10 => s.cmdDebugUnlock p t
    | n => s.secCommand n p t (fun _ s => s.secAnswer p t .malformed false)

/-- A write to SEC_INGEST_CMD (R379); in the safe state the block does not answer (R405). (DESIGN CHOICE, log entry 25) -/
def State.writeIngestCmd (s : State) (p : Path) (v : Word) : State :=
  let t := cmdTag v
  if s.dev.st = .safe then s
  else if cmdOp v = 1 then s.cmdSubmit p (Fin.ofNat 8 (field v 4 3)) t
  else if !s.mayIngest p then (s.denyReg p 0x040200).ingestAnswer p t .denied s.sec.ingestCmd.busy
  else if s.sec.ingestCmd.busy then s.ingestAnswer p t .conflict true
  else s.ingestAnswer p t .malformed false

/-- A write to TL_CHAIN_CMD (R330). (DESIGN CHOICE, log entry 25) -/
def State.writeChainCmd (s : State) (p : Path) (off : Nat) (v : Word) : State :=
  let t := cmdTag v
  match cmdOp v with
  | 1 => s.chainCommand off 1 p t s.mayAttach .joining
  | 2 => s.chainCommand off 2 p t s.mayDetach .leaving
  | _ =>
    let busy := s.chain.cmd.busy
    if !(s.party p).privileged then (s.denyReg p off).chainAnswer p t .denied busy
    else s.chainAnswer p t (if busy then .conflict else .malformed) busy

/-! Writes. -/

/-- A write to control space (R18 to R23, R26, R30, R367). -/
def State.writeAt (s : State) (p : Path) (dev off : Nat) (v : Word) : State :=
  match s.register p off with
  | none => s.regVio p dev off
  | some r =>
    match r.cls with
    | .rstCmd => s.writeRstCmd p v
    | .secCmd => s.writeSecCmd p v
    | .ingestCmd => s.writeIngestCmd p v
    | .chainCmd => s.writeChainCmd p off v
    | _ =>
      if !s.mayWrite p r.cls then s.denyReg p off
      else if r.half = .word then s.store p off v
      else s.storeHalf p off v

/-- In the safe state only DEV_, RST_, EVR_ and VIO_ answer (R25, R405). -/
def State.silent (s : State) (off : Nat) : Bool :=
  s.dev.st == .safe && !(off < 0x030000 || (0x050000 ≤ off && off < 0x060000))

/-- A block that does not answer on the management port (R25, R405). (DEDUCED, log entry 16) -/
def State.shut (s : State) (p : Path) (off : Nat) : Bool := p == .mb && s.silent off

/-- The status byte of R25. -/
def Resp.status : Resp → Nat
  | .ok => 0 | .denied => 1 | .violation => 2

/-- A transfer of the management port is answered (R441), and a REG_WRITE leaves its status byte (R25).
(DESIGN CHOICE, log entry 17) -/
def State.transfer (s : State) (p : Path) (written : Option Resp) : State :=
  if p = .mb then
    s.modPorts (fun x => { x with
      mbBank := x.mbBank.add 0 1, mbLast := match written with | some r => r.status | none => x.mbLast })
  else s

/-- A write on a path of this device, with its answer. The transfer counts in the handshake of the write, so a wrap of its
counter wins over a clear of MB_OVF (R26). (DEDUCED, log entry 16) -/
def State.pathWrite (s : State) (p : Path) (off : Nat) (v : Word) : Out :=
  if !s.portReaches p then stay s
  else if s.shut p off then done ((s.transfer p (some .violation)).respond p .violation [])
  else
    let r := s.verdict p off true
    done (((s.respond p r []).writeAt p s.self off v).transfer p (some r))

/-- An access of a width other than 4 bytes, or a PCIe write whose byte enables do not cover all four bytes (R18). -/
def State.badForm (s : State) (p : Path) (off n : Nat) : Out :=
  if !s.portReaches p then stay s else done ((s.respond p .violation (zeros n)).regVio p s.self off)

/-- A row comparison on array `w` in the handshake of a write: a mismatch keeps the MISMATCH that the write clears, with its
capture as it was (R26, R95). (DESIGN CHOICE, log entry 151) -/
def State.compareMet (s t : State) (w : Fin 8) : Out :=
  match execXchkRowCompare w t, (t.gale w).check with
  | .next u, some r =>
    let old := s.gale r.owner
    if old.mismatch && (u.gale r.owner).mismatch then
      done (u.modGale r.owner (fun x =>
        { x with mmAddr := old.mmAddr, mmRow := old.mmRow, mmCol := old.mmCol, mmValid := old.mmValid }))
    else done u
  | o, _ => o

/-- A write in the form in which it arrives; the management port writes whole words (R18, R25). -/
def State.formWrite (s : State) (p : Path) (off : Nat) (v : Word) (f : Form) : Out :=
  let o := if f.whole || p = .mb then s.pathWrite p off v else s.badForm p off 0
  match f.met, o with
  | some w, .next t => s.compareMet t w
  | _, o => o

/-- A read on a path of this device, with its answer. (DEDUCED, log entry 16) -/
def State.pathRead (s : State) (p : Path) (off : Nat) : Out :=
  if !s.portReaches p then stay s
  else if s.shut p off then done ((s.transfer p none).respond p .violation (zeros 4))
  else
    let u := s.transfer p none
    let (t, w) := u.readAt p s.self off
    done (t.respond p (u.verdict p off false) (leBytes 4 w))

/-! The rows of a path's accesses. -/

/-- REGISTER_WRITE (R18, R20). -/
def execRegisterWrite (p : Path) (off : Nat) (v : Word) (f : Form) (s : State) : Out := s.formWrite p off v f

/-- LO_READ (R18, R21, R35): bits [31:0], with bits [63:32] latched for the path; a register of one word reads as it is.
(DEDUCED, log entry 24) -/
def execLoRead (p : Path) (a : Access) (s : State) : Out :=
  if a.width = 4 || p = .mb then s.pathRead p a.off else s.badForm p a.off a.width

/-- HI_READ (R18, R21): the latched half, or the live one where the path has not read the low half.
(DEDUCED, log entry 24) -/
def execHiRead (p : Path) (a : Access) (s : State) : Out :=
  if a.width = 4 || p = .mb then s.pathRead p a.off else s.badForm p a.off a.width

/-- LO_WRITE (R18, R21): held for the path. -/
def execLoWrite (p : Path) (off : Nat) (w : Put) (s : State) : Out := s.formWrite p off w.data w.form

/-- HI_WRITE (R18, R21): applies the held low half with it, or itself alone. -/
def execHiWrite (p : Path) (off : Nat) (w : Put) (s : State) : Out := s.formWrite p off w.data w.form

/-- VIO_STATUS_CLEAR (R29): a write to VIO_STATUS. -/
def execVioStatusClear (p : Path) (v : Word) (s : State) : Out := s.pathWrite p 0x050010 v

/-- HP_APERTURE_WRITE (R24). -/
def execHpApertureWrite (p : Path) (fn : Fin 2) (v : Word) (s : State) : Out := s.pathWrite p (0x600000 + 4 * fn.val) v

/-- PERF_CLEAR_CORES (R33). -/
def execPerfClearCores (p : Path) (s : State) : Out := s.pathWrite p 0x28 0x01

/-- PERF_CLEAR_DRAUGHT (R33). -/
def execPerfClearDraught (p : Path) (s : State) : Out := s.pathWrite p 0x28 0x02

/-- PERF_CLEAR_MEMORY (R33). -/
def execPerfClearMemory (p : Path) (s : State) : Out := s.pathWrite p 0x28 0x04

/-- PERF_CLEAR_STASH (R33). -/
def execPerfClearStash (p : Path) (s : State) : Out := s.pathWrite p 0x28 0x08

/-- PERF_CLEAR_LINKS (R33). -/
def execPerfClearLinks (p : Path) (s : State) : Out := s.pathWrite p 0x28 0x10

/-- PERF_CLEAR_SLIPSTREAM (R33). -/
def execPerfClearSlipstream (p : Path) (s : State) : Out := s.pathWrite p 0x28 0x20

/-- PERF_CLEAR_VIOLATIONS (R33). -/
def execPerfClearViolations (p : Path) (s : State) : Out := s.pathWrite p 0x28 0x40

/-- VEER_HIST_SEL_WRITE (spec/07, R21). -/
def execVeerHistSelWrite (p : Path) (c : Fin 4) (v : Word) (s : State) : Out := s.pathWrite p (0x107010 + 0x10000 * c.val) v

/-- RST_HIST_SEL_WRITE (R408). -/
def execRstHistSelWrite (p : Path) (v : Word) (s : State) : Out := s.pathWrite p 0x010020 v

/-- HLT_CANARY_SEL_WRITE (R416). -/
def execHltCanarySelWrite (p : Path) (v : Word) (s : State) : Out := s.pathWrite p 0x030014 v

/-- EVR_CURSOR_WRITE (R21, R424): both halves of EVR_CURSOR written, the low one first. (DESIGN CHOICE, log entry 18) -/
def execEvrCursorWrite (p : Path) (lo hi : Word) (s : State) : Out :=
  match s.pathWrite p cursorLo lo with
  | .next t => t.pathWrite p (cursorLo + 4) hi
  | o => o

end Sys2Proof.Machine
end

