-- ==== Sys2Proof/Machine/Commands.lean ====
section
/-! DEFINITION. The rows of the command registers (R30 to R32): SEC_CMD (R360), SEC_INGEST_CMD (R379), RST_CMD (R396) and
TL_CHAIN_CMD (R330). A row is the write of its command on a path, with the writes of other paths that reach the register in
the same handshake. -/

namespace Sys2Proof.Machine

/-- A write of a command on a path that reaches the device: its answer on the path, its effect, and the transfer of the
management port that it is (R25, R441). -/
def State.commandWrite (s : State) (p : Path) (off : Nat) (act : State → State) : State :=
  let r := s.verdict p off true
  (act (s.respond p r [])).transfer p (some r)

/-- A write of a command to a block that does not answer (R25, R405). -/
def State.silentWrite (s : State) (p : Path) : State :=
  if p = .mb then (s.transfer p (some .violation)).respond p .violation [] else s

/-- The paths of a handshake all reach the device (R405, R438, R440). -/
def State.allReach (s : State) (p : Path) (rivals : List Rival) : Bool :=
  s.portReaches p && rivals.all (fun r => s.portReaches r.path)

/-- The row of a command register: the command of highest precedence has its effect, and every other one of the handshake is
answered behind it (R32). Every other one is answered STATE_CONFLICT even where the first is itself denied, malformed or refused, and
where the other's path lacks the right (R23). (DEDUCED, log entry 143) (DESIGN CHOICE, log entry 155) -/
def State.commandRow (s : State) (p : Path) (off : Nat) (rivals : List Rival) (act : State → State)
    (refuse : Rival → State → State) : Out :=
  if !rivalsFollow p rivals || !s.allReach p rivals then stay s
  else if s.silent off then done (rivals.foldl (fun s r => s.silentWrite r.path) (s.silentWrite p))
  else done (rivals.foldl (fun s r => s.commandWrite r.path off (refuse r)) (s.commandWrite p off act))

/-! SEC_CMD. -/

/-- A row of SEC_CMD. -/
def State.secRow (s : State) (p : Path) (rivals : List Rival) (act : State → State) : Out :=
  s.commandRow p 0x040010 rivals act (fun r s => s.secConflict r.op r.path r.tag.toNat)

/-- NONCE (R360, R374). -/
def execNonce (p : Path) (call : Call) (s : State) : Out := s.secRow p call.rivals (State.cmdNonce p call.tag.toNat)

/-- SESSION (R354, R360). -/
def execSession (p : Path) (call : Call) (s : State) : Out := s.secRow p call.rivals (State.cmdSession p call.tag.toNat)

/-- END_SESSION (R354, R360). -/
def execEndSession (p : Path) (call : Call) (s : State) : Out := s.secRow p call.rivals (State.cmdEndSession p call.tag.toNat)

/-- SHIP (R355 to R357, R360). -/
def execShip (p : Path) (call : FuseCall) (s : State) : Out :=
  s.secRow p call.rivals (State.cmdShip p call.tag.toNat call.bad)

/-- FUSE_OWNER (R355 to R357, R360). -/
def execFuseOwner (p : Path) (call : FuseCall) (s : State) : Out :=
  s.secRow p call.rivals (State.cmdFuseOwner p call.tag.toNat call.bad)

/-- KEY_LOAD (R362). -/
def execKeyLoad (p : Path) (call : Call) (s : State) : Out := s.secRow p call.rivals (State.cmdKeyLoad p call.tag.toNat)

/-- KEY_DELETE (R361, R363). -/
def execKeyDelete (p : Path) (call : Call) (s : State) : Out := s.secRow p call.rivals (State.cmdKeyDelete p call.tag.toNat)

/-- POLICY (R354, R364). -/
def execPolicy (p : Path) (call : Call) (s : State) : Out := s.secRow p call.rivals (State.cmdPolicy p call.tag.toNat)

/-- ENDORSE (R360). -/
def execEndorse (p : Path) (call : Call) (s : State) : Out := s.secRow p call.rivals (State.cmdEndorse p call.tag.toNat)

/-- DEBUG_UNLOCK (R383). -/
def execDebugUnlock (p : Path) (call : Call) (s : State) : Out := s.secRow p call.rivals (State.cmdDebugUnlock p call.tag.toNat)

/-! SEC_INGEST_CMD. -/

/-- SUBMIT (R32, R379). -/
def execSubmit (p : Path) (chan : Fin 8) (call : Call) (s : State) : Out :=
  s.commandRow p 0x040200 call.rivals (State.cmdSubmit p chan call.tag.toNat)
    (fun r s => s.ingestAnswer r.path r.tag.toNat .conflict s.sec.ingestCmd.busy)

/-! RST_CMD. -/

/-- A row of RST_CMD; the commands behind it are answered as in every row. (DESIGN CHOICE, log entry 155) -/
def State.resetRow (s : State) (p : Path) (call : Call) (scope : Scope) : Out :=
  s.commandRow p 0x010000 call.rivals (fun s => s.resetCommand p call.tag.toNat scope)
    (fun r s => s.rstAnswer r.path r.tag.toNat .conflict s.rst.cmd.busy)

/-- COLD (R389, R396). -/
def execColdReset (p : Path) (call : Call) (s : State) : Out := s.resetRow p call .cold

/-- WARM (R389, R396). -/
def execWarmReset (p : Path) (call : Call) (s : State) : Out := s.resetRow p call .warm

/-- CORE (R389, R396): refused in BRING_UP and SAFE. -/
def execCoreReset (p : Path) (call : Call) (s : State) : Out := s.resetRow p call .core

/-! TL_CHAIN_CMD. -/

/-- The offset of TL_CHAIN_CMD that the rows write. -/
def chainCmdOffset : Nat := 0x500800

/-- A row of TL_CHAIN_CMD. -/
def State.chainRow (s : State) (p : Path) (rivals : List Rival) (act : State → State) : Out :=
  s.commandRow p chainCmdOffset rivals act (fun r s => s.chainAnswer r.path r.tag.toNat .conflict s.chain.cmd.busy)

/-- ATTACH (R330). -/
def execAttach (p : Path) (call : Call) (s : State) : Out :=
  s.chainRow p call.rivals (fun s => s.chainCommand chainCmdOffset 1 p call.tag.toNat s.mayAttach .joining)

/-- DETACH (R330). -/
def execDetach (p : Path) (call : Call) (s : State) : Out :=
  s.chainRow p call.rivals (fun s => s.chainCommand chainCmdOffset 2 p call.tag.toNat s.mayDetach .leaving)

end Sys2Proof.Machine
end

