-- ==== Sys2Proof/Machine/Deliver.lean ====
section
/-! DEFINITION. The delivery of packets to this device (spec/12, R313 to R316, R372): the order of R315, the packets that are held
until those before them have come, and what each TYPE does. -/

namespace Sys2Proof.Machine

/-! Accesses of a link peer (R313, R316). -/

/-- A register access of a peer has the width of R18: a write brings one word, a read brings nothing. -/
def peerWidth (p : Packet) : Bool := p.payload.length == (if p.type = 8 then 4 else 0)

/-- The answer to a peer's register access (R25, R313, R316): ERROR after a violation, otherwise REG_RESP, whose status byte
follows the data. (DESIGN CHOICE, log entry 34) -/
def peerAnswer (r : Resp) (p : Packet) (data : List Byte) : Packet :=
  if r = .violation then answerPkt 0x06 0x07 p [] else answerPkt 0x09 0 p (data ++ leBytes 1 r.status)

/-- A read of control space by a peer (R18, R316, R367): 4 data bytes. (DESIGN CHOICE, log entry 34) -/
def State.peerRead (s : State) (l : Fin 36) (p : Packet) : State :=
  if !peerWidth p then (s.regVio (.peer l) p.src p.addr).send (peerAnswer .violation p [])
  else
    let (t, w) := s.readAt (.peer l) p.src p.addr
    t.send (peerAnswer (s.verdict (.peer l) p.addr false) p (leBytes 4 w))

/-- A write of control space by a peer (R18, R316, R367). (DESIGN CHOICE, log entry 34) -/
def State.peerWrite (s : State) (l : Fin 36) (p : Packet) : State :=
  if !peerWidth p then (s.regVio (.peer l) p.src p.addr).send (peerAnswer .violation p [])
  else
    (s.writeAt (.peer l) p.src p.addr (BitVec.ofNat 32 (ofLe p.payload))).send
      (peerAnswer (s.verdict (.peer l) p.addr true) p [])

/-! What a packet does. -/

/-- The effect of a packet, by its TYPE (R313). A REG_RESP answers an access that no unit of the device makes; a PAIR message
has its own commands. (DESIGN CHOICE, log entry 34) -/
def State.actOf (s : State) (l : Fin 36) (p : Packet) (proof : Option ChunkProof) : State :=
  match p.type with
  | 0x01 => s.remoteWrite l p
  | 0x02 => s.takeWriteAck p
  | 0x03 => s.remoteRead l p
  | 0x04 => s.takeReadData p
  | 0x05 => s.takeSignal l p
  | 0x06 => s.takeError p
  | 0x07 => s.peerRead l p
  | 0x08 => s.peerWrite l p
  | 0x10 => if s.outsider then s.takeJoin p else s.takeSlip p
  | 0x20 => s.takeReport l p
  | 0x21 => s.takeClose l p
  | 0x22 => s.takeAbandon l p
  | 0x23 => s.takeMember p
  | 0x24 => s.takeGrant p
  | 0x25 => s.takeDeny p
  | 0x30 => s.takeHeartbeat l
  | 0x32 => s.takeShard p proof
  | _ => s

/-- A packet in its turn: it is counted as delivered, and acts. -/
def State.actOn (s : State) (h : HeldPkt) : State := (s.tookPacket h.pkt).actOf h.link h.pkt h.proof

/-- A held packet belongs to the order of a source and a lane (R315). -/
def HeldPkt.follows (h : HeldPkt) (src vl : Nat) : Bool := h.pkt.src == src && orderLane h.pkt.vl == orderLane vl && pktOk h.pkt

/-- A held packet whose turn has come in the order of a source and a lane (R315). -/
def State.dueHeld (s : State) (src vl : Nat) : Option HeldPkt :=
  s.chain.heldPkts.find? (fun h => h.follows src vl && h.pkt.pseq % 2 ^ 24 == s.expected src vl)

/-- The held packets of a source and a lane delivered, each in its turn (R315); `fuel` is how many are held. -/
def State.release (s : State) (src vl : Nat) : Nat → State
  | 0 => s
  | fuel + 1 => match s.dueHeld src vl with
    | some h => (s.actOn h).release src vl fuel
    | none => s

/-- A packet with the PSEQ that its order gives it: delivered in its turn and after it the packets that were held for it, held
where it is ahead, and discarded as a duplicate where it is behind, acknowledged again if it asks for that (R315). -/
def State.inOrder (s : State) (l : Fin 36) (p : Packet) (proof : Option ChunkProof) : State :=
  let e := s.expected p.src p.vl
  if p.pseq % 2 ^ 24 = e then (s.actOn ⟨l, p, proof⟩).release p.src p.vl s.chain.heldPkts.length
  else if seqAfter p.pseq e then s.holdPacket ⟨l, p, proof⟩
  else
    let s := s.modLink l (fun x => { x with bank := x.bank.add 10 1 })
    if p.type = 1 && p.aux % 2 = 1 then s.send (answerPkt 0x02 0 p []) else s

/-- A packet for this device leaves the link that assembled it: one that was not authenticated is dropped, one of a reserved TYPE,
on a wrong VL or of a type that its sender may not send is discarded and counted, and any other takes its turn
(R313 to R315, R372). -/
def State.deliverPkt (s : State) (l : Fin 36) (p : Packet) (proof : Option ChunkProof) : State :=
  let keyed := s.authentic l p
  let s := s.collected l p
  if !keyed then s
  else if !pktOk p || ((s.link l).peerStore && !storeMay p.type) then s.discarded l
  else s.inOrder l p proof

/-- A packet of a TYPE stands at a link for this device. -/
def State.comes (s : State) (l : Fin 36) (p : Packet) (type : Nat) : Bool :=
  s.hands l p && p.type == type && s.isLocal p.dst

/-- A packet of a TYPE is taken. -/
def State.takes (s : State) (l : Fin 36) (p : Packet) (type : Nat) : Out :=
  if s.comes l p type then done (s.deliverPkt l p none) else stay s

/-- A packet of the fence's lane, VL0, is taken; the root judges the REPORTs that it brings or sets free (R339). -/
def State.takesFence (s : State) (l : Fin 36) (p : Packet) (type : Nat) : Out :=
  if s.comes l p type then done (s.deliverPkt l p none).rootJudge else stay s

/-- The packets of one handshake, in the order given. -/
def State.takesAll (s : State) (xs : List (Fin 36 × Packet)) : Out :=
  done (xs.foldl (fun s x => s.deliverPkt x.1 x.2 none) s).rootJudge

/-- WRITE (R316). -/
def execWritePacket (l : Fin 36) (pkt : Packet) (s : State) : Out := s.takes l pkt 0x01

/-- WRITE_ACK (R316). -/
def execWriteAck (l : Fin 36) (pkt : Packet) (s : State) : Out := s.takes l pkt 0x02

/-- READ_REQ (R316). -/
def execReadReq (l : Fin 36) (pkt : Packet) (s : State) : Out := s.takes l pkt 0x03

/-- READ_DATA (R316). -/
def execReadData (l : Fin 36) (pkt : Packet) (s : State) : Out := s.takes l pkt 0x04

/-- SIGNAL (R292, R316). -/
def execSignalPacket (l : Fin 36) (pkt : Packet) (s : State) : Out := s.takesFence l pkt 0x05

/-- ERROR (R316). -/
def execErrorPacket (l : Fin 36) (pkt : Packet) (s : State) : Out := s.takes l pkt 0x06

/-- PEER_REG_READ (R316). -/
def execPeerRegRead (l : Fin 36) (pkt : Packet) (s : State) : Out := s.takes l pkt 0x07

/-- PEER_REG_WRITE (R316). -/
def execPeerRegWrite (l : Fin 36) (pkt : Packet) (s : State) : Out := s.takes l pkt 0x08

/-- REG_RESP (R313). -/
def execRegResp (l : Fin 36) (pkt : Packet) (s : State) : Out := s.takes l pkt 0x09

/-- FENCE_REPORT (R324). -/
def execFenceReport (l : Fin 36) (pkt : Packet) (s : State) : Out := s.takesFence l pkt 0x20

/-- FENCE_CLOSE (R324). -/
def execFenceClose (l : Fin 36) (pkt : Packet) (s : State) : Out := s.takesFence l pkt 0x21

/-- HEARTBEAT (R328). -/
def execHeartbeat (l : Fin 36) (pkt : Packet) (s : State) : Out := s.takes l pkt 0x30

/-- MEMBER_GRANT (R329 to R331). -/
def execMemberGrant (l : Fin 36) (pkt : Packet) (s : State) : Out := s.takesFence l pkt 0x24

/-- MEMBER_DENY (R329, R330). -/
def execMemberDeny (l : Fin 36) (pkt : Packet) (s : State) : Out := s.takesFence l pkt 0x25

/-- SHARD (R332). -/
def execShard (l : Fin 36) (pkt : Packet) (proof : Option ChunkProof) (s : State) : Out :=
  if s.comes l pkt 0x32 then done (s.deliverPkt l pkt proof) else stay s

/-! STEP_ABANDON (R337 to R341), one command for each action. -/

/-- A STEP_ABANDON with an action. -/
def abandons (action : Nat) (p : Packet) : Bool := (abandonOf p.payload).action == action

/-- REPORT (R339): those that reach a device in one handshake. -/
def execReport (first : Fin 36 × Packet) (more : List (Fin 36 × Packet)) (s : State) : Out :=
  s.takesAll ((first :: more).filter (fun x => s.comes x.1 x.2 0x22 && abandons 0 x.2))

/-- RETRY (R340). -/
def execRetryOrder (l : Fin 36) (pkt : Packet) (s : State) : Out :=
  if abandons 1 pkt then s.takesFence l pkt 0x22 else stay s

/-- HALT (R341). -/
def execHaltOrder (l : Fin 36) (pkt : Packet) (s : State) : Out :=
  if abandons 2 pkt then s.takesFence l pkt 0x22 else stay s

/-- RETRY_DONE (R340). -/
def execRetryDone (l : Fin 36) (pkt : Packet) (s : State) : Out :=
  if abandons 3 pkt then s.takesFence l pkt 0x22 else stay s

/-! MEMBER_REQ (R329 to R331), one command for each kind. -/

/-- A request put in the order of the devices that ask, the lower identifier first (R329). -/
def insRequest (x : Fin 36 × Packet) : List (Fin 36 × Packet) → List (Fin 36 × Packet)
  | [] => [x]
  | y :: ys => if x.2.addr < y.2.addr then x :: y :: ys else y :: insRequest x ys

/-- The MEMBER_REQs of a kind that stand at the links, the lower device identifier first. -/
def State.requestsOf (s : State) (kind : Nat) (pkts : List (Fin 36 × Packet)) : List (Fin 36 × Packet) :=
  (pkts.filter (fun x => s.comes x.1 x.2 0x23 && x.2.aux % 4 == kind)).foldl (fun acc x => insRequest x acc) []

/-- MEMBER_REQ ATTACH (R331). -/
def execMemberReqAttach (first : Fin 36 × Packet) (more : List (Fin 36 × Packet)) (s : State) : Out :=
  s.takesAll (s.requestsOf 1 (first :: more))

/-- MEMBER_REQ DETACH (R331). -/
def execMemberReqDetach (first : Fin 36 × Packet) (more : List (Fin 36 × Packet)) (s : State) : Out :=
  s.takesAll (s.requestsOf 2 (first :: more))

/-- MEMBER_REQ TAKEOVER (R329). -/
def execMemberReqTakeover (first : Fin 36 × Packet) (more : List (Fin 36 × Packet)) (s : State) : Out :=
  s.takesAll (s.requestsOf 3 (first :: more))

/-! Slipstream frames (R246, R247), one command for each TYPE. -/

/-- A SLIP packet whose payload is a frame of a TYPE. -/
def State.takesFrame (s : State) (l : Fin 36) (p : Packet) (frame : Frame) (ok : Nat → Bool) : Out :=
  if (frameOf p.payload).1 == frame && ok frame.type then s.takes l p 0x10 else stay s

/-- DATA (R246, R247); a TYPE that R246 does not define comes to a destination in the same way. -/
def execDataFrame (l : Fin 36) (pkt : Packet) (frame : Frame) (s : State) : Out :=
  s.takesFrame l pkt frame (fun t => t == 1 || t == 0 || decide (7 < t))

/-- CHUNK_END (R246, R247). -/
def execChunkEnd (l : Fin 36) (pkt : Packet) (frame : Frame) (s : State) : Out := s.takesFrame l pkt frame (· == 2)

/-- STEP_END (R246, R248). -/
def execStepEnd (l : Fin 36) (pkt : Packet) (frame : Frame) (s : State) : Out := s.takesFrame l pkt frame (· == 3)

/-- ABORT (R247, R251). -/
def execAbortFrame (l : Fin 36) (pkt : Packet) (frame : Frame) (s : State) : Out := s.takesFrame l pkt frame (· == 4)

/-- CHUNK_ACK (R247). -/
def execChunkAck (l : Fin 36) (pkt : Packet) (frame : Frame) (s : State) : Out := s.takesFrame l pkt frame (· == 5)

/-- CHUNK_NAK (R247, R251). -/
def execChunkNak (l : Fin 36) (pkt : Packet) (frame : Frame) (s : State) : Out := s.takesFrame l pkt frame (· == 6)

/-- STEP_ACK (R248). -/
def execStepAck (l : Fin 36) (pkt : Packet) (frame : Frame) (s : State) : Out := s.takesFrame l pkt frame (· == 7)

end Sys2Proof.Machine
end

