-- ==== Sys2Proof/Machine/Ports.lean ====
section
/-! DEFINITION. The host port's BAR2 (R24, R368, R401), the management port (R25, R440, R441), the TAP (R382, R443), and
what happens on the board's lands (R389, R438, R439). -/

namespace Sys2Proof.Machine

/-! BAR2. -/

/-- The path of a host port function. -/
def fnPath (fn : Fin 2) : Path := if fn = 0 then .f0 else .f1

/-- Phase 4 runs with the host port as source: BAR2 is the staging area (R401). -/
def State.stagingOpen (s : State) : Bool := s.inPhase 4 && s.rst.source == 2

/-- A BAR2 write that is denied (R23). (DESIGN CHOICE, log entry 26) -/
def State.barDenied (s : State) (fn : Fin 2) (a : Nat) : State :=
  (s.respond (fnPath fn) .denied []).deny (fnPath fn) 0x60 a

/-- A BAR2 read that is denied returns 0 (R23). (DESIGN CHOICE, log entry 26) -/
def State.barReadDenied (s : State) (fn : Fin 2) (a n : Nat) : State :=
  ({ s with answer := some (zeros n, false) }.respond (fnPath fn) .denied (zeros n)).deny (fnPath fn) 0x60 a

/-- The device address that a function's BAR2 reaches (R24). -/
def State.barAddress (s : State) (fn : Fin 2) (off : Nat) : Nat := (s.ports.aperture.get fn).toNat * 2 ^ 36 + off

/-- A byte range touches control space. -/
def hitsControl (a n : Nat) : Bool := decide (a < ctlBase + 0x1000000 ∧ ctlBase < a + n)

/-- The violation of a BAR2 access, if its address is not one that may be reached (R15, R24), or for a write lies in a parameter
region (R229). -/
def State.barViolation (s : State) (write : Bool) (a n : Nat) : Option Nat :=
  if hitsControl a n then some 0x08
  else if (lineAddrs a n).all (fun x => if write then s.writable x else (s.place x).isMemory) then none else some 0x05

/-- A BAR2 access that is a violation. -/
def State.barViolate (s : State) (fn : Fin 2) (kind a : Nat) : State :=
  (s.respond (fnPath fn) .violation []).violate
    ⟨kind, srcWord s.self (pathKind (fnPath fn)) (pathUnit (fnPath fn)) 0, a, s.self⟩

/-- BAR2_READ (R24, R368, R401). What the read returns is in `answer`, with its poison. -/
def execBar2Read (fn : Fin 2) (off len : Nat) (s : State) : Out :=
  let p := fnPath fn
  let a := s.barAddress fn off
  if !s.portReaches p then stay s
  else if s.stagingOpen then done (s.barReadDenied fn a len)
  else
    match s.barViolation false a len with
    | some k => done ({ s with answer := none }.barViolate fn k a)
    | none =>
      if s.windowed fn.val a len then
        let bs := s.peek a len
        let bad := s.peekPoison a len
        let s := s.touch [(a, len)]
        done ({ s with answer := some (bs, bad) }.respond p .ok bs)
      else done (s.barReadDenied fn a len)

/-- A byte range lies in one ingest buffer that is FREE (R368, R379). -/
def State.inFreeBuffer (s : State) (a n : Nat) : Bool :=
  (List.range 8).any (fun c =>
    match s.channel c with
    | some (e, ch) => ch.free.any (fun b => ingBuffer e b ≤ a && a + n ≤ ingBuffer e b + ingSize e)
    | none => false)

/-- The offset of the image length (R401). -/
def lengthOffset : Nat := 0x6000000

/-- The image length is written: the seal check may start (R401). A second one has no place in the mapping.
(DESIGN CHOICE, log entry 27) -/
def State.stageLength (s : State) (fn : Fin 2) (len : Nat) : State :=
  if s.rst.staging.isSome then s.barDenied fn (s.barAddress fn lengthOffset)
  else (s.respond (fnPath fn) .ok []).modRst (fun r => { r with staging := some len })

/-- A BAR2 write in the staging area (R401). (DESIGN CHOICE, log entry 27) -/
def State.stageWrite (s : State) (fn : Fin 2) (off : Nat) (data : List Byte) : State :=
  if off + data.length ≤ storeSize then (s.respond (fnPath fn) .ok []).writeBytes (storeBase 0 + off) data false
  else if off = lengthOffset && data.length = 4 then s.stageLength fn (ofLe data)
  else s.barDenied fn (s.barAddress fn off)

/-- BAR2_WRITE (R24, R368, R401). -/
def execBar2Write (fn : Fin 2) (off : Nat) (data : List Byte) (s : State) : Out :=
  let p := fnPath fn
  let a := s.barAddress fn off
  if !s.portReaches p then stay s
  else if s.stagingOpen then done (s.stageWrite fn off data)
  else
    match s.barViolation true a data.length with
    | some k => done (s.barViolate fn k a)
    | none =>
      if s.inFreeBuffer a data.length then done ((s.respond p .ok []).writeBytes a data false)
      else done (s.barDenied fn a)

/-- STAGING_LENGTH_WRITE (R401): a 4-byte write to BAR2 offset 0x600_0000. -/
def execStagingLengthWrite (fn : Fin 2) (len : Word) (s : State) : Out :=
  execBar2Write fn lengthOffset (leBytes 4 len.toNat) s

/-! The management port. -/

/-- MB_REG_READ (R25): 4 data bytes and the status byte. (DESIGN CHOICE, log entry 17) -/
def execMbRegRead (off : Nat) (s : State) : Out := s.pathRead .mb off

/-- MB_REG_WRITE (R25). (DESIGN CHOICE, log entry 17) -/
def execMbRegWrite (off : Nat) (v : Word) (s : State) : Out := s.pathWrite .mb off v

/-- MB_LAST_STATUS (R25). (DESIGN CHOICE, log entry 17) -/
def execMbLastStatus (s : State) : Out :=
  if !s.portReaches .mb then stay s
  else done ((s.transfer .mb none).respond .mb .ok (leBytes 1 s.ports.mbLast))

/-- MB_BAD_COMMAND (R440, R441): a code other than 0x10 to 0x12. -/
def execMbBadCommand (code : Byte) (s : State) : Out :=
  if !s.portReaches .mb || (0x10 ≤ code.toNat && code.toNat ≤ 0x12) then stay s
  else done (s.modPorts (fun x => { x with mbBadSeen := true, mbBank := x.mbBank.add 3 1 }))

/-- MB_PEC_ERROR (R441): the transfer is ignored. -/
def execMbPecError (s : State) : Out :=
  if !s.portReaches .mb then stay s
  else done (s.modPorts (fun x => { x with mbPecSeen := true, mbBank := x.mbBank.add 1 1 }))

/-- CLOCK_LOW_TIMEOUT (R440, R441). -/
def execClockLowTimeout (s : State) : Out :=
  if !s.portReaches .mb then stay s
  else done (s.modPorts (fun x => { x with mbTimeoutSeen := true, mbBank := x.mbBank.add 2 1 }))

/-- ALERT_RESPONSE (R440): the port answers with its own 7-bit address while MB_ALERT_N is low. -/
def execAlertResponse (s : State) : Out :=
  if s.portReaches .mb && s.alert then done ((s.transfer .mb none).respond .mb .ok (leBytes 1 s.mbAddress))
  else stay s

/-! The TAP (R443). -/

/-- A land-driving instruction is loaded: it drives the lands while RESET_N is low and acts as BYPASS at other times. -/
def State.driveLands (s : State) (code : Nat) : State :=
  if s.ports.resetLow then s.modPorts (fun x => { x with tap := code, boundaryOut := true })
  else s.modPorts (fun x => { x with tap := 7, tapOut := 0, boundaryOut := false })

/-- An instruction that disturbs nothing is loaded, and its register captures a word. (DESIGN CHOICE, log entry 30) -/
def State.loadTap (s : State) (code : Nat) (out : Word) : State :=
  s.modPorts (fun x => { x with tap := code, tapOut := out, boundaryOut := false })

/-- EXTEST (R443). -/
def execExtest (s : State) : Out := done (s.driveLands 0)

/-- CLAMP (R443). -/
def execClamp (s : State) : Out := done (s.driveLands 1)

/-- HIGHZ (R443). -/
def execHighz (s : State) : Out := done (s.driveLands 2)

/-- EXTEST_PULSE (R443). -/
def execExtestPulse (s : State) : Out := done (s.driveLands 3)

/-- EXTEST_TRAIN (R443). -/
def execExtestTrain (s : State) : Out := done (s.driveLands 4)

/-- SAMPLE_PRELOAD (R443): the boundary cells sample the lands; what the lands carry is the board's.
(DESIGN CHOICE, log entry 30) -/
def execSamplePreload (s : State) : Out :=
  done ({ s with fresh := s.fresh + 1 }.loadTap 5 (BitVec.ofNat 32 (Config.freeNat s.fresh)))

/-- The identification word (R443): the version field of 4 bits, the part of 16, the manufacturer of 11, and a 1.
(PRESUMED, log entry 31) -/
def State.idWord (s : State) : Word :=
  BitVec.ofNat 32 (put 28 (s.dev.stepping.toNat % 16) + put 12 0x2812 + put 1 (Config.manufacturer % 2048) + 1)

/-- IDCODE (R443). (PRESUMED, log entry 31) -/
def execIdcode (s : State) : Out := done (s.loadTap 6 s.idWord)

/-- BYPASS (R443): the cell captures 0. -/
def execBypass (s : State) : Out := done (s.loadTap 7 0)

/-- PRIVATE_TEST_INSTRUCTION (R382, R389): answered only while DEBUG_OPEN is set. A reset request is source 9; the manual gives
no effect for an access to internal state. (DESIGN CHOICE, log entry 32) -/
def execPrivateTestInstruction (op : TestOp) (s : State) : Out :=
  if !s.sec.debugOpen then stay s
  else
    match op with
    | .reset scope => done (s.recognise 9 scope)
    | .internal _ => .refused .testAccessNotDescribed

/-! The board. -/

/-- Both apertures at 0 and function 1's session ended. -/
def State.portDown (s : State) : State :=
  (s.modPorts (fun x => { x with aperture := Vector.replicate 2 0 })).dropSession 0

/-- HP_PERST (R438). -/
def execHpPerst (s : State) : Out := done (s.portDown.modPorts (fun x => { x with perstLow := true, linkUp := false }))

/-- HP_PERST_RELEASE (R438). (DESIGN CHOICE, log entry 28) -/
def execHpPerstRelease (s : State) : Out := done (s.modPorts (fun x => { x with perstLow := false, linkUp := true }))

/-- FUNCTION_LEVEL_RESET (R354, R438). -/
def execFunctionLevelReset (fn : Fin 2) (s : State) : Out :=
  if !s.ports.linkUp || s.ports.perstLow then stay s
  else
    let s := s.modPorts (fun x => { x with aperture := x.aperture.set fn 0 })
    done (if fn = 1 then s.dropSession 0 else s)

/-- The PCIe link is lost (R354). -/
def State.linkLost (s : State) : State := (s.modPorts (fun x => { x with linkUp := false })).dropSession 0

/-- PCIE_LINK_LOSS (R354, R438). (DESIGN CHOICE, log entry 28) -/
def execPcieLinkLoss (s : State) : Out := done s.linkLost

/-- The stacks of a compute die (spec/00): 0 to 5 west, 6 to 11 east. (DESIGN CHOICE, log entry 29) -/
def dieStacks (east : Bool) : List (Fin 12) := (allFin 12).filter (fun n => decide (6 ≤ n.val) == east)

/-- The stash controllers of a compute die (spec/10): 0 to 3 west, 4 to 7 east. (DESIGN CHOICE, log entry 29) -/
def dieStash (east : Bool) : List (Fin 8) := (allFin 8).filter (fun n => decide (4 ≤ n.val) == east)

/-- The memories of a compute die lose their training. (DESIGN CHOICE, log entry 29) -/
def State.retrainDie (s : State) (east : Bool) : State :=
  let s := (dieStacks east).foldl (fun s n => s.modStack n (fun x => { x with trained := false })) s
  (dieStash east).foldl (fun s n => s.modStc n (fun x => { x with trained0 := false, trained1 := false })) s

/-- REFERENCE_CLOCK_LOSS (R439): the links or memories that the clock serves retrain; a memory that does not train again fails by
STACK_FAULT (R335). (DESIGN CHOICE, log entry 29) -/
def execReferenceClockLoss (clock : RefClock) (s : State) : Out :=
  match clock with
  | .links ls => done (ls.foldl (fun s l => if (s.link l).st = .up then s.retrain l else s) s)
  | .memory east => done (s.retrainDie east)
  | .host => done s.linkLost

/-- TWIN_RST_OUT_RELEASE (R389): 10 µs have passed. -/
def execTwinRstOutRelease (s : State) : Out := done (s.modPorts (fun x => { x with twinOutLow := false }))

/-! What the host finds on the PCIe link (R438). -/

/-- A base address register of a function. -/
structure PcieBar where
  number : Nat
  bits : Nat
  prefetchable : Bool
  bytes : Nat
deriving DecidableEq, Repr

/-- What a function of the host port reports of itself. -/
structure PcieIdentity where
  vendor : Nat
  device : Nat
  subsystemVendor : Nat
  subsystem : Nat
  revision : Nat
  classCode : Nat
  bars : List PcieBar
deriving DecidableEq, Repr

/-- The identity of function 0 or function 1 (R438): its revision is DEV_STEPPING[7:0]. -/
def State.pcieIdentity (s : State) (second : Bool) : PcieIdentity :=
  { vendor := 0x1F6B, device := 0x2812, subsystemVendor := 0x1F6B, subsystem := if second then 2 else 1
    revision := s.dev.stepping.toNat, classCode := 0x120000
    bars := [⟨0, 64, false, 2 ^ 24⟩, ⟨2, 64, true, 2 ^ 36⟩] }

end Sys2Proof.Machine
end

