-- ==== Sys2Proof/Machine/Dispatch.lean ====
section
/-! DEFINITION. One arm for each command: its meaning, called with what the command carries. -/

namespace Sys2Proof.Machine

/-- The effect of a command on everything but the queue. -/
def exec (i : Instr) (s : State) : Host.Outcome State Fault Refusal :=
  match i with
  | .registerWrite p off v f => Sys2Proof.Machine.execRegisterWrite p off v f s
  | .loRead p a => Sys2Proof.Machine.execLoRead p a s
  | .hiRead p a => Sys2Proof.Machine.execHiRead p a s
  | .loWrite p off w => Sys2Proof.Machine.execLoWrite p off w s
  | .hiWrite p off w => Sys2Proof.Machine.execHiWrite p off w s
  | .vioStatusClear p v => Sys2Proof.Machine.execVioStatusClear p v s
  | .hpApertureWrite p fn v => Sys2Proof.Machine.execHpApertureWrite p fn v s
  | .bar2Read fn off len => Sys2Proof.Machine.execBar2Read fn off len s
  | .bar2Write fn off data => Sys2Proof.Machine.execBar2Write fn off data s
  | .stagingLengthWrite fn len => Sys2Proof.Machine.execStagingLengthWrite fn len s
  | .mbRegRead off => Sys2Proof.Machine.execMbRegRead off s
  | .mbRegWrite off v => Sys2Proof.Machine.execMbRegWrite off v s
  | .mbLastStatus => Sys2Proof.Machine.execMbLastStatus s
  | .mbBadCommand code => Sys2Proof.Machine.execMbBadCommand code s
  | .mbPecError => Sys2Proof.Machine.execMbPecError s
  | .clockLowTimeout => Sys2Proof.Machine.execClockLowTimeout s
  | .alertResponse => Sys2Proof.Machine.execAlertResponse s
  | .perfClearCores p => Sys2Proof.Machine.execPerfClearCores p s
  | .perfClearDraught p => Sys2Proof.Machine.execPerfClearDraught p s
  | .perfClearMemory p => Sys2Proof.Machine.execPerfClearMemory p s
  | .perfClearStash p => Sys2Proof.Machine.execPerfClearStash p s
  | .perfClearLinks p => Sys2Proof.Machine.execPerfClearLinks p s
  | .perfClearSlipstream p => Sys2Proof.Machine.execPerfClearSlipstream p s
  | .perfClearViolations p => Sys2Proof.Machine.execPerfClearViolations p s
  | .fetchOperation c k => Sys2Proof.Machine.execFetchOperation c k s
  | .nop c k => Sys2Proof.Machine.execNop c k s
  | .endOp c k => Sys2Proof.Machine.execEndOp c k s
  | .endComplete c k => Sys2Proof.Machine.execEndComplete c k s
  | .tile c k => Sys2Proof.Machine.execTile c k s
  | .fillRow c k => Sys2Proof.Machine.execFillRow c k s
  | .fillCol c k => Sys2Proof.Machine.execFillCol c k s
  | .gather c k => Sys2Proof.Machine.execGather c k s
  | .scatter c k => Sys2Proof.Machine.execScatter c k s
  | .merge c k => Sys2Proof.Machine.execMerge c k s
  | .compact c k => Sys2Proof.Machine.execCompact c k s
  | .expand c k => Sys2Proof.Machine.execExpand c k s
  | .eddyTile c k => Sys2Proof.Machine.execEddyTile c k s
  | .predict c k => Sys2Proof.Machine.execPredict c k s
  | .predictComplete c => Sys2Proof.Machine.execPredictComplete c s
  | .verify c k => Sys2Proof.Machine.execVerify c k s
  | .tcopy c k => Sys2Proof.Machine.execTcopy c k s
  | .pcopy c k => Sys2Proof.Machine.execPcopy c k s
  | .copy c k => Sys2Proof.Machine.execCopy c k s
  | .convert c k => Sys2Proof.Machine.execConvert c k s
  | .vecAdd c k => Sys2Proof.Machine.execVecAdd c k s
  | .vecSub c k => Sys2Proof.Machine.execVecSub c k s
  | .vecMul c k => Sys2Proof.Machine.execVecMul c k s
  | .vecFma c k => Sys2Proof.Machine.execVecFma c k s
  | .vecFunc c k => Sys2Proof.Machine.execVecFunc c k s
  | .vecMax c k => Sys2Proof.Machine.execVecMax c k s
  | .vecMin c k => Sys2Proof.Machine.execVecMin c k s
  | .vecSum c k => Sys2Proof.Machine.execVecSum c k s
  | .vecDot c k => Sys2Proof.Machine.execVecDot c k s
  | .vecSelect c k => Sys2Proof.Machine.execVecSelect c k s
  | .vecDropout c k => Sys2Proof.Machine.execVecDropout c k s
  | .vectorOperationComplete c => Sys2Proof.Machine.execVectorOperationComplete c s
  | .route c k => Sys2Proof.Machine.execRoute c k s
  | .dispatchPair c => Sys2Proof.Machine.execDispatchPair c s
  | .routeComplete c => Sys2Proof.Machine.execRouteComplete c s
  | .veerHistSelWrite p c v => Sys2Proof.Machine.execVeerHistSelWrite p c v s
  | .vaneSignal c k => Sys2Proof.Machine.execVaneSignal c k s
  | .vaneSignalTakesEffect v => Sys2Proof.Machine.execVaneSignalTakesEffect v s
  | .vaneWait c k => Sys2Proof.Machine.execVaneWait c k s
  | .vaneTest c k => Sys2Proof.Machine.execVaneTest c k s
  | .waitBoundExpiry c k => Sys2Proof.Machine.execWaitBoundExpiry c k s
  | .draught c k => Sys2Proof.Machine.execDraught c k s
  | .loopSet c k => Sys2Proof.Machine.execLoopSet c k s
  | .loopNext c k => Sys2Proof.Machine.execLoopNext c k s
  | .branchVane c k => Sys2Proof.Machine.execBranchVane c k s
  | .jump c k => Sys2Proof.Machine.execJump c k s
  | .galeBroadcast g => Sys2Proof.Machine.execGaleBroadcast g s
  | .galeStall g => Sys2Proof.Machine.execGaleStall g s
  | .groupEntersReducer g => Sys2Proof.Machine.execGroupEntersReducer g s
  | .groupSumAdd g => Sys2Proof.Machine.execGroupSumAdd g s
  | .drainRowRead g => Sys2Proof.Machine.execDrainRowRead g s
  | .drainRowWrite g => Sys2Proof.Machine.execDrainRowWrite g s
  | .accLoadRow g => Sys2Proof.Machine.execAccLoadRow g s
  | .bayFillComplete g col => Sys2Proof.Machine.execBayFillComplete g col s
  | .xchkIssue g => Sys2Proof.Machine.execXchkIssue g s
  | .xchkRowCompare g => Sys2Proof.Machine.execXchkRowCompare g s
  | .move e j => Sys2Proof.Machine.execMove e j s
  | .mxStore e j => Sys2Proof.Machine.execMxStore e j s
  | .compress e j => Sys2Proof.Machine.execCompress e j s
  | .draughtDescComplete e => Sys2Proof.Machine.execDraughtDescComplete e s
  | .localFence => Sys2Proof.Machine.execLocalFence s
  | .commit => Sys2Proof.Machine.execCommit s
  | .fenceBoundExpiry => Sys2Proof.Machine.execFenceBoundExpiry s
  | .loadComplete => Sys2Proof.Machine.execLoadComplete s
  | .groupUpdateComplete n group => Sys2Proof.Machine.execGroupUpdateComplete n group s
  | .chunkSend n group kind chunk => Sys2Proof.Machine.execChunkSend n group kind chunk s
  | .dataFrame l pkt frame => Sys2Proof.Machine.execDataFrame l pkt frame s
  | .chunkEnd l pkt frame => Sys2Proof.Machine.execChunkEnd l pkt frame s
  | .chunkAck l pkt frame => Sys2Proof.Machine.execChunkAck l pkt frame s
  | .chunkNak l pkt frame => Sys2Proof.Machine.execChunkNak l pkt frame s
  | .stepEndSend => Sys2Proof.Machine.execStepEndSend s
  | .stepEnd l pkt frame => Sys2Proof.Machine.execStepEnd l pkt frame s
  | .stepAck l pkt frame => Sys2Proof.Machine.execStepAck l pkt frame s
  | .abortFrame l pkt frame => Sys2Proof.Machine.execAbortFrame l pkt frame s
  | .hbmRead addr upset flags => Sys2Proof.Machine.execHbmRead addr upset flags s
  | .hbmWrite addr data poison => Sys2Proof.Machine.execHbmWrite addr data poison s
  | .correctionWriteBack n line => Sys2Proof.Machine.execCorrectionWriteBack n line s
  | .wcEntryFinish unit line => Sys2Proof.Machine.execWcEntryFinish unit line s
  | .checkLineEvict unit group => Sys2Proof.Machine.execCheckLineEvict unit group s
  | .refresh n channel hot => Sys2Proof.Machine.execRefresh n channel hot s
  | .stackFault what => Sys2Proof.Machine.execStackFault what s
  | .stashRead addr upset crcFails => Sys2Proof.Machine.execStashRead addr upset crcFails s
  | .stashWrite addr data poison crcFails => Sys2Proof.Machine.execStashWrite addr data poison crcFails s
  | .laneSpare l lane => Sys2Proof.Machine.execLaneSpare l lane s
  | .flitReceive l wire => Sys2Proof.Machine.execFlitReceive l wire s
  | .nak l ack => Sys2Proof.Machine.execNak l ack s
  | .ackTimeout l => Sys2Proof.Machine.execAckTimeout l s
  | .retrainComplete l => Sys2Proof.Machine.execRetrainComplete l s
  | .packetForward l pkt => Sys2Proof.Machine.execPacketForward l pkt s
  | .writePacket l pkt => Sys2Proof.Machine.execWritePacket l pkt s
  | .writeAck l pkt => Sys2Proof.Machine.execWriteAck l pkt s
  | .readReq l pkt => Sys2Proof.Machine.execReadReq l pkt s
  | .readData l pkt => Sys2Proof.Machine.execReadData l pkt s
  | .signalPacket l pkt => Sys2Proof.Machine.execSignalPacket l pkt s
  | .errorPacket l pkt => Sys2Proof.Machine.execErrorPacket l pkt s
  | .peerRegRead l pkt => Sys2Proof.Machine.execPeerRegRead l pkt s
  | .peerRegWrite l pkt => Sys2Proof.Machine.execPeerRegWrite l pkt s
  | .regResp l pkt => Sys2Proof.Machine.execRegResp l pkt s
  | .fenceReport l pkt => Sys2Proof.Machine.execFenceReport l pkt s
  | .fenceClose l pkt => Sys2Proof.Machine.execFenceClose l pkt s
  | .report first more => Sys2Proof.Machine.execReport first more s
  | .reportResend => Sys2Proof.Machine.execReportResend s
  | .settleWindowClose => Sys2Proof.Machine.execSettleWindowClose s
  | .retryOrder l pkt => Sys2Proof.Machine.execRetryOrder l pkt s
  | .retryDone l pkt => Sys2Proof.Machine.execRetryDone l pkt s
  | .haltOrder l pkt => Sys2Proof.Machine.execHaltOrder l pkt s
  | .memberReqAttach first more => Sys2Proof.Machine.execMemberReqAttach first more s
  | .memberReqDetach first more => Sys2Proof.Machine.execMemberReqDetach first more s
  | .memberReqTakeover first more => Sys2Proof.Machine.execMemberReqTakeover first more s
  | .memberGrant l pkt => Sys2Proof.Machine.execMemberGrant l pkt s
  | .memberDeny l pkt => Sys2Proof.Machine.execMemberDeny l pkt s
  | .attach p call => Sys2Proof.Machine.execAttach p call s
  | .detach p call => Sys2Proof.Machine.execDetach p call s
  | .heartbeatSend => Sys2Proof.Machine.execHeartbeatSend s
  | .heartbeat l pkt => Sys2Proof.Machine.execHeartbeat l pkt s
  | .twinSilent => Sys2Proof.Machine.execTwinSilent s
  | .hello l pkt => Sys2Proof.Machine.execHello l pkt s
  | .reply l pkt => Sys2Proof.Machine.execReply l pkt s
  | .confirm l pkt => Sys2Proof.Machine.execConfirm l pkt s
  | .finish l pkt => Sys2Proof.Machine.execFinish l pkt s
  | .pairBoundExpiry => Sys2Proof.Machine.execPairBoundExpiry s
  | .shard l pkt proof => Sys2Proof.Machine.execShard l pkt proof s
  | .restoreChunk proof src => Sys2Proof.Machine.execRestoreChunk proof src s
  | .nonce p call => Sys2Proof.Machine.execNonce p call s
  | .session p call => Sys2Proof.Machine.execSession p call s
  | .endSession p call => Sys2Proof.Machine.execEndSession p call s
  | .sessionExpiry p => Sys2Proof.Machine.execSessionExpiry p s
  | .ship p call => Sys2Proof.Machine.execShip p call s
  | .fuseOwner p call => Sys2Proof.Machine.execFuseOwner p call s
  | .keyLoad p call => Sys2Proof.Machine.execKeyLoad p call s
  | .keyDelete p call => Sys2Proof.Machine.execKeyDelete p call s
  | .policy p call => Sys2Proof.Machine.execPolicy p call s
  | .endorse p call => Sys2Proof.Machine.execEndorse p call s
  | .debugUnlock p call => Sys2Proof.Machine.execDebugUnlock p call s
  | .unlockComplete => Sys2Proof.Machine.execUnlockComplete s
  | .submit p chan call => Sys2Proof.Machine.execSubmit p chan call s
  | .ingestBufferReady => Sys2Proof.Machine.execIngestBufferReady s
  | .entropyFail => Sys2Proof.Machine.execEntropyFail s
  | .extest => Sys2Proof.Machine.execExtest s
  | .clamp => Sys2Proof.Machine.execClamp s
  | .highz => Sys2Proof.Machine.execHighz s
  | .extestPulse => Sys2Proof.Machine.execExtestPulse s
  | .extestTrain => Sys2Proof.Machine.execExtestTrain s
  | .samplePreload => Sys2Proof.Machine.execSamplePreload s
  | .idcode => Sys2Proof.Machine.execIdcode s
  | .bypass => Sys2Proof.Machine.execBypass s
  | .privateTestInstruction op => Sys2Proof.Machine.execPrivateTestInstruction op s
  | .powerOnReset => Sys2Proof.Machine.execPowerOnReset s
  | .pinReset => Sys2Proof.Machine.execPinReset s
  | .resetRelease twin => Sys2Proof.Machine.execResetRelease twin s
  | .coldReset p call => Sys2Proof.Machine.execColdReset p call s
  | .warmReset p call => Sys2Proof.Machine.execWarmReset p call s
  | .coreReset p call => Sys2Proof.Machine.execCoreReset p call s
  | .twinReset => Sys2Proof.Machine.execTwinReset s
  | .watchdogExpiry => Sys2Proof.Machine.execWatchdogExpiry s
  | .thermalTrip sensor temp => Sys2Proof.Machine.execThermalTrip sensor temp s
  | .thermalTripRelease temps => Sys2Proof.Machine.execThermalTripRelease temps s
  | .supplyMonitorReset => Sys2Proof.Machine.execSupplyMonitorReset s
  | .resetTake => Sys2Proof.Machine.execResetTake s
  | .phase1 env => Sys2Proof.Machine.execPhase1 env s
  | .phase2 env => Sys2Proof.Machine.execPhase2 env s
  | .phase3 straps => Sys2Proof.Machine.execPhase3 straps s
  | .phase4 env => Sys2Proof.Machine.execPhase4 env s
  | .phase5 env => Sys2Proof.Machine.execPhase5 env s
  | .phase6 env => Sys2Proof.Machine.execPhase6 env s
  | .phase7 env => Sys2Proof.Machine.execPhase7 env s
  | .phase8 => Sys2Proof.Machine.execPhase8 s
  | .phase9 => Sys2Proof.Machine.execPhase9 s
  | .phaseBoundExpiry => Sys2Proof.Machine.execPhaseBoundExpiry s
  | .failedBringUpWaitExpiry => Sys2Proof.Machine.execFailedBringUpWaitExpiry s
  | .hpPerst => Sys2Proof.Machine.execHpPerst s
  | .functionLevelReset fn => Sys2Proof.Machine.execFunctionLevelReset fn s
  | .pwrFail => Sys2Proof.Machine.execPwrFail s
  | .pwrFailRise => Sys2Proof.Machine.execPwrFailRise s
  | .faultFlushEnd => Sys2Proof.Machine.execFaultFlushEnd s
  | .routineFlush => Sys2Proof.Machine.execRoutineFlush s
  | .seqMarkWriteEnd => Sys2Proof.Machine.execSeqMarkWriteEnd s
  | .recordAllowanceRise => Sys2Proof.Machine.execRecordAllowanceRise s
  | .evrCursorWrite p lo hi => Sys2Proof.Machine.execEvrCursorWrite p lo hi s
  | .rstHistSelWrite p v => Sys2Proof.Machine.execRstHistSelWrite p v s
  | .hltCanarySelWrite p v => Sys2Proof.Machine.execHltCanarySelWrite p v s
  | .measurementStart => Sys2Proof.Machine.execMeasurementStart s
  | .measurementComplete m => Sys2Proof.Machine.execMeasurementComplete m s
  | .avsSettled vread => Sys2Proof.Machine.execAvsSettled vread s
  | .avsSettleTimeout vread => Sys2Proof.Machine.execAvsSettleTimeout vread s
  | .tempWarn sensor temp => Sys2Proof.Machine.execTempWarn sensor temp s
  | .eddyOperationComplete c => Sys2Proof.Machine.execEddyOperationComplete c s
  | .copyOperationComplete c => Sys2Proof.Machine.execCopyOperationComplete c s
  | .linkRetrainFailure l => Sys2Proof.Machine.execLinkRetrainFailure l s
  | .referenceClockLoss clock => Sys2Proof.Machine.execReferenceClockLoss clock s
  | .pcieLinkLoss => Sys2Proof.Machine.execPcieLinkLoss s
  | .hpPerstRelease => Sys2Proof.Machine.execHpPerstRelease s
  | .twinRstOutRelease => Sys2Proof.Machine.execTwinRstOutRelease s
  | .tempWarnRearm sensor temp => Sys2Proof.Machine.execTempWarnRearm sensor temp s

end Sys2Proof.Machine
end

