-- ==== Sys2Proof/Machine/Tick.lean ====
section
/-! DEFINITION. The device tick (R33): what a step does when no command waits. The table has no row for it. What a tick
bounds is a command of its own; what a tick counts is counted here. -/

namespace Sys2Proof.Machine

/-- A Foehn unit whose running group waits for room in the slipstream's buffer counts the tick (R244).
(DESIGN CHOICE, log entry 79) -/
def State.tickFoehn (s : State) (n : Fin 12) : State :=
  let waits := (s.fhn n).running.any (fun r =>
    match Tbl.get? (s.groupTable n) r.1 with
    | some g => (decide (r.2.1 < groupChunks g) || !((s.fhn n).waitsToHand r.1).isEmpty) && !s.slipRoom
    | none => false)
  if waits then s.modFhn n (fun f => { f with bank := f.bank.add 5 1 }) else s

/-- HLT_RATE shows the steps of array 0 in the last whole window of 2^16 device ticks. (DESIGN CHOICE, log entry 133) -/
def Hlt.tickRate (h : Hlt) (now : Nat) : Hlt :=
  if now % 65536 = 0 then { h with rate := h.rateBase, rateBase := 0 } else h

/-- A fuse programming that has run its time ends (R357). (DESIGN CHOICE, log entry 142) -/
def State.tickFuse (s : State) : State :=
  match s.rst.fusing with
  | some f => if f.since + Config.fuseTicks ≤ s.now then close (s.endFusing f) else s
  | none => s

/-- One device tick passes: DEV_TICK counts it (R33), with SLIP_WAIT_TICKS (R244), STORE_WAIT_TICKS (R254) and HLT_RATE, and the
writing of the next unkept record begins (R422). (DESIGN CHOICE, log entry 3) -/
def tick (s : State) : State :=
  let s := s.modDev (fun d => { d with tick := d.tick + 1 })
  let s := (allFin 12).foldl State.tickFoehn s
  let s := if s.storeLagging then s.modSlip (fun x => { x with bank := x.bank.add 7 1 }) else s
  ((s.modHlt (fun h => h.tickRate s.now)).modEvr Evr.beginWrite).tickFuse

end Sys2Proof.Machine
end

