-- ==== Sys2Proof/Safety.lean ====
section
/-! DEFINITION. What counts as a good state and a good answer, and what a command may change, in the terms the statements
use. -/

namespace Sys2Proof.Machine

/-! Good states. -/

/-- No record asked for is left over: a handshake makes or suppresses every one (R418 to R420). -/
def State.RecordsMade (s : State) : Prop := s.evr.queue = []

/-- The bytes of one controller are in canonical form. -/
def LineMem.Ok (m : LineMem) : Prop := memWf m.data ∧ memWf m.upset

/-- All memory of the device is in canonical form: the stacks, the stash tier and the core stores. A stash controller has no
correction waiting between commands: it writes each one back in the handshake that made it (R260). -/
def State.MemoryOk (s : State) : Prop :=
  (∀ n, (s.stack n).arr.Ok) ∧ (∀ n, (s.stc n).arr.Ok ∧ (s.stc n).arr.fixes = []) ∧ ∀ c, memWf (s.core c).store

/-! Good answers. -/

/-- The command answers a next state, and `P` holds of it. -/
def Gives (i : Instr) (s : State) (P : State → Prop) : Prop := ∃ t, exec i s = .next t ∧ P t

/-- An operation of context `k` of core `c` has issued: it is the one that issued last, it is counted, and no other context
of the device has moved (R100, R129). -/
def Issued (c : Fin 4) (k : Fin 8) (s t : State) : Prop :=
  (t.core c).lastIssued = k ∧ (t.core c).bank = (s.core c).bank.add 0 1 ∧ ∀ d j, (d, j) ≠ (c, k) → t.ctx d j = s.ctx d j

/-- A packet of a type stands at its turn on a link: the link is UP with its session ready, the packet is for this device,
on its lane, allowed from the peer, and next of its source, and none is held behind it (R313, R315, R372). -/
def State.InTurn (s : State) (l : Fin 36) (p : Packet) (type : Nat) : Prop :=
  (s.link l).st = .up ∧ (s.link l).session = true ∧ p.type = type ∧ s.isLocal p.dst = true ∧ pktOk p = true ∧
    ((s.link l).peerStore = true → storeMay p.type = true) ∧ p.pseq % 2 ^ 24 = s.expected p.src p.vl ∧
    s.chain.heldPkts = []

/-- The state in which the effect of a packet at its turn begins: it is taken from the link, and the next one is expected. -/
def State.atTurn (s : State) (l : Fin 36) (p : Packet) : State := (s.collected l p).tookPacket p

/-- A path may command the security block: function 1 or the management port, outside the safe state, none running
(R32, R360, R405). -/
def State.MayCommand (s : State) (p : Path) (i : Fin 2) : Prop :=
  s.dev.st ≠ .safe ∧ secPath p = some i ∧ s.sec.cmd.busy = false

/-- A token of an opcode waits in a path's mailbox, and every check of it passes (R359, R360). -/
def State.TokenPasses (s : State) (op : Nat) (p : Path) (i : Fin 2) : Prop :=
  s.MayCommand p i ∧ s.tokenCheck op i (s.token i) = none

/-- A command has been answered in its status register (R30, R32). -/
def CmdStatus.Shows (c : CmdStatus) (a : Answer) (p : Path) (tag : Nat) (busy : Bool) : Prop :=
  c.code = a.code ∧ c.src = pathKind p ∧ c.tag = tag ∧ c.busy = busy

/-- A command has been answered in its status register, and the other commands of its handshake behind it: the last answer is the
one that shows (R32). -/
def CmdStatus.ShowsLast (c : CmdStatus) (rivals : List Rival) (a : Answer) (p : Path) (tag : Nat) (busy : Bool) : Prop :=
  match rivals.getLast? with
  | some r => c.Shows .conflict r.path r.tag.toNat busy
  | none => c.Shows a p tag busy

/-- A reset of a source is recognised, in a scope that is at least the one given (R389, R395). -/
def State.Recognised (t : State) (src : Nat) (scope : Scope) : Prop :=
  ∃ k, t.rst.taking = some k ∧ k.sources.getLsbD src = true ∧ scopeRank scope ≤ scopeRank k.scope

/-- The line in which a device address lies: its unit, its line there. -/
def State.lineAt (s : State) (a : Nat) : Option (Nat × Nat) :=
  match s.place a with
  | .hbm n loc _ => some (n.val, loc / 64)
  | .stash n pos loc _ => some (12 + n.val, stashLine pos loc)
  | .store c off => some (20 + c.val, off / 64)
  | _ => none

/-! What a command leaves unchanged. -/

/-- A core without its contexts, its store and the store's poison flags. -/
def Core.rest (x : Core) : Core := { x with ctxs := Vector.replicate 8 Ctx.idle, store := [], poison := [] }

/-- The bytes that a controller holds: of the DRAM, what differs in the stored codewords, and the entries that wait to be
merged. -/
def LineMem.bytes (m : LineMem) : List (Nat × Byte) × List (Nat × Byte) × Tbl WcEntry := (m.data, m.upset, m.wc)

/-- A controller without the bytes it holds. -/
def LineMem.rest (m : LineMem) : LineMem := { m with data := [], upset := [], wc := [] }

/-- A stack without the bytes it holds. -/
def Stack.rest (x : Stack) : Stack := { x with arr := x.arr.rest }

/-- A stash controller without the bytes it holds. -/
def Stash.rest (x : Stash) : Stash := { x with arr := x.arr.rest }

/-- The parts of the state, for frames. The recorder and the reset being taken are none of them: every command may make
records, and a record number at its limit escalates (R34, R418). -/
inductive Part where
  | pending | dev | ports | vio | ctxs | cores | stores | gales | draughts | chainVanes | chainSeen | frozen |
  chainBank | signals | stacks | stackBytes | stashes | stashBytes | foehn | slip | links | chain | sec | rst |
  hlt | plan | loaded | fit | step | loads | begun | hostLeaves | loadedChunks | withheld | answer | mxScales | fresh | keepHeld
deriving DecidableEq, Repr

/-- Every part but the queue of commands. -/
def Part.all : List Part :=
  [.dev, .ports, .vio, .ctxs, .cores, .stores, .gales, .draughts, .chainVanes, .chainSeen, .frozen, .chainBank,
    .signals, .stacks, .stackBytes, .stashes, .stashBytes, .foehn,
  .slip, .links, .chain, .sec, .rst, .hlt, .plan, .loaded, .fit, .step, .loads, .begun, .hostLeaves,
    .loadedChunks, .withheld, .answer, .mxScales, .fresh, .keepHeld]

/-- A part is the same in two states. -/
def Part.same (p : Part) (s t : State) : Prop :=
  match p with
  | .pending => t.pending = s.pending
  | .dev => t.dev = s.dev
  | .ports => t.ports = s.ports
  | .vio => t.vio = s.vio
  | .ctxs => ∀ c k, t.ctx c k = s.ctx c k
  | .cores => ∀ c, (t.core c).rest = (s.core c).rest
  | .stores => ∀ c, (t.core c).store = (s.core c).store ∧ (t.core c).poison = (s.core c).poison
  | .gales => t.gales = s.gales
  | .draughts => t.draughts = s.draughts
  | .chainVanes => t.chainVanes = s.chainVanes
  | .chainSeen => t.chainOverflowSeen = s.chainOverflowSeen ∧ t.chainDiscardSeen = s.chainDiscardSeen
  | .frozen => t.frozen = s.frozen
  | .chainBank => t.chainBank = s.chainBank
  | .signals => t.signals = s.signals
  | .stacks => ∀ n, (t.stack n).rest = (s.stack n).rest
  | .stackBytes => ∀ n, (t.stack n).arr.bytes = (s.stack n).arr.bytes
  | .stashes => ∀ n, (t.stc n).rest = (s.stc n).rest
  | .stashBytes => ∀ n, (t.stc n).arr.bytes = (s.stc n).arr.bytes
  | .foehn => t.foehn = s.foehn
  | .slip => t.slip = s.slip
  | .links => t.links = s.links
  | .chain => t.chain = s.chain
  | .sec => t.sec = s.sec
  | .rst => { t.rst with taking := none } = { s.rst with taking := none }
  | .hlt => t.hlt = s.hlt
  | .plan => t.plan = s.plan
  | .loaded => t.loaded = s.loaded
  | .fit => t.fit = s.fit
  | .step => t.step = s.step
  | .loads => t.loads = s.loads
  | .begun => t.begun = s.begun
  | .hostLeaves => t.hostLeaves = s.hostLeaves
  | .loadedChunks => t.loadedChunks = s.loadedChunks
  | .withheld => t.withheld = s.withheld
  | .answer => t.answer = s.answer
  | .mxScales => t.mxScales = s.mxScales
  | .fresh => t.fresh = s.fresh
  | .keepHeld => t.keepHeld = s.keepHeld

/-- Between two states nothing changes but the parts in the list, the recorder and the reset being taken. -/
def OnlyChanges (ps : List Part) (s t : State) : Prop := ∀ p, p ∉ ps → p.same s t

/-- Parts that a packet sent, or taken and answered, may change (R313, R315, R373). -/
def partsSend : List Part :=
  [.links, .chain, .sec]

/-- Parts that a read of memory may change: controller state and counters, and the bytes of a stash line that is corrected
(R260 to R262). -/
def partsRead : List Part :=
  [.stacks, .stashes, .stashBytes]

/-- Parts that a write of memory may change (R134, R262, R270). -/
def partsStore : List Part :=
  [.stores, .stacks, .stackBytes, .stashes, .stashBytes]

/-- Parts that the issue of an operation of a unit may change: it reads its sources, claims and releases slots, and
retires (R100, R111, R113, R114, R137). -/
def partsOp : List Part :=
  [.vio, .ctxs, .cores, .stacks, .stashes, .stashBytes, .fresh]

/-- Parts that a step of a fetch engine may change (R118). -/
def partsFetch : List Part :=
  [.vio, .ctxs, .cores, .gales, .draughts, .stacks, .stashes, .stashBytes, .fresh]

/-- Parts that an abandoned step may change (R334 to R343). -/
def partsRetry : List Part :=
  [.dev, .ports, .ctxs, .cores, .gales, .draughts, .chainVanes, .frozen, .signals, .foehn, .slip, .links, .chain,
    .sec, .rst, .withheld]

/-- Parts that signals and the waiters they release may change (R287, R288, R236). -/
def partsWake : List Part :=
  [.dev, .ports, .vio, .ctxs, .cores, .gales, .draughts, .chainVanes, .chainSeen, .frozen, .chainBank, .signals,
    .stacks, .stashes, .stashBytes, .foehn, .slip, .links, .chain, .sec, .rst, .withheld]

/-- Parts that packets of the fence's lane, VL0, may change (R292, R311, R324, R337). -/
def partsFence : List Part := partsWake ++ [.stackBytes, .hlt, .step]

/-- Parts that a register write may change, whichever register it is (R20, R26); a write that brings the comparison of its handshake
may also change what an abandoned step does (R95). -/
def partsReg : List Part :=
  [.dev, .ports, .vio, .ctxs, .cores, .gales, .draughts, .chainSeen, .frozen, .chainBank, .stacks, .stashes,
    .foehn, .slip, .links, .chain, .sec, .rst, .hlt]

/-- The parts that a command may change beside the recorder and the reset being taken, whatever the state. -/
def writes : Instr → List Part
  | .registerWrite _ _ _ _ => partsReg ++ partsRetry
  | .loRead _ _ => [.ports, .vio, .sec]
  | .hiRead _ _ => [.ports, .vio, .sec]
  | .loWrite _ _ _ => partsReg ++ partsRetry
  | .hiWrite _ _ _ => partsReg ++ partsRetry
  | .vioStatusClear _ _ => partsReg
  | .hpApertureWrite _ _ _ => partsReg
  | .bar2Read _ _ _ => partsRead ++ [.ports, .vio, .sec, .answer]
  | .bar2Write _ _ _ => partsStore ++ [.ports, .vio, .sec, .rst]
  | .stagingLengthWrite _ _ => partsStore ++ [.ports, .vio, .sec, .rst]
  | .mbRegRead _ => [.ports, .vio, .sec]
  | .mbRegWrite _ _ => partsReg
  | .mbLastStatus => [.ports]
  | .mbBadCommand _ => [.ports]
  | .mbPecError => [.ports]
  | .clockLowTimeout => [.ports]
  | .alertResponse => [.ports]
  | .perfClearCores _ => partsReg
  | .perfClearDraught _ => partsReg
  | .perfClearMemory _ => partsReg
  | .perfClearStash _ => partsReg
  | .perfClearLinks _ => partsReg
  | .perfClearSlipstream _ => partsReg
  | .perfClearViolations _ => partsReg
  | .fetchOperation _ _ => partsFetch
  | .nop _ _ => [.ctxs, .cores]
  | .endOp _ _ => [.ctxs, .cores]
  | .endComplete _ _ => [.ctxs]
  | .tile _ _ => [.vio, .ctxs, .cores, .gales]
  | .fillRow _ _ => partsFetch
  | .fillCol _ _ => partsFetch
  | .gather _ _ => partsOp
  | .scatter _ _ => partsOp
  | .merge _ _ => partsOp
  | .compact _ _ => partsOp ++ [.gales]
  | .expand _ _ => partsOp
  | .eddyTile _ _ => partsOp
  | .predict _ _ => partsOp
  | .predictComplete _ => partsStore ++ partsWake ++ [.mxScales]
  | .verify _ _ => partsOp
  | .tcopy _ _ => partsOp
  | .pcopy _ _ => partsOp
  | .copy _ _ => partsOp
  | .convert _ _ => partsOp
  | .vecAdd _ _ => partsOp
  | .vecSub _ _ => partsOp
  | .vecMul _ _ => partsOp
  | .vecFma _ _ => partsOp
  | .vecFunc _ _ => partsOp
  | .vecMax _ _ => partsOp
  | .vecMin _ _ => partsOp
  | .vecSum _ _ => partsOp
  | .vecDot _ _ => partsOp
  | .vecSelect _ _ => partsOp
  | .vecDropout _ _ => partsOp
  | .vectorOperationComplete _ => partsStore ++ [.cores, .mxScales]
  | .route _ _ => partsOp
  | .dispatchPair _ => partsStore ++ [.cores]
  | .routeComplete _ => partsStore ++ partsWake
  | .veerHistSelWrite _ _ _ => partsReg
  | .vaneSignal _ _ => partsWake
  | .vaneSignalTakesEffect _ => partsWake
  | .vaneWait _ _ => partsRead ++ partsRetry
  | .vaneTest _ _ => [.ctxs, .cores]
  | .waitBoundExpiry _ _ => partsSend ++ [.dev, .ctxs, .cores, .chainVanes, .frozen, .slip]
  | .draught _ _ => partsFetch
  | .loopSet _ _ => [.ctxs, .cores]
  | .loopNext _ _ => [.ctxs, .cores]
  | .branchVane _ _ => [.ctxs, .cores]
  | .jump _ _ => [.ctxs, .cores]
  | .galeBroadcast _ => [.cores, .gales, .hlt]
  | .galeStall _ => [.gales, .hlt]
  | .groupEntersReducer _ => [.gales]
  | .groupSumAdd _ => [.gales]
  | .drainRowRead _ => [.vio, .cores, .gales]
  | .drainRowWrite _ => partsStore ++ [.cores, .gales]
  | .accLoadRow _ => partsRead ++ [.cores, .gales, .fresh]
  | .bayFillComplete _ _ => [.cores, .gales]
  | .xchkIssue _ => [.cores, .gales]
  | .xchkRowCompare _ => partsRetry
  | .move _ _ => partsSend ++ partsStore ++ [.vio, .cores, .draughts, .mxScales, .fresh]
  | .mxStore _ _ => partsSend ++ partsStore ++ [.vio, .cores, .draughts, .mxScales, .fresh]
  | .compress _ _ => partsSend ++ partsStore ++ [.vio, .cores, .draughts, .mxScales, .fresh]
  | .draughtDescComplete _ => partsWake
  | .localFence => partsFence
  | .commit => partsFence
  | .fenceBoundExpiry => partsRetry
  | .loadComplete => partsWake ++ [.begun]
  | .groupUpdateComplete _ _ => partsStore ++ partsWake
  | .chunkSend _ _ _ _ => partsRetry ++ partsStore
  | .dataFrame _ _ _ => partsStore ++ partsWake ++ [.step, .loads, .loadedChunks]
  | .chunkEnd _ _ _ => partsStore ++ partsWake ++ [.step, .loads, .loadedChunks]
  | .chunkAck _ _ _ => partsStore ++ partsWake ++ [.step, .loads, .loadedChunks]
  | .chunkNak _ _ _ => partsStore ++ partsWake ++ [.step, .loads, .loadedChunks]
  | .stepEndSend => partsSend ++ [.slip]
  | .stepEnd _ _ _ => partsStore ++ partsWake ++ [.step, .loads, .loadedChunks]
  | .stepAck _ _ _ => partsStore ++ partsWake ++ [.step, .loads, .loadedChunks]
  | .abortFrame _ _ _ => partsStore ++ partsWake ++ [.step, .loads, .loadedChunks]
  | .hbmRead _ _ _ => partsRead ++ [.stackBytes, .answer]
  | .hbmWrite _ _ _ => partsStore
  | .correctionWriteBack _ _ => [.stacks, .stackBytes]
  | .wcEntryFinish _ _ => partsRead ++ [.stackBytes]
  | .checkLineEvict _ _ => [.stacks, .stashes]
  | .refresh _ _ _ => [.stacks]
  | .stackFault _ => partsSend ++ [.dev, .ctxs, .cores, .frozen, .stacks, .stashes, .slip]
  | .stashRead _ _ _ => partsRead ++ [.stackBytes, .answer]
  | .stashWrite _ _ _ _ => partsStore
  | .laneSpare _ _ => partsRetry
  | .flitReceive _ _ => partsRetry
  | .nak _ _ => partsRetry
  | .ackTimeout _ => partsRetry
  | .retrainComplete _ => partsSend
  | .packetForward _ _ => [.links, .sec]
  | .writePacket _ _ => partsSend ++ partsStore ++ [.vio]
  | .writeAck _ _ => partsSend ++ partsStore ++ [.cores, .draughts, .mxScales, .fresh]
  | .readReq _ _ => partsRead ++ partsSend ++ [.vio]
  | .readData _ _ => partsSend ++ partsStore ++ [.cores, .draughts, .mxScales, .fresh]
  | .signalPacket _ _ => partsFence
  | .errorPacket _ _ => partsSend ++ partsStore ++ [.cores, .draughts, .mxScales, .fresh]
  | .peerRegRead _ _ => partsReg
  | .peerRegWrite _ _ => partsReg
  | .regResp _ _ => partsSend ++ partsStore ++ [.cores, .draughts, .mxScales, .fresh]
  | .fenceReport _ _ => partsFence
  | .fenceClose _ _ => partsFence
  | .report _ _ => partsFence
  | .reportResend => partsRetry
  | .settleWindowClose => partsSend ++ [.dev, .ports, .ctxs, .cores, .gales, .draughts, .chainVanes, .signals, .foehn, .slip, .rst, .withheld]
  | .retryOrder _ _ => partsFence
  | .retryDone _ _ => partsFence
  | .haltOrder _ _ => partsFence
  | .memberReqAttach _ _ => partsFence
  | .memberReqDetach _ _ => partsFence
  | .memberReqTakeover _ _ => partsFence
  | .memberGrant _ _ => partsFence
  | .memberDeny _ _ => partsFence
  | .attach _ _ => partsSend ++ [.ports]
  | .detach _ _ => partsSend ++ [.ports]
  | .heartbeatSend => partsSend
  | .heartbeat _ _ => partsStore ++ partsWake ++ [.step, .loads, .loadedChunks]
  | .twinSilent => partsRetry
  | .hello _ _ => partsRetry
  | .reply _ _ => partsRetry
  | .confirm _ _ => partsRetry
  | .finish _ _ => partsRetry
  | .pairBoundExpiry => partsSend ++ [.dev, .rst]
  | .shard _ _ _ => partsStore ++ partsWake ++ [.step, .loads, .loadedChunks]
  | .restoreChunk _ _ => partsRetry ++ partsStore ++ [.loads, .loadedChunks]
  | .nonce _ _ => [.ports, .sec]
  | .session _ _ => [.ports, .sec]
  | .endSession _ _ => [.ports, .sec]
  | .sessionExpiry _ => [.sec]
  | .ship _ _ => [.ports, .sec, .rst]
  | .fuseOwner _ _ => [.ports, .sec, .rst]
  | .keyLoad _ _ => [.ports, .sec]
  | .keyDelete _ _ => [.ports, .sec]
  | .policy _ _ => [.ports, .sec]
  | .endorse _ _ => [.ports, .sec]
  | .debugUnlock _ _ => partsSend ++ [.dev, .ports, .ctxs, .frozen, .slip]
  | .unlockComplete => partsStore ++ [.ctxs, .cores, .gales, .draughts, .chainVanes, .sec, .plan, .loaded, .loads, .hostLeaves, .loadedChunks]
  | .submit _ _ _ => [.ports, .sec]
  | .ingestBufferReady => partsStore ++ partsWake ++ [.loads, .hostLeaves, .fresh]
  | .entropyFail => [.sec]
  | .extest => [.ports]
  | .clamp => [.ports]
  | .highz => [.ports]
  | .extestPulse => [.ports]
  | .extestTrain => [.ports]
  | .samplePreload => [.ports, .fresh]
  | .idcode => [.ports]
  | .bypass => [.ports]
  | .privateTestInstruction _ => []
  | .powerOnReset => [.rst]
  | .pinReset => [.ports]
  | .resetRelease _ => [.ports, .rst]
  | .coldReset _ _ => [.ports, .sec, .rst]
  | .warmReset _ _ => [.ports, .sec, .rst]
  | .coreReset _ _ => [.ports, .sec, .rst]
  | .twinReset => [.ports]
  | .watchdogExpiry => []
  | .thermalTrip _ _ => [.rst, .hlt]
  | .thermalTripRelease _ => [.rst, .hlt]
  | .supplyMonitorReset => [.rst]
  | .resetTake => Part.all
  | .phase1 _ => partsSend ++ [.dev, .rst, .hlt]
  | .phase2 _ => partsSend ++ [.dev, .rst, .hlt]
  | .phase3 _ => partsSend ++ [.dev, .rst]
  | .phase4 _ => partsSend ++ [.dev, .rst, .plan, .loaded]
  | .phase5 _ => partsSend ++ partsStore ++ [.dev, .ctxs, .cores, .gales, .draughts, .chainVanes, .rst, .plan, .loaded, .loads, .hostLeaves, .loadedChunks]
  | .phase6 _ => partsRetry
  | .phase7 _ => [.dev, .cores, .gales, .rst, .hlt, .fresh]
  | .phase8 => partsSend ++ [.dev, .rst, .fit]
  | .phase9 => partsWake ++ [.stackBytes, .step, .loads, .begun, .loadedChunks]
  | .phaseBoundExpiry => partsSend ++ [.dev, .rst, .hlt]
  | .failedBringUpWaitExpiry => []
  | .hpPerst => [.ports, .sec]
  | .functionLevelReset _ => [.ports, .sec]
  | .pwrFail => [.ports, .keepHeld]
  | .pwrFailRise => [.ports]
  | .faultFlushEnd => [.sec, .keepHeld]
  | .routineFlush => []
  | .seqMarkWriteEnd => []
  | .recordAllowanceRise => []
  | .evrCursorWrite _ _ _ => partsReg
  | .rstHistSelWrite _ _ => partsReg
  | .hltCanarySelWrite _ _ => partsReg
  | .measurementStart => [.hlt]
  | .measurementComplete _ => partsSend ++ [.dev, .ctxs, .frozen, .slip, .hlt]
  | .avsSettled _ => [.hlt]
  | .avsSettleTimeout _ => [.hlt]
  | .tempWarn _ _ => [.hlt]
  | .eddyOperationComplete _ => partsStore ++ [.cores, .gales, .mxScales, .fresh]
  | .copyOperationComplete _ => partsStore ++ [.cores, .mxScales]
  | .linkRetrainFailure _ => partsRetry
  | .referenceClockLoss _ => partsRetry ++ [.stacks, .stashes]
  | .pcieLinkLoss => [.ports, .sec]
  | .hpPerstRelease => [.ports]
  | .twinRstOutRelease => [.ports]
  | .tempWarnRearm _ _ => [.hlt]

/-- The parts that a packet may change when no packet is held behind it and the root has heard no REPORT. -/
def writesAlone : Instr → List Part
  | .signalPacket _ _ => partsWake
  | .peerRegRead _ _ => partsSend ++ [.ports, .vio]
  | .regResp _ _ => partsSend
  | .report _ _ => partsRetry
  | .retryOrder _ _ => partsRetry
  | .retryDone _ _ => partsSend
  | .haltOrder _ _ => partsRetry
  | .memberReqAttach _ _ => partsSend ++ [.dev]
  | .memberReqDetach _ _ => partsSend ++ [.dev]
  | .memberReqTakeover _ _ => partsSend ++ [.dev]
  | .memberGrant _ _ => partsWake ++ [.step]
  | .memberDeny _ _ => partsSend ++ [.dev]
  | .heartbeat _ _ => partsSend
  | i => writes i

/-- The families of commands, for statements about all of one family. -/
inductive Family where
  | register | port | stream | gale | unit | move | fence | slip | memory | link | chain | pair | restore |
  secrecy | reset | bringUp | health
deriving DecidableEq, Repr

/-- The family of a command. -/
def family : Instr → Family
  | .registerWrite _ _ _ _ => .register
  | .loRead _ _ => .register
  | .hiRead _ _ => .register
  | .loWrite _ _ _ => .register
  | .hiWrite _ _ _ => .register
  | .vioStatusClear _ _ => .register
  | .hpApertureWrite _ _ _ => .register
  | .bar2Read _ _ _ => .port
  | .bar2Write _ _ _ => .port
  | .stagingLengthWrite _ _ => .port
  | .mbRegRead _ => .port
  | .mbRegWrite _ _ => .port
  | .mbLastStatus => .port
  | .mbBadCommand _ => .port
  | .mbPecError => .port
  | .clockLowTimeout => .port
  | .alertResponse => .port
  | .perfClearCores _ => .register
  | .perfClearDraught _ => .register
  | .perfClearMemory _ => .register
  | .perfClearStash _ => .register
  | .perfClearLinks _ => .register
  | .perfClearSlipstream _ => .register
  | .perfClearViolations _ => .register
  | .fetchOperation _ _ => .stream
  | .nop _ _ => .stream
  | .endOp _ _ => .stream
  | .endComplete _ _ => .stream
  | .tile _ _ => .gale
  | .fillRow _ _ => .stream
  | .fillCol _ _ => .stream
  | .gather _ _ => .unit
  | .scatter _ _ => .unit
  | .merge _ _ => .unit
  | .compact _ _ => .unit
  | .expand _ _ => .unit
  | .eddyTile _ _ => .unit
  | .predict _ _ => .unit
  | .predictComplete _ => .unit
  | .verify _ _ => .unit
  | .tcopy _ _ => .unit
  | .pcopy _ _ => .unit
  | .copy _ _ => .unit
  | .convert _ _ => .unit
  | .vecAdd _ _ => .unit
  | .vecSub _ _ => .unit
  | .vecMul _ _ => .unit
  | .vecFma _ _ => .unit
  | .vecFunc _ _ => .unit
  | .vecMax _ _ => .unit
  | .vecMin _ _ => .unit
  | .vecSum _ _ => .unit
  | .vecDot _ _ => .unit
  | .vecSelect _ _ => .unit
  | .vecDropout _ _ => .unit
  | .vectorOperationComplete _ => .unit
  | .route _ _ => .unit
  | .dispatchPair _ => .unit
  | .routeComplete _ => .unit
  | .veerHistSelWrite _ _ _ => .register
  | .vaneSignal _ _ => .stream
  | .vaneSignalTakesEffect _ => .stream
  | .vaneWait _ _ => .stream
  | .vaneTest _ _ => .stream
  | .waitBoundExpiry _ _ => .stream
  | .draught _ _ => .stream
  | .loopSet _ _ => .stream
  | .loopNext _ _ => .stream
  | .branchVane _ _ => .stream
  | .jump _ _ => .stream
  | .galeBroadcast _ => .gale
  | .galeStall _ => .gale
  | .groupEntersReducer _ => .gale
  | .groupSumAdd _ => .gale
  | .drainRowRead _ => .gale
  | .drainRowWrite _ => .gale
  | .accLoadRow _ => .gale
  | .bayFillComplete _ _ => .stream
  | .xchkIssue _ => .gale
  | .xchkRowCompare _ => .gale
  | .move _ _ => .move
  | .mxStore _ _ => .move
  | .compress _ _ => .move
  | .draughtDescComplete _ => .move
  | .localFence => .fence
  | .commit => .fence
  | .fenceBoundExpiry => .fence
  | .loadComplete => .fence
  | .groupUpdateComplete _ _ => .fence
  | .chunkSend _ _ _ _ => .slip
  | .dataFrame _ _ _ => .slip
  | .chunkEnd _ _ _ => .slip
  | .chunkAck _ _ _ => .slip
  | .chunkNak _ _ _ => .slip
  | .stepEndSend => .slip
  | .stepEnd _ _ _ => .slip
  | .stepAck _ _ _ => .slip
  | .abortFrame _ _ _ => .slip
  | .hbmRead _ _ _ => .memory
  | .hbmWrite _ _ _ => .memory
  | .correctionWriteBack _ _ => .memory
  | .wcEntryFinish _ _ => .memory
  | .checkLineEvict _ _ => .memory
  | .refresh _ _ _ => .memory
  | .stackFault _ => .memory
  | .stashRead _ _ _ => .memory
  | .stashWrite _ _ _ _ => .memory
  | .laneSpare _ _ => .link
  | .flitReceive _ _ => .link
  | .nak _ _ => .link
  | .ackTimeout _ => .link
  | .retrainComplete _ => .link
  | .packetForward _ _ => .link
  | .writePacket _ _ => .link
  | .writeAck _ _ => .link
  | .readReq _ _ => .link
  | .readData _ _ => .link
  | .signalPacket _ _ => .link
  | .errorPacket _ _ => .link
  | .peerRegRead _ _ => .register
  | .peerRegWrite _ _ => .register
  | .regResp _ _ => .link
  | .fenceReport _ _ => .chain
  | .fenceClose _ _ => .chain
  | .report _ _ => .chain
  | .reportResend => .chain
  | .settleWindowClose => .chain
  | .retryOrder _ _ => .chain
  | .retryDone _ _ => .chain
  | .haltOrder _ _ => .chain
  | .memberReqAttach _ _ => .chain
  | .memberReqDetach _ _ => .chain
  | .memberReqTakeover _ _ => .chain
  | .memberGrant _ _ => .chain
  | .memberDeny _ _ => .chain
  | .attach _ _ => .register
  | .detach _ _ => .register
  | .heartbeatSend => .chain
  | .heartbeat _ _ => .chain
  | .twinSilent => .chain
  | .hello _ _ => .pair
  | .reply _ _ => .pair
  | .confirm _ _ => .pair
  | .finish _ _ => .pair
  | .pairBoundExpiry => .pair
  | .shard _ _ _ => .restore
  | .restoreChunk _ _ => .restore
  | .nonce _ _ => .secrecy
  | .session _ _ => .secrecy
  | .endSession _ _ => .secrecy
  | .sessionExpiry _ => .secrecy
  | .ship _ _ => .secrecy
  | .fuseOwner _ _ => .secrecy
  | .keyLoad _ _ => .secrecy
  | .keyDelete _ _ => .secrecy
  | .policy _ _ => .secrecy
  | .endorse _ _ => .secrecy
  | .debugUnlock _ _ => .secrecy
  | .unlockComplete => .secrecy
  | .submit _ _ _ => .secrecy
  | .ingestBufferReady => .restore
  | .entropyFail => .secrecy
  | .extest => .port
  | .clamp => .port
  | .highz => .port
  | .extestPulse => .port
  | .extestTrain => .port
  | .samplePreload => .port
  | .idcode => .port
  | .bypass => .port
  | .privateTestInstruction _ => .port
  | .powerOnReset => .reset
  | .pinReset => .reset
  | .resetRelease _ => .reset
  | .coldReset _ _ => .reset
  | .warmReset _ _ => .reset
  | .coreReset _ _ => .reset
  | .twinReset => .reset
  | .watchdogExpiry => .reset
  | .thermalTrip _ _ => .reset
  | .thermalTripRelease _ => .reset
  | .supplyMonitorReset => .reset
  | .resetTake => .reset
  | .phase1 _ => .bringUp
  | .phase2 _ => .bringUp
  | .phase3 _ => .bringUp
  | .phase4 _ => .bringUp
  | .phase5 _ => .bringUp
  | .phase6 _ => .bringUp
  | .phase7 _ => .bringUp
  | .phase8 => .bringUp
  | .phase9 => .bringUp
  | .phaseBoundExpiry => .bringUp
  | .failedBringUpWaitExpiry => .reset
  | .hpPerst => .port
  | .functionLevelReset _ => .port
  | .pwrFail => .health
  | .pwrFailRise => .health
  | .faultFlushEnd => .health
  | .routineFlush => .health
  | .seqMarkWriteEnd => .health
  | .recordAllowanceRise => .health
  | .evrCursorWrite _ _ _ => .register
  | .rstHistSelWrite _ _ => .register
  | .hltCanarySelWrite _ _ => .register
  | .measurementStart => .health
  | .measurementComplete _ => .health
  | .avsSettled _ => .health
  | .avsSettleTimeout _ => .health
  | .tempWarn _ _ => .health
  | .eddyOperationComplete _ => .unit
  | .copyOperationComplete _ => .unit
  | .linkRetrainFailure _ => .link
  | .referenceClockLoss _ => .port
  | .pcieLinkLoss => .port
  | .hpPerstRelease => .port
  | .twinRstOutRelease => .port
  | .tempWarnRearm _ _ => .health

end Sys2Proof.Machine
end

