-- ==== Sys2Proof/Certificates/Slice0/Obligations.lean ====
section
/-! DEFINITION. The statements for the provers. Each says what the model does for every state, not for one program. -/

open Sys2Proof Sys2Proof.Machine

/-! The machine as a whole. -/

/-- A step takes the command at the front of the queue and runs its meaning on the state with the rest of the queue. -/
def Obligations.StepRunsFrontCommand : Prop :=
  ∀ (s : State) (c : Instr) (rest : List Instr), s.pending = c :: rest → step s = exec c { s with pending := rest }

/-- On an empty queue a step is one device tick (the model's choice, log entry 3): DEV_TICK counts; where no programming of fuses
ends, nothing but DEV_TICK, the Foehn units' and the slipstream's waiting counters, the health block's rate window and the
record whose writing to its slot begins changes;
where one has run its time, it ends (the model's choice, log entry 142): the fuses hold what was programmed, and the command
that asked for it is answered DONE where LIFECYCLE reads the new value and FAILED where it does not. -/
def Obligations.EmptyQueueIsATick : Prop :=
  ∀ s : State, s.pending = [] →
    let now := (s.dev.tick + 1).toNat
    ((∀ f, s.rst.fusing = some f → now < f.since + Config.fuseTicks) →
      ∃ t, step s = .next t ∧ t.dev = { s.dev with tick := s.dev.tick + 1 } ∧ t.evr = s.evr.beginWrite ∧ t.rst = s.rst ∧
        OnlyChanges [.dev, .foehn, .slip, .hlt] s t) ∧
    (∀ f, s.rst.fusing = some f → f.since + Config.fuseTicks ≤ now →
      ∃ t, step s = .next t ∧ t.dev = { s.dev with tick := s.dev.tick + 1 } ∧ t.rst.fusing = none ∧
        t.sec.lifecycle = (s.sec.fused f).lifecycle ∧ t.sec.identity = (s.sec.fused f).identity ∧
        t.sec.storage = (s.sec.fused f).storage ∧ t.sec.ownerHash = (s.sec.fused f).ownerHash ∧
        t.sec.cmd.Shows (if t.sec.lifecycle = (if f.op = 4 then 1 else 2) then .done else .failed) f.path f.tag false ∧
        OnlyChanges [.dev, .foehn, .slip, .hlt, .sec, .rst] s t)

/-- No command waits, no record is left over and no record asked for, and memory is in canonical form right after reset. -/
def Obligations.ResetIsGood : Prop :=
  State.reset.pending = [] ∧ State.reset.RecordsMade ∧ State.reset.MemoryOk

/-- What a power-on reset leaves, of what the spec gives: BRING_UP in phase 1 with a cold power-on reset being taken, DEV_TICK
and SCRATCH 0, no violation captured, every link DOWN, every vane at 0, ROLE OUTSIDE, the twin UNPAIRED, no session open,
no command running, no plan loaded. -/
def Obligations.ResetHolds : Prop :=
  let s := State.reset
  s.dev.st = .bringUp ∧ s.dev.phase = 1 ∧ (∃ k, s.rst.taking = some k ∧ k.scope = .cold ∧ k.sources = 1) ∧ s.dev.tick = 0 ∧
    s.dev.scratch = 0 ∧ s.vio.valid = false ∧ s.vio.count = 0 ∧ (∀ l, (s.link l).st = .down) ∧
    (∀ v, (s.vane v).count = 0) ∧ s.chain.role = .outside ∧ s.chain.twin = .unpaired ∧ (∀ i, s.session i = none) ∧
    s.sec.cmd.busy = false ∧ s.chain.cmd.busy = false ∧ s.loaded = false ∧ (∀ c k, (s.ctx c k).st = .idle)

/-- Every step ends with no record asked for left in the queue: the recorder's work at the end of the handshake takes up every one
(that it does so there is the model's choice, log entry 15), where it is made, suppressed, or waits for the mark (R421). -/
def Obligations.StepMakesEveryRecord : Prop :=
  ∀ s t : State, s.RecordsMade → step s = .next t → t.RecordsMade

/-- No command reaches a fault, and the one command that is ever refused is a private test instruction other than a reset
request, while DEBUG_OPEN is set: R382 lets it reach internal state, and the spec gives it no effect. -/
def Obligations.OnlyTestAccessIsRefused : Prop :=
  ∀ (i : Instr) (s : State),
    (∃ t, exec i s = .next t) ∨
      (s.sec.debugOpen = true ∧ (∃ n, i = .privateTestInstruction (.internal n)) ∧ exec i s = .refused .testAccessNotDescribed)

/-! Frames: what a command may change, family by family. `writes` names the parts for each command, and `writesAlone` those of
a packet behind which no other packet is held, at a device whose root has heard no report. -/

/-- Register accesses and the commands of the host port, the management port and the test port leave every part unchanged that
`writes` does not name for them; a peer's access with nothing held behind it leaves those that `writesAlone` does not name. -/
def Obligations.AccessFrame : Prop :=
  ∀ i s t, family i = .register ∨ family i = .port → exec i s = .next t →
    OnlyChanges (writes i) s t ∧ (s.chain.heldPkts = [] → s.chain.inbox = [] → OnlyChanges (writesAlone i) s t)

/-- Fetch, control and vane commands leave every other part unchanged. -/
def Obligations.StreamFrame : Prop :=
  ∀ i s t, family i = .stream → exec i s = .next t → OnlyChanges (writes i) s t

/-- Operations of the vector unit, the copy path, the Eddy engine and the router, and commands of the Gale arrays and the Draught
engines, leave every other part unchanged. -/
def Obligations.UnitFrame : Prop :=
  ∀ i s t, family i = .unit ∨ family i = .gale ∨ family i = .move → exec i s = .next t → OnlyChanges (writes i) s t

/-- Commands of the step fence, the Foehn units and the slipstream leave every other part unchanged. -/
def Obligations.FenceFrame : Prop :=
  ∀ i s t, family i = .fence ∨ family i = .slip → exec i s = .next t → OnlyChanges (writes i) s t

/-- Commands of the memory controllers leave every other part unchanged. -/
def Obligations.MemoryFrame : Prop :=
  ∀ i s t, family i = .memory → exec i s = .next t → OnlyChanges (writes i) s t

/-- Commands of the links, the chain and the pairing leave every other part unchanged, and where no packet is held behind them
and the root has heard no report, every part that `writesAlone` does not name. -/
def Obligations.ChainFrame : Prop :=
  ∀ i s t, family i = .link ∨ family i = .chain ∨ family i = .pair → exec i s = .next t →
    OnlyChanges (writes i) s t ∧ (s.chain.heldPkts = [] → s.chain.inbox = [] → OnlyChanges (writesAlone i) s t)

/-- Commands of the security block, of ingest and of restores leave every other part unchanged. -/
def Obligations.SecrecyFrame : Prop :=
  ∀ i s t, family i = .secrecy ∨ family i = .restore → exec i s = .next t → OnlyChanges (writes i) s t

/-- Resets, bring-up phases and the health block's commands leave every other part unchanged. -/
def Obligations.ResetFrame : Prop :=
  ∀ i s t, family i = .reset ∨ family i = .bringUp ∨ family i = .health → exec i s = .next t → OnlyChanges (writes i) s t

/-! Streams. -/

/-- NOP, END, LOOP_SET, LOOP_NEXT, JUMP, VANE_TEST and BRANCH_VANE issue when arbitration chooses them: the operation retires,
the execute position and the loop counters become what the operation says, the issue is counted and no other context
moves. -/
def Obligations.ControlOperationsIssue : Prop :=
  ∀ (s : State) (c : Fin 4) (k : Fin 8) (op : BitVec 128),
    let x := s.ctx c k
    let next := x.execPos + 1
    let v := x.lcX.get (opLoop op)
    (s.mayIssue c k 0x00 = some op → Gives (.nop c k) s (fun t => t.ctx c k = (x.retire next).settle ∧ Issued c k s t)) ∧
    (s.mayIssue c k 0x01 = some op →
      Gives (.endOp c k) s (fun t => t.ctx c k = { (x.retire next).settle with ending := true } ∧ Issued c k s t)) ∧
    (s.mayIssue c k 0x80 = some op →
      Gives (.loopSet c k) s (fun t =>
        t.ctx c k = (({ x with lcX := x.lcX.set (opLoop op) (BitVec.ofNat 32 (field op 32 32)) } : Ctx).retire next).settle ∧
          Issued c k s t)) ∧
    (s.mayIssue c k 0x81 = some op → 1 < v.toNat →
      Gives (.loopNext c k) s (fun t =>
        t.ctx c k = (({ x with lcX := x.lcX.set (opLoop op) (v - 1) } : Ctx).retire (field op 32 16)).settle ∧
          Issued c k s t)) ∧
    (s.mayIssue c k 0x81 = some op → v.toNat ≤ 1 →
      Gives (.loopNext c k) s (fun t =>
        t.ctx c k = (({ x with lcX := x.lcX.set (opLoop op) 0 } : Ctx).retire next).settle ∧ Issued c k s t)) ∧
    (s.mayIssue c k 0x83 = some op →
      Gives (.jump c k) s (fun t => t.ctx c k = (x.retire (field op 32 16)).settle ∧ Issued c k s t)) ∧
    (s.mayIssue c k 0x62 = some op →
      let tested := x.lcX.set (Fin.ofNat 8 (field op 40 3)) (BitVec.ofNat 32 (s.vane (opVane c op)).count)
      Gives (.vaneTest c k) s (fun t =>
        t.ctx c k = (({ x with lcX := tested } : Ctx).retire next).settle ∧ Issued c k s t)) ∧
    (s.mayIssue c k 0x82 = some op →
      let target := if opCount op ≤ (s.vane (opVane c op)).count then field op 48 16 else next
      let y := (x.retire target).settle
      Gives (.branchVane c k) s (fun t =>
        t.ctx c k = (if y.branchOpen then { y with branchOpen := false, fetchPos := target } else y) ∧ Issued c k s t))

/-- END completes once every earlier operation of its context has completed, and the context is then ENDED; before that the command
changes nothing (the model's choice, log entry 2). After an END was fetched, FETCH_OPERATION, FILL_ROW, FILL_COL and DRAUGHT
fetch no operation of its context's program any more. -/
def Obligations.EndCompletes : Prop :=
  ∀ (s : State) (c : Fin 4) (k : Fin 8),
    ((s.ctx c k).ending = true → (s.ctx c k).st = .ready →
      (s.allComplete c k = true → Gives (.endComplete c k) s (fun t => (t.ctx c k).st = .ended)) ∧
      (s.allComplete c k = false → exec (.endComplete c k) s = .next s)) ∧
    ((s.ctx c k).endFetched = true → (s.ctx c k).routeTodo = [] →
      ∀ i ∈ [Instr.fetchOperation c k, .fillRow c k, .fillCol c k, .draught c k], Gives i s (fun t =>
        (t.ctx c k).queue = (s.ctx c k).queue ∧ (t.ctx c k).fetchPos = (s.ctx c k).fetchPos))

/-- FETCH_OPERATION, FILL_ROW, FILL_COL and DRAUGHT: where the fetch engine can take the operation up and the rotation lets
it (whose turn it is among the contexts that could fetch is the model's reading, log entry 48), an execute-side operation
enters the queue of its context, a fill claims the next bay of its feeder and is performed, and a descriptor enters the queue
of its engine; the context is the one that fetched last. Where something holds it, one attempt counts one step under its cause
(the model's choice, log entry 47) and the queue stays. -/
def Obligations.FetchTakesOperations : Prop :=
  ∀ (s : State) (c : Fin 4) (k : Fin 8), s.running = true →
    let x := s.ctx c k
    (∀ u, s.tryFetch c k = .ok u → s.fetches c k = true →
      let after (t : State) : Prop :=
        (t.core c).lastFetched = k ∧ t.ctx c k = u.ctx c k ∧ (t.ctx c k).serial = x.serial + 1 ∧ t.gales = u.gales ∧
          t.draughts = u.draughts ∧ ∀ d j, (d, j) ≠ (c, k) → t.ctx d j = s.ctx d j
      let fills (col : Bool) (t : State) : Prop := ∀ op, s.opAt c x.fetchPos = some op →
        ∃ b : Bay, (t.gale (arrayOf c (fillSide op))).feeder col = ((s.gale (arrayOf c (fillSide op))).feeder col).claim b ∧
          b.st = .filling ∧ b.fmt = fillFmt op ∧ b.ctx = k ∧ b.serial = x.serial
      let places (t : State) : Prop := ∀ e d, s.nextDesc c k = some (e, d) →
        ∃ y : DrtItem, (t.drt e).queue = (s.drt e).queue ++ [y] ∧ y.desc = d ∧ y.core = c ∧ y.ctx = k ∧ y.serial = x.serial ∧
          y.started = false ∧ y.moved = false
      (∀ op, x.routeTodo = [] → s.opAt c x.fetchPos = some op → fetchSide (opcode op) = false →
        Gives (.fetchOperation c k) s (fun t => after t ∧ ∃ e : QEntry, (t.ctx c k).queue = x.queue ++ [e] ∧
          e.idx = x.fetchPos ∧ e.serial = x.serial ∧ e.performed = false)) ∧
      (s.nextFetch c k = some 0x14 →
        Gives (.fetchOperation c k) s (fun t => after t ∧ fills false t) ∧ Gives (.fillRow c k) s (fun t => after t ∧ fills false t)) ∧
      (s.nextFetch c k = some 0x15 →
        Gives (.fetchOperation c k) s (fun t => after t ∧ fills true t) ∧ Gives (.fillCol c k) s (fun t => after t ∧ fills true t)) ∧
      (s.nextFetch c k = some 0x70 →
        Gives (.fetchOperation c k) s (fun t => after t ∧ places t) ∧ Gives (.draught c k) s (fun t => after t ∧ places t))) ∧
    (∀ n own, s.tryFetch c k = .error (n + 1, own) →
      Gives (.fetchOperation c k) s (fun t =>
        (t.ctx c k).queue = x.queue ∧ (t.ctx c k).fetchPos = x.fetchPos ∧ (t.ctx c k).bank = x.bank.add (n + 1) 1))

/-- VANE_SIGNAL with ORDER = 0 is put under way; with ORDER = 1 it takes effect at issue; a signal under way takes effect once
the operations before it have completed. VANE_WAIT consumes at once where its vane's count is reached and no other waits; where
it is not reached its context becomes WAITING in the vane's line; and a wait whose bound expires leaves the line without
consuming, stops its context and halts the device. -/
def Obligations.VanesRun : Prop :=
  ∀ (s : State) (c : Fin 4) (k : Fin 8) (op : BitVec 128),
    let v := opVane c op
    let mine (v : VaneId) (p : PSig) : Bool := p.vane == v && s.sigDue p
    (s.mayIssue c k 0x60 = some op → bitAt op 13 = false →
      Gives (.vaneSignal c k) s (fun t => t.signals = s.signals ++ [s.opSignal c k op] ∧ Issued c k s t)) ∧
    (s.mayIssue c k 0x60 = some op → bitAt op 13 = true →
      Gives (.vaneSignal c k) s (fun t => t = close ((s.issued c k).signalNow [s.opSignal c k op]))) ∧
    (∀ v, s.signals.filter (mine v) ≠ [] →
      Gives (.vaneSignalTakesEffect v) s (fun t =>
        t = close (({ s with signals := s.signals.filter (fun p => !mine v p) } : State).signalNow (s.signals.filter (mine v))))) ∧
    (s.mayIssue c k 0x61 = some op → s.frozen = false → (∀ n, (s.fhn n).due = []) → (s.vane v).waiters = [] →
      (s.vane v).count < opCount op →
      Gives (.vaneWait c k) s (fun t =>
        (t.ctx c k).st = .waiting ∧ (t.vane v).waiters = [(.ctx c k, opCount op)] ∧ (t.vane v).count = (s.vane v).count ∧
          (t.ctx c k).wait = some ⟨bitAt op 12, field op 32 8, opCount op, s.waitBound c op, s.now⟩)) ∧
    (s.mayIssue c k 0x61 = some op → s.frozen = false → (∀ n, (s.fhn n).due = []) → (s.vane v).waiters = [] →
      opCount op ≤ (s.vane v).count → s.recompute c k (s.ctx c k).execPos = none →
      Gives (.vaneWait c k) s (fun t =>
        (t.ctx c k).st = .ready ∧ (t.ctx c k).wait = none ∧ (t.vane v).waiters = [] ∧
          (t.vane v).count = (s.vane v).count - opCount op)) ∧
    (∀ w, s.running = true → (s.ctx c k).st = .waiting → (s.ctx c k).wait = some w → w.bound ≠ 0xFFFFFFFF →
      w.since + w.bound ≤ s.now →
      Gives (.waitBoundExpiry c k) s (fun t =>
        (t.ctx c k).st = .stopped ∧ (t.ctx c k).stopCause = 1 ∧ (t.core c).boundExpiredSeen = true ∧
          (t.vane (waitVane c w)).count = (s.vane (waitVane c w)).count ∧ t.dev.st = .halted ∧ t.Recognised 8 .warm))

/-- A signal raises the count of its vane by its amount; one that would take the count past 0xFFFF adds nothing and is a
violation of kind VANE_OVERFLOW; and while the vanes are frozen no count changes, and a chain signal is discarded and
counted. -/
def Obligations.SignalsAddToVanes : Prop :=
  ∀ (s : State) (v : VaneId) (n src : Nat) (far : Bool),
    (s.frozen = false → (s.vane v).count + n ≤ 0xFFFF →
      ((s.applySignal v n src far).1.vane v).count = (s.vane v).count + n ∧ (s.applySignal v n src far).2 = none) ∧
    (s.frozen = false → 0xFFFF < (s.vane v).count + n →
      (∀ w, ((s.applySignal v n src far).1.vane w).count = (s.vane w).count) ∧
        (s.applySignal v n src far).2 = some ⟨0x04, src, vaneAddr v, s.self⟩) ∧
    (s.frozen = true → ∀ w, ((s.applySignal v n src far).1.vane w).count = (s.vane w).count) ∧
    (s.frozen = true → ∀ j, v = .chain j →
      (s.applySignal v n src far).1.chainBank = s.chainBank.add 1 1 ∧ (s.applySignal v n src far).1.chainDiscardSeen = true)

/-! Units. -/

/-- The vector operations that work element by element: with DST and sources mapped, the operation issues and starts a run that
will write, at each index of DST, the value its operation gives of the sources' elements, converted to DST's format, with the
scale byte of each block where that is an MX format. That the values are formed when the operation issues is the model's
choice (log entry 52), and so is that a run keeps the scale bytes of an MX destination (log entry 36). VEC_MAX and VEC_MIN of
one source are among the reductions. -/
def Obligations.VectorElementwise : Prop :=
  ∀ (s : State) (c : Fin 4) (k : Fin 8) (op : BitVec 128) (o : Opd),
    let srcs := s.opSrcs c (s.ctx c k).lcX op
    let a := s.srcAt srcs 0
    let b := s.srcAt srcs 1
    let d := s.srcAt srcs 2
    let starts (code : Nat) (i : Instr) (value : Nat → Nat → Nat → Nat → Word) : Prop :=
      s.mayIssue c k code = some op → s.opDst c (s.ctx c k).lcX op = some o → s.unmappedOpd (some o) srcs = none →
        Gives i s (fun t => Issued c k s t ∧ ∃ r, (t.core c).vec = some r ∧ r.ctx = k ∧ r.op = op ∧ r.serial = s.headSerial c k ∧
          r.poison = srcs.any s.srcPoison ∧ r.writes = o.writesOf (s.vecGust c k op) (srcs.any s.srcPoison) value ∧
          r.scales = o.scalesOf (s.vecGust c k op) value)
    starts 0x38 (.convert c k) a ∧
    starts 0x40 (.vecAdd c k) (fun w x y z => fadd (a w x y z) (b w x y z)) ∧
    starts 0x41 (.vecSub c k) (fun w x y z => fsub (a w x y z) (b w x y z)) ∧
    starts 0x42 (.vecMul c k) (fun w x y z => fmul (a w x y z) (b w x y z)) ∧
    starts 0x43 (.vecFma c k) (fun w x y z => ffma (a w x y z) (b w x y z) (d w x y z)) ∧
    starts 0x44 (.vecFunc c k) (fun w x y z => (s.funcTab c (vecTable op)).eval (a w x y z)) ∧
    (srcs.length ≠ 1 → starts 0x45 (.vecMax c k) (fun w x y z => fmax (a w x y z) (b w x y z))) ∧
    (srcs.length ≠ 1 → starts 0x46 (.vecMin c k) (fun w x y z => fmin (a w x y z) (b w x y z))) ∧
    starts 0x49 (.vecSelect c k) (fun w x y z =>
      let q := if isZero (a w x y z) = vecInvert op then b w x y z else d w x y z
      if isNaN q then f32NaN else q)

/-- The vector operations that reduce along dimension 0, and drop-out: DST takes, at each index of its other dimensions, the
greatest or the least of the elements of the one source along dimension 0, their sum, or the sum of the products of two
sources' elements, and for drop-out each element that is kept, scaled, and +0 for one that is dropped. That the values are
formed when the operation issues is the model's choice (log entry 52), and so is that a run keeps the scale bytes of an MX
destination (log entry 36). -/
def Obligations.VectorReductions : Prop :=
  ∀ (s : State) (c : Fin 4) (k : Fin 8) (op : BitVec 128) (o : Opd),
    let srcs := s.opSrcs c (s.ctx c k).lcX op
    let starts (code : Nat) (i : Instr) (value : Nat → Nat → Nat → Nat → Word) : Prop :=
      s.mayIssue c k code = some op → s.opDst c (s.ctx c k).lcX op = some o → s.unmappedOpd (some o) srcs = none →
        Gives i s (fun t => Issued c k s t ∧ ∃ r, (t.core c).vec = some r ∧ r.ctx = k ∧ r.op = op ∧ r.serial = s.headSerial c k ∧
          r.poison = srcs.any s.srcPoison ∧ r.writes = o.writesOf (s.vecGust c k op) (srcs.any s.srcPoison) value ∧
          r.scales = o.scalesOf (s.vecGust c k op) value)
    let fold (f : Word → Word → Word) (x y z : Nat) : Word :=
      match s.along srcs 0 x y z with
      | [] => 0
      | w :: ws => ws.foldl f (if isNaN w then f32NaN else w)
    (srcs.length = 1 → starts 0x45 (.vecMax c k) (fun _ x y z => fold fmax x y z)) ∧
    (srcs.length = 1 → starts 0x46 (.vecMin c k) (fun _ x y z => fold fmin x y z)) ∧
    starts 0x47 (.vecSum c k) (fun _ x y z => dotTerms 0 ((s.along srcs 0 x y z).map sumTerm)) ∧
    starts 0x48 (.vecDot c k) (fun _ x y z =>
      dotTerms 0 (((s.along srcs 0 x y z).zip (s.along srcs 1 x y z)).map (fun p =>
        product (roundCommon p.1) (roundCommon p.2)))) ∧
    (∀ a rest, srcs = a :: rest → starts 0x4A (.vecDropout c k) (fun w x y z =>
      let e := s.gustEntry c (opKey op)
      if (s.gustRef c (opKey op) (s.ctx c k).lcX).word 1 (a.d.flat w x y z) < keyKeep e then fmul (s.val a w x y z) (keyScale e)
      else 0))

/-- An operation of the vector unit, of the copy path, or a GATHER, SCATTER, MERGE or EDDY_TILE with an operand in no range of
R137 writes no data: it poisons its destination, and one violation of kind 0x05 is raised at the operand's base. -/
def Obligations.UnmappedOperandPoisons : Prop :=
  ∀ (s : State) (c : Fin 4) (k : Fin 8) (op : BitVec 128) (adr : Nat),
    let dst := s.opDst c (s.ctx c k).lcX op
    s.unmappedOpd dst (s.opSrcs c (s.ctx c k).lcX op) = some adr →
    let bad (run : State → Option RunOp) (t : State) : Prop :=
      ∃ r, run t = some r ∧ r.writes = (dst.map Opd.poisonWrites).getD [] ∧ r.poison = true ∧
        t.vio.count = s.vio.count + 1 ∧ t.vio.valid = true ∧
        (s.vio.valid = false → t.vio.kind = 5 ∧ t.vio.addr = adr) ∧
        (s.vio.valid = true → t.vio.addr = s.vio.addr ∧ t.vio.lost = true)
    let vec (code : Nat) (i : Instr) : Prop := s.mayIssue c k code = some op → Gives i s (bad (fun t => (t.core c).vec))
    let copies (code : Nat) (i : Instr) : Prop := s.mayIssue c k code = some op → Gives i s (bad (fun t => (t.core c).copy))
    let eddy (code : Nat) (i : Instr) : Prop := s.mayIssue c k code = some op → Gives i s (bad (fun t => (t.core c).eddy.run))
    vec 0x38 (.convert c k) ∧ vec 0x40 (.vecAdd c k) ∧ vec 0x41 (.vecSub c k) ∧ vec 0x42 (.vecMul c k) ∧
    vec 0x43 (.vecFma c k) ∧ vec 0x44 (.vecFunc c k) ∧ vec 0x45 (.vecMax c k) ∧ vec 0x46 (.vecMin c k) ∧
    vec 0x47 (.vecSum c k) ∧ vec 0x48 (.vecDot c k) ∧ vec 0x49 (.vecSelect c k) ∧ vec 0x4A (.vecDropout c k) ∧
    copies 0x30 (.tcopy c k) ∧ copies 0x31 (.pcopy c k) ∧ copies 0x32 (.copy c k) ∧
    eddy 0x20 (.gather c k) ∧ eddy 0x21 (.scatter c k) ∧ eddy 0x22 (.merge c k) ∧ eddy 0x25 (.eddyTile c k)

/-- COPY, TCOPY and PCOPY: with DST and sources mapped, and no violation of their own, the run copies to each index of DST the
element of SRC0 at the index that the permutation gives. A TCOPY or PCOPY whose DST overlaps SRC0, and a PCOPY whose
permutation tensor holds no permutation, poison DST and raise one violation. That the codes are taken when the operation issues
is the model's choice (log entry 52), and so is a PCOPY that goes on where the extents do not match (log entry 60). -/
def Obligations.CopiesPermute : Prop :=
  ∀ (s : State) (c : Fin 4) (k : Fin 8) (op : BitVec 128) (o a : Opd) (rest : List Opd),
    let srcs := s.opSrcs c (s.ctx c k).lcX op
    s.opDst c (s.ctx c k).lcX op = some o → srcs = a :: rest → s.unmappedOpd (some o) srcs = none →
    let starts (i : Instr) (p : List Nat) : Prop :=
      Gives i s (fun t => Issued c k s t ∧ t.vio = s.vio ∧ ∃ r, (t.core c).copy = some r ∧ r.ctx = k ∧ r.op = op ∧
        r.serial = s.headSerial c k ∧ r.poison = srcs.any s.srcPoison ∧
        r.writes = o.copyWrites (srcs.any s.srcPoison) (fun y =>
          s.codeList a ((List.range 4).map (fun d => y.getD (p.findIdx (· == d)) 0))))
    let violates (i : Instr) (kind adr : Nat) : Prop :=
      Gives i s (fun t => Issued c k s t ∧ t.vio.count = s.vio.count + 1 ∧
        (s.vio.valid = false → t.vio.kind = kind ∧ t.vio.addr = adr) ∧
        ∃ r, (t.core c).copy = some r ∧ r.ctx = k ∧ r.op = op ∧ r.poison = true ∧ r.writes = o.poisonWrites)
    (s.mayIssue c k 0x32 = some op → starts (.copy c k) [0, 1, 2, 3]) ∧
    (s.mayIssue c k 0x30 = some op → overlap o.ranges a.ranges = false → starts (.tcopy c k) (axesPerm (field op 80 2))) ∧
    (s.mayIssue c k 0x30 = some op → overlap o.ranges a.ranges = true → violates (.tcopy c k) 3 o.base) ∧
    (s.mayIssue c k 0x31 = some op → overlap o.ranges a.ranges = false → permBad (s.permOf srcs) = none →
      starts (.pcopy c k) (s.permOf srcs ++ (List.range 4).drop (s.permOf srcs).length)) ∧
    (s.mayIssue c k 0x31 = some op → overlap o.ranges a.ranges = true → violates (.pcopy c k) 3 o.base) ∧
    (∀ b more n, s.mayIssue c k 0x31 = some op → overlap o.ranges a.ranges = false → rest = b :: more →
      permBad (s.permOf srcs) = some n → violates (.pcopy c k) 1 (b.base + n))

/-- The operations of the Eddy engine start: the engine holds the run of the operation. GATHER, SCATTER, MERGE, EDDY_TILE and
VERIFY come with what they will write, PREDICT with its mask, and COMPACT with the bays that it will fill. That what a run will
write, its mask and its counts are fixed at issue is the model's choice (log entry 52), and so is the order in which the
repeats of an index combine in a MERGE or a SCATTER (log entry 61). -/
def Obligations.EddyOperationsStart : Prop :=
  ∀ (s : State) (c : Fin 4) (k : Fin 8) (op : BitVec 128),
    let srcs := s.opSrcs c (s.ctx c k).lcX op
    let dst := s.opDst c (s.ctx c k).lcX op
    let poison := srcs.any s.srcPoison
    let holds (t : State) (r : RunOp) : Prop :=
      Issued c k s t ∧ (t.core c).eddy.run = some r ∧ r.ctx = k ∧ r.op = op ∧ r.serial = s.headSerial c k ∧
        (t.core c).eddy.lastOp = opcode op ∧ (t.core c).eddy.lastCtx = k
    let mapped (o a b : Opd) (rest : List Opd) : Prop := dst = some o ∧ srcs = a :: b :: rest ∧ s.unmappedOpd dst srcs = none
    let violates (t : State) (adr : Nat) : Prop :=
      t.vio.count = s.vio.count + 1 ∧ (s.vio.valid = false → t.vio.kind = 1 ∧ t.vio.addr = adr)
    let merges (code : Nat) (t : State) : Prop := ∃ r, holds t r ∧ ∀ o a b rest, mapped o a b rest →
      r.counts = [(2, repeatsOf (s.indices b))] ∧
      (∀ q, rangeVio (s.indices b) (o.d.extent (opDim op)) b.base = some q →
        r.poison = true ∧ violates t q.2 ∧ ∀ w ∈ r.writes, w.data = [] ∧ w.poison = true) ∧
      (rangeVio (s.indices b) (o.d.extent (opDim op)) b.base = none →
        r.writes.map (fun w => (w.addr, w.len, w.data)) = (o.d.outer.flatMap (fun x =>
          o.partWrites x (s.mergedRow code (opDim op) o a (s.indices b) x) false)).map (fun w => (w.addr, w.len, w.data)))
    (s.mayIssue c k 0x20 = some op → Gives (.gather c k) s (fun t => ∃ r, holds t r ∧ ∀ o a b rest, mapped o a b rest →
      (rangeVio (s.indices b) (a.d.extent (opDim op)) b.base = none →
        r.poison = (s.srcPoison b || s.readPoison a (gatherReads o a (opDim op) (s.indices b))) ∧
        r.writes = o.copyWrites r.poison (fun y =>
          s.codeList a (setAt y (opDim op) ((s.indices b).getD (y.getD (opDim op) 0) 0)))) ∧
      (∀ q, rangeVio (s.indices b) (a.d.extent (opDim op)) b.base = some q →
        r.poison = true ∧ r.writes = o.poisonWrites ∧ violates t q.2))) ∧
    (s.mayIssue c k 0x21 = some op → Gives (.scatter c k) s (merges 3)) ∧
    (s.mayIssue c k 0x22 = some op → Gives (.merge c k) s (merges (field op 82 3))) ∧
    (s.mayIssue c k 0x23 = some op → ∀ a b rest, srcs = a :: b :: rest →
      Gives (.compact c k) s (fun t => ∃ r q, holds t r ∧ r.compact = some q ∧ q.array = arrayOf c (cmpSide op) ∧
        q.last = cmpLast op ∧ q.tag = some (1, binTable op, binIndex op))) ∧
    (s.mayIssue c k 0x24 = some op → Gives (.expand c k) s (fun t => ∃ r, holds t r ∧ r.pred = (s.ctx c k).predX ∧ r.dst = dst)) ∧
    (s.mayIssue c k 0x25 = some op → Gives (.eddyTile c k) s (fun t => ∃ r, holds t r ∧
      r.counts = [(6, edtK op + edtM op + 4)] ∧ ∀ o a b rest, mapped o a b rest →
        r.writes = (List.range (edtM op)).flatMap (fun i => o.putRow i
          (mergeCodes (edtMode op) (edtFmt op) (s.mergeGust c k op (edtRound op)) (fun j => o.d.flat j i 0 0)
            (mergeRow (edtMode op) (edtK op) (edtN op) (fun q => s.cf a q i) (fun q j => s.cf b q j)
              (fun j => s.mergeInit (edtMode op) srcs i j))) poison))) ∧
    (s.mayIssue c k 0x26 = some op → Gives (.predict c k) s (fun t => ∃ r mask, holds t r ∧
      (t.ctx c k).predX = some (prdSlot op, prdTile op) ∧
      r.predict = some (prdSlot op, prdTile op, mask, if prdPackEn op then some (prdVane op) else none) ∧
      ((t.core c).eddy.predTile (prdSlot op) (prdTile op)).cur = none ∧
      ((t.core c).eddy.predTile (prdSlot op) (prdTile op)).prev = ((s.core c).eddy.predTile (prdSlot op) (prdTile op)).cur ∧
      (s.padTiming = true ∨ poison = true ∨ (s.unmappedOpd none srcs).isSome = true →
        mask = List.replicate (s.predSlot c (prdSlot op)).groups true) ∧
      (∀ x p1 p2 rest, s.padTiming = false → poison = false → s.unmappedOpd none srcs = none → srcs = x :: p1 :: p2 :: rest →
        mask = s.predMask (s.predSlot c (prdSlot op)) x p1 p2))) ∧
    (s.mayIssue c k 0x27 = some op → Gives (.verify c k) s (fun t => ∃ r, holds t r ∧
      ∀ o, dst = some o → s.unmappedOpd dst srcs = none →
        let idle := (((s.core c).eddy.predTile (prdSlot op) (prdTile op)).cur.map inactiveGroups).getD []
        let passed := idle.filter (s.certified (s.predSlot c (prdSlot op)) srcs)
        (9, passed.length) ∈ r.counts ∧ (10, idle.length - passed.length) ∈ r.counts ∧
          r.writes = idle.flatMap (fun q => s.verifyRows (s.predSlot c (prdSlot op)) op (s.mergeGust c k op (vfyRound op)) o srcs q
            (passed.contains q))))

/-- The units complete: the vector unit, the copy path and the Eddy engine land what their run writes and are free again, and
the operation is no longer in flight. A COMPACT is over once it has filled the bays of all its groups, an EXPAND once every
row of its chain has come, and a PREDICT's mask is then complete. That what was fixed at issue lands with this command is the
model's choice (log entry 52), and so are the scale bytes that an MX destination decodes under from then on (log entry 36). -/
def Obligations.UnitsComplete : Prop :=
  ∀ (s : State) (c : Fin 4) (r : RunOp),
    let landed (t : State) : Prop :=
      (∀ d, (t.core d).store = ((s.landAll (spread r.writes)).core d).store) ∧
      (∀ n, (t.stack n).arr = ((s.landAll (spread r.writes)).stack n).arr) ∧
      (∀ n, (t.stc n).arr = ((s.landAll (spread r.writes)).stc n).arr) ∧
      t.mxScales = r.scales.foldl (fun m q => Tbl.set m q.1 q.2) s.mxScales ∧
      ∀ f ∈ (t.core c).flights, ¬(f.ctx = r.ctx ∧ f.serial = r.serial)
    ((s.core c).vec = some r → Gives (.vectorOperationComplete c) s (fun t => (t.core c).vec = none ∧ landed t)) ∧
    ((s.core c).copy = some r → Gives (.copyOperationComplete c) s (fun t => (t.core c).copy = none ∧ landed t)) ∧
    ((s.core c).eddy.run = some r → r.predict = none →
      (opcode r.op ≠ 0x23 → opcode r.op ≠ 0x24 →
        Gives (.eddyOperationComplete c) s (fun t => (t.core c).eddy.run = none ∧ landed t)) ∧
      (∀ ch rest, opcode r.op = 0x24 → (s.core c).eddy.buf (expSide r.op) = ch :: rest → ch.complete = true →
        Gives (.eddyOperationComplete c) s (fun t => (t.core c).eddy.run = none ∧ (t.core c).eddy.buf (expSide r.op) = rest)) ∧
      (∀ r' q, opcode r.op = 0x23 → ((s.feedCompact c).core c).eddy.run = some r' → r'.compact = some q →
        ((s.feedCompact c).compactDone r' q = true →
          Gives (.eddyOperationComplete c) s (fun t => (t.core c).eddy.run = none)) ∧
        ((s.feedCompact c).compactDone r' q = false →
          Gives (.eddyOperationComplete c) s (fun t => t = close (s.feedCompact c))))) ∧
    (∀ slot tile mask vane, (s.core c).eddy.run = some r → r.predict = some (slot, tile, mask, vane) →
      Gives (.predictComplete c) s (fun t => (t.core c).eddy.run = none ∧
        ((t.core c).eddy.predTile slot tile).cur = some mask ∧
        (vane = none → (∀ p, (s.ctx c r.ctx).spec = some p → p.pred ≠ some (slot, tile, r.serial)) → landed t)))

/-- ROUTE settles what it decides for every token and holds the pairs of those that find room in the dispatch queue,
DISPATCH_PAIR takes the pair at the head of the queue and lets scoring go on, and ROUTE_COMPLETE ends the route once no pair
is left: the router is free, and its layer's entry holds the counts of this core's home experts. -/
def Obligations.RoutingRuns : Prop :=
  ∀ (s : State) (c : Fin 4) (k : Fin 8) (op : BitVec 128) (e : RouteEntry),
    (∀ o rows rest, s.mayIssue c k 0x50 = some op → Tbl.get? (s.core c).veer.table (rteLayer op) = some e →
      s.opSrcs c (s.ctx c k).lcX op = o :: rows :: rest →
      let own (t : Nat) : Bool := decide (rteOwnFirst e c ≤ t) && decide (t < rteOwnFirst e c + rows.d.extent 1)
      let acc := (List.range (rteTokens e)).foldl (fun a t => routeToken e t (own t) (s.scores o (rteExperts e) t) a)
        (RouteAcc.empty (rteExperts e))
      Gives (.route c k) s (fun t => Issued c k s t ∧ ∃ r, (t.core c).veer.run = some r ∧ r.ctx = k ∧ r.layer = rteLayer op ∧
        r.serial = s.headSerial c k ∧ r.predDesc = rtePredict op ∧ (t.core c).veer.layer = rteLayer op ∧ (t.core c).veer.ctx = k ∧
        (s.unmappedOpd (s.opDst c (s.ctx c k).lcX op) (o :: rows :: rest) = none →
          r.counts = acc.counts ∧ r.drops = acc.drops ∧ r.pairs = (routeFill [] acc.tokens).1 ∧
            r.later = (routeFill [] acc.tokens).2.1))) ∧
    (∀ r p rest, (s.core c).veer.run = some r → r.pairs = p :: rest → Tbl.get? (s.core c).veer.table r.layer = some e →
      Gives (.dispatchPair c) s (fun t =>
        (t.core c).veer.run = some { r with pairs := (routeFill rest r.later).1, later := (routeFill rest r.later).2.1 } ∧
        ∀ d, (t.core d).store = ((s.dispatch c r e p).core d).store)) ∧
    (∀ r, (s.core c).veer.run = some r → r.pairs = [] → Tbl.get? (s.core c).veer.table r.layer = some e →
      Gives (.routeComplete c) s (fun t => (t.core c).veer.run = none ∧
        (r.bad = false → (t.core c).veer.table = Tbl.set (s.core c).veer.table r.layer (routeEnded e c r.counts r.drops))))

/-! Gale arrays. -/

/-- TILE issues: the array of its side runs it for its context, in the chain that is open there or in a new one in the bank that
the previous chain did not use. GALE_BROADCAST broadcasts one position where the array can, GALE_STALL counts the step under
its cause where it cannot, a closed group enters a free reducer, and a reduced group is added to its bank where the bank takes
it, the last of a chain leaving the bank to be drained: each of them in its own array alone. -/
def Obligations.ArraysRun : Prop :=
  (∀ (s : State) (c : Fin 4) (k : Fin 8) (op : BitVec 128), s.mayIssue c k 0x10 = some op →
    let g := arrayOf c (tileSide op)
    Gives (.tile c k) s (fun t =>
      (t.gale g).run = some ⟨op, s.headSerial c k, k, 0, false⟩ ∧ Issued c k s t ∧ (∀ h, h ≠ g → t.gale h = s.gale h) ∧
        ∃ ch, (t.gale g).opened = some ch ∧ (t.gale g).lastBank = ch.bank ∧
          ((s.gale g).opened = none →
            ch.ctx = k ∧ ch.mode = tileMode op ∧ ch.m = tileM op ∧ ch.n = tileN op ∧ ch.bank = !(s.gale g).lastBank) ∧
          (∀ old, (s.gale g).opened = some old → ch.ctx = old.ctx ∧ ch.bank = old.bank ∧ ch.mode = old.mode))) ∧
  (∀ (s : State) (g : Fin 8),
    let x := s.gale g
    let others (t : State) : Prop := ∀ h, h ≠ g → t.gale h = s.gale h
    (∀ r, x.run = some r → s.running = true → x.canBroadcast = true →
      Gives (.galeBroadcast g) s (fun t =>
        (t.gale g).run = x.broadcast.run ∧ (t.gale g).bank0 = x.broadcast.bank0 ∧ (t.gale g).bank1 = x.broadcast.bank1 ∧
          (t.gale g).group = x.broadcast.group ∧ (t.gale g).opened = x.broadcast.opened ∧ (t.gale g).row = x.broadcast.row ∧
          (t.gale g).col = x.broadcast.col ∧ others t)) ∧
    (∀ r, x.run = some r → s.running = true → x.canBroadcast = false →
      Gives (.galeStall g) s (fun t => t.gale g = { x with bank := x.bank.add (x.stallOf r) 1 } ∧ others t)) ∧
    (∀ u, x.group = some u → x.reducer = none → u.closed = true →
      Gives (.groupEntersReducer g) s (fun t => t.gale g = { x with group := none, reducer := some u } ∧ others t)) ∧
    (∀ u, x.reducer = some u → (x.acc u.chain.bank).takes u.chain = true →
      Gives (.groupSumAdd g) s (fun t =>
        ((t.gale g).acc u.chain.bank).acc = addGroup u ((x.acc u.chain.bank).start u.chain) ∧
          ((t.gale g).acc u.chain.bank).st = (if u.last then .waitingDrain else .accumulating) ∧
          (t.gale g).drainOrder = (if u.last then x.drainOrder ++ [(u.chain.bank, false)] else x.drainOrder) ∧
          (t.gale g).reducer = none ∧ others t)))

/-- The drain path: a row of the bank first in its order is read where its destination takes it and fewer than two rows are on
their way, and is held otherwise; the oldest row on its way is written, or enters the expand buffer; a LOAD reads one row of
initial values; and a fill's oldest bay becomes FULL. The cross-check: an offered check of an array whose checker is ready
starts, its rows are compared in order as the drain has written them, and it ends after the last, at a poisoned operand or
result, or with no result to read; a row that differs sets MISMATCH of the array that made it. Two rows on their way and a
third held is the model's reading (log entry 37); the banks and passes taken at XCHK_ISSUE and the steps counted with each row
are its choice (log entry 40), and so is that a row not yet written makes the command change nothing (log entry 2). -/
def Obligations.DrainPathAndChecksRun : Prop :=
  (∀ (s : State) (g : Fin 8),
    let x := s.gale g
    (∀ b rest ch, x.drainOrder = (b, false) :: rest → (x.acc b).chain = some ch → s.drainAccepts g ch = true → x.held.length < 2 →
      let ch' := (s.claimDrain g ch).2
      let row := (x.acc b).acc.getD x.drainRow []
      Gives (.drainRowRead g) s (fun t => ∃ h, (t.gale g).held = x.held ++ [h] ∧ h.row = x.drainRow ∧
        h.last = decide (ch'.m ≤ x.drainRow + 1) ∧ h.chain = { ch' with poison := (x.acc b).poison } ∧
        h.codes = if ch'.destEddy then row.map (·.toNat) else drainRow ch' row (ch'.flat x.drainRow))) ∧
    (∀ b rest ch, x.drainOrder = (b, false) :: rest → (x.acc b).chain = some ch →
      (s.drainAccepts g ch = false ∨ 2 ≤ x.held.length) →
      Gives (.drainRowRead g) s (fun t => t.gale g = { x with bank := x.bank.add 5 1 })) ∧
    (∀ h rest, x.held = h :: rest →
      Gives (.drainRowWrite g) s (fun t =>
        (t.gale g).held = rest ∧
          (h.chain.destEddy = false → ∀ c, (t.core c).store = ((s.landAll h.writes).core c).store) ∧
          (h.chain.destEddy = true →
            (t.core (coreOf g)).eddy.buf g.val = enterBuffer h ((s.core (coreOf g)).eddy.buf g.val)))) ∧
    (∀ b rest ch o, x.drainOrder = (b, true) :: rest → (x.acc b).chain = some ch → ch.load = some o →
      (s.srcReady o = true ∨ ch.badLoad = true) →
      Gives (.accLoadRow g) s (fun t =>
        (∃ row, ((t.gale g).acc b).acc = (x.acc b).acc ++ [row] ∧
          (ch.badLoad = false → row = (List.range ch.n).map (fun j => BitVec.ofNat 32 (s.code o j x.drainRow 0 0)))) ∧
          (t.gale g).drainOrder = if ch.m ≤ x.drainRow + 1 then rest else x.drainOrder)) ∧
    (∀ col items b, fillOldest (x.feeder col).items = (items, some b) →
      let u := s.modGale g (fun y => y.modFeeder col (fun f => f.ofItems items))
      Gives (.bayFillComplete g col) s (fun t =>
        ((s.core (coreOf g)).eddy.owns b = true → t = close ((u.modEddy (coreOf g) (fun e =>
          { e with bank := e.bank.add 0 (u.compactFilled (coreOf g) - s.compactFilled (coreOf g)) })).feedCompact (coreOf g))) ∧
        ((s.core (coreOf g)).eddy.owns b = false → t.gale g = u.gale g ∧
          ∀ f ∈ (t.core (coreOf g)).flights, ¬(f.ctx = b.ctx ∧ f.serial = b.serial))))) ∧
  (∀ (s : State) (g : Fin 8),
    let c := coreOf g
    (∀ kx ch rest, (s.prog c).xchk.ctx = some kx → (s.gale g).xqueue = ch :: rest → s.running = true →
      s.chosen c = some (Fin.ofNat 8 kx) → s.checkOffer c (Fin.ofNat 8 kx) = true → s.checkReady g = true →
      let passes := max 1 (ceilDiv ch.valid.length 16)
      let first := 16 * (passes - 1)
      Gives (.xchkIssue g) s (fun t =>
        (t.gale (s.checker g)).check = some ⟨ch, g, s.passWeights ch first, first, 0, false,
          s.anyPoison ((ch.srcA ++ ch.srcB).flatMap (·.ranges))⟩ ∧
        (t.gale g).xqueue = rest ∧ (t.gale (s.checker g)).ws = true ∧ (t.gale (s.checker g)).bank0.st = .weights ∧
        (1 < passes → (t.gale (s.checker g)).bank1.st = .partials ∧
          (t.gale (s.checker g)).bank1.acc = s.partialRows ch passes) ∧
        (t.core c).lastIssued = Fin.ofNat 8 kx)) ∧
    (∀ r, (s.gale g).check = some r →
      let codes := drainRow r.chain (s.checkRow g r) (r.chain.flat r.row)
      let diff := (List.range r.chain.n).find? (fun j => codes.getD j 0 != (s.storedRow r.chain r.row).getD j 0)
      let ends (t : State) : Prop := (t.gale g).check = none ∧ (t.gale g).ws = false
      ((r.chain.recordedWhole = false ∨ s.checkPoison r = true) → Gives (.xchkRowCompare g) s ends) ∧
      (r.chain.recordedWhole = true → s.checkPoison r = false →
        ((s.gale r.owner).wrote r.chain r.row = false → exec (.xchkRowCompare g) s = .next s) ∧
        ((s.gale r.owner).wrote r.chain r.row = true → s.storedPoison r.chain r.row = true → Gives (.xchkRowCompare g) s ends) ∧
        ((s.gale r.owner).wrote r.chain r.row = true → s.storedPoison r.chain r.row = false →
          (diff = none → r.row + 1 < r.chain.m →
            Gives (.xchkRowCompare g) s (fun t => (t.gale g).check = some { r with row := r.row + 1 } ∧
              (t.gale g).bank = ((s.gale g).bank.add 11 r.chain.rowSteps).add 0 r.chain.rowSteps)) ∧
          (diff = none → r.chain.m ≤ r.row + 1 → Gives (.xchkRowCompare g) s ends) ∧
          (∀ j, diff = some j → r.bad = false → s.chain.isRoot = false → s.chain.inbox = [] →
            (s.gale r.owner).mismatch = false →
            Gives (.xchkRowCompare g) s (fun t => (t.gale r.owner).mismatch = true ∧ (t.gale r.owner).mmRow = r.row ∧
              (t.gale r.owner).mmCol = j ∧ (t.gale r.owner).mmAddr = (r.chain.dest.map (·.base)).getD 0 ∧
              t.withheld = true))))))

/-! Draught engines. -/

/-- MOVE, MX_STORE and COMPRESS start the descriptor of their kind when those before it have started: from a local source it
moves its data at once, from a remote one it first asks for them; one that violates poisons its destination, moves nothing and
is one violation. The descriptor at the head of a queue that has moved its data and has every answer completes, in queue
order, once it is not speculative: its slots become FULL and its DONE vane is signalled. That a descriptor moves all its data
in one command, and that a speculative one completes only when its point is confirmed, is the model's choice (log entry 58). -/
def Obligations.DescriptorsRun : Prop :=
  ∀ (s : State) (e : Fin 8) (i : Fin 4) (x : DrtItem),
    let starts (c : Instr) (kind : Nat) : Prop :=
      (s.drt e).queue[i.val]? = some x → x.started = false → dscKind x.raw = kind → startedBefore (s.drt e).queue i = true →
      let begun := s.modItem e i (fun _ => { x with started := true })
      let ranges := ((s.itemSrc x).map (·.ranges)).getD []
      let reads := ranges ++ ((s.itemMask x).map (·.ranges)).getD []
      (s.itemVio x = none → s.isLocal (dscSrcDev x.raw) = true →
        Gives c s (fun t => t = close ((if x.spec then begun else begun.touch reads).deliver e i { x with started := true }) ∧
          ∃ y, (t.drt e).queue[i.val]? = some y ∧ y.started = true ∧ y.moved = true ∧ y.desc = x.desc ∧ y.serial = x.serial)) ∧
      (s.itemVio x = none → s.isLocal (dscSrcDev x.raw) = false →
        Gives c s (fun t => ∃ y, (t.drt e).queue[i.val]? = some y ∧ y.started = true ∧ y.moved = x.moved ∧ y.desc = x.desc ∧
          y.acks = (begun.sendReads e (dscSrcDev x.raw) ranges).2)) ∧
      (∀ kind adr dev, s.itemVio x = some (kind, adr, dev) → x.spec = false →
        Gives c s (fun t => t.vio.count = s.vio.count + 1 ∧
          (s.vio.valid = false → t.vio.kind = kind ∧ t.vio.addr = adr ∧ t.vio.dev = dev) ∧
          ∃ y, (t.drt e).queue[i.val]? = some y ∧ y.started = true ∧ y.moved = true ∧ (kind = 6 → y.noDone = true)))
    starts (.move e i) 0 ∧ starts (.mxStore e i) 1 ∧ starts (.compress e i) 2 ∧
    (∀ rest, (s.drt e).queue = x :: rest → x.spec = true → exec (.draughtDescComplete e) s = .next s) ∧
    (∀ rest, (s.drt e).queue = x :: rest → x.started = true → x.moved = true → x.acks = [] → x.spec = false →
      Gives (.draughtDescComplete e) s (fun t =>
        t = close ((((x.claims.foldl (fun (s : State) q => s.modRing q.1 q.2.1 (fun r => r.fill q.2.2 x.poisoned))
          (s.modDrt e (·.completed x))).landed x.core x.ctx x.serial).pendRecompute x).signalNow (s.doneSignal e x))))

/-! Fence, Foehn units and slipstream. -/

/-- The step fence and the Foehn units: the last load completes and the first step begins; the remaining blocks of a group are
updated, and the group is done and signals its DONE vane, unless the slipstream's buffer still holds it back or a poisoned
line stopped it; a device whose conditions hold reaches its local fence; a close that was learnt commits, and the training
step number rises by 1 up to its limit; a root that stands ready closes the chain. A fence bound that expires abandons the
step: it shows, it is recorded, and the device reports it with cause 5 and neither reports its fence nor closes from then on;
any device but the root reports up its fence route, and the root opens its settle window, at whose end it orders RETRY, or
orders HALT where the last RETRY was in vain. That the fence vanes'
counts are taken at the local fence is the model's choice (log entry 85), and so is how the blocks of a group are cut into
commands (log entries 78 and 79). -/
def Obligations.FenceRuns : Prop :=
  (∀ s : State,
    (s.running = true → s.loaded = true → s.loads = [] → s.begun = false →
      let u : State := { s with begun := true, foehn := s.foehn.map (fun f => { f with loading := false }) }
      Gives .loadComplete s (fun t => t.begun = true ∧
        t = close (if s.chain.role = .member then u.signalNow u.stepSignals else u))) ∧
    (s.trains = true → s.chain.local_ = false → s.fenceReady = true →
      Gives .localFence s (fun t =>
        t = close ((s.consumeFences.modChain (fun c => { c with local_ := true, localTick := s.now })).fenceProgress))) ∧
    (s.trains = true → s.commitReady = true → s.chain.closing = true →
      Gives .commit s (fun t => t = close (s.commit s.chain.grants) ∧ t.step = min (s.step + 1) (2 ^ 48 - 1))) ∧
    (s.trains = true → s.commitReady = true → s.chain.closing = false → s.rootReady = true →
      Gives .commit s (fun t => t = close s.rootClose)) ∧
    (s.trains = true → s.chain.local_ = true → s.chain.closing = false → s.chain.boundExpired = false →
      s.chain.localTick + s.plan.fenceBound ≤ s.now →
      let u := (s.modChain (fun c => { c with boundExpired := true, boundSeen := true })).ask 0x35 (s.unit 0xC 0x50 0) []
      let own : State := (u.modChain (fun c => { c with myReports := c.myReports ++ [(5, s.now)] })).recoveryRecord 0 5 s.self
        s.chain.attempt
      Gives .fenceBoundExpiry s (fun t => t.chain.boundSeen = true ∧ t = close (u.stepAbandon 5) ∧
        (s.chain.inbox = [] → s.chain.myReports.any (fun r => r.1 == 5) = false →
          (s.chain.isRoot = false →
            t.chain.myReports = s.chain.myReports ++ [(5, s.now)] ∧ t.abandoning = true ∧
              t = close (own.toParent (s.abandonPacket 0 5 s.self s.chain.attempt []))) ∧
          (s.chain.isRoot = true → s.chain.retried = false → s.chain.settleSince = none →
            t.chain.settleSince = some s.now ∧ t.chain.lastCause = 5 ∧ t.abandoning = true) ∧
          (s.chain.isRoot = true → s.chain.retried = true →
            t.dev.st = .halted ∧ t.chain.lastCause = 5 ∧ t.chain.lastAction = 2))))) ∧
  (∀ (s : State) (n : Fin 12) (group : Fin 256) (g : BitVec 512) (q : Nat × Bool),
    Tbl.get? (s.fhn n).running group = some q → Tbl.get? (s.groupTable n) group = some g → s.running = true →
    let u := s.updateBlocks n group g (groupChunks g + 1)
    (Tbl.get? (u.fhn n).running group = none →
      Gives (.groupUpdateComplete n group) s (fun t => t = close (u.reportPoison s).startDue)) ∧
    (∀ b bad, Tbl.get? (u.fhn n).running group = some (b, bad) →
      ((b < groupChunks g ∨ (u.fhn n).waitsToHand group ≠ []) →
        Gives (.groupUpdateComplete n group) s (fun t => t = close u)) ∧
      (groupChunks g ≤ b → (u.fhn n).waitsToHand group = [] →
        let stop := bad && grpStop g
        let v := u.modFhn n (fun f =>
          { f with
            running := Tbl.erase f.running group, done := insSorted f.done group
            withheld := f.withheld || stop, last := group, bank := f.bank.add 1 1 })
        let w := if grpDoneEn g then v.signalNow [unitSig (grpDone g) s.self 1 4 n] else v.startDue
        Gives (.groupUpdateComplete n group) s (fun t =>
          t = close (if stop then (w.ask 0x31 (s.unit 4 n 0) []).stepAbandon 3 else w)))))

/-- The slipstream sends a chunk that is ready, or that its group reaches now, and, once every chunk of the step is sent, the
step's root. Frames have their effect at their turn: an acknowledgement marks its chunk; a negative one has it sent again, but
for one of an aborted attempt, which changes nothing of the slipstream; the shadow's acknowledgement of the step, and a newer one
of the store, are noted. On a member, a DATA frame in its order adds its bytes to its chunk, a chunk end whose digest matches adds the
chunk's leaf and one whose digest fails adds none, a step end brings the root that the shadow is checked against, and an abort
drops what was received; on a device outside the chain the same frames bring it its shard (log entry 118). What counts as in
its order, what the answer of an aborted attempt is, and when STEP_END follows are the model's reading (log entry 82). -/
def Obligations.SlipstreamRuns : Prop :=
  (∀ (s : State),
    (∀ (n : Fin 12) (group : Fin 256) (kind : Fin 3) (chunk : Nat) (c : Chunk), s.running = true →
      (s.unsent n group kind chunk = some c →
        Gives (.chunkSend n group kind chunk) s (fun t =>
          t = close (((s.sendChunk c 0).sendChunk c 1).reportPoison s))) ∧
      (s.unsent n group kind chunk = none → (s.reachChunk n group chunk).unsent n group kind chunk = some c →
        Gives (.chunkSend n group kind chunk) s (fun t =>
          t = close ((((s.reachChunk n group chunk).sendChunk c 0).sendChunk c 1).reportPoison s)))) ∧
    (s.stepComplete = true →
      Gives .stepEndSend s (fun t =>
        t.slip.stepEndSent = true ∧ t.slip.root = rootOf s.self s.step (s.fullStep s.step) s.slip.leaves))) ∧
  (∀ (s : State) (l : Fin 36) (p : Packet) (f : Frame), s.InTurn l p 0x10 → (frameOf p.payload).1 = f →
    let u := s.atTurn l p
    (f.type = 5 → Gives (.chunkAck l p f) s (fun t => t = close (u.takeChunkAck p f) ∧
      ∀ d c, u.answerFrom p = some d → u.chunkOf f = some c → t = close (u.ackChunk c d))) ∧
    (f.type = 6 → Gives (.chunkNak l p f) s (fun t => t = close (u.takeChunkNak p f) ∧
      (s.slip.aborted.contains (f.step, f.attempt) = true → t.slip = s.slip) ∧
      (s.slip.aborted.contains (f.step, f.attempt) = false → ∀ d, u.answerFrom p = some d → t.slip.nakSeen = true))) ∧
    (f.type = 7 → Gives (.stepAck l p f) s (fun t => t = close (u.takeStepAck p f) ∧
      (u.answerFrom p = some 0 → f.step = s.step → f.attempt = s.chain.attempt → s.slip.stepEndSent = true →
        t.slip.shadowAcked = true ∧ t.slip.shadowAck = some f.step) ∧
      (u.answerFrom p = some 1 → u.storeAttempt f.step f.attempt = true → (∀ n, s.slip.storeAck = some n → n < f.step) →
        t.slip.storeAck = some f.step))) ∧
    (let member : Prop := u.outsider = false
     let order : Prop := member ∧ u.shadows f = true ∧ f.step = s.step ∧ s.slip.rx.step = f.step ∧ s.slip.rx.attempt = f.attempt ∧
       s.slip.rx.seq = f.seq
     let cells := (List.range f.payload.length).map (fun i => (f.offset + i, f.payload.getD i 0))
     let got := chunkBytes (s.slip.rx.part (Frame.place f))
     (f.type = 1 → Gives (.dataFrame l p f) s (fun t =>
       (member → t = close (u.takeFrame f (·.takeFrameData f))) ∧
       (u.outsider = true → t = close (u.joinFrame f (·.takeFrameData f))) ∧
       (order → t.slip.rx.part (Frame.place f) = s.slip.rx.part (Frame.place f) ++ cells ∧ t.slip.rx.seq = f.seq + 1))) ∧
     (f.type = 2 → Gives (.chunkEnd l p f) s (fun t =>
       (member → t = close (u.takeFrame f (·.endChunk f))) ∧
       (u.outsider = true → t = close (u.joinFrame f (·.joinChunk f))) ∧
       (order → ∀ bytes, got = some bytes → f.payload = sha384 bytes →
         t.slip.rx.leaves = insLeaf ⟨f.stack, f.group, f.kind, f.chunk, bytes.length, sha384 bytes⟩ s.slip.rx.leaves ∧
           t.slip.rx.part (Frame.place f) = []) ∧
       (order → (∀ bytes, got = some bytes → f.payload ≠ sha384 bytes) →
         t.slip.rx.leaves = s.slip.rx.leaves ∧ t.slip.rx.part (Frame.place f) = []))) ∧
     (f.type = 3 → Gives (.stepEnd l p f) s (fun t =>
       (member → t = close (u.takeFrame f (·.takeStepEnd f))) ∧
       (order → t.slip.rx.wanted = some f.payload ∧ (s.slip.rx.acked = false →
         t.slip.rx.acked = (f.payload == rootOf f.srcDev f.step (s.fullStep f.step) s.slip.rx.leaves))))) ∧
     (f.type = 4 → Gives (.abortFrame l p f) s (fun t => t = close (u.takeFrame f (·.takeAbort f)) ∧
       (u.shadows f = true → f.step = s.step → s.slip.rx.step = f.step → s.slip.rx.attempt = f.attempt →
         s.slip.rx.seq = f.seq → t.slip.rx.parts = [] ∧ t.slip.rx.leaves = [] ∧ t.slip.rx.seq = f.seq + 1)))))

/-! Memory. -/

/-- Where a device address of HBM lies: in an affine or a gradient region at LOCAL_BASE + (a − BASE) in its stack; in a
parameter region in the half that a read sees, or in the working half for a Foehn write; in an interleaved region spread by
granules of 2 KiB over the twelve stacks, one-to-one, each set of twelve granules in twelve different stacks. -/
def Obligations.RegionsPlaceAddresses : Prop :=
  ∀ (s : State) (a : Nat) (r : BitVec 256), a < 0x008700000000 → s.region a = some r →
    ((regKind r = 1 ∨ regKind r = 3) → ∀ work,
      s.place a work = .hbm (Fin.ofNat 12 (regStack r)) (regLocal r + (a - regBase r)) (regCode r)) ∧
    (regKind r = 2 → ∀ work,
      s.place a work = .hbm (Fin.ofNat 12 (regStack r))
        (regLocal r + s.halfOf (Fin.ofNat 12 (regStack r)) work * regSize r + (a - regBase r)) (regCode r)) ∧
    (regKind r = 0 → ∀ work,
      let o := a - regBase r
      let g := o >>> 11
      let q := g / 12
      let h := (q ^^^ (q >>> 5) ^^^ (q >>> 11)) % 12
      s.place a work = .hbm (Fin.ofNat 12 ((g % 12 + h) % 12)) (regLocal r + q * 2048 + o % 2048) (regCode r) ∧
        ∀ b, b < 0x008700000000 → s.region b = some r →
          (s.place b work = s.place a work → b = a) ∧
          (∀ n m x y, s.place a work = .hbm n x (regCode r) → s.place b work = .hbm m y (regCode r) →
            ((b - regBase r) >>> 11) / 12 = q → (b - regBase r) >>> 11 ≠ g → m ≠ n))

/-- Where a device address of a STASH region lies, over the D stash devices fitted. -/
def Obligations.StashPlacesAddresses : Prop :=
  ∀ (s : State) (a : Nat) (r : BitVec 256) (work : Bool), s.region a = some r → regKind r = 4 →
    stashBase ≤ a → a < stashBase + s.dev.stashDevices * stashDeviceSize →
    (s.dev.stashDevices = 8 ∨ s.dev.stashDevices = 16) →
    let D := s.dev.stashDevices
    let o := a - regBase r
    let g := o >>> 11
    let q := g / D
    let h := (q ^^^ (q >>> 5) ^^^ (q >>> 11)) % D
    let d := (g % D + h) % D
    let loc := regLocal r + q * 2048 + o % 2048
    ∃ n pos, s.place a work = .stash n pos loc (regCode r) ∧
      (if D = 16 then n.val = d / 2 ∧ pos = decide (d % 2 = 1) else n.val = d ∧ pos = false)

/-- The commands of the memory controllers complete. HBM: a read answers the line as `peekLine` gives it after the error has
struck, a correction is written back, a due entry is finished, a group leaves the check cache, a refresh is counted, and a
stack that fails in service is FAILED and halts a running device, and a stash device that fails is marked dead. Stash: a read whose transfer succeeds within four tries
answers the line, one that fails four times answers it poisoned; a whole line written reads back as written. -/
def Obligations.MemoryCommandsComplete : Prop :=
  (∀ s : State,
    (∀ addr upset flags n line, s.hbmLine addr = some (n, line) →
      Gives (.hbmRead addr upset flags) s (fun t =>
        t.answer = some ((s.modStack n (fun st => { st with arr := st.arr.strike line upset flags })).peekLine addr))) ∧
    (∀ n line d, Tbl.get? (s.stack n).arr.fixes line = some d →
      Gives (.correctionWriteBack n line) s (fun t =>
        Tbl.get? (t.stack n).arr.fixes line = none ∧ (d.length = 64 → (t.stack n).arr.plain line = d) ∧
          (t.stack n).arr.upsets line = zeros 68)) ∧
    (∀ unit line w, Tbl.get? (s.unitLines unit).wc line = some w → s.wcDue unit line w = true →
      (∀ n, unitOf unit = .inl n → Gives (.wcEntryFinish unit line) s (fun t => t = close (s.finishStack n line))) ∧
      (∀ n, unitOf unit = .inr n → Gives (.wcEntryFinish unit line) s (fun t => t = close (s.finishStash n line)))) ∧
    (∀ unit group, (s.unitLines unit).cache.contains group = true →
      Gives (.checkLineEvict unit group) s (fun t => (t.unitLines unit).cache.contains group = false)) ∧
    (∀ n channel hot, (s.stack n).trained = true → (s.stack n).selfRefresh = false →
      Gives (.refresh n channel hot) s (fun t =>
        (t.stack n).refresh2x = hot ∧ (t.stack n).bank = (s.stack n).bank.add 8 1)) ∧
    (∀ n, s.running = true → Gives (.stackFault (.stack n)) s (fun t =>
      (t.stack n).failed = true ∧ t.dev.st = .halted ∧ t.Recognised 8 .warm)) ∧
    (∀ c, s.running = true → Gives (.stackFault (.core c)) s (fun t =>
      (t.core c).health = .failed ∧ t.dev.st = .halted ∧ t.Recognised 8 .warm)) ∧
    (∀ n second, s.running = true → Gives (.stackFault (.stash n second)) s (fun t =>
      (t.stc n).arr.dead = insSorted (s.stc n).arr.dead (b2n second) ∧ t.dev = s.dev))) ∧
  (∀ (s : State) (addr : Nat) (n : Fin 8) (line code : Nat), s.stashLineOf addr = some (n, line, code) →
    (∀ upset (fails : Fin 5), fails.val < 4 →
      Gives (.stashRead addr upset fails) s (fun t =>
        t.answer = some (((s.modStc n (fun c => { c with arr := c.arr.strike line upset 0 })).crcRetries n fails).peekLine addr))) ∧
    (∀ upset (fails : Fin 5), fails.val = 4 →
      Gives (.stashRead addr upset fails) s (fun t => ∃ bs, t.answer = some (bs, true))) ∧
    (∀ data poison (fails : Fin 5), s.MemoryOk → (s.stc n).arr.dead = [] → fails.val < 4 → addr % 64 = 0 → data.length = 64 →
      Gives (.stashWrite addr data poison fails) s (fun t => t.peekLine addr = (data, poison))) ∧
    (∀ data poison (fails : Fin 5), fails.val = 4 → 0 < data.length →
      Gives (.stashWrite addr data poison fails) s (fun t => (t.peekLine addr).2 = true)))

/-- HBM_WRITE of a whole line: the line then reads as what was written, with the poison of the write; of part of a line, with room
in the write-combining buffer: the line then reads with those bytes replaced. That a write into a parameter region changes nothing
is the model's choice (log entry 92). -/
def Obligations.HbmWriteThenRead : Prop :=
  (∀ (s : State) (addr : Nat) (data : List Byte) (poison : Bool) (n : Fin 12) (line : Nat),
    s.hbmLine addr = some (n, line) →
    (s.inParameter addr = false → (s.stack n).arr.dead = [] → addr % 64 = 0 → data.length = 64 →
      Gives (.hbmWrite addr data poison) s (fun t => t.peekLine addr = (data, poison))) ∧
    (s.inParameter addr = true → exec (.hbmWrite addr data poison) s = .next s)) ∧
  (∀ (s : State) (addr : Nat) (data : List Byte) (n : Fin 12) (line : Nat),
    s.hbmLine addr = some (n, line) → s.hbmLine (addr / 64 * 64) = some (n, line) → s.inParameter addr = false → 0 < data.length →
    addr % 64 + data.length < 64 →
    Tbl.get? (s.stack n).arr.wc line = none → (s.stack n).arr.wc.length < stackWc →
    Gives (.hbmWrite addr data false) s (fun t =>
      t.peekLine addr = (overlay (s.peekLine addr).1 ((List.range data.length).map (fun i => (addr % 64 + i, data.getD i 0))),
        (s.peekLine addr).2)))

/-- HBM_WRITE of a whole line leaves every other line of the device as it reads, and every core store. Bytes that any unit or port
writes to a core store then read there as written; every other byte of it, every other core and all memory behind the
controllers are as before, and each 64-byte unit written takes the poison of the write. -/
def Obligations.HbmWriteFrame : Prop :=
  (∀ (s t : State) (addr : Nat) (data : List Byte) (poison : Bool) (n : Fin 12) (line : Nat),
    s.MemoryOk → s.hbmLine addr = some (n, line) → addr % 64 = 0 → data.length = 64 →
    exec (.hbmWrite addr data poison) s = .next t →
    ∀ a, s.lineAt a ≠ s.lineAt addr → t.peekLine a = s.peekLine a) ∧
  (∀ (s : State) (c : Fin 4) (off : Nat) (data : List Byte) (poison : Bool),
    s.MemoryOk → 0 < data.length → off + data.length ≤ storeSize →
    let t := s.writeBytes (storeBase c + off) data poison
    s.landAll [⟨storeBase c + off, data.length, data, poison⟩] = t ∧
      memRead (t.core c).store off data.length = data ∧
      (∀ b, (b < off ∨ off + data.length ≤ b) → memRead (t.core c).store b 1 = memRead (s.core c).store b 1) ∧
      (∀ u, off / 64 ≤ u → u ≤ (off + data.length - 1) / 64 → (u ∈ (t.core c).poison ↔ poison = true)) ∧
      (∀ u, (u < off / 64 ∨ (off + data.length - 1) / 64 < u) → (u ∈ (t.core c).poison ↔ u ∈ (s.core c).poison)) ∧
      (∀ d, d ≠ c → t.core d = s.core d) ∧ t.mem = s.mem ∧ t.stash = s.stash)

/-- Every step keeps all memory in canonical form: whatever command stands in front, a step from a state whose stacks, stash tier
and core stores are in canonical form gives a state whose memory is. -/
def Obligations.MemoryStaysCanonical : Prop :=
  ∀ s t : State, s.MemoryOk → step s = .next t → t.MemoryOk

/-! Links and packets. -/

/-- The flit layer: a wire flit is decoded and heard, its ACK and credits are taken, a DATA flit in its turn with room in its lane
is taken and numbered, a bad flit is a gap answered once with a NAK; a NAK and an ACK timeout resend what is held; a retrain
ends with new numbers; a link whose retrain fails is FAILED; a lane found failing is spared once, and a second one makes the
link FAILED. -/
def Obligations.FlitLayerRuns : Prop :=
  ∀ (s : State) (l : Fin 36),
    (∀ wire : List Byte, (s.link l).st = .up →
      let w := decodeWire wire
      let u := s.modLink l (·.heard w)
      let takes (v : State) : Prop :=
        (w.bad = true → Gives (.flitReceive l wire) s (fun t => t = close (v.modLink l Link.nakOnce) ∧
          (t.link l).gap = true ∧ (t.link l).rxNext = (s.link l).rxNext)) ∧
        (w.bad = false → Gives (.flitReceive l wire) s (fun t => t = close (v.takeFlit l w.flit) ∧
          ((s.link l).badAck w.flit.ack = false → w.flit.ftype = 1 → w.flit.seq = (s.link l).rxNext →
            (s.link l).held (Fin.ofNat 8 w.flit.vl) < (s.link l).allot.get (Fin.ofNat 8 w.flit.vl) →
            (t.link l).rxNext = ((s.link l).rxNext + 1) % 2 ^ 24)))
      ((u.link l).failing s.plan.laneLimit = none → takes u) ∧
      (∀ lane, (u.link l).failing s.plan.laneLimit = some lane →
        ((s.link l).spareUsed = false → takes (u.spareLane l lane)) ∧
        ((s.link l).spareUsed = true → Gives (.flitReceive l wire) s (fun t => t = close (u.linkFails l) ∧
          (t.link l).st = .failed)))) ∧
    (∀ ack : BitVec 24, (s.link l).st = .up →
      ((s.link l).badAck ack.toNat = false →
        Gives (.nak l ack) s (fun t => t = close ((((s.modLink l (·.acked ack.toNat)).resendHeld l).pumpOn l).lowered))) ∧
      ((s.link l).badAck ack.toNat = true → Gives (.nak l ack) s (fun t => t = close (s.retrain l)))) ∧
    ((s.link l).st = .up → (s.link l).retry ≠ [] →
      Gives (.ackTimeout l) s (fun t => t = close (s.resendHeld l))) ∧
    ((s.link l).st = .retraining → s.chain.lowering = false →
      Gives (.retrainComplete l) s (fun t => t = close ((s.modLink l Link.retrained).pumpOn l) ∧
        (t.link l).st = .up ∧ (t.link l).rxNext = 0 ∧ ∀ m, m ≠ l → t.link m = s.link m)) ∧
    ((s.link l).st = .retraining → s.chain.lowering = true →
      Gives (.retrainComplete l) s (fun t => t = close ((s.modLink l Link.retrained).pumpOn l).lowered)) ∧
    ((s.link l).st = .retraining ∨ (s.link l).st = .training →
      Gives (.linkRetrainFailure l) s (fun t => t = close (s.linkFails l))) ∧
    (∀ lane, (s.link l).st = .up → (s.link l).spareUsed = false →
      Gives (.laneSpare l lane) s (fun t =>
        (t.link l).spareUsed = true ∧ (t.link l).failedLane = lane.val ∧ (t.link l).sparedSeen = true ∧ (t.link l).st = .up)) ∧
    (∀ lane, (s.link l).st = .up → (s.link l).spareUsed = true →
      Gives (.laneSpare l lane) s (fun t => t = close (s.linkFails l)))

/-- Packets between devices at their turn: WRITE, WRITE_ACK, READ_REQ, READ_DATA, SIGNAL, ERROR, REG_READ, REG_WRITE and
REG_RESP have their effect, and the next number of their source and lane is then expected. -/
def Obligations.PacketsTakeEffect : Prop :=
  ∀ (s : State) (l : Fin 36) (p : Packet),
    let u := s.atTurn l p
    (s.InTurn l p 0x01 → Gives (.writePacket l p) s (fun t => t = close (u.remoteWrite l p))) ∧
    (s.InTurn l p 0x02 → Gives (.writeAck l p) s (fun t => t = close (u.takeWriteAck p) ∧
      ∀ e i x a, u.findAck p.src 3 (p.aux / 256) = some (e, i, x, a) → t = close (u.answered e i x a [] false))) ∧
    (s.InTurn l p 0x03 → Gives (.readReq l p) s (fun t => t = close (u.remoteRead l p))) ∧
    (s.InTurn l p 0x04 → Gives (.readData l p) s (fun t => t = close (u.takeReadData p) ∧
      ∀ e i x a, u.findAck p.src 4 (p.aux / 256) = some (e, i, x, a) → t = close (u.answered e i x a
        ((payloadLines { p with addr := a.addr }).map (fun b => (⟨b.1, b.2.1.length, b.2.1, b.2.2⟩ : WBlk))) false))) ∧
    (s.InTurn l p 0x05 → Gives (.signalPacket l p) s (fun t => t = close (u.takeSignal l p).rootJudge ∧
      ((u.chainVanes.get (Fin.ofNat 64 p.addr)).count + p.aux % 65536 ≤ 0xFFFF → t = close (u.signalNow
        [⟨.chain (Fin.ofNat 64 p.addr), u.self, p.aux % 65536, 6, l, 0, none, some p.src, false⟩]).rootJudge))) ∧
    (s.InTurn l p 0x06 → Gives (.errorPacket l p) s (fun t => t = close (u.takeError p))) ∧
    (s.InTurn l p 0x07 → Gives (.peerRegRead l p) s (fun t => t = close (u.peerRead l p) ∧
      (p.payload = [] → t = close ((u.readAt (.peer l) p.src p.addr).1.send
        (peerAnswer (u.verdict (.peer l) p.addr false) p (leBytes 4 (u.readAt (.peer l) p.src p.addr).2)))))) ∧
    (s.InTurn l p 0x08 → Gives (.peerRegWrite l p) s (fun t => t = close (u.peerWrite l p) ∧
      (p.payload.length = 4 → t = close ((u.writeAt (.peer l) p.src p.addr (BitVec.ofNat 32 (ofLe p.payload))).send
        (peerAnswer (u.verdict (.peer l) p.addr true) p []))))) ∧
    (s.InTurn l p 0x09 → Gives (.regResp l p) s (fun t =>
      t = close u ∧ t.chain.rxSeq.head? = some ((p.src, orderLane p.vl), (p.pseq + 1) % 2 ^ 24)))

/-- A packet in its turn acts and sets free those that were held for it, each in its turn; one that comes again is counted as a
duplicate, acknowledged again where it asks for that, and has no effect on memory; one ahead of its turn is held and nothing is
expected anew, and a second copy of it counts as a duplicate (the model's reading, log entry 116); one of a reserved type or
on a wrong lane is discarded and counted; one that was not authenticated is dropped uncounted (log entry 116); one of another
device is sent on where a route leads. That lane 7 is numbered with lane 3, and how an answer names its packet, is the model's
choice (log entry 101). -/
def Obligations.PacketsKeepTheirOrder : Prop :=
  ∀ (s : State) (l : Fin 36) (p : Packet),
    let u := s.collected l p
    let comes : Prop := (s.link l).st = .up ∧ (s.link l).session = true ∧ p.type = 0x01 ∧ s.isLocal p.dst = true
    let meant : Prop := comes ∧ pktOk p = true ∧ (s.link l).peerStore = false
    (meant → p.pseq % 2 ^ 24 = s.expected p.src p.vl → Gives (.writePacket l p) s (fun t =>
      t = close ((u.actOn ⟨l, p, none⟩).release p.src p.vl s.chain.heldPkts.length))) ∧
    (meant → p.pseq % 2 ^ 24 ≠ s.expected p.src p.vl → seqAfter p.pseq (s.expected p.src p.vl) = true →
      Gives (.writePacket l p) s (fun t =>
        (∃ h ∈ t.chain.heldPkts, h.pkt = p) ∧ t.chain.rxSeq = s.chain.rxSeq ∧ OnlyChanges [.links, .chain] s t)) ∧
    (meant → p.pseq % 2 ^ 24 ≠ s.expected p.src p.vl → seqAfter p.pseq (s.expected p.src p.vl) = true →
      s.chain.heldPkts.any (fun h => h.pkt == p) = true → Gives (.writePacket l p) s (fun t =>
        t.chain.heldPkts = s.chain.heldPkts ∧ (t.link l).bank = (s.link l).bank.add 10 1)) ∧
    (meant → p.pseq % 2 ^ 24 ≠ s.expected p.src p.vl → seqAfter p.pseq (s.expected p.src p.vl) = false →
      let v := u.modLink l (fun x => { x with bank := x.bank.add 10 1 })
      Gives (.writePacket l p) s (fun t => t.chain.rxSeq = s.chain.rxSeq ∧ OnlyChanges [.links, .chain, .sec] s t ∧
        t = close (if p.aux % 2 = 1 then v.send (answerPkt 0x02 0 p []) else v) ∧
        (p.aux % 2 = 0 → (t.link l).bank = (s.link l).bank.add 10 1))) ∧
    (comes → (pktOk p = false ∨ (s.link l).peerStore = true) →
      Gives (.writePacket l p) s (fun t => t = close (u.discarded l) ∧ (t.link l).bank = (s.link l).bank.add 9 1)) ∧
    ((s.link l).st = .up → (s.link l).session = false → p ∉ (s.link l).arrived → p.type = 0x01 → s.isLocal p.dst = true →
      Gives (.writePacket l p) s (fun t => t = close u)) ∧
    ((s.link l).st = .up → (s.link l).session = true → s.isLocal p.dst = false → pktOk p = true →
      ((s.link l).peerStore = true → storeMay p.type = true) →
      (∀ m dl, u.linkFor (s.addressed p.dst) p.pseq = some (m, dl) →
        Gives (.packetForward l p) s (fun t =>
          t = close ((u.pushOn m
            { p with dst := s.addressed p.dst, vl := if dl && p.type = 1 then 7 else p.vl }).modLink l
              (fun x => { x with bank := x.bank.add 11 1 })))) ∧
      (u.linkFor (s.addressed p.dst) p.pseq = none → Gives (.packetForward l p) s (fun t => t = close u)))

/-! The chain. -/

/-- Recovery packets at their turn: REPORT, RETRY, HALT and RETRY_DONE of an abandoned step; FENCE_REPORT and FENCE_CLOSE. A fence
report of step s from a child is held among those that have come, and a FENCE_CLOSE is learnt, or commits at once where a
commit may take place; one of either that does not concern step s is discarded and counted. The REPORTs of one handshake are
all taken before the root judges, and so are those that a packet sets free. -/
def Obligations.FencePacketsTakeEffect : Prop :=
  (∀ (s : State) (l : Fin 36) (p : Packet),
    let u := s.atTurn l p
    let a := abandonOf p.payload
    (s.InTurn l p 0x22 → a.action = 0 → Gives (.report (l, p) []) s (fun t => t = close (u.takeUp p a).rootJudge)) ∧
    (s.InTurn l p 0x22 → a.action = 1 → s.running = true → pktStep p = s.step → s.chain.attempt < a.attempt →
      Gives (.retryOrder l p) s (fun t => t = close ((u.retryDown (u.abandonPacket 1 a.cause a.origin a.attempt a.pairs)
        a.pairs).obeyRetry a.cause a.origin a.attempt a.pairs).rootJudge)) ∧
    (s.InTurn l p 0x22 → a.action = 2 → s.running = true →
      Gives (.haltOrder l p) s (fun t =>
        t = close ((u.haltDown (u.abandonPacket 2 a.cause a.origin a.attempt [])).obeyHalt a.cause a.origin).rootJudge ∧
          (s.chain.inbox = [] → t.dev.st = .halted))) ∧
    (s.InTurn l p 0x22 → a.action = 3 → pktStep p = s.step → a.attempt = s.chain.attempt →
      Gives (.retryDone l p) s (fun t =>
        t = close (u.modChain (fun c => { c with retrying := c.retrying.filter (· != u.childLink l p) })).rootJudge ∧
        (s.chain.inbox = [] → u.childLink l p ∉ t.chain.retrying))) ∧
    (s.InTurn l p 0x20 → Gives (.fenceReport l p) s (fun t => t = close (u.takeReport l p).rootJudge ∧
      (s.chain.inbox = [] → (u.belongs = false ∨ u.fenceMine p = false) →
        t.chain.discarded = (addWrap s.chain.discarded 1).1 ∧ t.chain.reports = s.chain.reports) ∧
      (s.chain.inbox = [] → u.belongs = true → u.fenceMine p = true → s.chain.isRoot = false → u.childLink l p ∈ s.chain.children →
        u.childLink l p ∉ s.chain.retrying → u.childLink l p ∈ t.chain.reports))) ∧
    (s.InTurn l p 0x21 → Gives (.fenceClose l p) s (fun t => t = close (u.takeClose l p).rootJudge ∧
      (s.chain.inbox = [] → (u.trains = false ∨ u.fenceMine p = false) →
        t.chain.discarded = (addWrap s.chain.discarded 1).1 ∧ t.step = s.step) ∧
      (s.chain.inbox = [] → u.trains = true → u.fenceMine p = true → s.chain.closing = false →
        (u.commitReady = false → t.chain.closing = true ∧ t.chain.grants = parseGrants (p.payload.length / 8) p.payload ∧
          t.step = s.step) ∧
        (u.commitReady = true → t.step = min (s.step + 1) (2 ^ 48 - 1)))))) ∧
  (∀ (s : State) (first : Fin 36 × Packet) (more : List (Fin 36 × Packet)),
    let pkts := first :: more
    Gives (.report first more) s (fun t => t = close ((pkts.filter (fun x => s.comes x.1 x.2 0x22 && abandons 0 x.2)).foldl
      (fun s x => s.deliverPkt x.1 x.2 none) s).rootJudge))

/-- Membership packets at their turn, and the commands that ask for membership: a request is held at the root and passed up
elsewhere; those of one handshake are taken the lower device identifier first; a grant and a denial end what was asked. Which
device asks (ADDR) and the kind of a grant or a denial (AUX) are the model's choice (log entry 103), and details of joins and
takeovers its reading (log entry 104). The other commands of the handshake of an ATTACH or a DETACH are answered STATE_CONFLICT
behind it (the model's choice where one of them lacks the right, log entry 155). In the safe state none of them is answered. -/
def Obligations.MembershipRuns : Prop :=
  (∀ (s : State) (l : Fin 36) (p : Packet),
    let u := s.atTurn l p
    (∀ k ∈ [(1, Instr.memberReqAttach (l, p) []), (2, Instr.memberReqDetach (l, p) [])],
      s.InTurn l p 0x23 → p.aux % 4 = k.1 → s.running = true →
      (s.chain.isRoot = true → Gives k.2 s (fun t => t = close (u.holdRequest k.1 p.addr).rootJudge ∧
        (s.chain.inbox = [] →
          ∃ r, t.chain.requests = s.chain.requests ++ [r] ∧ r.kind = k.1 ∧ r.dev = p.addr))) ∧
      (s.chain.isRoot = false → Gives k.2 s (fun t => t = close (u.toParent (memberReq k.1 p.addr)).rootJudge))) ∧
    (s.InTurn l p 0x23 → p.aux % 4 = 3 → s.running = true →
      (s.chain.isRoot = true →
        Gives (.memberReqTakeover (l, p) []) s (fun t => t = close (u.rootTakeover p.addr).rootJudge)) ∧
      (s.chain.isRoot = false →
        Gives (.memberReqTakeover (l, p) []) s (fun t => t = close (u.toParent (memberReq 3 p.addr)).rootJudge))) ∧
    (s.InTurn l p 0x24 → p.aux % 4 = 3 → s.chain.twin = .lost →
      Gives (.memberGrant l p) s (fun t => t = close u.takenOver.rootJudge)) ∧
    (s.InTurn l p 0x24 → p.aux % 4 = 1 →
      Gives (.memberGrant l p) s (fun t => t = close (u.joins p.payload).rootJudge)) ∧
    (s.InTurn l p 0x25 → p.aux % 4 = 1 → s.chain.role = .joining → s.chain.inbox = [] →
      Gives (.memberDeny l p) s (fun t => t.chain.role = .outside)) ∧
    (s.InTurn l p 0x25 → p.aux % 4 = 2 → s.chain.role = .leaving → s.chain.inbox = [] →
      Gives (.memberDeny l p) s (fun t => t.chain.role = .member)) ∧
    (s.InTurn l p 0x25 → Gives (.memberDeny l p) s (fun t => t = close (u.takeDeny p).rootJudge))) ∧
  (∀ (s : State) (first : Fin 36 × Packet) (more : List (Fin 36 × Packet)),
    let pkts := first :: more
    let takes (xs : List (Fin 36 × Packet)) : State := (xs.foldl (fun s x => s.deliverPkt x.1 x.2 none) s).rootJudge
    Gives (.memberReqAttach first more) s (fun t => t = close (takes (s.requestsOf 1 pkts))) ∧
    Gives (.memberReqDetach first more) s (fun t => t = close (takes (s.requestsOf 2 pkts))) ∧
    Gives (.memberReqTakeover first more) s (fun t => t = close (takes (s.requestsOf 3 pkts)))) ∧
  (∀ (s : State) (q : Path) (tag : BitVec 16) (rivals : List Rival), rivalsFollow q rivals = true → s.allReach q rivals = true →
    (s.dev.st = .safe → ∀ i ∈ [Instr.attach q ⟨tag, rivals⟩, .detach q ⟨tag, rivals⟩], Gives i s (OnlyChanges [.ports] s)) ∧
    (s.dev.st ≠ .safe → ∀ k ∈ [(1, Instr.attach q ⟨tag, rivals⟩, s.mayAttach, Role.joining), (2, Instr.detach q ⟨tag, rivals⟩, s.mayDetach, Role.leaving)],
      ((s.party q).privileged = true → s.chain.cmd.busy = false → k.2.2.1 = true →
        Gives k.2.1 s (fun t => t.chain.role = k.2.2.2 ∧ t.chain.cmd.running = some (k.1, q, tag.toNat) ∧
          t.chain.cmd.ShowsLast rivals .accepted q tag.toNat true)) ∧
      ((s.party q).privileged = true → (s.chain.cmd.busy = true ∨ k.2.2.1 = false) →
        Gives k.2.1 s (fun t => t.chain.role = s.chain.role ∧
          t.chain.cmd.ShowsLast rivals .conflict q tag.toNat s.chain.cmd.busy)) ∧
      ((s.party q).privileged = false →
        Gives k.2.1 s (fun t => t.chain.role = s.chain.role ∧
          t.chain.cmd.ShowsLast rivals .denied q tag.toNat s.chain.cmd.busy))))

/-- What time brings on the chain: a report is sent again, the settle window closes with a RETRY, heartbeats go out and are heard,
and a silent twin is arbitrated. The messages of a session handshake are taken on an UP link by the handshake's own work, and the
pairing bound leaves a twin that has said nothing UNPAIRED, and offers pairing anew as long as it stays so, once in every
PAIR_BOUND ticks (the model's reading, log entry 113). -/
def Obligations.ChainTimersAndHandshakes : Prop :=
  (∀ s : State,
    (let due (r : Nat × Nat) : Bool := decide (r.2 + s.plan.settle ≤ s.now)
      let again := s.chain.myReports.filter due
      let stamped := s.chain.myReports.map (fun r => if due r then (r.1, s.now) else r)
      s.running = true → again ≠ [] →
      Gives .reportResend s (fun t =>
        t = close (again.foldl (fun s r => s.report r.1) (s.modChain (fun c => { c with myReports := stamped }))).rootJudge ∧
        (s.chain.isRoot = false → s.chain.inbox = [] → t.chain.myReports = stamped))) ∧
    (∀ t0, s.chain.settleSince = some t0 → s.running = true → s.chain.isRoot = true → t0 + s.plan.settle ≤ s.now →
      Gives .settleWindowClose s (fun t => t = close (s.orderRetry s.chain.lastCause s.chain.lastOrigin))) ∧
    (s.running = true → s.chain.twin = .paired → s.chain.hbPeriod ≠ 0 → s.chain.hbSent + s.chain.hbPeriod ≤ s.now →
      Gives .heartbeatSend s (fun t => t.chain.hbSeq = min (s.chain.hbSeq + 1) (2 ^ 48 - 1) ∧ t.chain.hbSent = s.now)) ∧
    (∀ (l : Fin 36) p, s.InTurn l p 0x30 →
      (32 ≤ l.val → Gives (.heartbeat l p) s (fun t => t.chain.hbLast = s.now)) ∧
      (l.val < 32 → Gives (.heartbeat l p) s (fun t => t.chain.hbLast = s.chain.hbLast))) ∧
    (s.running = true → s.chain.twin = .paired → s.chain.role ≠ .outside → s.chain.role ≠ .joining → s.chain.hbPeriod ≠ 0 →
      s.chain.hbLast + s.chain.hbLimit * s.chain.hbPeriod ≤ s.now →
      Gives .twinSilent s (fun t => t = close (s.arbitrate 8)))) ∧
  (∀ (s : State) (l : Fin 36) (p : Packet),
    let u := s.collected l p
    let spoke := if twinPort l then u.modChain (fun c => { c with twinSpoke := true }) else u
    let ready (kind : Nat) : Prop := (s.link l).st = .up ∧ isPair p.type = true ∧ p.aux % 4 = kind ∧ pktOk p = true ∧
      ¬((s.link l).session = true ∧ (s.link l).peerStore = true)
    (ready 0 → Gives (.hello l p) s (fun t => t = close (spoke.takeHello l p.payload))) ∧
    (ready 1 → Gives (.reply l p) s (fun t => t = close (spoke.takeReply l p.payload))) ∧
    (ready 2 → Gives (.confirm l p) s (fun t => t = close (u.takeConfirm l p.payload))) ∧
    (ready 3 → Gives (.finish l p) s (fun t => t = close (u.takeFinish l p.payload))) ∧
    (s.inPhase 6 = true → s.rst.linksBegun = true → s.chain.twin = .pairing → s.chain.twinSpoke = false →
      s.rst.phaseSince + s.chain.pairBound ≤ s.now →
      Gives .pairBoundExpiry s (fun t => t.chain.twin = .unpaired ∧
        t = close ((s.modChain (fun c => { c with twin := .unpaired })).offerPair.settleLinks))) ∧
    (s.running = true → s.chain.twin = .unpaired → s.plan.twin ≠ none → s.chain.pairSince + s.chain.pairBound ≤ s.now →
      Gives .pairBoundExpiry s (fun t => t = close s.offerPair)))

/-! Secrecy. -/

/-- The commands that carry a token, once the token passes: each has its effect, is answered DONE (SHIP, FUSE_OWNER and
DEBUG_UNLOCK: ACCEPTED), consumes the path's nonce and, where no other command came in the handshake, is counted (for
DEBUG_UNLOCK the count is not said: halting may also count a change of session keys in the same bank). SHIP and FUSE_OWNER
begin the programming of the fuses, which ends with a device tick (the model's choice, log entry 142). KEY_LOAD, KEY_DELETE,
POLICY and ENDORSE are answered ACCEPTED while a power-failure flush holds up what they write (the model's reading, log
entry 148). -/
def Obligations.TokenCommandsTakeEffect : Prop :=
  ∀ (s : State) (p : Path) (tag : BitVec 16) (rivals : List Rival) (i : Fin 2), rivalsFollow p rivals = true →
    s.allReach p rivals = true →
    let tok := s.token i
    let body := tokBody tok
    let kept : Answer := if s.keepHeld.isSome then .accepted else .done
    let answered (a : Answer) (t : State) : Prop :=
      t.sec.cmd.ShowsLast rivals a p tag.toNat (a == .accepted) ∧ t.sec.nonces.get i = none ∧
        (rivals = [] → t.sec.bank = s.sec.bank.add 0 1)
    (s.TokenPasses 2 p i → Gives (.session p ⟨tag, rivals⟩) s (fun t =>
      t.session i = some ⟨tokRole tok, tokGrantId tok, ofLe (body.take 4), s.now⟩ ∧ answered .done t)) ∧
    (∀ bad : List BadCopy,
      (s.TokenPasses 4 p i → s.sec.entropyFail = false → Gives (.ship p ⟨tag, rivals, bad⟩) s (fun t =>
        t.rst.fusing = some ⟨4, p, tag.toNat, s.sec.draws, [], s.now, bad⟩ ∧ t.sec.draws = s.sec.draws + 2 ∧
          t.sec.lifecycle = s.sec.lifecycle ∧ t.sec.cmd.running = some (4, p, tag.toNat) ∧ answered .accepted t)) ∧
      (s.TokenPasses 5 p i → Gives (.fuseOwner p ⟨tag, rivals, bad⟩) s (fun t =>
        t.rst.fusing = some ⟨5, p, tag.toNat, s.sec.draws, tokSigner tok, s.now, bad⟩ ∧ t.sec.ownerHash = s.sec.ownerHash ∧
          t.sec.lifecycle = s.sec.lifecycle ∧ t.sec.cmd.running = some (5, p, tag.toNat) ∧ answered .accepted t))) ∧
    (s.TokenPasses 6 p i → ∀ key,
      Config.gcmOpen (hkdfExpand (hkdfExtract (slice tok 16 32) (Config.ecdh (s.sec.identity.getD 0) (slice body 4 97)))
        (ascii "tvx keyload" ++ leBytes 8 s.dev.serial.toNat ++ leBytes 1 (ofLe (body.take 1)) ++ leBytes 1 (ofLe (slice body 1 1))) 32)
        (zeros 12) (leBytes 1 (ofLe (body.take 1)) ++ leBytes 1 (ofLe (slice body 1 1))) (slice body 104 32) (slice body 136 16) = some key →
      Gives (.keyLoad p ⟨tag, rivals⟩) s (fun t =>
        (t.sec.slots.get (Fin.ofNat 16 (ofLe (body.take 1)))).use = ofLe (slice body 1 1) ∧ answered kept t)) ∧
    (s.TokenPasses 7 p i → Gives (.keyDelete p ⟨tag, rivals⟩) s (fun t =>
      (t.sec.slots.get (Fin.ofNat 16 (ofLe (body.take 1)))).use = 0 ∧
        (t.sec.slots.get (Fin.ofNat 16 (ofLe (body.take 1)))).sealed = [] ∧ answered kept t)) ∧
    (s.TokenPasses 8 p i → Gives (.policy p ⟨tag, rivals⟩) s (fun t =>
      t.sec.pending = ofLe (body.take 4) ∧ t.sec.minGrant = ofLe (slice body 4 4) ∧ t.sec.policy = s.sec.policy ∧ answered kept t)) ∧
    (s.TokenPasses 9 p i → Config.ecdsaVerify (tokSigner tok) (endorsed 0 s.dev.serial s.idKey) (slice body 4 96) = true →
      Gives (.endorse p ⟨tag, rivals⟩) s (fun t => t.sec.endorsement = some (slice body 4 96) ∧ answered kept t)) ∧
    (s.TokenPasses 10 p i → Gives (.debugUnlock p ⟨tag, rivals⟩) s (fun t =>
      t.sec.zeroising = true ∧ t.sec.signingOff = true ∧ t.sec.slots = Vector.replicate 16 KeySlot.zero ∧
        t.sec.cmd.ShowsLast rivals .accepted p tag.toNat true ∧ t.sec.nonces.get i = none))

/-- A token that fails a check, or comes while a command runs, has no effect but its answer: the nonce is consumed, the failure is
counted, and neither lifecycle, keys, policy, sessions nor DEBUG_OPEN changes. A command of SEC_CMD from any other path than
function 1 and the management port is DENIED, and changes none of these nor a nonce. -/
def Obligations.FailedTokensChangeNothing : Prop :=
  ∀ (s : State) (p : Path) (tag : BitVec 16) (rivals : List Rival) (i : Fin 2), rivalsFollow p rivals = true →
    s.allReach p rivals = true →
    let kept (t : State) : Prop :=
      t.sec.lifecycle = s.sec.lifecycle ∧ t.sec.slots = s.sec.slots ∧ t.sec.pending = s.sec.pending ∧
        t.sec.sessions = s.sec.sessions ∧ t.sec.debugOpen = s.sec.debugOpen ∧ OnlyChanges [.ports, .sec] s t
    let unchanged (a : Answer) (busy : Bool) (t : State) : Prop :=
      t.sec.cmd.ShowsLast rivals a p tag.toNat busy ∧ t.sec.nonces.get i = none ∧
        (rivals = [] → t.sec.bank = s.sec.bank.add 1 1) ∧ kept t
    let refused (op : Nat) (c : Instr) : Prop :=
      (∀ a, s.MayCommand p i → s.tokenCheck op i (s.token i) = some a → Gives c s (unchanged a false)) ∧
      (s.dev.st ≠ .safe → secPath p = some i → s.sec.cmd.busy = true → Gives c s (unchanged .conflict true))
    (s.dev.st ≠ .safe → secPath p = none →
      ∀ c ∈ [Instr.nonce p ⟨tag, rivals⟩, .session p ⟨tag, rivals⟩, .endSession p ⟨tag, rivals⟩, .ship p ⟨tag, rivals, []⟩,
        .fuseOwner p ⟨tag, rivals, []⟩, .keyLoad p ⟨tag, rivals⟩, .keyDelete p ⟨tag, rivals⟩, .policy p ⟨tag, rivals⟩,
        .endorse p ⟨tag, rivals⟩, .debugUnlock p ⟨tag, rivals⟩],
      Gives c s (fun t => t.sec.cmd.ShowsLast rivals .denied p tag.toNat s.sec.cmd.busy ∧ t.sec.deniedSeen = true ∧
        (rivals = [] → t.sec.nonces = s.sec.nonces ∧ t.sec.bank = s.sec.bank.add 2 1) ∧ kept t)) ∧
    refused 2 (.session p ⟨tag, rivals⟩) ∧ (∀ bad, refused 4 (.ship p ⟨tag, rivals, bad⟩)) ∧
      (∀ bad, refused 5 (.fuseOwner p ⟨tag, rivals, bad⟩)) ∧ refused 6 (.keyLoad p ⟨tag, rivals⟩) ∧
      refused 7 (.keyDelete p ⟨tag, rivals⟩) ∧ refused 8 (.policy p ⟨tag, rivals⟩) ∧ refused 9 (.endorse p ⟨tag, rivals⟩) ∧
      refused 10 (.debugUnlock p ⟨tag, rivals⟩)

/-- The commands without a token, and what time brings: a nonce is drawn for the path, a session ends by command while it is open
and by its length, the noise source's failure is kept, and an unlock completes with DEBUG_OPEN set and every memory zero. In
the safe state the security block does not answer. -/
def Obligations.SecrecyCommandsTakeEffect : Prop :=
  ∀ (s : State) (p : Path) (tag : BitVec 16) (rivals : List Rival) (i : Fin 2),
    (rivalsFollow p rivals = true → s.allReach p rivals = true → s.dev.st = .safe →
      Gives (.nonce p ⟨tag, rivals⟩) s (OnlyChanges [.ports] s)) ∧
    (rivalsFollow p rivals = true → s.allReach p rivals = true → s.MayCommand p i →
      (s.sec.entropyFail = false →
        Gives (.nonce p ⟨tag, rivals⟩) s (fun t =>
          t.sec.nonces.get i = some (drawBytes s.sec.draws 32) ∧ t.sec.draws = s.sec.draws + 1 ∧
            t.sec.cmd.ShowsLast rivals .done p tag.toNat false)) ∧
      (s.sec.entropyFail = true →
        Gives (.nonce p ⟨tag, rivals⟩) s (fun t => t.sec.nonces.get i = s.sec.nonces.get i ∧
          t.sec.cmd.ShowsLast rivals .failed p tag.toNat false)) ∧
      (s.sessionOpen i = true →
        Gives (.endSession p ⟨tag, rivals⟩) s (fun t => t.session i = none ∧
          t.sec.cmd.ShowsLast rivals .done p tag.toNat false)) ∧
      (s.sessionOpen i = false →
        Gives (.endSession p ⟨tag, rivals⟩) s (fun t => t.session i = s.session i ∧
          t.sec.cmd.ShowsLast rivals .conflict p tag.toNat false))) ∧
    (∀ x, secPath p = some i → s.session i = some x → x.since + x.ticks ≤ s.now →
      Gives (.sessionExpiry p) s (fun t => t.session i = none)) ∧
    Gives .entropyFail s (fun t => t.sec.entropyFail = true) ∧
    (s.sec.zeroising = true → Gives .unlockComplete s (fun t =>
      t.sec.zeroising = false ∧ t.sec.debugOpen = true ∧ t.loaded = false ∧ (∀ n, (t.stack n).arr = LineMem.zero) ∧
        (∀ n, (t.stc n).arr = LineMem.zero ∧ (t.stc n).key = none) ∧ ∀ c, (t.core c).store = []))

/-- Ingest and restores: a SUBMIT that may start takes the filling buffer into check, and one that may not is answered with the
reason; a buffer that opens ends its SUBMIT with DONE, one that does not with FAILED; a restored chunk with its proof is
offered to its place, under the source that brings it; a shard's bytes gather until their proof comes. That the last packet of a
chunk carries its proof is the model's choice (log entry 118), and so is that a chunk which nothing waits for is left alone
(log entry 146). -/
def Obligations.IngestAndRestoreRun : Prop :=
  (∀ (s : State) (p : Path) (chan : Fin 8) (tag : BitVec 16) (rivals : List Rival),
    s.dev.st ≠ .safe → rivalsFollow p rivals = true → s.allReach p rivals = true → s.mayIngest p = true →
    s.sec.ingestCmd.busy = false → ∀ e ch, s.channel chan = some (e, ch) →
      (s.submitRefused e ch = none →
        Gives (.submit p chan ⟨tag, rivals⟩) s (fun t =>
          t.sec.ingestCmd.ShowsLast rivals .accepted p tag.toNat true ∧
          t.sec.ingestCmd.running = some (chan.val, p, tag.toNat))) ∧
      (∀ a, s.submitRefused e ch = some a →
        Gives (.submit p chan ⟨tag, rivals⟩) s (fun t =>
          t.sec.ingestCmd.ShowsLast rivals a p tag.toNat false ∧ t.sec.channels = s.sec.channels))) ∧
  (∀ s : State,
    (∀ c p tag e ch b, s.sec.ingestCmd.running = some (c, p, tag) → s.channel c = some (e, ch) → ch.busy = some b →
      (s.openBuffer e b = none →
        Gives .ingestBufferReady s (fun t =>
          t.sec.ingestFailSeen = true ∧ t.sec.ingestCmd.Shows .failed p tag false ∧ t.sec.ingestCmd.running = none)) ∧
      (∀ plain, s.openBuffer e b = some plain →
        Gives .ingestBufferReady s (fun t =>
          t.sec.ingestCmd.Shows .done p tag false ∧ t.sec.ingestCmd.running = none))) ∧
    (∀ proof src, s.running = true →
      Gives (.restoreChunk proof src) s (fun t => t = close (s.offerChunk proof (s.restoredBytes proof src) (fromStore src)))) ∧
    (∀ (l : Fin 36) pkt, s.InTurn l pkt 0x32 →
      Gives (.shard l pkt none) s (fun t => t.chain.shardRx = s.chain.shardRx ++ pkt.payload)) ∧
    (∀ (l : Fin 36) pkt proof, s.InTurn l pkt 0x32 →
      Gives (.shard l pkt (some proof)) s (fun t => t = close ((s.atTurn l pkt).takeShard pkt (some proof)) ∧
        t.chain.shardRx = [])))

/-! Resets and bring-up. -/

/-- The sources of a reset: each recognises a reset in its scope, when its condition first holds. -/
def Obligations.ResetSourcesAreRecognised : Prop :=
  ∀ s : State,
    Gives .powerOnReset s (fun t => t.Recognised 0 .cold) ∧
    (s.ports.resetLow = false → Gives .pinReset s (fun t => t.ports.resetLow = true ∧ t.Recognised 1 .cold)) ∧
    (s.ports.twinInLow = false → Gives .twinReset s (fun t => t.ports.twinInLow = true ∧ t.Recognised 4 .warm)) ∧
    (s.running = true → s.rst.wdt ≠ 0 → s.rst.wdtSince + s.rst.wdt ≤ s.now →
      Gives .watchdogExpiry s (fun t => t.Recognised 5 .warm)) ∧
    (∀ sensor temp, 880 ≤ temp → s.rst.heldThermal = false →
      Gives (.thermalTrip sensor temp) s (fun t => t.rst.heldThermal = true ∧ t.Recognised 6 .cold)) ∧
    Gives .supplyMonitorReset s (fun t => t.rst.held = true ∧ t.Recognised 7 .cold) ∧
    (∀ scope, s.sec.debugOpen = true → Gives (.privateTestInstruction (.reset scope)) s (fun t => t.Recognised 9 scope)) ∧
    (∀ t0, s.rst.failedWait = some t0 → s.rst.taking = none → t0 + 2 ^ 24 ≤ s.now →
      Gives .failedBringUpWaitExpiry s (fun t => t.Recognised 8 s.rst.cur.scope)) ∧
    (s.ports.twinInLow = true → Gives (.resetRelease true) s (fun t => t.ports.twinInLow = false)) ∧
    (s.ports.resetLow = true → Gives (.resetRelease false) s (fun t => t.ports.resetLow = false)) ∧
    (∀ temps : Vector Int 12, s.rst.heldThermal = true → temps.all (fun t => t < 760) = true →
      Gives (.thermalTripRelease temps) s (fun t => t.rst.heldThermal = false))

/-- Reset commands of a party that may give them, while no reset is taken: ACCEPTED, and a reset of their scope is recognised;
while one is taken, and CORE in a bring-up or in the safe state: STATE_CONFLICT; from any other party: DENIED. The other
commands of the handshake are answered STATE_CONFLICT behind it (the model's choice where one of them lacks the right, log
entry 155). That a core may command a reset, and that a command of any path but the management port shows as the Host's, is the
model's choice too (log entry 125). -/
def Obligations.ResetCommandsAnswer : Prop :=
  ∀ (s : State) (p : Path) (tag : BitVec 16) (rivals : List Rival), rivalsFollow p rivals = true → s.allReach p rivals = true →
    let run (c : Instr) (scope : Scope) : Prop :=
      let barred : Prop := s.rst.taking.isSome = true ∨ (scope = .core ∧ (s.dev.st = .bringUp ∨ s.dev.st = .safe))
      (s.mayReset p = true → ¬barred →
        Gives c s (fun t => t.rst.cmd.ShowsLast rivals .accepted p tag.toNat true ∧ t.Recognised (resetSource p) scope)) ∧
      (s.mayReset p = true → barred →
        Gives c s (fun t => t.rst.cmd.ShowsLast rivals .conflict p tag.toNat s.rst.cmd.busy ∧ t.rst.taking = s.rst.taking)) ∧
      (s.mayReset p = false →
        Gives c s (fun t => t.rst.cmd.ShowsLast rivals .denied p tag.toNat s.rst.cmd.busy ∧ t.rst.taking = s.rst.taking))
    run (.coldReset p ⟨tag, rivals⟩) .cold ∧ run (.warmReset p ⟨tag, rivals⟩) .warm ∧ run (.coreReset p ⟨tag, rivals⟩) .core

/-- RESET_TAKE applies the reset that was recognised, once a running device has halted as a lost device where its source asks for
that (a device whose links still wait for its report to leave stands there: the model's reading, log entry 123): the device is
in BRING_UP in phase 1, the command register is idle, and in every scope the core stores, contexts, vanes, feeders, banks and
queues, the sessions and the stash tier are cleared, so that no plan operation runs. A cold or warm scope also forgets the plan
and the counters of the cores; a core scope keeps the plan, the step, the counters and the stacks. -/
def Obligations.ResetIsTaken : Prop :=
  ∀ (s : State) (k : Taking), s.rst.taking = some k → k.applied = false → (s.rst.fusing ≠ none → k.cut = true) →
    let u : State := if k.halts && s.running then close (s.haltSteps 7) else s
    (k.halts = true → u.chain.lowering = true → exec .resetTake s = .next u) ∧
    ((k.halts = true → u.chain.lowering = false) → Gives .resetTake s (fun t =>
      t.dev.st = .bringUp ∧ t.dev.phase = 1 ∧ t.rst.cmd = CmdStatus.idle ∧ t.pending = s.pending ∧ t.dev.serial = s.dev.serial ∧
        t.running = false ∧
        (∀ c k, (t.ctx c k).st = .idle ∧ (t.ctx c k).defined = false ∧ (t.ctx c k).queue = [] ∧ (t.ctx c k).wait = none) ∧
        (∀ c, (t.core c).store = [] ∧ (t.core c).poison = [] ∧ (t.core c).rings = [] ∧ (t.core c).flights = [] ∧
          (t.core c).vec = none ∧ (t.core c).copy = none ∧ (t.core c).eddy.run = none ∧ (t.core c).veer.run = none) ∧
        (∀ v, (t.vane v).count = 0 ∧ (t.vane v).waiters = []) ∧
        (∀ g, (t.gale g).run = none ∧ (t.gale g).opened = none ∧ (t.gale g).row = Feeder.none ∧ (t.gale g).col = Feeder.none ∧
          (t.gale g).bank0 = AccBank.none ∧ (t.gale g).bank1 = AccBank.none ∧ (t.gale g).drainOrder = []) ∧
        (∀ e, (t.drt e).queue = []) ∧ (∀ n, (t.fhn n).running = [] ∧ (t.fhn n).due = []) ∧ t.slip.chunks = [] ∧
        (∀ i, t.session i = none) ∧ (∀ l, (t.link l).session = false) ∧
        (∀ n, (t.stc n).arr = LineMem.zero ∧ (t.stc n).key = none) ∧
        (k.scope ≠ .core → (∀ c, t.core c = Core.zero) ∧ t.vio = VioLog.zero ∧ t.loaded = false) ∧
        (k.scope = .cold → t.dev.tick = 0) ∧
        (∃ q, t.rst.taking = some q ∧ scopeRank k.scope ≤ scopeRank q.scope ∧
          (q.scope = .core → t.loaded = u.loaded ∧ t.plan = u.plan ∧ t.step = u.step ∧ t.mem = u.mem ∧ t.vio = u.vio ∧
            ∀ c, (t.core c).bank = (u.core c).bank ∧ (t.core c).vaneBank = (u.core c).vaneBank))))

/-- Bring-up, phase by phase, where nothing fails: each phase does its work and the next one begins; the last one runs the plan.
Phase 1 counts the reset; a core reset's bring-up goes on with phase 5, and with HALTED where DEBUG_OPEN stops it. Phase 2
reads the fuses and requests the core voltage. Phase 3 samples the straps after a power-on reset or where their latch was lost,
and leads to phase 4, or to the safe state, to phase 5 for a pending zeroisation, or to HALTED under DEBUG_OPEN. Phase 4 takes
the plan of an image that passes, from a configuration memory, the host or the twin (how phase 4's twin image is offered is the
model's choice, log entry 117; what the image's body holds is handed in beside its bytes, log entry 6). Phase 5 trains the
stacks, fills them with zeros in a cold bring-up, and trains the stash tier under a new key. Phase 6 ends with the last handshake,
phase 7 with the self-test, phase 8 with the fit check. -/
def Obligations.BringUpPhasesRun : Prop :=
  ∀ s : State,
    (∀ (env : Phase1Env) k, s.phase1Due = some k → env.backupOk = true →
      (s.rst.safe = false → s.rst.fails < 32 →
        (k.scope ≠ .core → Gives (.phase1 env) s (fun t =>
          t.dev.st = .bringUp ∧ t.dev.phase = 2 ∧ t.rst.cur = k ∧ t.rst.lastSource = k.source ∧
            t.rst.count = min (s.rst.count + 1) 0xFFFFFFFF ∧ t.rst.cause = s.rst.cause ||| k.sources)) ∧
        (k.scope = .core → s.sec.zeroiseFlag = false →
          (s.unlocked = false → Gives (.phase1 env) s (fun t => t.dev.st = .bringUp ∧ t.dev.phase = 5 ∧ t.rst.cur = k)) ∧
          (s.unlocked = true → Gives (.phase1 env) s (fun t => t.dev.st = .halted ∧ t.rst.cur = k)))) ∧
      (s.rst.safe = true → k.sources.getLsbD 0 = false →
        Gives (.phase1 env) s (fun t => t.dev.st = .bringUp ∧ t.dev.phase = 2 ∧ t.rst.safe = true))) ∧
    (∀ env : Phase2Env, s.inPhase 2 = true → (s.sec.fuses.read env.badCopies).readable = true → env.bootRomOk = true →
      env.entropyOk = true →
      Gives (.phase2 env) s (fun t => t.dev.phase = 3 ∧ t.sec.seeded = true ∧ ∃ v, t.hlt.avs = some (v, s.now))) ∧
    (∀ straps : Straps, s.inPhase 3 = true →
      let samples : Prop := s.rst.cur.sources.getLsbD 0 = true ∨ s.rst.strapsLatched = false
      let leads (t : State) : Prop :=
        (s.rst.safe = true → t.dev.st = .safe) ∧
        (s.rst.safe = false → s.sec.zeroiseFlag = true → t.dev.st = .bringUp ∧ t.dev.phase = 5) ∧
        (s.rst.safe = false → s.sec.zeroiseFlag = false → s.unlocked = true → t.dev.st = .halted) ∧
        (s.rst.safe = false → s.sec.zeroiseFlag = false → s.unlocked = false → t.dev.st = .bringUp ∧ t.dev.phase = 4)
      (samples → straps.paceSel ≠ 2 →
        Gives (.phase3 straps) s (fun t => t.rst.straps = straps ∧ t.rst.strapsLatched = true ∧ leads t)) ∧
      (¬samples → s.rst.straps.paceSel ≠ 2 → Gives (.phase3 straps) s (fun t => t.rst.straps = s.rst.straps ∧ leads t))) ∧
    (∀ env : Phase4Env, s.inPhase 4 = true →
      let u := (s.modSec (fun x => { x with policy := x.pending })).modRst (fun r =>
        { r with fallback := decide (16 ≤ r.fails), bootSrc := s.rst.source })
      let taken (t : State) : Prop := t.dev.phase = 5 ∧ t.sec.policy = s.sec.pending ∧ t.loaded = true ∧ t.plan = env.body
      (∀ bytes image, s.rst.source < 2 → env.memory = some bytes → memoryImage bytes = some image → u.sealCheck image = 0 →
        Gives (.phase4 env) s taken) ∧
      (∀ n, s.rst.source = 2 → s.rst.staging = some n → imageLengthOk n = true →
        u.sealCheck (u.peek (storeBase 0) n) = 0 → Gives (.phase4 env) s taken) ∧
      (s.rst.source = 3 → s.sec.entropyFail = false → s.rst.linksBegun = true → s.chain.shardRx ≠ [] →
        imageLengthOk s.chain.shardRx.length = true → u.endBoot.sealCheck s.chain.shardRx = 0 → Gives (.phase4 env) s taken) ∧
      (s.rst.source = 3 → s.sec.entropyFail = false → s.rst.linksBegun = false →
        Gives (.phase4 env) s (fun t => t = close (u.beginBoot env.failedLinks)))) ∧
    (∀ env : Phase5Env, s.inPhase 5 = true → s.sec.entropyFail = false → s.sec.zeroiseFlag = false →
      Gives (.phase5 env) s (fun t => t.dev.phase = 6 ∧ t.sec.draws = s.sec.draws + 1 ∧
        (∀ n, (t.stc n).arr = LineMem.zero ∧ (t.stc n).keyReady = true ∧ (t.stc n).key = some s.sec.draws) ∧
        t.dev.stashDevices = stashDevicesOf (fun d => env.fitted.any (fun x => x.val == d) && !env.failedStash.any (fun x => x.val == d)) ∧
        (s.rst.cur.scope = .core → t.mem = s.mem) ∧
        (s.rst.cur.scope ≠ .core → ∀ n, (t.stack n).selfRefresh = false ∧ (t.stack n).failed = env.failedStacks.contains n ∧
          (t.stack n).trained = !env.failedStacks.contains n ∧
          (s.rst.cur.scope = .cold → n ∉ env.failedStacks → (t.stack n).arr = LineMem.zero) ∧
          (s.rst.cur.scope = .warm → (t.stack n).arr = (s.stack n).arr)))) ∧
    (∀ env : Phase5Env, s.inPhase 5 = true → s.sec.entropyFail = false → s.sec.zeroiseFlag = true →
      Gives (.phase5 env) s (fun t => t.dev.st = .halted ∧ t.sec.debugOpen = true ∧ t.sec.zeroiseFlag = false)) ∧
    (∀ env : Phase6Env, s.inPhase 6 = true → s.rst.linksBegun = false → (s.sec.entropyFail = false ∨ s.usedLinks = []) →
      Gives (.phase6 env) s (fun t => t = close (s.beginLinks env).settleLinks ∧
        ((s.beginLinks env).linksSettled = false → t.dev.phase = 6 ∧ t.rst.linksBegun = true) ∧
        ((s.beginLinks env).linksSettled = true → (s.beginLinks env).inPhase 6 = true → t.dev.phase = 7) ∧
        (s.usedLinks = [] → (∀ l, (s.link l).used = false) → s.plan.twin = none → s.coreBringUp = false → t.dev.phase = 7))) ∧
    (∀ env : Phase6Env, s.inPhase 6 = true → s.rst.linksBegun = true →
      Gives (.phase6 env) s (fun t => (s.linksSettled = true → t.dev.phase = 7) ∧ (s.linksSettled = false → t = close s))) ∧
    (∀ env : Phase7Env, s.inPhase 7 = true → (s.hlt.measure env.meas s.rst.count s.now s.step true).late = false →
      Gives (.phase7 env) s (fun t => t.dev.phase = 8 ∧ (∀ g, (t.gale g).stDone = true) ∧ ∀ c, (t.core c).health = .ok)) ∧
    (s.inPhase 8 = true → s.firstFailure = none →
      Gives .phase8 s (fun t => t.dev.phase = 9 ∧ t.fit = (0, 0, 0, 0, true))) ∧
    (s.inPhase 9 = true → Gives .phase9 s (fun t =>
      t = close (((s.modDev (fun d => { d with st := .run })).modRst (fun r => { r with fails := 0, wdtSince := s.now })).outcome
        25 0).startPlan))

/-- Bring-up, where something fails: the failure's phase and code are held and the failure is counted up to 255; the device then
waits for the reset that follows a failed bring-up, but for an unreadable fuse or a failed boot ROM, which enter the safe
state. -/
def Obligations.BringUpFailuresAreHeld : Prop :=
  ∀ s : State,
    let failed (phase code : Nat) (t : State) : Prop :=
      t.rst.failPhase = phase ∧ t.rst.failCode = code ∧ t.rst.fails = min 255 (s.rst.fails + 1) ∧
        ((code = 1 ∨ code = 2) → t.dev.st = .safe ∧ t.dev.phase = phase) ∧
        (code ≠ 1 → code ≠ 2 → t.rst.failedWait = some s.now ∧ t.dev.st = s.dev.st)
    (∀ env : Phase2Env, s.inPhase 2 = true → (s.sec.fuses.read env.badCopies).readable = false →
      Gives (.phase2 env) s (failed 2 2)) ∧
    (∀ env : Phase2Env, s.inPhase 2 = true → (s.sec.fuses.read env.badCopies).readable = true → env.bootRomOk = false →
      Gives (.phase2 env) s (failed 2 1)) ∧
    (∀ env : Phase2Env, s.inPhase 2 = true → (s.sec.fuses.read env.badCopies).readable = true → env.bootRomOk = true →
      env.entropyOk = false → Gives (.phase2 env) s (failed 2 3)) ∧
    (∀ straps : Straps, s.inPhase 3 = true → (s.rst.cur.sources.getLsbD 0 = true ∨ s.rst.strapsLatched = false) →
      straps.paceSel = 2 → Gives (.phase3 straps) s (failed 3 4)) ∧
    (∀ env : Phase4Env, s.inPhase 4 = true →
      let u := (s.modSec (fun x => { x with policy := x.pending })).modRst (fun r =>
        { r with fallback := decide (16 ≤ r.fails), bootSrc := s.rst.source })
      let seals (image : List Byte) (v : State) : Prop := v.sealCheck image ≠ 0 →
        Gives (.phase4 env) s (fun t => failed 4 6 t ∧ t.sec.planCheck = v.sealCheck image)
      (s.rst.source < 2 → env.memory.bind memoryImage = none → Gives (.phase4 env) s (failed 4 5)) ∧
      (∀ image, s.rst.source < 2 → env.memory.bind memoryImage = some image → seals image u) ∧
      (∀ n, s.rst.source = 2 → s.rst.staging = some n →
        (imageLengthOk n = false → Gives (.phase4 env) s (failed 4 5)) ∧
        (imageLengthOk n = true → seals (u.peek (storeBase 0) n) u)) ∧
      (s.rst.source = 3 → s.sec.entropyFail = true → Gives (.phase4 env) s (failed 4 3)) ∧
      (s.rst.source = 3 → s.sec.entropyFail = false → s.rst.linksBegun = true → s.chain.shardRx ≠ [] →
        (imageLengthOk s.chain.shardRx.length = false → Gives (.phase4 env) s (failed 4 5)) ∧
        (imageLengthOk s.chain.shardRx.length = true → seals s.chain.shardRx u.endBoot))) ∧
    (∀ env : Phase5Env, s.inPhase 5 = true → s.sec.entropyFail = true → Gives (.phase5 env) s (failed 5 3)) ∧
    (∀ env : Phase6Env, s.inPhase 6 = true → s.rst.linksBegun = false → s.sec.entropyFail = true → s.usedLinks ≠ [] →
      Gives (.phase6 env) s (failed 6 3)) ∧
    (∀ env : Phase6Env, ∀ l : Fin 36, s.inPhase 6 = true → s.rst.linksBegun = false → s.sec.entropyFail = false →
      s.coreBringUp = false → s.plan.twin.isSome = true → 32 ≤ l.val → s.plan.usedLinks.getLsbD l.val = true →
      env.failedLinks.contains l = false → env.sameSide = true →
      Gives (.phase6 env) s (fun t => failed 6 8 t ∧ t.chain.twin = .refused)) ∧
    (s.inPhase 8 = true → ∀ q, s.firstFailure = some q → Gives .phase8 s (failed 8 9)) ∧
    (∀ b, s.phaseBound = some b → s.inPhase s.dev.phase = true → s.rst.phaseSince + b ≤ s.now →
      Gives .phaseBoundExpiry s (failed s.dev.phase s.boundCode)) ∧
    (∀ k, s.phase1Due = some k → s.rst.phaseSince + 2 ^ 20 ≤ s.now →
      Gives .phaseBoundExpiry s (fun t => t.rst.failPhase = 1 ∧ t.rst.failCode = 0x0A ∧ t.rst.failedWait = some s.now ∧
        t.rst.cur = k))

/-! Health and records. -/

/-- The health block: a measurement starts at a wrap and completes with its margins, a voltage settles or times out, and a
sensor warns once until it has fallen 5 °C below. -/
def Obligations.HealthCommandsRun : Prop :=
  ∀ s : State,
    (s.hlt.wraps < s.now / 2 ^ 32 → s.hlt.measuring = false →
      Gives .measurementStart s (fun t => t.hlt.measuring = true ∧ t.hlt.wraps = s.now / 2 ^ 32)) ∧
    (∀ m : Measurement, s.hlt.measuring = true → (s.hlt.measure m s.rst.count s.now s.step false).late = false →
      Gives (.measurementComplete m) s (fun t => t.hlt = s.hlt.measure m s.rst.count s.now s.step false)) ∧
    (∀ m : Measurement, s.hlt.measuring = true → (s.hlt.measure m s.rst.count s.now s.step false).late = true →
      Gives (.measurementComplete m) s (fun t => t.Recognised 8 .warm ∧ t.hlt.fresh = false)) ∧
    (∀ vread target since, s.hlt.avs = some (target, since) → vread ≤ target + 5 → target ≤ vread + 5 →
      Gives (.avsSettled vread) s (fun t => t.hlt.vset = target ∧ t.hlt.avs = none)) ∧
    (∀ vread target since, s.hlt.avs = some (target, since) → since + s.plan.health.avsSettle ≤ s.now →
      Gives (.avsSettleTimeout vread) s (fun t =>
        t.hlt.avsFailSeen = true ∧ t.hlt.avs = none ∧ t.hlt.vset = s.hlt.vset ∧ t.hlt.bank = s.hlt.bank.add 3 1)) ∧
    (∀ sensor temp, s.loaded = true → s.hlt.warned.get sensor = false → (s.plan.health.tempWarn : Int) ≤ temp →
      Gives (.tempWarn sensor temp) s (fun t =>
        t.hlt.warned.get sensor = true ∧ t.hlt.tempWarnSeen = true ∧ t.hlt.bank = s.hlt.bank.add 6 1)) ∧
    (∀ sensor temp, s.hlt.warned.get sensor = true → exec (.tempWarn sensor temp) s = .next s) ∧
    (∀ sensor temp, s.hlt.warned.get sensor = true → temp + 40 ≤ (s.plan.health.tempWarn : Int) →
      Gives (.tempWarnRearm sensor temp) s (fun t => t.hlt.warned.get sensor = false))

/-- The recorder: the allowance rises by 1 each 256 device ticks up to 2^24, and where records were suppressed and it
rises above 0 the SUPPRESSED record is made at once, which counts them and takes 1 of the allowance (it waits like any record while
its SEQ would reach the mark); a routine flush keeps the oldest unkept record; a power failure starts a fault flush, which holds up the other writes of
the keep store, and its end keeps every record that the ring holds and lets them begin; a mark that was written comes into force
and the records that waited for it are made, but not while a power-failure flush holds it up (the model's reading, log entry
148). -/
def Obligations.RecorderRuns : Prop :=
  ∀ s : State, s.RecordsMade → s.evr.next ≤ seqMax →
    (s.evr.rose + 256 ≤ s.now → (s.evr.suppressed = 0 ∨ s.evr.allowance < 0) →
      Gives .recordAllowanceRise s (fun t =>
        t.evr.allowance = min (s.evr.allowance + 1) (2 ^ 24) ∧ t.evr.rose = s.evr.rose + 256 ∧ t.evr.next = s.evr.next ∧
          t.evr.suppressed = s.evr.suppressed)) ∧
    (s.evr.rose + 256 ≤ s.now → 0 < s.evr.suppressed → 0 ≤ s.evr.allowance →
      let r : RecReq := ⟨0x12, none, zeros 4 ++ leBytes 8 s.evr.suppressed ++
        suppressTypes.flatMap (fun k => leBytes 2 (min 0xFFFF ((Tbl.get? s.evr.suppressedBy k).getD 0)))⟩
      Gives .recordAllowanceRise s (fun t =>
        t.evr.allowance = min (s.evr.allowance + 1) (2 ^ 24) - 1 ∧ t.evr.rose = s.evr.rose + 256 ∧
          t.evr.suppressed = 0 ∧ t.evr.suppressedBy = [] ∧
          (s.evr.next < s.evr.mark → s.evr.waiting = [] →
            t.evr.next = s.evr.next + 1 ∧ Tbl.get? t.evr.ring s.evr.next = some (recBytes s.evr.next s.rst.count s.now r)) ∧
          ((s.evr.mark ≤ s.evr.next ∨ s.evr.waiting ≠ []) →
            t.evr.next = s.evr.next ∧ t.evr.waiting = s.evr.waiting ++ [r]))) ∧
    (∀ n rest, s.evr.unkept = n :: rest → s.evr.flushing = false → Gives .routineFlush s (fun t =>
      t = close (s.modEvr (·.keep n)))) ∧
    (s.evr.flushing = true → Gives .faultFlushEnd s (fun t => t.evr.flushing = false ∧ t.keepHeld = none ∧
      t = close (s.modEvr (fun e => { e.unkept.foldl Evr.keep e with flushing := false })).releaseKeep)) ∧
    (∀ m, s.evr.newMark = some m → s.keepHeld = none → Gives .seqMarkWriteEnd s (fun t =>
      t = close ((s.modEvr (fun e => e.takeMark s.rst.count s.now m)).atRecordLimit s.evr.next) ∧
        (s.evr.waiting = [] → s.evr.next < m → t.evr.mark = m ∧ t.evr.waiting = []))) ∧
    (s.keepHeld.isSome = true → exec .seqMarkWriteEnd s = .next s) ∧
    (s.ports.pwrFailLow = false → Gives .pwrFail s (fun t =>
      t.ports.pwrFailLow = true ∧ t.evr.flushing = true ∧ t.keepHeld.isSome = true)) ∧
    (s.ports.pwrFailLow = true → Gives .pwrFailRise s (fun t => t.ports.pwrFailLow = false))

/-! Ports. -/

/-- Register reads by a path that reaches the device: one that may read is answered with the register's value, a low half latches
the high half for the path, and a high half reads what its path last latched; one that the secrecy table denies is answered
with 0 and is no violation; an unmapped offset and, on a path with widths, a width other than 4 bytes are violations of kind
REG_FORM, answered with 0. That the management port answers for a block that is silent in the safe state as for a violation, which is not
captured, is the model's reading (log entry 16), as is a low or high read of any register (log entry 24). -/
def Obligations.RegisterReadsAnswer : Prop :=
  ∀ (s : State) (p : Path) (off n : Nat), s.portReaches p = true →
    let u := s.transfer p none
    let four : Prop := n = 4 ∨ p = .mb
    let gives (r : Resp) (bs : List Byte) (t : State) : Prop :=
      assoc t.ports.resp p = some (r, bs) ∧ t.ports.mbBank = if p = .mb then s.ports.mbBank.add 0 1 else s.ports.mbBank
    let violates (t : State) : Prop :=
      t.vio.count = s.vio.count + 1 ∧ t.vio.valid = true ∧
        (s.vio.valid = false → t.vio.kind = 0x07 ∧ t.vio.addr = ctlBase + off ∧ t.vio.dev = s.self) ∧
        OnlyChanges [.ports, .vio] s t
    let reads (P : State → Prop) : Prop :=
      (four → Gives (.loRead p ⟨off, n⟩) s P ∧ Gives (.hiRead p ⟨off, n⟩) s P) ∧ (p = .mb → Gives (.mbRegRead off) s P)
    (∀ r, s.shut p off = false → u.register p off = some r → u.mayRead p r.cls = true →
      reads (fun t => gives .ok (leBytes 4 (u.readWord p off r)) t ∧ OnlyChanges [.ports] s t ∧
        (r.half = .lo → assoc t.ports.latch (p, off) = some (BitVec.ofNat 32 (r.val / 2 ^ 32)))) ∧
      (r.half ≠ .hi → u.readWord p off r = r.val % 2 ^ 32) ∧
      (r.half = .hi → ∀ h, assoc s.ports.latch (p, off - 4) = some h → u.readWord p off r = h.toNat)) ∧
    (∀ r, s.shut p off = false → u.register p off = some r → u.mayRead p r.cls = false →
      reads (fun t => gives .denied (zeros 4) t ∧ t.vio = s.vio ∧ t.sec.deniedSeen = true ∧
        t.sec.bank = s.sec.bank.add 2 1 ∧ OnlyChanges [.ports, .sec] s t)) ∧
    (s.shut p off = false → u.register p off = none →
      reads (fun t => gives .violation (zeros 4) t ∧ violates t)) ∧
    (n ≠ 4 → p ≠ .mb →
      let P (t : State) : Prop := gives .violation (zeros n) t ∧ violates t
      Gives (.loRead p ⟨off, n⟩) s P ∧ Gives (.hiRead p ⟨off, n⟩) s P) ∧
    (s.shut p off = true → reads (fun t => gives .violation (zeros 4) t ∧ OnlyChanges [.ports] s t))

/-- Register writes by a path that reaches the device. A whole word by a path that may write changes its register, and the path
is answered; the named rows are such writes at their own offsets; EVR_CURSOR, a pair written low then high, takes both at
once. A command register takes the opcode and the TAG of the word as the command's own row does. A write that the secrecy
table denies changes no register and is no violation; an unmapped offset, a width other than 4 bytes and, on PCIe, wrong byte
enables are violations of kind REG_FORM and write nothing. A row comparison of a cross-check that falls in the handshake of the
write comes after it: a MISMATCH that it finds stays set with the old capture though the write cleared it. The answer for a block
that is silent in the safe state is the model's reading (log entry 16), and that the management port has no byte enables, and how
the comparison comes with the write, its choice (log entries 17, 151). -/
def Obligations.RegisterWritesLand : Prop :=
  (∀ (s : State) (p : Path) (off : Nat) (v : Word), s.portReaches p = true →
    let forms (P : State → Prop) : Prop :=
      (∀ f : Form, f.whole = true ∨ p = .mb → f.met = none →
        Gives (.registerWrite p off v f) s P ∧ Gives (.loWrite p off ⟨v, f⟩) s P ∧ Gives (.hiWrite p off ⟨v, f⟩) s P) ∧
      (p = .mb → Gives (.mbRegWrite off v) s P)
    let rows (P : Word → State → Prop) : Prop :=
      forms (P v) ∧
      (off = 0x050010 → Gives (.vioStatusClear p v) s (P v)) ∧
      (∀ fn : Fin 2, off = 0x600000 + 4 * fn.val → Gives (.hpApertureWrite p fn v) s (P v)) ∧
      (∀ c : Fin 4, off = 0x107010 + 0x10000 * c.val → Gives (.veerHistSelWrite p c v) s (P v)) ∧
      (off = 0x010020 → Gives (.rstHistSelWrite p v) s (P v)) ∧
      (off = 0x030014 → Gives (.hltCanarySelWrite p v) s (P v)) ∧
      (off = 0x000028 →
        Gives (.perfClearCores p) s (P 0x01) ∧ Gives (.perfClearDraught p) s (P 0x02) ∧ Gives (.perfClearMemory p) s (P 0x04) ∧
        Gives (.perfClearStash p) s (P 0x08) ∧ Gives (.perfClearLinks p) s (P 0x10) ∧ Gives (.perfClearSlipstream p) s (P 0x20) ∧
        Gives (.perfClearViolations p) s (P 0x40))
    let answers (r : Resp) (t : State) : Prop :=
      assoc t.ports.resp p = some (r, []) ∧ (p = .mb → t.ports.mbLast = r.status)
    let violates (t : State) : Prop :=
      t.vio.count = s.vio.count + 1 ∧ t.vio.valid = true ∧
        (s.vio.valid = false → t.vio.kind = 0x07 ∧ t.vio.addr = ctlBase + off ∧ t.vio.dev = s.self) ∧
        OnlyChanges [.ports, .vio] s t
    (∀ r, s.shut p off = false → s.register p off = some r → s.mayWrite p r.cls = true →
      r.cls ≠ .rstCmd → r.cls ≠ .secCmd → r.cls ≠ .ingestCmd → r.cls ≠ .chainCmd →
      let u := s.respond p .ok []
      rows (fun w t => answers .ok t ∧
        t = close ((if r.half = .word then u.store p off w else u.storeHalf p off w).transfer p (some .ok)))) ∧
    (∀ r, s.shut p off = false → s.register p off = some r → s.mayWrite p r.cls = false →
      r.cls ≠ .rstCmd → r.cls ≠ .secCmd → r.cls ≠ .ingestCmd → r.cls ≠ .chainCmd →
      rows (fun _ t => answers .denied t ∧ t.vio = s.vio ∧ t.sec.deniedSeen = true ∧ OnlyChanges [.ports, .sec] s t)) ∧
    (∀ r, s.shut p off = false → s.register p off = some r →
      let u := s.respond p (s.verdict p off true) []
      let becomes (x : State) : Prop := forms (fun t => t = close (x.transfer p (some (s.verdict p off true))))
      (r.cls = .rstCmd → becomes (u.writeRstCmd p v)) ∧ (r.cls = .secCmd → becomes (u.writeSecCmd p v)) ∧
      (r.cls = .ingestCmd → becomes (u.writeIngestCmd p v)) ∧ (r.cls = .chainCmd → becomes (u.writeChainCmd p off v))) ∧
    (s.shut p off = false → s.register p off = none →
      rows (fun _ t => answers .violation t ∧ violates t)) ∧
    (∀ f : Form, f.whole = false → p ≠ .mb → f.met = none →
      let P (t : State) : Prop := assoc t.ports.resp p = some (.violation, []) ∧ violates t
      Gives (.registerWrite p off v f) s P ∧ Gives (.loWrite p off ⟨v, f⟩) s P ∧ Gives (.hiWrite p off ⟨v, f⟩) s P) ∧
    (s.shut p off = true → rows (fun _ t => answers .violation t ∧ OnlyChanges [.ports] s t)) ∧
    (∀ (f : Form) (w : Fin 8) (u : State), exec (.registerWrite p off v { f with met := none }) s = .next u →
      let both (P : State → Prop) : Prop :=
        Gives (.registerWrite p off v { f with met := some w }) s P ∧
          Gives (.loWrite p off ⟨v, { f with met := some w }⟩) s P ∧ Gives (.hiWrite p off ⟨v, { f with met := some w }⟩) s P
      ((u.gale w).check = none → both (fun t => t = u)) ∧
      (∀ x r, (u.gale w).check = some r → exec (.xchkRowCompare w) u = .next x →
        ((s.gale r.owner).mismatch = true → (x.gale r.owner).mismatch = true → both (fun t =>
          (t.gale r.owner).mismatch = true ∧ (t.gale r.owner).mmValid = (s.gale r.owner).mmValid ∧
            (t.gale r.owner).mmAddr = (s.gale r.owner).mmAddr ∧ (t.gale r.owner).mmRow = (s.gale r.owner).mmRow ∧
            (t.gale r.owner).mmCol = (s.gale r.owner).mmCol)) ∧
        ((s.gale r.owner).mismatch = false ∨ (x.gale r.owner).mismatch = false → both (fun t => t = close x))))) ∧
  (∀ (s : State) (p : Path) (lo hi : Word), s.portReaches p = true → (s.party p).privileged = true →
    Gives (.evrCursorWrite p lo hi) s (fun t =>
      assoc t.ports.cursor p = some ((lo.toNat + hi.toNat * 2 ^ 32) % 2 ^ 48) ∧ OnlyChanges [.ports] s t)) ∧
  (∀ (s : State) (p : Path) (v : Word),
    (s.store p 0x00002C v).dev.scratch = v ∧
    assoc (s.store p 0x010020 v).ports.histSel p = some (field v 0 11) ∧
    assoc (s.store p 0x030014 v).ports.canarySel p = some (field v 0 7) ∧
    (∀ c : Fin 4, assoc (s.store p (0x107010 + 0x10000 * c.val) v).ports.veerSel (p, c.val) = some (v &&& 0x03FF03FF#32)) ∧
    (s.store p 0x600000 v).ports.aperture.get 0 = BitVec.ofNat 12 (field v 0 12) ∧
    (s.store p 0x600004 v).ports.aperture.get 1 = BitVec.ofNat 12 (field v 0 12) ∧
    (s.store p 0x050010 v).vio.valid = (s.vio.valid && !v.getLsbD 0) ∧
    (s.store p 0x050010 v).vio.addr = s.vio.addr ∧
    (∀ c, ((s.store p 0x28 0x01).core c).bank = Bank.zero 3 ∧ ((s.store p 0x28 0x01).core c).vaneBank = Bank.zero 7 ∧
      ((s.store p 0x28 0x01).core c).eddy.bank = Bank.zero 14 ∧ ((s.store p 0x28 0x01).core c).veer.bank = Bank.zero 13 ∧
      ∀ k, ((s.store p 0x28 0x01).ctx c k).bank = Bank.zero 11) ∧
    (∀ g, ((s.store p 0x28 0x01).gale g).bank = Bank.zero 12) ∧
    (∀ e, ((s.store p 0x28 0x02).drt e).bank = Bank.zero 15) ∧
    (∀ n, ((s.store p 0x28 0x04).stack n).bank = Bank.zero 9 ∧ ((s.store p 0x28 0x04).fhn n).bank = Bank.zero 6) ∧
    (∀ n, ((s.store p 0x28 0x08).stc n).bank = Bank.zero 8) ∧
    (∀ l, ((s.store p 0x28 0x10).link l).bank = Bank.zero 12) ∧ (s.store p 0x28 0x10).chain.discarded = 0 ∧
    (s.store p 0x28 0x20).slip.bank = Bank.zero 8 ∧ (s.store p 0x28 0x40).vio.count = 0)

/-- BAR2: a read inside a granting window answers the bytes; a write inside a FREE ingest buffer lands; an access that touches
control space is a violation of kind 0x08, one with a line in no memory and, for a write, in a parameter region a violation of
kind 0x05; any other is denied, and a read so denied returns zeros. In phase 4 with the host as source, writes fill the staging
area, reads are denied, and the image length starts the check. That a write elsewhere is denied then, and a second length too, is
the model's choice (log entry 27). -/
def Obligations.Bar2Accesses : Prop :=
  ∀ (s : State) (fn : Fin 2) (off : Nat),
    let p := fnPath fn
    let a := s.barAddress fn off
    let violates (kind : Nat) (t : State) : Prop :=
      assoc t.ports.resp p = some (.violation, []) ∧ t.vio.count = s.vio.count + 1 ∧
        (s.vio.valid = false → t.vio.kind = kind ∧ t.vio.addr = a) ∧ OnlyChanges [.ports, .vio, .answer] s t
    let denies (bs : List Byte) (t : State) : Prop :=
      assoc t.ports.resp p = some (.denied, bs) ∧ t.vio = s.vio ∧ t.sec.bank = s.sec.bank.add 2 1 ∧
        OnlyChanges [.ports, .sec, .answer] s t
    let memory (len : Nat) : Prop := hitsControl a len = false ∧ ∀ x ∈ lineAddrs a len, (s.place x).isMemory = true
    let written (len : Nat) : Prop := hitsControl a len = false ∧
      ∀ x ∈ lineAddrs a len, (s.place x).isMemory = true ∧ s.inParameter x = false
    s.portReaches p = true →
    (∀ len, s.stagingOpen = false → memory len → s.windowed fn.val a len = true →
      Gives (.bar2Read fn off len) s (fun t =>
        t.answer = some (s.peek a len, s.peekPoison a len) ∧ assoc t.ports.resp p = some (.ok, s.peek a len))) ∧
    (∀ len, s.stagingOpen = false → memory len → s.windowed fn.val a len = false →
      Gives (.bar2Read fn off len) s (fun t => denies (zeros len) t ∧ t.answer = some (zeros len, false))) ∧
    (∀ len, s.stagingOpen = false → hitsControl a len = true →
      Gives (.bar2Read fn off len) s (fun t => violates 0x08 t ∧ t.answer = none)) ∧
    (∀ len, s.stagingOpen = false → hitsControl a len = false → ¬memory len →
      Gives (.bar2Read fn off len) s (fun t => violates 0x05 t ∧ t.answer = none)) ∧
    (∀ len, s.stagingOpen = true →
      Gives (.bar2Read fn off len) s (fun t => denies (zeros len) t ∧ t.answer = some (zeros len, false))) ∧
    (∀ data, s.stagingOpen = false → written data.length → s.inFreeBuffer a data.length = true →
      Gives (.bar2Write fn off data) s (fun t =>
        t = close ((s.respond p .ok []).writeBytes a data false) ∧ assoc t.ports.resp p = some (.ok, []))) ∧
    (∀ data, s.stagingOpen = false → written data.length → s.inFreeBuffer a data.length = false →
      Gives (.bar2Write fn off data) s (denies [])) ∧
    (∀ data, s.stagingOpen = false → hitsControl a data.length = true → Gives (.bar2Write fn off data) s (violates 0x08)) ∧
    (∀ data, s.stagingOpen = false → hitsControl a data.length = false → ¬written data.length →
      Gives (.bar2Write fn off data) s (violates 0x05)) ∧
    (∀ data, s.stagingOpen = true → off + data.length ≤ storeSize →
      Gives (.bar2Write fn off data) s (fun t =>
        t = close ((s.respond p .ok []).writeBytes (storeBase 0 + off) data false) ∧ assoc t.ports.resp p = some (.ok, []))) ∧
    (∀ data, s.stagingOpen = true → storeSize < off + data.length → (off = lengthOffset → data.length ≠ 4) →
      Gives (.bar2Write fn off data) s (denies [])) ∧
    (∀ len : Word, s.stagingOpen = true → s.rst.staging = none →
      Gives (.stagingLengthWrite fn len) s (fun t =>
        t.rst.staging = some len.toNat ∧ assoc t.ports.resp p = some (.ok, []) ∧ OnlyChanges [.ports, .rst] s t)) ∧
    (∀ len : Word, s.stagingOpen = true → s.rst.staging.isSome = true →
      Gives (.stagingLengthWrite fn len) s (fun t =>
        t.rst.staging = s.rst.staging ∧ assoc t.ports.resp p = some (.denied, []) ∧ OnlyChanges [.ports, .sec] s t)) ∧
    (∀ len : Word, s.stagingOpen = false →
      exec (.stagingLengthWrite fn len) s = exec (.bar2Write fn lengthOffset (leBytes 4 len.toNat)) s)

/-- The management port: each transfer counts in exactly one of its four counters: a register read, a register write, LAST_STATUS
and the alert response in TRANSFERS, a wrong packet error code in PEC_ERRORS, a timeout in TIMEOUTS and a code other than
0x10 to 0x12, which has no other effect, in BAD_COMMANDS. A write to MB_OVF counts in its own handshake, so a wrap of the counter
wins over the bit that it clears. While MB_ALERT_N is high the port does not answer the alert response. Which transfers count and
which status byte is kept is the model's choice (log entry 17), the answer for a block that is silent in the safe state its
reading (log entry 16). -/
def Obligations.ManagementPortCounts : Prop :=
  ∀ s : State, s.portReaches .mb = true →
    let counts (k : Nat) (t : State) : Prop := t.ports.mbBank = s.ports.mbBank.add k 1
    (∀ off, Gives (.mbRegRead off) s (fun t => counts 0 t ∧ ∃ r bs, assoc t.ports.resp .mb = some (r, bs) ∧ bs.length = 4)) ∧
    (∀ off v, s.shut .mb off = true →
      Gives (.mbRegWrite off v) s (fun t => counts 0 t ∧ t.ports.mbLast = 2 ∧ OnlyChanges [.ports] s t)) ∧
    (∀ off v, s.shut .mb off = false → off ≠ 0x600104 →
      Gives (.mbRegWrite off v) s (fun t => counts 0 t ∧ t.ports.mbLast = (s.verdict .mb off true).status)) ∧
    (∀ v r, s.shut .mb 0x600104 = false → s.register .mb 0x600104 = some r →
      (s.mayWrite .mb r.cls = true → Gives (.mbRegWrite 0x600104 v) s (fun t =>
        t.ports.mbBank = (s.ports.mbBank.w1c v).add 0 1 ∧ t.ports.mbLast = 0)) ∧
      (s.mayWrite .mb r.cls = false → Gives (.mbRegWrite 0x600104 v) s (fun t => counts 0 t ∧ t.ports.mbLast = 1))) ∧
    (∀ off v r, s.shut .mb off = false → s.register .mb off = some r → s.mayWrite .mb r.cls = true → off = 0x2C →
      Gives (.mbRegWrite off v) s (fun t => counts 0 t ∧ t.ports.mbLast = 0 ∧ t.dev.scratch = v)) ∧
    Gives .mbLastStatus s (fun t =>
      counts 0 t ∧ assoc t.ports.resp .mb = some (.ok, leBytes 1 s.ports.mbLast) ∧ OnlyChanges [.ports] s t) ∧
    (s.alert = true → Gives .alertResponse s (fun t =>
      counts 0 t ∧ assoc t.ports.resp .mb = some (.ok, leBytes 1 (0x58 + s.ports.mbAddr % 8)) ∧ OnlyChanges [.ports] s t)) ∧
    (s.alert = false → exec .alertResponse s = .next s) ∧
    Gives .mbPecError s (fun t => counts 1 t ∧ t.ports.mbPecSeen = true ∧ OnlyChanges [.ports] s t) ∧
    Gives .clockLowTimeout s (fun t => counts 2 t ∧ t.ports.mbTimeoutSeen = true ∧ OnlyChanges [.ports] s t) ∧
    (∀ code : Byte, (code.toNat < 0x10 ∨ 0x12 < code.toNat) →
      Gives (.mbBadCommand code) s (fun t => counts 3 t ∧ t.ports.mbBadSeen = true ∧ OnlyChanges [.ports] s t))

/-- The boundary-scan instructions always answer and reach the boundary cells alone: EXTEST, CLAMP, HIGHZ and the 1149.6 pair
drive the lands only while RESET_N is low; SAMPLE, IDCODE and BYPASS load the data register and drive nothing. The layout of
IDCODE's word is presumed (log entry 31). While DEBUG_OPEN is clear a private test instruction changes nothing. -/
def Obligations.TestPortAnswers : Prop :=
  (∀ s : State,
    let drives (code : Nat) (i : Instr) : Prop := Gives i s (fun t =>
      (s.ports.resetLow = true → t.ports.tap = code ∧ t.ports.boundaryOut = true) ∧
        (s.ports.resetLow = false → t.ports.tap = 7 ∧ t.ports.boundaryOut = false) ∧ OnlyChanges [.ports] s t)
    drives 0 .extest ∧ drives 1 .clamp ∧ drives 2 .highz ∧ drives 3 .extestPulse ∧ drives 4 .extestTrain ∧
    Gives .samplePreload s (fun t => t.ports.tap = 5 ∧ t.ports.boundaryOut = false ∧ OnlyChanges [.ports, .fresh] s t) ∧
    Gives .idcode s (fun t => t.ports.tap = 6 ∧ t.ports.tapOut = s.idWord ∧ t.ports.boundaryOut = false) ∧
    Gives .bypass s (fun t => t.ports.tap = 7 ∧ t.ports.tapOut = 0 ∧ t.ports.boundaryOut = false)) ∧
  (∀ (s : State) (op : TestOp), s.sec.debugOpen = false → exec (.privateTestInstruction op) s = .next s)

/-- Host link events: PERST_N low and a lost link take the host port down and end function 1's session, and a function level
reset clears its aperture. A lost clock takes down what it serves: a link clock retrains its links, the memory clock of a compute
die leaves its six stacks and four stash controllers to train again, the host clock takes the host link down. TWIN_RST_OUT is let
go. That the link is back with the release of PERST_N, and what a lost memory clock leaves of its die, is the model's choice (log
entries 28, 29). -/
def Obligations.HostLinkEvents : Prop :=
  ∀ s : State,
    Gives .hpPerst s (fun t =>
      t.ports.perstLow = true ∧ t.ports.linkUp = false ∧ t.session 0 = none ∧ ∀ fn, t.ports.aperture.get fn = 0) ∧
    Gives .hpPerstRelease s (fun t => t.ports.perstLow = false ∧ t.ports.linkUp = true) ∧
    (∀ fn : Fin 2, s.ports.linkUp = true → s.ports.perstLow = false →
      Gives (.functionLevelReset fn) s (fun t => t.ports.aperture.get fn = 0 ∧ (fn = 1 → t.session 0 = none))) ∧
    Gives .pcieLinkLoss s (fun t => t.ports.linkUp = false ∧ t.session 0 = none) ∧
    Gives (.referenceClockLoss .host) s (fun t => t.ports.linkUp = false) ∧
    (∀ l, (s.link l).st = .up → Gives (.referenceClockLoss (.links [l])) s (fun t => t = close (s.retrain l))) ∧
    (∀ east, Gives (.referenceClockLoss (.memory east)) s (fun t =>
      (∀ n ∈ dieStacks east, (t.stack n).trained = false ∧ (t.stack n).failed = (s.stack n).failed) ∧
        (∀ n ∈ dieStash east, (t.stc n).trained0 = false ∧ (t.stc n).trained1 = false) ∧
        (∀ n, n ∉ dieStacks east → t.stack n = s.stack n) ∧ (∀ n, n ∉ dieStash east → t.stc n = s.stc n) ∧ t.dev = s.dev)) ∧
    Gives .twinRstOutRelease s (fun t => t.ports.twinOutLow = false)
end

