-- ==== Sys2Proof/Laws/State.lean ====
section
/-! SUPPORT. What each update of one part of the state does to every field: the field it changes, and no other. -/

namespace Sys2Proof.Machine

variable (s : State)

/-! `modCore`. -/

@[simp] theorem State.modCore_pending (c : Fin 4) (f : Core → Core) : (s.modCore c f).pending = s.pending := rfl
@[simp] theorem State.modCore_dev (c : Fin 4) (f : Core → Core) : (s.modCore c f).dev = s.dev := rfl
@[simp] theorem State.modCore_ports (c : Fin 4) (f : Core → Core) : (s.modCore c f).ports = s.ports := rfl
@[simp] theorem State.modCore_vio (c : Fin 4) (f : Core → Core) : (s.modCore c f).vio = s.vio := rfl
@[simp] theorem State.modCore_cores (c : Fin 4) (f : Core → Core) : (s.modCore c f).cores = upd s.cores c f := rfl
@[simp] theorem State.modCore_gales (c : Fin 4) (f : Core → Core) : (s.modCore c f).gales = s.gales := rfl
@[simp] theorem State.modCore_draughts (c : Fin 4) (f : Core → Core) : (s.modCore c f).draughts = s.draughts := rfl
@[simp] theorem State.modCore_chainVanes (c : Fin 4) (f : Core → Core) : (s.modCore c f).chainVanes = s.chainVanes := rfl
@[simp] theorem State.modCore_chainOverflowSeen (c : Fin 4) (f : Core → Core) : (s.modCore c f).chainOverflowSeen = s.chainOverflowSeen := rfl
@[simp] theorem State.modCore_chainDiscardSeen (c : Fin 4) (f : Core → Core) : (s.modCore c f).chainDiscardSeen = s.chainDiscardSeen := rfl
@[simp] theorem State.modCore_frozen (c : Fin 4) (f : Core → Core) : (s.modCore c f).frozen = s.frozen := rfl
@[simp] theorem State.modCore_chainBank (c : Fin 4) (f : Core → Core) : (s.modCore c f).chainBank = s.chainBank := rfl
@[simp] theorem State.modCore_signals (c : Fin 4) (f : Core → Core) : (s.modCore c f).signals = s.signals := rfl
@[simp] theorem State.modCore_mem (c : Fin 4) (f : Core → Core) : (s.modCore c f).mem = s.mem := rfl
@[simp] theorem State.modCore_stash (c : Fin 4) (f : Core → Core) : (s.modCore c f).stash = s.stash := rfl
@[simp] theorem State.modCore_foehn (c : Fin 4) (f : Core → Core) : (s.modCore c f).foehn = s.foehn := rfl
@[simp] theorem State.modCore_slip (c : Fin 4) (f : Core → Core) : (s.modCore c f).slip = s.slip := rfl
@[simp] theorem State.modCore_links (c : Fin 4) (f : Core → Core) : (s.modCore c f).links = s.links := rfl
@[simp] theorem State.modCore_chain (c : Fin 4) (f : Core → Core) : (s.modCore c f).chain = s.chain := rfl
@[simp] theorem State.modCore_sec (c : Fin 4) (f : Core → Core) : (s.modCore c f).sec = s.sec := rfl
@[simp] theorem State.modCore_rst (c : Fin 4) (f : Core → Core) : (s.modCore c f).rst = s.rst := rfl
@[simp] theorem State.modCore_evr (c : Fin 4) (f : Core → Core) : (s.modCore c f).evr = s.evr := rfl
@[simp] theorem State.modCore_hlt (c : Fin 4) (f : Core → Core) : (s.modCore c f).hlt = s.hlt := rfl
@[simp] theorem State.modCore_plan (c : Fin 4) (f : Core → Core) : (s.modCore c f).plan = s.plan := rfl
@[simp] theorem State.modCore_loaded (c : Fin 4) (f : Core → Core) : (s.modCore c f).loaded = s.loaded := rfl
@[simp] theorem State.modCore_fit (c : Fin 4) (f : Core → Core) : (s.modCore c f).fit = s.fit := rfl
@[simp] theorem State.modCore_step (c : Fin 4) (f : Core → Core) : (s.modCore c f).step = s.step := rfl
@[simp] theorem State.modCore_loads (c : Fin 4) (f : Core → Core) : (s.modCore c f).loads = s.loads := rfl
@[simp] theorem State.modCore_begun (c : Fin 4) (f : Core → Core) : (s.modCore c f).begun = s.begun := rfl
@[simp] theorem State.modCore_hostLeaves (c : Fin 4) (f : Core → Core) : (s.modCore c f).hostLeaves = s.hostLeaves := rfl
@[simp] theorem State.modCore_loadedChunks (c : Fin 4) (f : Core → Core) : (s.modCore c f).loadedChunks = s.loadedChunks := rfl
@[simp] theorem State.modCore_withheld (c : Fin 4) (f : Core → Core) : (s.modCore c f).withheld = s.withheld := rfl
@[simp] theorem State.modCore_answer (c : Fin 4) (f : Core → Core) : (s.modCore c f).answer = s.answer := rfl
@[simp] theorem State.modCore_mxScales (c : Fin 4) (f : Core → Core) : (s.modCore c f).mxScales = s.mxScales := rfl
@[simp] theorem State.modCore_fresh (c : Fin 4) (f : Core → Core) : (s.modCore c f).fresh = s.fresh := rfl
@[simp] theorem State.modCore_keepHeld (c : Fin 4) (f : Core → Core) : (s.modCore c f).keepHeld = s.keepHeld := rfl

/-! `modCtx`. -/

@[simp] theorem State.modCtx_pending (c : Fin 4) (k : Fin 8) (f : Ctx → Ctx) : (s.modCtx c k f).pending = s.pending := rfl
@[simp] theorem State.modCtx_dev (c : Fin 4) (k : Fin 8) (f : Ctx → Ctx) : (s.modCtx c k f).dev = s.dev := rfl
@[simp] theorem State.modCtx_ports (c : Fin 4) (k : Fin 8) (f : Ctx → Ctx) : (s.modCtx c k f).ports = s.ports := rfl
@[simp] theorem State.modCtx_vio (c : Fin 4) (k : Fin 8) (f : Ctx → Ctx) : (s.modCtx c k f).vio = s.vio := rfl
@[simp] theorem State.modCtx_gales (c : Fin 4) (k : Fin 8) (f : Ctx → Ctx) : (s.modCtx c k f).gales = s.gales := rfl
@[simp] theorem State.modCtx_draughts (c : Fin 4) (k : Fin 8) (f : Ctx → Ctx) : (s.modCtx c k f).draughts = s.draughts := rfl
@[simp] theorem State.modCtx_chainVanes (c : Fin 4) (k : Fin 8) (f : Ctx → Ctx) : (s.modCtx c k f).chainVanes = s.chainVanes := rfl
@[simp] theorem State.modCtx_chainOverflowSeen (c : Fin 4) (k : Fin 8) (f : Ctx → Ctx) : (s.modCtx c k f).chainOverflowSeen = s.chainOverflowSeen := rfl
@[simp] theorem State.modCtx_chainDiscardSeen (c : Fin 4) (k : Fin 8) (f : Ctx → Ctx) : (s.modCtx c k f).chainDiscardSeen = s.chainDiscardSeen := rfl
@[simp] theorem State.modCtx_frozen (c : Fin 4) (k : Fin 8) (f : Ctx → Ctx) : (s.modCtx c k f).frozen = s.frozen := rfl
@[simp] theorem State.modCtx_chainBank (c : Fin 4) (k : Fin 8) (f : Ctx → Ctx) : (s.modCtx c k f).chainBank = s.chainBank := rfl
@[simp] theorem State.modCtx_signals (c : Fin 4) (k : Fin 8) (f : Ctx → Ctx) : (s.modCtx c k f).signals = s.signals := rfl
@[simp] theorem State.modCtx_mem (c : Fin 4) (k : Fin 8) (f : Ctx → Ctx) : (s.modCtx c k f).mem = s.mem := rfl
@[simp] theorem State.modCtx_stash (c : Fin 4) (k : Fin 8) (f : Ctx → Ctx) : (s.modCtx c k f).stash = s.stash := rfl
@[simp] theorem State.modCtx_foehn (c : Fin 4) (k : Fin 8) (f : Ctx → Ctx) : (s.modCtx c k f).foehn = s.foehn := rfl
@[simp] theorem State.modCtx_slip (c : Fin 4) (k : Fin 8) (f : Ctx → Ctx) : (s.modCtx c k f).slip = s.slip := rfl
@[simp] theorem State.modCtx_links (c : Fin 4) (k : Fin 8) (f : Ctx → Ctx) : (s.modCtx c k f).links = s.links := rfl
@[simp] theorem State.modCtx_chain (c : Fin 4) (k : Fin 8) (f : Ctx → Ctx) : (s.modCtx c k f).chain = s.chain := rfl
@[simp] theorem State.modCtx_sec (c : Fin 4) (k : Fin 8) (f : Ctx → Ctx) : (s.modCtx c k f).sec = s.sec := rfl
@[simp] theorem State.modCtx_rst (c : Fin 4) (k : Fin 8) (f : Ctx → Ctx) : (s.modCtx c k f).rst = s.rst := rfl
@[simp] theorem State.modCtx_evr (c : Fin 4) (k : Fin 8) (f : Ctx → Ctx) : (s.modCtx c k f).evr = s.evr := rfl
@[simp] theorem State.modCtx_hlt (c : Fin 4) (k : Fin 8) (f : Ctx → Ctx) : (s.modCtx c k f).hlt = s.hlt := rfl
@[simp] theorem State.modCtx_plan (c : Fin 4) (k : Fin 8) (f : Ctx → Ctx) : (s.modCtx c k f).plan = s.plan := rfl
@[simp] theorem State.modCtx_loaded (c : Fin 4) (k : Fin 8) (f : Ctx → Ctx) : (s.modCtx c k f).loaded = s.loaded := rfl
@[simp] theorem State.modCtx_fit (c : Fin 4) (k : Fin 8) (f : Ctx → Ctx) : (s.modCtx c k f).fit = s.fit := rfl
@[simp] theorem State.modCtx_step (c : Fin 4) (k : Fin 8) (f : Ctx → Ctx) : (s.modCtx c k f).step = s.step := rfl
@[simp] theorem State.modCtx_loads (c : Fin 4) (k : Fin 8) (f : Ctx → Ctx) : (s.modCtx c k f).loads = s.loads := rfl
@[simp] theorem State.modCtx_begun (c : Fin 4) (k : Fin 8) (f : Ctx → Ctx) : (s.modCtx c k f).begun = s.begun := rfl
@[simp] theorem State.modCtx_hostLeaves (c : Fin 4) (k : Fin 8) (f : Ctx → Ctx) : (s.modCtx c k f).hostLeaves = s.hostLeaves := rfl
@[simp] theorem State.modCtx_loadedChunks (c : Fin 4) (k : Fin 8) (f : Ctx → Ctx) : (s.modCtx c k f).loadedChunks = s.loadedChunks := rfl
@[simp] theorem State.modCtx_withheld (c : Fin 4) (k : Fin 8) (f : Ctx → Ctx) : (s.modCtx c k f).withheld = s.withheld := rfl
@[simp] theorem State.modCtx_answer (c : Fin 4) (k : Fin 8) (f : Ctx → Ctx) : (s.modCtx c k f).answer = s.answer := rfl
@[simp] theorem State.modCtx_mxScales (c : Fin 4) (k : Fin 8) (f : Ctx → Ctx) : (s.modCtx c k f).mxScales = s.mxScales := rfl
@[simp] theorem State.modCtx_fresh (c : Fin 4) (k : Fin 8) (f : Ctx → Ctx) : (s.modCtx c k f).fresh = s.fresh := rfl
@[simp] theorem State.modCtx_keepHeld (c : Fin 4) (k : Fin 8) (f : Ctx → Ctx) : (s.modCtx c k f).keepHeld = s.keepHeld := rfl

/-! `modGale`. -/

@[simp] theorem State.modGale_pending (g : Fin 8) (f : Gale → Gale) : (s.modGale g f).pending = s.pending := rfl
@[simp] theorem State.modGale_dev (g : Fin 8) (f : Gale → Gale) : (s.modGale g f).dev = s.dev := rfl
@[simp] theorem State.modGale_ports (g : Fin 8) (f : Gale → Gale) : (s.modGale g f).ports = s.ports := rfl
@[simp] theorem State.modGale_vio (g : Fin 8) (f : Gale → Gale) : (s.modGale g f).vio = s.vio := rfl
@[simp] theorem State.modGale_cores (g : Fin 8) (f : Gale → Gale) : (s.modGale g f).cores = s.cores := rfl
@[simp] theorem State.modGale_gales (g : Fin 8) (f : Gale → Gale) : (s.modGale g f).gales = upd s.gales g f := rfl
@[simp] theorem State.modGale_draughts (g : Fin 8) (f : Gale → Gale) : (s.modGale g f).draughts = s.draughts := rfl
@[simp] theorem State.modGale_chainVanes (g : Fin 8) (f : Gale → Gale) : (s.modGale g f).chainVanes = s.chainVanes := rfl
@[simp] theorem State.modGale_chainOverflowSeen (g : Fin 8) (f : Gale → Gale) : (s.modGale g f).chainOverflowSeen = s.chainOverflowSeen := rfl
@[simp] theorem State.modGale_chainDiscardSeen (g : Fin 8) (f : Gale → Gale) : (s.modGale g f).chainDiscardSeen = s.chainDiscardSeen := rfl
@[simp] theorem State.modGale_frozen (g : Fin 8) (f : Gale → Gale) : (s.modGale g f).frozen = s.frozen := rfl
@[simp] theorem State.modGale_chainBank (g : Fin 8) (f : Gale → Gale) : (s.modGale g f).chainBank = s.chainBank := rfl
@[simp] theorem State.modGale_signals (g : Fin 8) (f : Gale → Gale) : (s.modGale g f).signals = s.signals := rfl
@[simp] theorem State.modGale_mem (g : Fin 8) (f : Gale → Gale) : (s.modGale g f).mem = s.mem := rfl
@[simp] theorem State.modGale_stash (g : Fin 8) (f : Gale → Gale) : (s.modGale g f).stash = s.stash := rfl
@[simp] theorem State.modGale_foehn (g : Fin 8) (f : Gale → Gale) : (s.modGale g f).foehn = s.foehn := rfl
@[simp] theorem State.modGale_slip (g : Fin 8) (f : Gale → Gale) : (s.modGale g f).slip = s.slip := rfl
@[simp] theorem State.modGale_links (g : Fin 8) (f : Gale → Gale) : (s.modGale g f).links = s.links := rfl
@[simp] theorem State.modGale_chain (g : Fin 8) (f : Gale → Gale) : (s.modGale g f).chain = s.chain := rfl
@[simp] theorem State.modGale_sec (g : Fin 8) (f : Gale → Gale) : (s.modGale g f).sec = s.sec := rfl
@[simp] theorem State.modGale_rst (g : Fin 8) (f : Gale → Gale) : (s.modGale g f).rst = s.rst := rfl
@[simp] theorem State.modGale_evr (g : Fin 8) (f : Gale → Gale) : (s.modGale g f).evr = s.evr := rfl
@[simp] theorem State.modGale_hlt (g : Fin 8) (f : Gale → Gale) : (s.modGale g f).hlt = s.hlt := rfl
@[simp] theorem State.modGale_plan (g : Fin 8) (f : Gale → Gale) : (s.modGale g f).plan = s.plan := rfl
@[simp] theorem State.modGale_loaded (g : Fin 8) (f : Gale → Gale) : (s.modGale g f).loaded = s.loaded := rfl
@[simp] theorem State.modGale_fit (g : Fin 8) (f : Gale → Gale) : (s.modGale g f).fit = s.fit := rfl
@[simp] theorem State.modGale_step (g : Fin 8) (f : Gale → Gale) : (s.modGale g f).step = s.step := rfl
@[simp] theorem State.modGale_loads (g : Fin 8) (f : Gale → Gale) : (s.modGale g f).loads = s.loads := rfl
@[simp] theorem State.modGale_begun (g : Fin 8) (f : Gale → Gale) : (s.modGale g f).begun = s.begun := rfl
@[simp] theorem State.modGale_hostLeaves (g : Fin 8) (f : Gale → Gale) : (s.modGale g f).hostLeaves = s.hostLeaves := rfl
@[simp] theorem State.modGale_loadedChunks (g : Fin 8) (f : Gale → Gale) : (s.modGale g f).loadedChunks = s.loadedChunks := rfl
@[simp] theorem State.modGale_withheld (g : Fin 8) (f : Gale → Gale) : (s.modGale g f).withheld = s.withheld := rfl
@[simp] theorem State.modGale_answer (g : Fin 8) (f : Gale → Gale) : (s.modGale g f).answer = s.answer := rfl
@[simp] theorem State.modGale_mxScales (g : Fin 8) (f : Gale → Gale) : (s.modGale g f).mxScales = s.mxScales := rfl
@[simp] theorem State.modGale_fresh (g : Fin 8) (f : Gale → Gale) : (s.modGale g f).fresh = s.fresh := rfl
@[simp] theorem State.modGale_keepHeld (g : Fin 8) (f : Gale → Gale) : (s.modGale g f).keepHeld = s.keepHeld := rfl

/-! `modDrt`. -/

@[simp] theorem State.modDrt_pending (e : Fin 8) (f : Draught → Draught) : (s.modDrt e f).pending = s.pending := rfl
@[simp] theorem State.modDrt_dev (e : Fin 8) (f : Draught → Draught) : (s.modDrt e f).dev = s.dev := rfl
@[simp] theorem State.modDrt_ports (e : Fin 8) (f : Draught → Draught) : (s.modDrt e f).ports = s.ports := rfl
@[simp] theorem State.modDrt_vio (e : Fin 8) (f : Draught → Draught) : (s.modDrt e f).vio = s.vio := rfl
@[simp] theorem State.modDrt_cores (e : Fin 8) (f : Draught → Draught) : (s.modDrt e f).cores = s.cores := rfl
@[simp] theorem State.modDrt_gales (e : Fin 8) (f : Draught → Draught) : (s.modDrt e f).gales = s.gales := rfl
@[simp] theorem State.modDrt_draughts (e : Fin 8) (f : Draught → Draught) : (s.modDrt e f).draughts = upd s.draughts e f := rfl
@[simp] theorem State.modDrt_chainVanes (e : Fin 8) (f : Draught → Draught) : (s.modDrt e f).chainVanes = s.chainVanes := rfl
@[simp] theorem State.modDrt_chainOverflowSeen (e : Fin 8) (f : Draught → Draught) : (s.modDrt e f).chainOverflowSeen = s.chainOverflowSeen := rfl
@[simp] theorem State.modDrt_chainDiscardSeen (e : Fin 8) (f : Draught → Draught) : (s.modDrt e f).chainDiscardSeen = s.chainDiscardSeen := rfl
@[simp] theorem State.modDrt_frozen (e : Fin 8) (f : Draught → Draught) : (s.modDrt e f).frozen = s.frozen := rfl
@[simp] theorem State.modDrt_chainBank (e : Fin 8) (f : Draught → Draught) : (s.modDrt e f).chainBank = s.chainBank := rfl
@[simp] theorem State.modDrt_signals (e : Fin 8) (f : Draught → Draught) : (s.modDrt e f).signals = s.signals := rfl
@[simp] theorem State.modDrt_mem (e : Fin 8) (f : Draught → Draught) : (s.modDrt e f).mem = s.mem := rfl
@[simp] theorem State.modDrt_stash (e : Fin 8) (f : Draught → Draught) : (s.modDrt e f).stash = s.stash := rfl
@[simp] theorem State.modDrt_foehn (e : Fin 8) (f : Draught → Draught) : (s.modDrt e f).foehn = s.foehn := rfl
@[simp] theorem State.modDrt_slip (e : Fin 8) (f : Draught → Draught) : (s.modDrt e f).slip = s.slip := rfl
@[simp] theorem State.modDrt_links (e : Fin 8) (f : Draught → Draught) : (s.modDrt e f).links = s.links := rfl
@[simp] theorem State.modDrt_chain (e : Fin 8) (f : Draught → Draught) : (s.modDrt e f).chain = s.chain := rfl
@[simp] theorem State.modDrt_sec (e : Fin 8) (f : Draught → Draught) : (s.modDrt e f).sec = s.sec := rfl
@[simp] theorem State.modDrt_rst (e : Fin 8) (f : Draught → Draught) : (s.modDrt e f).rst = s.rst := rfl
@[simp] theorem State.modDrt_evr (e : Fin 8) (f : Draught → Draught) : (s.modDrt e f).evr = s.evr := rfl
@[simp] theorem State.modDrt_hlt (e : Fin 8) (f : Draught → Draught) : (s.modDrt e f).hlt = s.hlt := rfl
@[simp] theorem State.modDrt_plan (e : Fin 8) (f : Draught → Draught) : (s.modDrt e f).plan = s.plan := rfl
@[simp] theorem State.modDrt_loaded (e : Fin 8) (f : Draught → Draught) : (s.modDrt e f).loaded = s.loaded := rfl
@[simp] theorem State.modDrt_fit (e : Fin 8) (f : Draught → Draught) : (s.modDrt e f).fit = s.fit := rfl
@[simp] theorem State.modDrt_step (e : Fin 8) (f : Draught → Draught) : (s.modDrt e f).step = s.step := rfl
@[simp] theorem State.modDrt_loads (e : Fin 8) (f : Draught → Draught) : (s.modDrt e f).loads = s.loads := rfl
@[simp] theorem State.modDrt_begun (e : Fin 8) (f : Draught → Draught) : (s.modDrt e f).begun = s.begun := rfl
@[simp] theorem State.modDrt_hostLeaves (e : Fin 8) (f : Draught → Draught) : (s.modDrt e f).hostLeaves = s.hostLeaves := rfl
@[simp] theorem State.modDrt_loadedChunks (e : Fin 8) (f : Draught → Draught) : (s.modDrt e f).loadedChunks = s.loadedChunks := rfl
@[simp] theorem State.modDrt_withheld (e : Fin 8) (f : Draught → Draught) : (s.modDrt e f).withheld = s.withheld := rfl
@[simp] theorem State.modDrt_answer (e : Fin 8) (f : Draught → Draught) : (s.modDrt e f).answer = s.answer := rfl
@[simp] theorem State.modDrt_mxScales (e : Fin 8) (f : Draught → Draught) : (s.modDrt e f).mxScales = s.mxScales := rfl
@[simp] theorem State.modDrt_fresh (e : Fin 8) (f : Draught → Draught) : (s.modDrt e f).fresh = s.fresh := rfl
@[simp] theorem State.modDrt_keepHeld (e : Fin 8) (f : Draught → Draught) : (s.modDrt e f).keepHeld = s.keepHeld := rfl

/-! `modStack`. -/

@[simp] theorem State.modStack_pending (n : Fin 12) (f : Stack → Stack) : (s.modStack n f).pending = s.pending := rfl
@[simp] theorem State.modStack_dev (n : Fin 12) (f : Stack → Stack) : (s.modStack n f).dev = s.dev := rfl
@[simp] theorem State.modStack_ports (n : Fin 12) (f : Stack → Stack) : (s.modStack n f).ports = s.ports := rfl
@[simp] theorem State.modStack_vio (n : Fin 12) (f : Stack → Stack) : (s.modStack n f).vio = s.vio := rfl
@[simp] theorem State.modStack_cores (n : Fin 12) (f : Stack → Stack) : (s.modStack n f).cores = s.cores := rfl
@[simp] theorem State.modStack_gales (n : Fin 12) (f : Stack → Stack) : (s.modStack n f).gales = s.gales := rfl
@[simp] theorem State.modStack_draughts (n : Fin 12) (f : Stack → Stack) : (s.modStack n f).draughts = s.draughts := rfl
@[simp] theorem State.modStack_chainVanes (n : Fin 12) (f : Stack → Stack) : (s.modStack n f).chainVanes = s.chainVanes := rfl
@[simp] theorem State.modStack_chainOverflowSeen (n : Fin 12) (f : Stack → Stack) : (s.modStack n f).chainOverflowSeen = s.chainOverflowSeen := rfl
@[simp] theorem State.modStack_chainDiscardSeen (n : Fin 12) (f : Stack → Stack) : (s.modStack n f).chainDiscardSeen = s.chainDiscardSeen := rfl
@[simp] theorem State.modStack_frozen (n : Fin 12) (f : Stack → Stack) : (s.modStack n f).frozen = s.frozen := rfl
@[simp] theorem State.modStack_chainBank (n : Fin 12) (f : Stack → Stack) : (s.modStack n f).chainBank = s.chainBank := rfl
@[simp] theorem State.modStack_signals (n : Fin 12) (f : Stack → Stack) : (s.modStack n f).signals = s.signals := rfl
@[simp] theorem State.modStack_mem (n : Fin 12) (f : Stack → Stack) : (s.modStack n f).mem = upd s.mem n f := rfl
@[simp] theorem State.modStack_stash (n : Fin 12) (f : Stack → Stack) : (s.modStack n f).stash = s.stash := rfl
@[simp] theorem State.modStack_foehn (n : Fin 12) (f : Stack → Stack) : (s.modStack n f).foehn = s.foehn := rfl
@[simp] theorem State.modStack_slip (n : Fin 12) (f : Stack → Stack) : (s.modStack n f).slip = s.slip := rfl
@[simp] theorem State.modStack_links (n : Fin 12) (f : Stack → Stack) : (s.modStack n f).links = s.links := rfl
@[simp] theorem State.modStack_chain (n : Fin 12) (f : Stack → Stack) : (s.modStack n f).chain = s.chain := rfl
@[simp] theorem State.modStack_sec (n : Fin 12) (f : Stack → Stack) : (s.modStack n f).sec = s.sec := rfl
@[simp] theorem State.modStack_rst (n : Fin 12) (f : Stack → Stack) : (s.modStack n f).rst = s.rst := rfl
@[simp] theorem State.modStack_evr (n : Fin 12) (f : Stack → Stack) : (s.modStack n f).evr = s.evr := rfl
@[simp] theorem State.modStack_hlt (n : Fin 12) (f : Stack → Stack) : (s.modStack n f).hlt = s.hlt := rfl
@[simp] theorem State.modStack_plan (n : Fin 12) (f : Stack → Stack) : (s.modStack n f).plan = s.plan := rfl
@[simp] theorem State.modStack_loaded (n : Fin 12) (f : Stack → Stack) : (s.modStack n f).loaded = s.loaded := rfl
@[simp] theorem State.modStack_fit (n : Fin 12) (f : Stack → Stack) : (s.modStack n f).fit = s.fit := rfl
@[simp] theorem State.modStack_step (n : Fin 12) (f : Stack → Stack) : (s.modStack n f).step = s.step := rfl
@[simp] theorem State.modStack_loads (n : Fin 12) (f : Stack → Stack) : (s.modStack n f).loads = s.loads := rfl
@[simp] theorem State.modStack_begun (n : Fin 12) (f : Stack → Stack) : (s.modStack n f).begun = s.begun := rfl
@[simp] theorem State.modStack_hostLeaves (n : Fin 12) (f : Stack → Stack) : (s.modStack n f).hostLeaves = s.hostLeaves := rfl
@[simp] theorem State.modStack_loadedChunks (n : Fin 12) (f : Stack → Stack) : (s.modStack n f).loadedChunks = s.loadedChunks := rfl
@[simp] theorem State.modStack_withheld (n : Fin 12) (f : Stack → Stack) : (s.modStack n f).withheld = s.withheld := rfl
@[simp] theorem State.modStack_answer (n : Fin 12) (f : Stack → Stack) : (s.modStack n f).answer = s.answer := rfl
@[simp] theorem State.modStack_mxScales (n : Fin 12) (f : Stack → Stack) : (s.modStack n f).mxScales = s.mxScales := rfl
@[simp] theorem State.modStack_fresh (n : Fin 12) (f : Stack → Stack) : (s.modStack n f).fresh = s.fresh := rfl
@[simp] theorem State.modStack_keepHeld (n : Fin 12) (f : Stack → Stack) : (s.modStack n f).keepHeld = s.keepHeld := rfl

/-! `modStc`. -/

@[simp] theorem State.modStc_pending (n : Fin 8) (f : Stash → Stash) : (s.modStc n f).pending = s.pending := rfl
@[simp] theorem State.modStc_dev (n : Fin 8) (f : Stash → Stash) : (s.modStc n f).dev = s.dev := rfl
@[simp] theorem State.modStc_ports (n : Fin 8) (f : Stash → Stash) : (s.modStc n f).ports = s.ports := rfl
@[simp] theorem State.modStc_vio (n : Fin 8) (f : Stash → Stash) : (s.modStc n f).vio = s.vio := rfl
@[simp] theorem State.modStc_cores (n : Fin 8) (f : Stash → Stash) : (s.modStc n f).cores = s.cores := rfl
@[simp] theorem State.modStc_gales (n : Fin 8) (f : Stash → Stash) : (s.modStc n f).gales = s.gales := rfl
@[simp] theorem State.modStc_draughts (n : Fin 8) (f : Stash → Stash) : (s.modStc n f).draughts = s.draughts := rfl
@[simp] theorem State.modStc_chainVanes (n : Fin 8) (f : Stash → Stash) : (s.modStc n f).chainVanes = s.chainVanes := rfl
@[simp] theorem State.modStc_chainOverflowSeen (n : Fin 8) (f : Stash → Stash) : (s.modStc n f).chainOverflowSeen = s.chainOverflowSeen := rfl
@[simp] theorem State.modStc_chainDiscardSeen (n : Fin 8) (f : Stash → Stash) : (s.modStc n f).chainDiscardSeen = s.chainDiscardSeen := rfl
@[simp] theorem State.modStc_frozen (n : Fin 8) (f : Stash → Stash) : (s.modStc n f).frozen = s.frozen := rfl
@[simp] theorem State.modStc_chainBank (n : Fin 8) (f : Stash → Stash) : (s.modStc n f).chainBank = s.chainBank := rfl
@[simp] theorem State.modStc_signals (n : Fin 8) (f : Stash → Stash) : (s.modStc n f).signals = s.signals := rfl
@[simp] theorem State.modStc_mem (n : Fin 8) (f : Stash → Stash) : (s.modStc n f).mem = s.mem := rfl
@[simp] theorem State.modStc_stash (n : Fin 8) (f : Stash → Stash) : (s.modStc n f).stash = upd s.stash n f := rfl
@[simp] theorem State.modStc_foehn (n : Fin 8) (f : Stash → Stash) : (s.modStc n f).foehn = s.foehn := rfl
@[simp] theorem State.modStc_slip (n : Fin 8) (f : Stash → Stash) : (s.modStc n f).slip = s.slip := rfl
@[simp] theorem State.modStc_links (n : Fin 8) (f : Stash → Stash) : (s.modStc n f).links = s.links := rfl
@[simp] theorem State.modStc_chain (n : Fin 8) (f : Stash → Stash) : (s.modStc n f).chain = s.chain := rfl
@[simp] theorem State.modStc_sec (n : Fin 8) (f : Stash → Stash) : (s.modStc n f).sec = s.sec := rfl
@[simp] theorem State.modStc_rst (n : Fin 8) (f : Stash → Stash) : (s.modStc n f).rst = s.rst := rfl
@[simp] theorem State.modStc_evr (n : Fin 8) (f : Stash → Stash) : (s.modStc n f).evr = s.evr := rfl
@[simp] theorem State.modStc_hlt (n : Fin 8) (f : Stash → Stash) : (s.modStc n f).hlt = s.hlt := rfl
@[simp] theorem State.modStc_plan (n : Fin 8) (f : Stash → Stash) : (s.modStc n f).plan = s.plan := rfl
@[simp] theorem State.modStc_loaded (n : Fin 8) (f : Stash → Stash) : (s.modStc n f).loaded = s.loaded := rfl
@[simp] theorem State.modStc_fit (n : Fin 8) (f : Stash → Stash) : (s.modStc n f).fit = s.fit := rfl
@[simp] theorem State.modStc_step (n : Fin 8) (f : Stash → Stash) : (s.modStc n f).step = s.step := rfl
@[simp] theorem State.modStc_loads (n : Fin 8) (f : Stash → Stash) : (s.modStc n f).loads = s.loads := rfl
@[simp] theorem State.modStc_begun (n : Fin 8) (f : Stash → Stash) : (s.modStc n f).begun = s.begun := rfl
@[simp] theorem State.modStc_hostLeaves (n : Fin 8) (f : Stash → Stash) : (s.modStc n f).hostLeaves = s.hostLeaves := rfl
@[simp] theorem State.modStc_loadedChunks (n : Fin 8) (f : Stash → Stash) : (s.modStc n f).loadedChunks = s.loadedChunks := rfl
@[simp] theorem State.modStc_withheld (n : Fin 8) (f : Stash → Stash) : (s.modStc n f).withheld = s.withheld := rfl
@[simp] theorem State.modStc_answer (n : Fin 8) (f : Stash → Stash) : (s.modStc n f).answer = s.answer := rfl
@[simp] theorem State.modStc_mxScales (n : Fin 8) (f : Stash → Stash) : (s.modStc n f).mxScales = s.mxScales := rfl
@[simp] theorem State.modStc_fresh (n : Fin 8) (f : Stash → Stash) : (s.modStc n f).fresh = s.fresh := rfl
@[simp] theorem State.modStc_keepHeld (n : Fin 8) (f : Stash → Stash) : (s.modStc n f).keepHeld = s.keepHeld := rfl

/-! `modFhn`. -/

@[simp] theorem State.modFhn_pending (n : Fin 12) (f : Foehn → Foehn) : (s.modFhn n f).pending = s.pending := rfl
@[simp] theorem State.modFhn_dev (n : Fin 12) (f : Foehn → Foehn) : (s.modFhn n f).dev = s.dev := rfl
@[simp] theorem State.modFhn_ports (n : Fin 12) (f : Foehn → Foehn) : (s.modFhn n f).ports = s.ports := rfl
@[simp] theorem State.modFhn_vio (n : Fin 12) (f : Foehn → Foehn) : (s.modFhn n f).vio = s.vio := rfl
@[simp] theorem State.modFhn_cores (n : Fin 12) (f : Foehn → Foehn) : (s.modFhn n f).cores = s.cores := rfl
@[simp] theorem State.modFhn_gales (n : Fin 12) (f : Foehn → Foehn) : (s.modFhn n f).gales = s.gales := rfl
@[simp] theorem State.modFhn_draughts (n : Fin 12) (f : Foehn → Foehn) : (s.modFhn n f).draughts = s.draughts := rfl
@[simp] theorem State.modFhn_chainVanes (n : Fin 12) (f : Foehn → Foehn) : (s.modFhn n f).chainVanes = s.chainVanes := rfl
@[simp] theorem State.modFhn_chainOverflowSeen (n : Fin 12) (f : Foehn → Foehn) : (s.modFhn n f).chainOverflowSeen = s.chainOverflowSeen := rfl
@[simp] theorem State.modFhn_chainDiscardSeen (n : Fin 12) (f : Foehn → Foehn) : (s.modFhn n f).chainDiscardSeen = s.chainDiscardSeen := rfl
@[simp] theorem State.modFhn_frozen (n : Fin 12) (f : Foehn → Foehn) : (s.modFhn n f).frozen = s.frozen := rfl
@[simp] theorem State.modFhn_chainBank (n : Fin 12) (f : Foehn → Foehn) : (s.modFhn n f).chainBank = s.chainBank := rfl
@[simp] theorem State.modFhn_signals (n : Fin 12) (f : Foehn → Foehn) : (s.modFhn n f).signals = s.signals := rfl
@[simp] theorem State.modFhn_mem (n : Fin 12) (f : Foehn → Foehn) : (s.modFhn n f).mem = s.mem := rfl
@[simp] theorem State.modFhn_stash (n : Fin 12) (f : Foehn → Foehn) : (s.modFhn n f).stash = s.stash := rfl
@[simp] theorem State.modFhn_foehn (n : Fin 12) (f : Foehn → Foehn) : (s.modFhn n f).foehn = upd s.foehn n f := rfl
@[simp] theorem State.modFhn_slip (n : Fin 12) (f : Foehn → Foehn) : (s.modFhn n f).slip = s.slip := rfl
@[simp] theorem State.modFhn_links (n : Fin 12) (f : Foehn → Foehn) : (s.modFhn n f).links = s.links := rfl
@[simp] theorem State.modFhn_chain (n : Fin 12) (f : Foehn → Foehn) : (s.modFhn n f).chain = s.chain := rfl
@[simp] theorem State.modFhn_sec (n : Fin 12) (f : Foehn → Foehn) : (s.modFhn n f).sec = s.sec := rfl
@[simp] theorem State.modFhn_rst (n : Fin 12) (f : Foehn → Foehn) : (s.modFhn n f).rst = s.rst := rfl
@[simp] theorem State.modFhn_evr (n : Fin 12) (f : Foehn → Foehn) : (s.modFhn n f).evr = s.evr := rfl
@[simp] theorem State.modFhn_hlt (n : Fin 12) (f : Foehn → Foehn) : (s.modFhn n f).hlt = s.hlt := rfl
@[simp] theorem State.modFhn_plan (n : Fin 12) (f : Foehn → Foehn) : (s.modFhn n f).plan = s.plan := rfl
@[simp] theorem State.modFhn_loaded (n : Fin 12) (f : Foehn → Foehn) : (s.modFhn n f).loaded = s.loaded := rfl
@[simp] theorem State.modFhn_fit (n : Fin 12) (f : Foehn → Foehn) : (s.modFhn n f).fit = s.fit := rfl
@[simp] theorem State.modFhn_step (n : Fin 12) (f : Foehn → Foehn) : (s.modFhn n f).step = s.step := rfl
@[simp] theorem State.modFhn_loads (n : Fin 12) (f : Foehn → Foehn) : (s.modFhn n f).loads = s.loads := rfl
@[simp] theorem State.modFhn_begun (n : Fin 12) (f : Foehn → Foehn) : (s.modFhn n f).begun = s.begun := rfl
@[simp] theorem State.modFhn_hostLeaves (n : Fin 12) (f : Foehn → Foehn) : (s.modFhn n f).hostLeaves = s.hostLeaves := rfl
@[simp] theorem State.modFhn_loadedChunks (n : Fin 12) (f : Foehn → Foehn) : (s.modFhn n f).loadedChunks = s.loadedChunks := rfl
@[simp] theorem State.modFhn_withheld (n : Fin 12) (f : Foehn → Foehn) : (s.modFhn n f).withheld = s.withheld := rfl
@[simp] theorem State.modFhn_answer (n : Fin 12) (f : Foehn → Foehn) : (s.modFhn n f).answer = s.answer := rfl
@[simp] theorem State.modFhn_mxScales (n : Fin 12) (f : Foehn → Foehn) : (s.modFhn n f).mxScales = s.mxScales := rfl
@[simp] theorem State.modFhn_fresh (n : Fin 12) (f : Foehn → Foehn) : (s.modFhn n f).fresh = s.fresh := rfl
@[simp] theorem State.modFhn_keepHeld (n : Fin 12) (f : Foehn → Foehn) : (s.modFhn n f).keepHeld = s.keepHeld := rfl

/-! `modLink`. -/

@[simp] theorem State.modLink_pending (l : Fin 36) (f : Link → Link) : (s.modLink l f).pending = s.pending := rfl
@[simp] theorem State.modLink_dev (l : Fin 36) (f : Link → Link) : (s.modLink l f).dev = s.dev := rfl
@[simp] theorem State.modLink_ports (l : Fin 36) (f : Link → Link) : (s.modLink l f).ports = s.ports := rfl
@[simp] theorem State.modLink_vio (l : Fin 36) (f : Link → Link) : (s.modLink l f).vio = s.vio := rfl
@[simp] theorem State.modLink_cores (l : Fin 36) (f : Link → Link) : (s.modLink l f).cores = s.cores := rfl
@[simp] theorem State.modLink_gales (l : Fin 36) (f : Link → Link) : (s.modLink l f).gales = s.gales := rfl
@[simp] theorem State.modLink_draughts (l : Fin 36) (f : Link → Link) : (s.modLink l f).draughts = s.draughts := rfl
@[simp] theorem State.modLink_chainVanes (l : Fin 36) (f : Link → Link) : (s.modLink l f).chainVanes = s.chainVanes := rfl
@[simp] theorem State.modLink_chainOverflowSeen (l : Fin 36) (f : Link → Link) : (s.modLink l f).chainOverflowSeen = s.chainOverflowSeen := rfl
@[simp] theorem State.modLink_chainDiscardSeen (l : Fin 36) (f : Link → Link) : (s.modLink l f).chainDiscardSeen = s.chainDiscardSeen := rfl
@[simp] theorem State.modLink_frozen (l : Fin 36) (f : Link → Link) : (s.modLink l f).frozen = s.frozen := rfl
@[simp] theorem State.modLink_chainBank (l : Fin 36) (f : Link → Link) : (s.modLink l f).chainBank = s.chainBank := rfl
@[simp] theorem State.modLink_signals (l : Fin 36) (f : Link → Link) : (s.modLink l f).signals = s.signals := rfl
@[simp] theorem State.modLink_mem (l : Fin 36) (f : Link → Link) : (s.modLink l f).mem = s.mem := rfl
@[simp] theorem State.modLink_stash (l : Fin 36) (f : Link → Link) : (s.modLink l f).stash = s.stash := rfl
@[simp] theorem State.modLink_foehn (l : Fin 36) (f : Link → Link) : (s.modLink l f).foehn = s.foehn := rfl
@[simp] theorem State.modLink_slip (l : Fin 36) (f : Link → Link) : (s.modLink l f).slip = s.slip := rfl
@[simp] theorem State.modLink_links (l : Fin 36) (f : Link → Link) : (s.modLink l f).links = upd s.links l f := rfl
@[simp] theorem State.modLink_chain (l : Fin 36) (f : Link → Link) : (s.modLink l f).chain = s.chain := rfl
@[simp] theorem State.modLink_sec (l : Fin 36) (f : Link → Link) : (s.modLink l f).sec = s.sec := rfl
@[simp] theorem State.modLink_rst (l : Fin 36) (f : Link → Link) : (s.modLink l f).rst = s.rst := rfl
@[simp] theorem State.modLink_evr (l : Fin 36) (f : Link → Link) : (s.modLink l f).evr = s.evr := rfl
@[simp] theorem State.modLink_hlt (l : Fin 36) (f : Link → Link) : (s.modLink l f).hlt = s.hlt := rfl
@[simp] theorem State.modLink_plan (l : Fin 36) (f : Link → Link) : (s.modLink l f).plan = s.plan := rfl
@[simp] theorem State.modLink_loaded (l : Fin 36) (f : Link → Link) : (s.modLink l f).loaded = s.loaded := rfl
@[simp] theorem State.modLink_fit (l : Fin 36) (f : Link → Link) : (s.modLink l f).fit = s.fit := rfl
@[simp] theorem State.modLink_step (l : Fin 36) (f : Link → Link) : (s.modLink l f).step = s.step := rfl
@[simp] theorem State.modLink_loads (l : Fin 36) (f : Link → Link) : (s.modLink l f).loads = s.loads := rfl
@[simp] theorem State.modLink_begun (l : Fin 36) (f : Link → Link) : (s.modLink l f).begun = s.begun := rfl
@[simp] theorem State.modLink_hostLeaves (l : Fin 36) (f : Link → Link) : (s.modLink l f).hostLeaves = s.hostLeaves := rfl
@[simp] theorem State.modLink_loadedChunks (l : Fin 36) (f : Link → Link) : (s.modLink l f).loadedChunks = s.loadedChunks := rfl
@[simp] theorem State.modLink_withheld (l : Fin 36) (f : Link → Link) : (s.modLink l f).withheld = s.withheld := rfl
@[simp] theorem State.modLink_answer (l : Fin 36) (f : Link → Link) : (s.modLink l f).answer = s.answer := rfl
@[simp] theorem State.modLink_mxScales (l : Fin 36) (f : Link → Link) : (s.modLink l f).mxScales = s.mxScales := rfl
@[simp] theorem State.modLink_fresh (l : Fin 36) (f : Link → Link) : (s.modLink l f).fresh = s.fresh := rfl
@[simp] theorem State.modLink_keepHeld (l : Fin 36) (f : Link → Link) : (s.modLink l f).keepHeld = s.keepHeld := rfl

/-! `modEddy`. -/

@[simp] theorem State.modEddy_pending (c : Fin 4) (f : Eddy → Eddy) : (s.modEddy c f).pending = s.pending := rfl
@[simp] theorem State.modEddy_dev (c : Fin 4) (f : Eddy → Eddy) : (s.modEddy c f).dev = s.dev := rfl
@[simp] theorem State.modEddy_ports (c : Fin 4) (f : Eddy → Eddy) : (s.modEddy c f).ports = s.ports := rfl
@[simp] theorem State.modEddy_vio (c : Fin 4) (f : Eddy → Eddy) : (s.modEddy c f).vio = s.vio := rfl
@[simp] theorem State.modEddy_gales (c : Fin 4) (f : Eddy → Eddy) : (s.modEddy c f).gales = s.gales := rfl
@[simp] theorem State.modEddy_draughts (c : Fin 4) (f : Eddy → Eddy) : (s.modEddy c f).draughts = s.draughts := rfl
@[simp] theorem State.modEddy_chainVanes (c : Fin 4) (f : Eddy → Eddy) : (s.modEddy c f).chainVanes = s.chainVanes := rfl
@[simp] theorem State.modEddy_chainOverflowSeen (c : Fin 4) (f : Eddy → Eddy) : (s.modEddy c f).chainOverflowSeen = s.chainOverflowSeen := rfl
@[simp] theorem State.modEddy_chainDiscardSeen (c : Fin 4) (f : Eddy → Eddy) : (s.modEddy c f).chainDiscardSeen = s.chainDiscardSeen := rfl
@[simp] theorem State.modEddy_frozen (c : Fin 4) (f : Eddy → Eddy) : (s.modEddy c f).frozen = s.frozen := rfl
@[simp] theorem State.modEddy_chainBank (c : Fin 4) (f : Eddy → Eddy) : (s.modEddy c f).chainBank = s.chainBank := rfl
@[simp] theorem State.modEddy_signals (c : Fin 4) (f : Eddy → Eddy) : (s.modEddy c f).signals = s.signals := rfl
@[simp] theorem State.modEddy_mem (c : Fin 4) (f : Eddy → Eddy) : (s.modEddy c f).mem = s.mem := rfl
@[simp] theorem State.modEddy_stash (c : Fin 4) (f : Eddy → Eddy) : (s.modEddy c f).stash = s.stash := rfl
@[simp] theorem State.modEddy_foehn (c : Fin 4) (f : Eddy → Eddy) : (s.modEddy c f).foehn = s.foehn := rfl
@[simp] theorem State.modEddy_slip (c : Fin 4) (f : Eddy → Eddy) : (s.modEddy c f).slip = s.slip := rfl
@[simp] theorem State.modEddy_links (c : Fin 4) (f : Eddy → Eddy) : (s.modEddy c f).links = s.links := rfl
@[simp] theorem State.modEddy_chain (c : Fin 4) (f : Eddy → Eddy) : (s.modEddy c f).chain = s.chain := rfl
@[simp] theorem State.modEddy_sec (c : Fin 4) (f : Eddy → Eddy) : (s.modEddy c f).sec = s.sec := rfl
@[simp] theorem State.modEddy_rst (c : Fin 4) (f : Eddy → Eddy) : (s.modEddy c f).rst = s.rst := rfl
@[simp] theorem State.modEddy_evr (c : Fin 4) (f : Eddy → Eddy) : (s.modEddy c f).evr = s.evr := rfl
@[simp] theorem State.modEddy_hlt (c : Fin 4) (f : Eddy → Eddy) : (s.modEddy c f).hlt = s.hlt := rfl
@[simp] theorem State.modEddy_plan (c : Fin 4) (f : Eddy → Eddy) : (s.modEddy c f).plan = s.plan := rfl
@[simp] theorem State.modEddy_loaded (c : Fin 4) (f : Eddy → Eddy) : (s.modEddy c f).loaded = s.loaded := rfl
@[simp] theorem State.modEddy_fit (c : Fin 4) (f : Eddy → Eddy) : (s.modEddy c f).fit = s.fit := rfl
@[simp] theorem State.modEddy_step (c : Fin 4) (f : Eddy → Eddy) : (s.modEddy c f).step = s.step := rfl
@[simp] theorem State.modEddy_loads (c : Fin 4) (f : Eddy → Eddy) : (s.modEddy c f).loads = s.loads := rfl
@[simp] theorem State.modEddy_begun (c : Fin 4) (f : Eddy → Eddy) : (s.modEddy c f).begun = s.begun := rfl
@[simp] theorem State.modEddy_hostLeaves (c : Fin 4) (f : Eddy → Eddy) : (s.modEddy c f).hostLeaves = s.hostLeaves := rfl
@[simp] theorem State.modEddy_loadedChunks (c : Fin 4) (f : Eddy → Eddy) : (s.modEddy c f).loadedChunks = s.loadedChunks := rfl
@[simp] theorem State.modEddy_withheld (c : Fin 4) (f : Eddy → Eddy) : (s.modEddy c f).withheld = s.withheld := rfl
@[simp] theorem State.modEddy_answer (c : Fin 4) (f : Eddy → Eddy) : (s.modEddy c f).answer = s.answer := rfl
@[simp] theorem State.modEddy_mxScales (c : Fin 4) (f : Eddy → Eddy) : (s.modEddy c f).mxScales = s.mxScales := rfl
@[simp] theorem State.modEddy_fresh (c : Fin 4) (f : Eddy → Eddy) : (s.modEddy c f).fresh = s.fresh := rfl
@[simp] theorem State.modEddy_keepHeld (c : Fin 4) (f : Eddy → Eddy) : (s.modEddy c f).keepHeld = s.keepHeld := rfl

/-! `modVeer`. -/

@[simp] theorem State.modVeer_pending (c : Fin 4) (f : Veer → Veer) : (s.modVeer c f).pending = s.pending := rfl
@[simp] theorem State.modVeer_dev (c : Fin 4) (f : Veer → Veer) : (s.modVeer c f).dev = s.dev := rfl
@[simp] theorem State.modVeer_ports (c : Fin 4) (f : Veer → Veer) : (s.modVeer c f).ports = s.ports := rfl
@[simp] theorem State.modVeer_vio (c : Fin 4) (f : Veer → Veer) : (s.modVeer c f).vio = s.vio := rfl
@[simp] theorem State.modVeer_gales (c : Fin 4) (f : Veer → Veer) : (s.modVeer c f).gales = s.gales := rfl
@[simp] theorem State.modVeer_draughts (c : Fin 4) (f : Veer → Veer) : (s.modVeer c f).draughts = s.draughts := rfl
@[simp] theorem State.modVeer_chainVanes (c : Fin 4) (f : Veer → Veer) : (s.modVeer c f).chainVanes = s.chainVanes := rfl
@[simp] theorem State.modVeer_chainOverflowSeen (c : Fin 4) (f : Veer → Veer) : (s.modVeer c f).chainOverflowSeen = s.chainOverflowSeen := rfl
@[simp] theorem State.modVeer_chainDiscardSeen (c : Fin 4) (f : Veer → Veer) : (s.modVeer c f).chainDiscardSeen = s.chainDiscardSeen := rfl
@[simp] theorem State.modVeer_frozen (c : Fin 4) (f : Veer → Veer) : (s.modVeer c f).frozen = s.frozen := rfl
@[simp] theorem State.modVeer_chainBank (c : Fin 4) (f : Veer → Veer) : (s.modVeer c f).chainBank = s.chainBank := rfl
@[simp] theorem State.modVeer_signals (c : Fin 4) (f : Veer → Veer) : (s.modVeer c f).signals = s.signals := rfl
@[simp] theorem State.modVeer_mem (c : Fin 4) (f : Veer → Veer) : (s.modVeer c f).mem = s.mem := rfl
@[simp] theorem State.modVeer_stash (c : Fin 4) (f : Veer → Veer) : (s.modVeer c f).stash = s.stash := rfl
@[simp] theorem State.modVeer_foehn (c : Fin 4) (f : Veer → Veer) : (s.modVeer c f).foehn = s.foehn := rfl
@[simp] theorem State.modVeer_slip (c : Fin 4) (f : Veer → Veer) : (s.modVeer c f).slip = s.slip := rfl
@[simp] theorem State.modVeer_links (c : Fin 4) (f : Veer → Veer) : (s.modVeer c f).links = s.links := rfl
@[simp] theorem State.modVeer_chain (c : Fin 4) (f : Veer → Veer) : (s.modVeer c f).chain = s.chain := rfl
@[simp] theorem State.modVeer_sec (c : Fin 4) (f : Veer → Veer) : (s.modVeer c f).sec = s.sec := rfl
@[simp] theorem State.modVeer_rst (c : Fin 4) (f : Veer → Veer) : (s.modVeer c f).rst = s.rst := rfl
@[simp] theorem State.modVeer_evr (c : Fin 4) (f : Veer → Veer) : (s.modVeer c f).evr = s.evr := rfl
@[simp] theorem State.modVeer_hlt (c : Fin 4) (f : Veer → Veer) : (s.modVeer c f).hlt = s.hlt := rfl
@[simp] theorem State.modVeer_plan (c : Fin 4) (f : Veer → Veer) : (s.modVeer c f).plan = s.plan := rfl
@[simp] theorem State.modVeer_loaded (c : Fin 4) (f : Veer → Veer) : (s.modVeer c f).loaded = s.loaded := rfl
@[simp] theorem State.modVeer_fit (c : Fin 4) (f : Veer → Veer) : (s.modVeer c f).fit = s.fit := rfl
@[simp] theorem State.modVeer_step (c : Fin 4) (f : Veer → Veer) : (s.modVeer c f).step = s.step := rfl
@[simp] theorem State.modVeer_loads (c : Fin 4) (f : Veer → Veer) : (s.modVeer c f).loads = s.loads := rfl
@[simp] theorem State.modVeer_begun (c : Fin 4) (f : Veer → Veer) : (s.modVeer c f).begun = s.begun := rfl
@[simp] theorem State.modVeer_hostLeaves (c : Fin 4) (f : Veer → Veer) : (s.modVeer c f).hostLeaves = s.hostLeaves := rfl
@[simp] theorem State.modVeer_loadedChunks (c : Fin 4) (f : Veer → Veer) : (s.modVeer c f).loadedChunks = s.loadedChunks := rfl
@[simp] theorem State.modVeer_withheld (c : Fin 4) (f : Veer → Veer) : (s.modVeer c f).withheld = s.withheld := rfl
@[simp] theorem State.modVeer_answer (c : Fin 4) (f : Veer → Veer) : (s.modVeer c f).answer = s.answer := rfl
@[simp] theorem State.modVeer_mxScales (c : Fin 4) (f : Veer → Veer) : (s.modVeer c f).mxScales = s.mxScales := rfl
@[simp] theorem State.modVeer_fresh (c : Fin 4) (f : Veer → Veer) : (s.modVeer c f).fresh = s.fresh := rfl
@[simp] theorem State.modVeer_keepHeld (c : Fin 4) (f : Veer → Veer) : (s.modVeer c f).keepHeld = s.keepHeld := rfl

/-! `modDev`. -/

@[simp] theorem State.modDev_pending (f : Dev → Dev) : (s.modDev f).pending = s.pending := rfl
@[simp] theorem State.modDev_dev (f : Dev → Dev) : (s.modDev f).dev = f s.dev := rfl
@[simp] theorem State.modDev_ports (f : Dev → Dev) : (s.modDev f).ports = s.ports := rfl
@[simp] theorem State.modDev_vio (f : Dev → Dev) : (s.modDev f).vio = s.vio := rfl
@[simp] theorem State.modDev_cores (f : Dev → Dev) : (s.modDev f).cores = s.cores := rfl
@[simp] theorem State.modDev_gales (f : Dev → Dev) : (s.modDev f).gales = s.gales := rfl
@[simp] theorem State.modDev_draughts (f : Dev → Dev) : (s.modDev f).draughts = s.draughts := rfl
@[simp] theorem State.modDev_chainVanes (f : Dev → Dev) : (s.modDev f).chainVanes = s.chainVanes := rfl
@[simp] theorem State.modDev_chainOverflowSeen (f : Dev → Dev) : (s.modDev f).chainOverflowSeen = s.chainOverflowSeen := rfl
@[simp] theorem State.modDev_chainDiscardSeen (f : Dev → Dev) : (s.modDev f).chainDiscardSeen = s.chainDiscardSeen := rfl
@[simp] theorem State.modDev_frozen (f : Dev → Dev) : (s.modDev f).frozen = s.frozen := rfl
@[simp] theorem State.modDev_chainBank (f : Dev → Dev) : (s.modDev f).chainBank = s.chainBank := rfl
@[simp] theorem State.modDev_signals (f : Dev → Dev) : (s.modDev f).signals = s.signals := rfl
@[simp] theorem State.modDev_mem (f : Dev → Dev) : (s.modDev f).mem = s.mem := rfl
@[simp] theorem State.modDev_stash (f : Dev → Dev) : (s.modDev f).stash = s.stash := rfl
@[simp] theorem State.modDev_foehn (f : Dev → Dev) : (s.modDev f).foehn = s.foehn := rfl
@[simp] theorem State.modDev_slip (f : Dev → Dev) : (s.modDev f).slip = s.slip := rfl
@[simp] theorem State.modDev_links (f : Dev → Dev) : (s.modDev f).links = s.links := rfl
@[simp] theorem State.modDev_chain (f : Dev → Dev) : (s.modDev f).chain = s.chain := rfl
@[simp] theorem State.modDev_sec (f : Dev → Dev) : (s.modDev f).sec = s.sec := rfl
@[simp] theorem State.modDev_rst (f : Dev → Dev) : (s.modDev f).rst = s.rst := rfl
@[simp] theorem State.modDev_evr (f : Dev → Dev) : (s.modDev f).evr = s.evr := rfl
@[simp] theorem State.modDev_hlt (f : Dev → Dev) : (s.modDev f).hlt = s.hlt := rfl
@[simp] theorem State.modDev_plan (f : Dev → Dev) : (s.modDev f).plan = s.plan := rfl
@[simp] theorem State.modDev_loaded (f : Dev → Dev) : (s.modDev f).loaded = s.loaded := rfl
@[simp] theorem State.modDev_fit (f : Dev → Dev) : (s.modDev f).fit = s.fit := rfl
@[simp] theorem State.modDev_step (f : Dev → Dev) : (s.modDev f).step = s.step := rfl
@[simp] theorem State.modDev_loads (f : Dev → Dev) : (s.modDev f).loads = s.loads := rfl
@[simp] theorem State.modDev_begun (f : Dev → Dev) : (s.modDev f).begun = s.begun := rfl
@[simp] theorem State.modDev_hostLeaves (f : Dev → Dev) : (s.modDev f).hostLeaves = s.hostLeaves := rfl
@[simp] theorem State.modDev_loadedChunks (f : Dev → Dev) : (s.modDev f).loadedChunks = s.loadedChunks := rfl
@[simp] theorem State.modDev_withheld (f : Dev → Dev) : (s.modDev f).withheld = s.withheld := rfl
@[simp] theorem State.modDev_answer (f : Dev → Dev) : (s.modDev f).answer = s.answer := rfl
@[simp] theorem State.modDev_mxScales (f : Dev → Dev) : (s.modDev f).mxScales = s.mxScales := rfl
@[simp] theorem State.modDev_fresh (f : Dev → Dev) : (s.modDev f).fresh = s.fresh := rfl
@[simp] theorem State.modDev_keepHeld (f : Dev → Dev) : (s.modDev f).keepHeld = s.keepHeld := rfl

/-! `modPorts`. -/

@[simp] theorem State.modPorts_pending (f : Ports → Ports) : (s.modPorts f).pending = s.pending := rfl
@[simp] theorem State.modPorts_dev (f : Ports → Ports) : (s.modPorts f).dev = s.dev := rfl
@[simp] theorem State.modPorts_ports (f : Ports → Ports) : (s.modPorts f).ports = f s.ports := rfl
@[simp] theorem State.modPorts_vio (f : Ports → Ports) : (s.modPorts f).vio = s.vio := rfl
@[simp] theorem State.modPorts_cores (f : Ports → Ports) : (s.modPorts f).cores = s.cores := rfl
@[simp] theorem State.modPorts_gales (f : Ports → Ports) : (s.modPorts f).gales = s.gales := rfl
@[simp] theorem State.modPorts_draughts (f : Ports → Ports) : (s.modPorts f).draughts = s.draughts := rfl
@[simp] theorem State.modPorts_chainVanes (f : Ports → Ports) : (s.modPorts f).chainVanes = s.chainVanes := rfl
@[simp] theorem State.modPorts_chainOverflowSeen (f : Ports → Ports) : (s.modPorts f).chainOverflowSeen = s.chainOverflowSeen := rfl
@[simp] theorem State.modPorts_chainDiscardSeen (f : Ports → Ports) : (s.modPorts f).chainDiscardSeen = s.chainDiscardSeen := rfl
@[simp] theorem State.modPorts_frozen (f : Ports → Ports) : (s.modPorts f).frozen = s.frozen := rfl
@[simp] theorem State.modPorts_chainBank (f : Ports → Ports) : (s.modPorts f).chainBank = s.chainBank := rfl
@[simp] theorem State.modPorts_signals (f : Ports → Ports) : (s.modPorts f).signals = s.signals := rfl
@[simp] theorem State.modPorts_mem (f : Ports → Ports) : (s.modPorts f).mem = s.mem := rfl
@[simp] theorem State.modPorts_stash (f : Ports → Ports) : (s.modPorts f).stash = s.stash := rfl
@[simp] theorem State.modPorts_foehn (f : Ports → Ports) : (s.modPorts f).foehn = s.foehn := rfl
@[simp] theorem State.modPorts_slip (f : Ports → Ports) : (s.modPorts f).slip = s.slip := rfl
@[simp] theorem State.modPorts_links (f : Ports → Ports) : (s.modPorts f).links = s.links := rfl
@[simp] theorem State.modPorts_chain (f : Ports → Ports) : (s.modPorts f).chain = s.chain := rfl
@[simp] theorem State.modPorts_sec (f : Ports → Ports) : (s.modPorts f).sec = s.sec := rfl
@[simp] theorem State.modPorts_rst (f : Ports → Ports) : (s.modPorts f).rst = s.rst := rfl
@[simp] theorem State.modPorts_evr (f : Ports → Ports) : (s.modPorts f).evr = s.evr := rfl
@[simp] theorem State.modPorts_hlt (f : Ports → Ports) : (s.modPorts f).hlt = s.hlt := rfl
@[simp] theorem State.modPorts_plan (f : Ports → Ports) : (s.modPorts f).plan = s.plan := rfl
@[simp] theorem State.modPorts_loaded (f : Ports → Ports) : (s.modPorts f).loaded = s.loaded := rfl
@[simp] theorem State.modPorts_fit (f : Ports → Ports) : (s.modPorts f).fit = s.fit := rfl
@[simp] theorem State.modPorts_step (f : Ports → Ports) : (s.modPorts f).step = s.step := rfl
@[simp] theorem State.modPorts_loads (f : Ports → Ports) : (s.modPorts f).loads = s.loads := rfl
@[simp] theorem State.modPorts_begun (f : Ports → Ports) : (s.modPorts f).begun = s.begun := rfl
@[simp] theorem State.modPorts_hostLeaves (f : Ports → Ports) : (s.modPorts f).hostLeaves = s.hostLeaves := rfl
@[simp] theorem State.modPorts_loadedChunks (f : Ports → Ports) : (s.modPorts f).loadedChunks = s.loadedChunks := rfl
@[simp] theorem State.modPorts_withheld (f : Ports → Ports) : (s.modPorts f).withheld = s.withheld := rfl
@[simp] theorem State.modPorts_answer (f : Ports → Ports) : (s.modPorts f).answer = s.answer := rfl
@[simp] theorem State.modPorts_mxScales (f : Ports → Ports) : (s.modPorts f).mxScales = s.mxScales := rfl
@[simp] theorem State.modPorts_fresh (f : Ports → Ports) : (s.modPorts f).fresh = s.fresh := rfl
@[simp] theorem State.modPorts_keepHeld (f : Ports → Ports) : (s.modPorts f).keepHeld = s.keepHeld := rfl

/-! `modChain`. -/

@[simp] theorem State.modChain_pending (f : ChainSt → ChainSt) : (s.modChain f).pending = s.pending := rfl
@[simp] theorem State.modChain_dev (f : ChainSt → ChainSt) : (s.modChain f).dev = s.dev := rfl
@[simp] theorem State.modChain_ports (f : ChainSt → ChainSt) : (s.modChain f).ports = s.ports := rfl
@[simp] theorem State.modChain_vio (f : ChainSt → ChainSt) : (s.modChain f).vio = s.vio := rfl
@[simp] theorem State.modChain_cores (f : ChainSt → ChainSt) : (s.modChain f).cores = s.cores := rfl
@[simp] theorem State.modChain_gales (f : ChainSt → ChainSt) : (s.modChain f).gales = s.gales := rfl
@[simp] theorem State.modChain_draughts (f : ChainSt → ChainSt) : (s.modChain f).draughts = s.draughts := rfl
@[simp] theorem State.modChain_chainVanes (f : ChainSt → ChainSt) : (s.modChain f).chainVanes = s.chainVanes := rfl
@[simp] theorem State.modChain_chainOverflowSeen (f : ChainSt → ChainSt) : (s.modChain f).chainOverflowSeen = s.chainOverflowSeen := rfl
@[simp] theorem State.modChain_chainDiscardSeen (f : ChainSt → ChainSt) : (s.modChain f).chainDiscardSeen = s.chainDiscardSeen := rfl
@[simp] theorem State.modChain_frozen (f : ChainSt → ChainSt) : (s.modChain f).frozen = s.frozen := rfl
@[simp] theorem State.modChain_chainBank (f : ChainSt → ChainSt) : (s.modChain f).chainBank = s.chainBank := rfl
@[simp] theorem State.modChain_signals (f : ChainSt → ChainSt) : (s.modChain f).signals = s.signals := rfl
@[simp] theorem State.modChain_mem (f : ChainSt → ChainSt) : (s.modChain f).mem = s.mem := rfl
@[simp] theorem State.modChain_stash (f : ChainSt → ChainSt) : (s.modChain f).stash = s.stash := rfl
@[simp] theorem State.modChain_foehn (f : ChainSt → ChainSt) : (s.modChain f).foehn = s.foehn := rfl
@[simp] theorem State.modChain_slip (f : ChainSt → ChainSt) : (s.modChain f).slip = s.slip := rfl
@[simp] theorem State.modChain_links (f : ChainSt → ChainSt) : (s.modChain f).links = s.links := rfl
@[simp] theorem State.modChain_chain (f : ChainSt → ChainSt) : (s.modChain f).chain = f s.chain := rfl
@[simp] theorem State.modChain_sec (f : ChainSt → ChainSt) : (s.modChain f).sec = s.sec := rfl
@[simp] theorem State.modChain_rst (f : ChainSt → ChainSt) : (s.modChain f).rst = s.rst := rfl
@[simp] theorem State.modChain_evr (f : ChainSt → ChainSt) : (s.modChain f).evr = s.evr := rfl
@[simp] theorem State.modChain_hlt (f : ChainSt → ChainSt) : (s.modChain f).hlt = s.hlt := rfl
@[simp] theorem State.modChain_plan (f : ChainSt → ChainSt) : (s.modChain f).plan = s.plan := rfl
@[simp] theorem State.modChain_loaded (f : ChainSt → ChainSt) : (s.modChain f).loaded = s.loaded := rfl
@[simp] theorem State.modChain_fit (f : ChainSt → ChainSt) : (s.modChain f).fit = s.fit := rfl
@[simp] theorem State.modChain_step (f : ChainSt → ChainSt) : (s.modChain f).step = s.step := rfl
@[simp] theorem State.modChain_loads (f : ChainSt → ChainSt) : (s.modChain f).loads = s.loads := rfl
@[simp] theorem State.modChain_begun (f : ChainSt → ChainSt) : (s.modChain f).begun = s.begun := rfl
@[simp] theorem State.modChain_hostLeaves (f : ChainSt → ChainSt) : (s.modChain f).hostLeaves = s.hostLeaves := rfl
@[simp] theorem State.modChain_loadedChunks (f : ChainSt → ChainSt) : (s.modChain f).loadedChunks = s.loadedChunks := rfl
@[simp] theorem State.modChain_withheld (f : ChainSt → ChainSt) : (s.modChain f).withheld = s.withheld := rfl
@[simp] theorem State.modChain_answer (f : ChainSt → ChainSt) : (s.modChain f).answer = s.answer := rfl
@[simp] theorem State.modChain_mxScales (f : ChainSt → ChainSt) : (s.modChain f).mxScales = s.mxScales := rfl
@[simp] theorem State.modChain_fresh (f : ChainSt → ChainSt) : (s.modChain f).fresh = s.fresh := rfl
@[simp] theorem State.modChain_keepHeld (f : ChainSt → ChainSt) : (s.modChain f).keepHeld = s.keepHeld := rfl

/-! `modSec`. -/

@[simp] theorem State.modSec_pending (f : Sec → Sec) : (s.modSec f).pending = s.pending := rfl
@[simp] theorem State.modSec_dev (f : Sec → Sec) : (s.modSec f).dev = s.dev := rfl
@[simp] theorem State.modSec_ports (f : Sec → Sec) : (s.modSec f).ports = s.ports := rfl
@[simp] theorem State.modSec_vio (f : Sec → Sec) : (s.modSec f).vio = s.vio := rfl
@[simp] theorem State.modSec_cores (f : Sec → Sec) : (s.modSec f).cores = s.cores := rfl
@[simp] theorem State.modSec_gales (f : Sec → Sec) : (s.modSec f).gales = s.gales := rfl
@[simp] theorem State.modSec_draughts (f : Sec → Sec) : (s.modSec f).draughts = s.draughts := rfl
@[simp] theorem State.modSec_chainVanes (f : Sec → Sec) : (s.modSec f).chainVanes = s.chainVanes := rfl
@[simp] theorem State.modSec_chainOverflowSeen (f : Sec → Sec) : (s.modSec f).chainOverflowSeen = s.chainOverflowSeen := rfl
@[simp] theorem State.modSec_chainDiscardSeen (f : Sec → Sec) : (s.modSec f).chainDiscardSeen = s.chainDiscardSeen := rfl
@[simp] theorem State.modSec_frozen (f : Sec → Sec) : (s.modSec f).frozen = s.frozen := rfl
@[simp] theorem State.modSec_chainBank (f : Sec → Sec) : (s.modSec f).chainBank = s.chainBank := rfl
@[simp] theorem State.modSec_signals (f : Sec → Sec) : (s.modSec f).signals = s.signals := rfl
@[simp] theorem State.modSec_mem (f : Sec → Sec) : (s.modSec f).mem = s.mem := rfl
@[simp] theorem State.modSec_stash (f : Sec → Sec) : (s.modSec f).stash = s.stash := rfl
@[simp] theorem State.modSec_foehn (f : Sec → Sec) : (s.modSec f).foehn = s.foehn := rfl
@[simp] theorem State.modSec_slip (f : Sec → Sec) : (s.modSec f).slip = s.slip := rfl
@[simp] theorem State.modSec_links (f : Sec → Sec) : (s.modSec f).links = s.links := rfl
@[simp] theorem State.modSec_chain (f : Sec → Sec) : (s.modSec f).chain = s.chain := rfl
@[simp] theorem State.modSec_sec (f : Sec → Sec) : (s.modSec f).sec = f s.sec := rfl
@[simp] theorem State.modSec_rst (f : Sec → Sec) : (s.modSec f).rst = s.rst := rfl
@[simp] theorem State.modSec_evr (f : Sec → Sec) : (s.modSec f).evr = s.evr := rfl
@[simp] theorem State.modSec_hlt (f : Sec → Sec) : (s.modSec f).hlt = s.hlt := rfl
@[simp] theorem State.modSec_plan (f : Sec → Sec) : (s.modSec f).plan = s.plan := rfl
@[simp] theorem State.modSec_loaded (f : Sec → Sec) : (s.modSec f).loaded = s.loaded := rfl
@[simp] theorem State.modSec_fit (f : Sec → Sec) : (s.modSec f).fit = s.fit := rfl
@[simp] theorem State.modSec_step (f : Sec → Sec) : (s.modSec f).step = s.step := rfl
@[simp] theorem State.modSec_loads (f : Sec → Sec) : (s.modSec f).loads = s.loads := rfl
@[simp] theorem State.modSec_begun (f : Sec → Sec) : (s.modSec f).begun = s.begun := rfl
@[simp] theorem State.modSec_hostLeaves (f : Sec → Sec) : (s.modSec f).hostLeaves = s.hostLeaves := rfl
@[simp] theorem State.modSec_loadedChunks (f : Sec → Sec) : (s.modSec f).loadedChunks = s.loadedChunks := rfl
@[simp] theorem State.modSec_withheld (f : Sec → Sec) : (s.modSec f).withheld = s.withheld := rfl
@[simp] theorem State.modSec_answer (f : Sec → Sec) : (s.modSec f).answer = s.answer := rfl
@[simp] theorem State.modSec_mxScales (f : Sec → Sec) : (s.modSec f).mxScales = s.mxScales := rfl
@[simp] theorem State.modSec_fresh (f : Sec → Sec) : (s.modSec f).fresh = s.fresh := rfl
@[simp] theorem State.modSec_keepHeld (f : Sec → Sec) : (s.modSec f).keepHeld = s.keepHeld := rfl

/-! `modRst`. -/

@[simp] theorem State.modRst_pending (f : Rst → Rst) : (s.modRst f).pending = s.pending := rfl
@[simp] theorem State.modRst_dev (f : Rst → Rst) : (s.modRst f).dev = s.dev := rfl
@[simp] theorem State.modRst_ports (f : Rst → Rst) : (s.modRst f).ports = s.ports := rfl
@[simp] theorem State.modRst_vio (f : Rst → Rst) : (s.modRst f).vio = s.vio := rfl
@[simp] theorem State.modRst_cores (f : Rst → Rst) : (s.modRst f).cores = s.cores := rfl
@[simp] theorem State.modRst_gales (f : Rst → Rst) : (s.modRst f).gales = s.gales := rfl
@[simp] theorem State.modRst_draughts (f : Rst → Rst) : (s.modRst f).draughts = s.draughts := rfl
@[simp] theorem State.modRst_chainVanes (f : Rst → Rst) : (s.modRst f).chainVanes = s.chainVanes := rfl
@[simp] theorem State.modRst_chainOverflowSeen (f : Rst → Rst) : (s.modRst f).chainOverflowSeen = s.chainOverflowSeen := rfl
@[simp] theorem State.modRst_chainDiscardSeen (f : Rst → Rst) : (s.modRst f).chainDiscardSeen = s.chainDiscardSeen := rfl
@[simp] theorem State.modRst_frozen (f : Rst → Rst) : (s.modRst f).frozen = s.frozen := rfl
@[simp] theorem State.modRst_chainBank (f : Rst → Rst) : (s.modRst f).chainBank = s.chainBank := rfl
@[simp] theorem State.modRst_signals (f : Rst → Rst) : (s.modRst f).signals = s.signals := rfl
@[simp] theorem State.modRst_mem (f : Rst → Rst) : (s.modRst f).mem = s.mem := rfl
@[simp] theorem State.modRst_stash (f : Rst → Rst) : (s.modRst f).stash = s.stash := rfl
@[simp] theorem State.modRst_foehn (f : Rst → Rst) : (s.modRst f).foehn = s.foehn := rfl
@[simp] theorem State.modRst_slip (f : Rst → Rst) : (s.modRst f).slip = s.slip := rfl
@[simp] theorem State.modRst_links (f : Rst → Rst) : (s.modRst f).links = s.links := rfl
@[simp] theorem State.modRst_chain (f : Rst → Rst) : (s.modRst f).chain = s.chain := rfl
@[simp] theorem State.modRst_sec (f : Rst → Rst) : (s.modRst f).sec = s.sec := rfl
@[simp] theorem State.modRst_rst (f : Rst → Rst) : (s.modRst f).rst = f s.rst := rfl
@[simp] theorem State.modRst_evr (f : Rst → Rst) : (s.modRst f).evr = s.evr := rfl
@[simp] theorem State.modRst_hlt (f : Rst → Rst) : (s.modRst f).hlt = s.hlt := rfl
@[simp] theorem State.modRst_plan (f : Rst → Rst) : (s.modRst f).plan = s.plan := rfl
@[simp] theorem State.modRst_loaded (f : Rst → Rst) : (s.modRst f).loaded = s.loaded := rfl
@[simp] theorem State.modRst_fit (f : Rst → Rst) : (s.modRst f).fit = s.fit := rfl
@[simp] theorem State.modRst_step (f : Rst → Rst) : (s.modRst f).step = s.step := rfl
@[simp] theorem State.modRst_loads (f : Rst → Rst) : (s.modRst f).loads = s.loads := rfl
@[simp] theorem State.modRst_begun (f : Rst → Rst) : (s.modRst f).begun = s.begun := rfl
@[simp] theorem State.modRst_hostLeaves (f : Rst → Rst) : (s.modRst f).hostLeaves = s.hostLeaves := rfl
@[simp] theorem State.modRst_loadedChunks (f : Rst → Rst) : (s.modRst f).loadedChunks = s.loadedChunks := rfl
@[simp] theorem State.modRst_withheld (f : Rst → Rst) : (s.modRst f).withheld = s.withheld := rfl
@[simp] theorem State.modRst_answer (f : Rst → Rst) : (s.modRst f).answer = s.answer := rfl
@[simp] theorem State.modRst_mxScales (f : Rst → Rst) : (s.modRst f).mxScales = s.mxScales := rfl
@[simp] theorem State.modRst_fresh (f : Rst → Rst) : (s.modRst f).fresh = s.fresh := rfl
@[simp] theorem State.modRst_keepHeld (f : Rst → Rst) : (s.modRst f).keepHeld = s.keepHeld := rfl

/-! `modEvr`. -/

@[simp] theorem State.modEvr_pending (f : Evr → Evr) : (s.modEvr f).pending = s.pending := rfl
@[simp] theorem State.modEvr_dev (f : Evr → Evr) : (s.modEvr f).dev = s.dev := rfl
@[simp] theorem State.modEvr_ports (f : Evr → Evr) : (s.modEvr f).ports = s.ports := rfl
@[simp] theorem State.modEvr_vio (f : Evr → Evr) : (s.modEvr f).vio = s.vio := rfl
@[simp] theorem State.modEvr_cores (f : Evr → Evr) : (s.modEvr f).cores = s.cores := rfl
@[simp] theorem State.modEvr_gales (f : Evr → Evr) : (s.modEvr f).gales = s.gales := rfl
@[simp] theorem State.modEvr_draughts (f : Evr → Evr) : (s.modEvr f).draughts = s.draughts := rfl
@[simp] theorem State.modEvr_chainVanes (f : Evr → Evr) : (s.modEvr f).chainVanes = s.chainVanes := rfl
@[simp] theorem State.modEvr_chainOverflowSeen (f : Evr → Evr) : (s.modEvr f).chainOverflowSeen = s.chainOverflowSeen := rfl
@[simp] theorem State.modEvr_chainDiscardSeen (f : Evr → Evr) : (s.modEvr f).chainDiscardSeen = s.chainDiscardSeen := rfl
@[simp] theorem State.modEvr_frozen (f : Evr → Evr) : (s.modEvr f).frozen = s.frozen := rfl
@[simp] theorem State.modEvr_chainBank (f : Evr → Evr) : (s.modEvr f).chainBank = s.chainBank := rfl
@[simp] theorem State.modEvr_signals (f : Evr → Evr) : (s.modEvr f).signals = s.signals := rfl
@[simp] theorem State.modEvr_mem (f : Evr → Evr) : (s.modEvr f).mem = s.mem := rfl
@[simp] theorem State.modEvr_stash (f : Evr → Evr) : (s.modEvr f).stash = s.stash := rfl
@[simp] theorem State.modEvr_foehn (f : Evr → Evr) : (s.modEvr f).foehn = s.foehn := rfl
@[simp] theorem State.modEvr_slip (f : Evr → Evr) : (s.modEvr f).slip = s.slip := rfl
@[simp] theorem State.modEvr_links (f : Evr → Evr) : (s.modEvr f).links = s.links := rfl
@[simp] theorem State.modEvr_chain (f : Evr → Evr) : (s.modEvr f).chain = s.chain := rfl
@[simp] theorem State.modEvr_sec (f : Evr → Evr) : (s.modEvr f).sec = s.sec := rfl
@[simp] theorem State.modEvr_rst (f : Evr → Evr) : (s.modEvr f).rst = s.rst := rfl
@[simp] theorem State.modEvr_evr (f : Evr → Evr) : (s.modEvr f).evr = f s.evr := rfl
@[simp] theorem State.modEvr_hlt (f : Evr → Evr) : (s.modEvr f).hlt = s.hlt := rfl
@[simp] theorem State.modEvr_plan (f : Evr → Evr) : (s.modEvr f).plan = s.plan := rfl
@[simp] theorem State.modEvr_loaded (f : Evr → Evr) : (s.modEvr f).loaded = s.loaded := rfl
@[simp] theorem State.modEvr_fit (f : Evr → Evr) : (s.modEvr f).fit = s.fit := rfl
@[simp] theorem State.modEvr_step (f : Evr → Evr) : (s.modEvr f).step = s.step := rfl
@[simp] theorem State.modEvr_loads (f : Evr → Evr) : (s.modEvr f).loads = s.loads := rfl
@[simp] theorem State.modEvr_begun (f : Evr → Evr) : (s.modEvr f).begun = s.begun := rfl
@[simp] theorem State.modEvr_hostLeaves (f : Evr → Evr) : (s.modEvr f).hostLeaves = s.hostLeaves := rfl
@[simp] theorem State.modEvr_loadedChunks (f : Evr → Evr) : (s.modEvr f).loadedChunks = s.loadedChunks := rfl
@[simp] theorem State.modEvr_withheld (f : Evr → Evr) : (s.modEvr f).withheld = s.withheld := rfl
@[simp] theorem State.modEvr_answer (f : Evr → Evr) : (s.modEvr f).answer = s.answer := rfl
@[simp] theorem State.modEvr_mxScales (f : Evr → Evr) : (s.modEvr f).mxScales = s.mxScales := rfl
@[simp] theorem State.modEvr_fresh (f : Evr → Evr) : (s.modEvr f).fresh = s.fresh := rfl
@[simp] theorem State.modEvr_keepHeld (f : Evr → Evr) : (s.modEvr f).keepHeld = s.keepHeld := rfl

/-! `modHlt`. -/

@[simp] theorem State.modHlt_pending (f : Hlt → Hlt) : (s.modHlt f).pending = s.pending := rfl
@[simp] theorem State.modHlt_dev (f : Hlt → Hlt) : (s.modHlt f).dev = s.dev := rfl
@[simp] theorem State.modHlt_ports (f : Hlt → Hlt) : (s.modHlt f).ports = s.ports := rfl
@[simp] theorem State.modHlt_vio (f : Hlt → Hlt) : (s.modHlt f).vio = s.vio := rfl
@[simp] theorem State.modHlt_cores (f : Hlt → Hlt) : (s.modHlt f).cores = s.cores := rfl
@[simp] theorem State.modHlt_gales (f : Hlt → Hlt) : (s.modHlt f).gales = s.gales := rfl
@[simp] theorem State.modHlt_draughts (f : Hlt → Hlt) : (s.modHlt f).draughts = s.draughts := rfl
@[simp] theorem State.modHlt_chainVanes (f : Hlt → Hlt) : (s.modHlt f).chainVanes = s.chainVanes := rfl
@[simp] theorem State.modHlt_chainOverflowSeen (f : Hlt → Hlt) : (s.modHlt f).chainOverflowSeen = s.chainOverflowSeen := rfl
@[simp] theorem State.modHlt_chainDiscardSeen (f : Hlt → Hlt) : (s.modHlt f).chainDiscardSeen = s.chainDiscardSeen := rfl
@[simp] theorem State.modHlt_frozen (f : Hlt → Hlt) : (s.modHlt f).frozen = s.frozen := rfl
@[simp] theorem State.modHlt_chainBank (f : Hlt → Hlt) : (s.modHlt f).chainBank = s.chainBank := rfl
@[simp] theorem State.modHlt_signals (f : Hlt → Hlt) : (s.modHlt f).signals = s.signals := rfl
@[simp] theorem State.modHlt_mem (f : Hlt → Hlt) : (s.modHlt f).mem = s.mem := rfl
@[simp] theorem State.modHlt_stash (f : Hlt → Hlt) : (s.modHlt f).stash = s.stash := rfl
@[simp] theorem State.modHlt_foehn (f : Hlt → Hlt) : (s.modHlt f).foehn = s.foehn := rfl
@[simp] theorem State.modHlt_slip (f : Hlt → Hlt) : (s.modHlt f).slip = s.slip := rfl
@[simp] theorem State.modHlt_links (f : Hlt → Hlt) : (s.modHlt f).links = s.links := rfl
@[simp] theorem State.modHlt_chain (f : Hlt → Hlt) : (s.modHlt f).chain = s.chain := rfl
@[simp] theorem State.modHlt_sec (f : Hlt → Hlt) : (s.modHlt f).sec = s.sec := rfl
@[simp] theorem State.modHlt_rst (f : Hlt → Hlt) : (s.modHlt f).rst = s.rst := rfl
@[simp] theorem State.modHlt_evr (f : Hlt → Hlt) : (s.modHlt f).evr = s.evr := rfl
@[simp] theorem State.modHlt_hlt (f : Hlt → Hlt) : (s.modHlt f).hlt = f s.hlt := rfl
@[simp] theorem State.modHlt_plan (f : Hlt → Hlt) : (s.modHlt f).plan = s.plan := rfl
@[simp] theorem State.modHlt_loaded (f : Hlt → Hlt) : (s.modHlt f).loaded = s.loaded := rfl
@[simp] theorem State.modHlt_fit (f : Hlt → Hlt) : (s.modHlt f).fit = s.fit := rfl
@[simp] theorem State.modHlt_step (f : Hlt → Hlt) : (s.modHlt f).step = s.step := rfl
@[simp] theorem State.modHlt_loads (f : Hlt → Hlt) : (s.modHlt f).loads = s.loads := rfl
@[simp] theorem State.modHlt_begun (f : Hlt → Hlt) : (s.modHlt f).begun = s.begun := rfl
@[simp] theorem State.modHlt_hostLeaves (f : Hlt → Hlt) : (s.modHlt f).hostLeaves = s.hostLeaves := rfl
@[simp] theorem State.modHlt_loadedChunks (f : Hlt → Hlt) : (s.modHlt f).loadedChunks = s.loadedChunks := rfl
@[simp] theorem State.modHlt_withheld (f : Hlt → Hlt) : (s.modHlt f).withheld = s.withheld := rfl
@[simp] theorem State.modHlt_answer (f : Hlt → Hlt) : (s.modHlt f).answer = s.answer := rfl
@[simp] theorem State.modHlt_mxScales (f : Hlt → Hlt) : (s.modHlt f).mxScales = s.mxScales := rfl
@[simp] theorem State.modHlt_fresh (f : Hlt → Hlt) : (s.modHlt f).fresh = s.fresh := rfl
@[simp] theorem State.modHlt_keepHeld (f : Hlt → Hlt) : (s.modHlt f).keepHeld = s.keepHeld := rfl

/-! `modSlip`. -/

@[simp] theorem State.modSlip_pending (f : Slip → Slip) : (s.modSlip f).pending = s.pending := rfl
@[simp] theorem State.modSlip_dev (f : Slip → Slip) : (s.modSlip f).dev = s.dev := rfl
@[simp] theorem State.modSlip_ports (f : Slip → Slip) : (s.modSlip f).ports = s.ports := rfl
@[simp] theorem State.modSlip_vio (f : Slip → Slip) : (s.modSlip f).vio = s.vio := rfl
@[simp] theorem State.modSlip_cores (f : Slip → Slip) : (s.modSlip f).cores = s.cores := rfl
@[simp] theorem State.modSlip_gales (f : Slip → Slip) : (s.modSlip f).gales = s.gales := rfl
@[simp] theorem State.modSlip_draughts (f : Slip → Slip) : (s.modSlip f).draughts = s.draughts := rfl
@[simp] theorem State.modSlip_chainVanes (f : Slip → Slip) : (s.modSlip f).chainVanes = s.chainVanes := rfl
@[simp] theorem State.modSlip_chainOverflowSeen (f : Slip → Slip) : (s.modSlip f).chainOverflowSeen = s.chainOverflowSeen := rfl
@[simp] theorem State.modSlip_chainDiscardSeen (f : Slip → Slip) : (s.modSlip f).chainDiscardSeen = s.chainDiscardSeen := rfl
@[simp] theorem State.modSlip_frozen (f : Slip → Slip) : (s.modSlip f).frozen = s.frozen := rfl
@[simp] theorem State.modSlip_chainBank (f : Slip → Slip) : (s.modSlip f).chainBank = s.chainBank := rfl
@[simp] theorem State.modSlip_signals (f : Slip → Slip) : (s.modSlip f).signals = s.signals := rfl
@[simp] theorem State.modSlip_mem (f : Slip → Slip) : (s.modSlip f).mem = s.mem := rfl
@[simp] theorem State.modSlip_stash (f : Slip → Slip) : (s.modSlip f).stash = s.stash := rfl
@[simp] theorem State.modSlip_foehn (f : Slip → Slip) : (s.modSlip f).foehn = s.foehn := rfl
@[simp] theorem State.modSlip_slip (f : Slip → Slip) : (s.modSlip f).slip = f s.slip := rfl
@[simp] theorem State.modSlip_links (f : Slip → Slip) : (s.modSlip f).links = s.links := rfl
@[simp] theorem State.modSlip_chain (f : Slip → Slip) : (s.modSlip f).chain = s.chain := rfl
@[simp] theorem State.modSlip_sec (f : Slip → Slip) : (s.modSlip f).sec = s.sec := rfl
@[simp] theorem State.modSlip_rst (f : Slip → Slip) : (s.modSlip f).rst = s.rst := rfl
@[simp] theorem State.modSlip_evr (f : Slip → Slip) : (s.modSlip f).evr = s.evr := rfl
@[simp] theorem State.modSlip_hlt (f : Slip → Slip) : (s.modSlip f).hlt = s.hlt := rfl
@[simp] theorem State.modSlip_plan (f : Slip → Slip) : (s.modSlip f).plan = s.plan := rfl
@[simp] theorem State.modSlip_loaded (f : Slip → Slip) : (s.modSlip f).loaded = s.loaded := rfl
@[simp] theorem State.modSlip_fit (f : Slip → Slip) : (s.modSlip f).fit = s.fit := rfl
@[simp] theorem State.modSlip_step (f : Slip → Slip) : (s.modSlip f).step = s.step := rfl
@[simp] theorem State.modSlip_loads (f : Slip → Slip) : (s.modSlip f).loads = s.loads := rfl
@[simp] theorem State.modSlip_begun (f : Slip → Slip) : (s.modSlip f).begun = s.begun := rfl
@[simp] theorem State.modSlip_hostLeaves (f : Slip → Slip) : (s.modSlip f).hostLeaves = s.hostLeaves := rfl
@[simp] theorem State.modSlip_loadedChunks (f : Slip → Slip) : (s.modSlip f).loadedChunks = s.loadedChunks := rfl
@[simp] theorem State.modSlip_withheld (f : Slip → Slip) : (s.modSlip f).withheld = s.withheld := rfl
@[simp] theorem State.modSlip_answer (f : Slip → Slip) : (s.modSlip f).answer = s.answer := rfl
@[simp] theorem State.modSlip_mxScales (f : Slip → Slip) : (s.modSlip f).mxScales = s.mxScales := rfl
@[simp] theorem State.modSlip_fresh (f : Slip → Slip) : (s.modSlip f).fresh = s.fresh := rfl
@[simp] theorem State.modSlip_keepHeld (f : Slip → Slip) : (s.modSlip f).keepHeld = s.keepHeld := rfl

/-! A record asked for changes the recorder's queue alone. -/

@[simp] theorem State.ask_pending (type unit : Nat) (payload : List Byte) : (s.ask type unit payload).pending = s.pending := rfl
@[simp] theorem State.ask_dev (type unit : Nat) (payload : List Byte) : (s.ask type unit payload).dev = s.dev := rfl
@[simp] theorem State.ask_ports (type unit : Nat) (payload : List Byte) : (s.ask type unit payload).ports = s.ports := rfl
@[simp] theorem State.ask_vio (type unit : Nat) (payload : List Byte) : (s.ask type unit payload).vio = s.vio := rfl
@[simp] theorem State.ask_cores (type unit : Nat) (payload : List Byte) : (s.ask type unit payload).cores = s.cores := rfl
@[simp] theorem State.ask_gales (type unit : Nat) (payload : List Byte) : (s.ask type unit payload).gales = s.gales := rfl
@[simp] theorem State.ask_draughts (type unit : Nat) (payload : List Byte) : (s.ask type unit payload).draughts = s.draughts := rfl
@[simp] theorem State.ask_chainVanes (type unit : Nat) (payload : List Byte) : (s.ask type unit payload).chainVanes = s.chainVanes := rfl
@[simp] theorem State.ask_chainOverflowSeen (type unit : Nat) (payload : List Byte) : (s.ask type unit payload).chainOverflowSeen = s.chainOverflowSeen := rfl
@[simp] theorem State.ask_chainDiscardSeen (type unit : Nat) (payload : List Byte) : (s.ask type unit payload).chainDiscardSeen = s.chainDiscardSeen := rfl
@[simp] theorem State.ask_frozen (type unit : Nat) (payload : List Byte) : (s.ask type unit payload).frozen = s.frozen := rfl
@[simp] theorem State.ask_chainBank (type unit : Nat) (payload : List Byte) : (s.ask type unit payload).chainBank = s.chainBank := rfl
@[simp] theorem State.ask_signals (type unit : Nat) (payload : List Byte) : (s.ask type unit payload).signals = s.signals := rfl
@[simp] theorem State.ask_mem (type unit : Nat) (payload : List Byte) : (s.ask type unit payload).mem = s.mem := rfl
@[simp] theorem State.ask_stash (type unit : Nat) (payload : List Byte) : (s.ask type unit payload).stash = s.stash := rfl
@[simp] theorem State.ask_foehn (type unit : Nat) (payload : List Byte) : (s.ask type unit payload).foehn = s.foehn := rfl
@[simp] theorem State.ask_slip (type unit : Nat) (payload : List Byte) : (s.ask type unit payload).slip = s.slip := rfl
@[simp] theorem State.ask_links (type unit : Nat) (payload : List Byte) : (s.ask type unit payload).links = s.links := rfl
@[simp] theorem State.ask_chain (type unit : Nat) (payload : List Byte) : (s.ask type unit payload).chain = s.chain := rfl
@[simp] theorem State.ask_sec (type unit : Nat) (payload : List Byte) : (s.ask type unit payload).sec = s.sec := rfl
@[simp] theorem State.ask_rst (type unit : Nat) (payload : List Byte) : (s.ask type unit payload).rst = s.rst := rfl
@[simp] theorem State.ask_hlt (type unit : Nat) (payload : List Byte) : (s.ask type unit payload).hlt = s.hlt := rfl
@[simp] theorem State.ask_plan (type unit : Nat) (payload : List Byte) : (s.ask type unit payload).plan = s.plan := rfl
@[simp] theorem State.ask_loaded (type unit : Nat) (payload : List Byte) : (s.ask type unit payload).loaded = s.loaded := rfl
@[simp] theorem State.ask_fit (type unit : Nat) (payload : List Byte) : (s.ask type unit payload).fit = s.fit := rfl
@[simp] theorem State.ask_step (type unit : Nat) (payload : List Byte) : (s.ask type unit payload).step = s.step := rfl
@[simp] theorem State.ask_loads (type unit : Nat) (payload : List Byte) : (s.ask type unit payload).loads = s.loads := rfl
@[simp] theorem State.ask_begun (type unit : Nat) (payload : List Byte) : (s.ask type unit payload).begun = s.begun := rfl
@[simp] theorem State.ask_hostLeaves (type unit : Nat) (payload : List Byte) : (s.ask type unit payload).hostLeaves = s.hostLeaves := rfl
@[simp] theorem State.ask_loadedChunks (type unit : Nat) (payload : List Byte) : (s.ask type unit payload).loadedChunks = s.loadedChunks := rfl
@[simp] theorem State.ask_withheld (type unit : Nat) (payload : List Byte) : (s.ask type unit payload).withheld = s.withheld := rfl
@[simp] theorem State.ask_answer (type unit : Nat) (payload : List Byte) : (s.ask type unit payload).answer = s.answer := rfl
@[simp] theorem State.ask_mxScales (type unit : Nat) (payload : List Byte) : (s.ask type unit payload).mxScales = s.mxScales := rfl
@[simp] theorem State.ask_fresh (type unit : Nat) (payload : List Byte) : (s.ask type unit payload).fresh = s.fresh := rfl
@[simp] theorem State.ask_keepHeld (type unit : Nat) (payload : List Byte) : (s.ask type unit payload).keepHeld = s.keepHeld := rfl

@[simp] theorem State.askBare_pending (type : Nat) (payload : List Byte) : (s.askBare type payload).pending = s.pending := rfl
@[simp] theorem State.askBare_dev (type : Nat) (payload : List Byte) : (s.askBare type payload).dev = s.dev := rfl
@[simp] theorem State.askBare_ports (type : Nat) (payload : List Byte) : (s.askBare type payload).ports = s.ports := rfl
@[simp] theorem State.askBare_vio (type : Nat) (payload : List Byte) : (s.askBare type payload).vio = s.vio := rfl
@[simp] theorem State.askBare_cores (type : Nat) (payload : List Byte) : (s.askBare type payload).cores = s.cores := rfl
@[simp] theorem State.askBare_gales (type : Nat) (payload : List Byte) : (s.askBare type payload).gales = s.gales := rfl
@[simp] theorem State.askBare_draughts (type : Nat) (payload : List Byte) : (s.askBare type payload).draughts = s.draughts := rfl
@[simp] theorem State.askBare_chainVanes (type : Nat) (payload : List Byte) : (s.askBare type payload).chainVanes = s.chainVanes := rfl
@[simp] theorem State.askBare_chainOverflowSeen (type : Nat) (payload : List Byte) : (s.askBare type payload).chainOverflowSeen = s.chainOverflowSeen := rfl
@[simp] theorem State.askBare_chainDiscardSeen (type : Nat) (payload : List Byte) : (s.askBare type payload).chainDiscardSeen = s.chainDiscardSeen := rfl
@[simp] theorem State.askBare_frozen (type : Nat) (payload : List Byte) : (s.askBare type payload).frozen = s.frozen := rfl
@[simp] theorem State.askBare_chainBank (type : Nat) (payload : List Byte) : (s.askBare type payload).chainBank = s.chainBank := rfl
@[simp] theorem State.askBare_signals (type : Nat) (payload : List Byte) : (s.askBare type payload).signals = s.signals := rfl
@[simp] theorem State.askBare_mem (type : Nat) (payload : List Byte) : (s.askBare type payload).mem = s.mem := rfl
@[simp] theorem State.askBare_stash (type : Nat) (payload : List Byte) : (s.askBare type payload).stash = s.stash := rfl
@[simp] theorem State.askBare_foehn (type : Nat) (payload : List Byte) : (s.askBare type payload).foehn = s.foehn := rfl
@[simp] theorem State.askBare_slip (type : Nat) (payload : List Byte) : (s.askBare type payload).slip = s.slip := rfl
@[simp] theorem State.askBare_links (type : Nat) (payload : List Byte) : (s.askBare type payload).links = s.links := rfl
@[simp] theorem State.askBare_chain (type : Nat) (payload : List Byte) : (s.askBare type payload).chain = s.chain := rfl
@[simp] theorem State.askBare_sec (type : Nat) (payload : List Byte) : (s.askBare type payload).sec = s.sec := rfl
@[simp] theorem State.askBare_rst (type : Nat) (payload : List Byte) : (s.askBare type payload).rst = s.rst := rfl
@[simp] theorem State.askBare_hlt (type : Nat) (payload : List Byte) : (s.askBare type payload).hlt = s.hlt := rfl
@[simp] theorem State.askBare_plan (type : Nat) (payload : List Byte) : (s.askBare type payload).plan = s.plan := rfl
@[simp] theorem State.askBare_loaded (type : Nat) (payload : List Byte) : (s.askBare type payload).loaded = s.loaded := rfl
@[simp] theorem State.askBare_fit (type : Nat) (payload : List Byte) : (s.askBare type payload).fit = s.fit := rfl
@[simp] theorem State.askBare_step (type : Nat) (payload : List Byte) : (s.askBare type payload).step = s.step := rfl
@[simp] theorem State.askBare_loads (type : Nat) (payload : List Byte) : (s.askBare type payload).loads = s.loads := rfl
@[simp] theorem State.askBare_begun (type : Nat) (payload : List Byte) : (s.askBare type payload).begun = s.begun := rfl
@[simp] theorem State.askBare_hostLeaves (type : Nat) (payload : List Byte) : (s.askBare type payload).hostLeaves = s.hostLeaves := rfl
@[simp] theorem State.askBare_loadedChunks (type : Nat) (payload : List Byte) : (s.askBare type payload).loadedChunks = s.loadedChunks := rfl
@[simp] theorem State.askBare_withheld (type : Nat) (payload : List Byte) : (s.askBare type payload).withheld = s.withheld := rfl
@[simp] theorem State.askBare_answer (type : Nat) (payload : List Byte) : (s.askBare type payload).answer = s.answer := rfl
@[simp] theorem State.askBare_mxScales (type : Nat) (payload : List Byte) : (s.askBare type payload).mxScales = s.mxScales := rfl
@[simp] theorem State.askBare_fresh (type : Nat) (payload : List Byte) : (s.askBare type payload).fresh = s.fresh := rfl
@[simp] theorem State.askBare_keepHeld (type : Nat) (payload : List Byte) : (s.askBare type payload).keepHeld = s.keepHeld := rfl

/-! The recognition of a reset changes the reset controller alone. -/

@[simp] theorem State.recognise_pending (src : Nat) (scope : Scope) : (s.recognise src scope).pending = s.pending := rfl
@[simp] theorem State.recognise_dev (src : Nat) (scope : Scope) : (s.recognise src scope).dev = s.dev := rfl
@[simp] theorem State.recognise_ports (src : Nat) (scope : Scope) : (s.recognise src scope).ports = s.ports := rfl
@[simp] theorem State.recognise_vio (src : Nat) (scope : Scope) : (s.recognise src scope).vio = s.vio := rfl
@[simp] theorem State.recognise_cores (src : Nat) (scope : Scope) : (s.recognise src scope).cores = s.cores := rfl
@[simp] theorem State.recognise_gales (src : Nat) (scope : Scope) : (s.recognise src scope).gales = s.gales := rfl
@[simp] theorem State.recognise_draughts (src : Nat) (scope : Scope) : (s.recognise src scope).draughts = s.draughts := rfl
@[simp] theorem State.recognise_chainVanes (src : Nat) (scope : Scope) : (s.recognise src scope).chainVanes = s.chainVanes := rfl
@[simp] theorem State.recognise_chainOverflowSeen (src : Nat) (scope : Scope) : (s.recognise src scope).chainOverflowSeen = s.chainOverflowSeen := rfl
@[simp] theorem State.recognise_chainDiscardSeen (src : Nat) (scope : Scope) : (s.recognise src scope).chainDiscardSeen = s.chainDiscardSeen := rfl
@[simp] theorem State.recognise_frozen (src : Nat) (scope : Scope) : (s.recognise src scope).frozen = s.frozen := rfl
@[simp] theorem State.recognise_chainBank (src : Nat) (scope : Scope) : (s.recognise src scope).chainBank = s.chainBank := rfl
@[simp] theorem State.recognise_signals (src : Nat) (scope : Scope) : (s.recognise src scope).signals = s.signals := rfl
@[simp] theorem State.recognise_mem (src : Nat) (scope : Scope) : (s.recognise src scope).mem = s.mem := rfl
@[simp] theorem State.recognise_stash (src : Nat) (scope : Scope) : (s.recognise src scope).stash = s.stash := rfl
@[simp] theorem State.recognise_foehn (src : Nat) (scope : Scope) : (s.recognise src scope).foehn = s.foehn := rfl
@[simp] theorem State.recognise_slip (src : Nat) (scope : Scope) : (s.recognise src scope).slip = s.slip := rfl
@[simp] theorem State.recognise_links (src : Nat) (scope : Scope) : (s.recognise src scope).links = s.links := rfl
@[simp] theorem State.recognise_chain (src : Nat) (scope : Scope) : (s.recognise src scope).chain = s.chain := rfl
@[simp] theorem State.recognise_sec (src : Nat) (scope : Scope) : (s.recognise src scope).sec = s.sec := rfl
@[simp] theorem State.recognise_evr (src : Nat) (scope : Scope) : (s.recognise src scope).evr = s.evr := rfl
@[simp] theorem State.recognise_hlt (src : Nat) (scope : Scope) : (s.recognise src scope).hlt = s.hlt := rfl
@[simp] theorem State.recognise_plan (src : Nat) (scope : Scope) : (s.recognise src scope).plan = s.plan := rfl
@[simp] theorem State.recognise_loaded (src : Nat) (scope : Scope) : (s.recognise src scope).loaded = s.loaded := rfl
@[simp] theorem State.recognise_fit (src : Nat) (scope : Scope) : (s.recognise src scope).fit = s.fit := rfl
@[simp] theorem State.recognise_step (src : Nat) (scope : Scope) : (s.recognise src scope).step = s.step := rfl
@[simp] theorem State.recognise_loads (src : Nat) (scope : Scope) : (s.recognise src scope).loads = s.loads := rfl
@[simp] theorem State.recognise_begun (src : Nat) (scope : Scope) : (s.recognise src scope).begun = s.begun := rfl
@[simp] theorem State.recognise_hostLeaves (src : Nat) (scope : Scope) : (s.recognise src scope).hostLeaves = s.hostLeaves := rfl
@[simp] theorem State.recognise_loadedChunks (src : Nat) (scope : Scope) : (s.recognise src scope).loadedChunks = s.loadedChunks := rfl
@[simp] theorem State.recognise_withheld (src : Nat) (scope : Scope) : (s.recognise src scope).withheld = s.withheld := rfl
@[simp] theorem State.recognise_answer (src : Nat) (scope : Scope) : (s.recognise src scope).answer = s.answer := rfl
@[simp] theorem State.recognise_mxScales (src : Nat) (scope : Scope) : (s.recognise src scope).mxScales = s.mxScales := rfl
@[simp] theorem State.recognise_fresh (src : Nat) (scope : Scope) : (s.recognise src scope).fresh = s.fresh := rfl
@[simp] theorem State.recognise_keepHeld (src : Nat) (scope : Scope) : (s.recognise src scope).keepHeld = s.keepHeld := rfl

@[simp] theorem State.escalate_pending : s.escalate.pending = s.pending := rfl
@[simp] theorem State.escalate_dev : s.escalate.dev = s.dev := rfl
@[simp] theorem State.escalate_ports : s.escalate.ports = s.ports := rfl
@[simp] theorem State.escalate_vio : s.escalate.vio = s.vio := rfl
@[simp] theorem State.escalate_cores : s.escalate.cores = s.cores := rfl
@[simp] theorem State.escalate_gales : s.escalate.gales = s.gales := rfl
@[simp] theorem State.escalate_draughts : s.escalate.draughts = s.draughts := rfl
@[simp] theorem State.escalate_chainVanes : s.escalate.chainVanes = s.chainVanes := rfl
@[simp] theorem State.escalate_chainOverflowSeen : s.escalate.chainOverflowSeen = s.chainOverflowSeen := rfl
@[simp] theorem State.escalate_chainDiscardSeen : s.escalate.chainDiscardSeen = s.chainDiscardSeen := rfl
@[simp] theorem State.escalate_frozen : s.escalate.frozen = s.frozen := rfl
@[simp] theorem State.escalate_chainBank : s.escalate.chainBank = s.chainBank := rfl
@[simp] theorem State.escalate_signals : s.escalate.signals = s.signals := rfl
@[simp] theorem State.escalate_mem : s.escalate.mem = s.mem := rfl
@[simp] theorem State.escalate_stash : s.escalate.stash = s.stash := rfl
@[simp] theorem State.escalate_foehn : s.escalate.foehn = s.foehn := rfl
@[simp] theorem State.escalate_slip : s.escalate.slip = s.slip := rfl
@[simp] theorem State.escalate_links : s.escalate.links = s.links := rfl
@[simp] theorem State.escalate_chain : s.escalate.chain = s.chain := rfl
@[simp] theorem State.escalate_sec : s.escalate.sec = s.sec := rfl
@[simp] theorem State.escalate_evr : s.escalate.evr = s.evr := rfl
@[simp] theorem State.escalate_hlt : s.escalate.hlt = s.hlt := rfl
@[simp] theorem State.escalate_plan : s.escalate.plan = s.plan := rfl
@[simp] theorem State.escalate_loaded : s.escalate.loaded = s.loaded := rfl
@[simp] theorem State.escalate_fit : s.escalate.fit = s.fit := rfl
@[simp] theorem State.escalate_step : s.escalate.step = s.step := rfl
@[simp] theorem State.escalate_loads : s.escalate.loads = s.loads := rfl
@[simp] theorem State.escalate_begun : s.escalate.begun = s.begun := rfl
@[simp] theorem State.escalate_hostLeaves : s.escalate.hostLeaves = s.hostLeaves := rfl
@[simp] theorem State.escalate_loadedChunks : s.escalate.loadedChunks = s.loadedChunks := rfl
@[simp] theorem State.escalate_withheld : s.escalate.withheld = s.withheld := rfl
@[simp] theorem State.escalate_answer : s.escalate.answer = s.answer := rfl
@[simp] theorem State.escalate_mxScales : s.escalate.mxScales = s.mxScales := rfl
@[simp] theorem State.escalate_fresh : s.escalate.fresh = s.fresh := rfl
@[simp] theorem State.escalate_keepHeld : s.escalate.keepHeld = s.keepHeld := rfl

/-! The end of a handshake changes the recorder, and the reset being taken where a record number has reached its limit. -/

@[simp] theorem close_pending : (close s).pending = s.pending := by unfold close State.atRecordLimit; split <;> rfl
@[simp] theorem close_dev : (close s).dev = s.dev := by unfold close State.atRecordLimit; split <;> rfl
@[simp] theorem close_ports : (close s).ports = s.ports := by unfold close State.atRecordLimit; split <;> rfl
@[simp] theorem close_vio : (close s).vio = s.vio := by unfold close State.atRecordLimit; split <;> rfl
@[simp] theorem close_cores : (close s).cores = s.cores := by unfold close State.atRecordLimit; split <;> rfl
@[simp] theorem close_gales : (close s).gales = s.gales := by unfold close State.atRecordLimit; split <;> rfl
@[simp] theorem close_draughts : (close s).draughts = s.draughts := by unfold close State.atRecordLimit; split <;> rfl
@[simp] theorem close_chainVanes : (close s).chainVanes = s.chainVanes := by unfold close State.atRecordLimit; split <;> rfl
@[simp] theorem close_chainOverflowSeen : (close s).chainOverflowSeen = s.chainOverflowSeen := by unfold close State.atRecordLimit; split <;> rfl
@[simp] theorem close_chainDiscardSeen : (close s).chainDiscardSeen = s.chainDiscardSeen := by unfold close State.atRecordLimit; split <;> rfl
@[simp] theorem close_frozen : (close s).frozen = s.frozen := by unfold close State.atRecordLimit; split <;> rfl
@[simp] theorem close_chainBank : (close s).chainBank = s.chainBank := by unfold close State.atRecordLimit; split <;> rfl
@[simp] theorem close_signals : (close s).signals = s.signals := by unfold close State.atRecordLimit; split <;> rfl
@[simp] theorem close_mem : (close s).mem = s.mem := by unfold close State.atRecordLimit; split <;> rfl
@[simp] theorem close_stash : (close s).stash = s.stash := by unfold close State.atRecordLimit; split <;> rfl
@[simp] theorem close_foehn : (close s).foehn = s.foehn := by unfold close State.atRecordLimit; split <;> rfl
@[simp] theorem close_slip : (close s).slip = s.slip := by unfold close State.atRecordLimit; split <;> rfl
@[simp] theorem close_links : (close s).links = s.links := by unfold close State.atRecordLimit; split <;> rfl
@[simp] theorem close_chain : (close s).chain = s.chain := by unfold close State.atRecordLimit; split <;> rfl
@[simp] theorem close_sec : (close s).sec = s.sec := by unfold close State.atRecordLimit; split <;> rfl
@[simp] theorem close_hlt : (close s).hlt = s.hlt := by unfold close State.atRecordLimit; split <;> rfl
@[simp] theorem close_plan : (close s).plan = s.plan := by unfold close State.atRecordLimit; split <;> rfl
@[simp] theorem close_loaded : (close s).loaded = s.loaded := by unfold close State.atRecordLimit; split <;> rfl
@[simp] theorem close_fit : (close s).fit = s.fit := by unfold close State.atRecordLimit; split <;> rfl
@[simp] theorem close_step : (close s).step = s.step := by unfold close State.atRecordLimit; split <;> rfl
@[simp] theorem close_loads : (close s).loads = s.loads := by unfold close State.atRecordLimit; split <;> rfl
@[simp] theorem close_begun : (close s).begun = s.begun := by unfold close State.atRecordLimit; split <;> rfl
@[simp] theorem close_hostLeaves : (close s).hostLeaves = s.hostLeaves := by unfold close State.atRecordLimit; split <;> rfl
@[simp] theorem close_loadedChunks : (close s).loadedChunks = s.loadedChunks := by unfold close State.atRecordLimit; split <;> rfl
@[simp] theorem close_withheld : (close s).withheld = s.withheld := by unfold close State.atRecordLimit; split <;> rfl
@[simp] theorem close_answer : (close s).answer = s.answer := by unfold close State.atRecordLimit; split <;> rfl
@[simp] theorem close_fresh : (close s).fresh = s.fresh := by unfold close State.atRecordLimit; split <;> rfl
@[simp] theorem close_keepHeld : (close s).keepHeld = s.keepHeld := by unfold close State.atRecordLimit; split <;> rfl
@[simp] theorem close_mxScales : (close s).mxScales = s.mxScales := by unfold close State.atRecordLimit; split <;> rfl

/-- The end of a handshake leaves the recorder as its own closing of the handshake leaves it. -/
@[simp] theorem close_evr : (close s).evr = s.evr.close s.rst.count s.now := by
  unfold close State.atRecordLimit; split <;> rfl

/-- The end of a handshake leaves no record over. -/
@[simp] theorem Evr.close_queue (e : Evr) (rstCount tick : Nat) : (e.close rstCount tick).queue = [] := rfl

/-- The recognition of a reset changes nothing of the reset controller but the reset being taken. -/
theorem recognise_rst (src : Nat) (scope : Scope) :
    ∃ k, (s.recognise src scope).rst = { s.rst with taking := some k } := by
  unfold State.recognise State.modRst
  cases h : s.rst.taking <;> simp [h]

/-- The end of a handshake changes nothing of the reset controller but the reset being taken, and that only by an escalation. -/
theorem close_rst : (close s).rst = s.rst ∨ (close s).rst = s.escalate.rst := by
  unfold close State.atRecordLimit; split
  · exact .inr rfl
  · exact .inl rfl

/-! The parts of the state by index. -/

@[simp] theorem upd_get_self {α : Type} {n : Nat} (v : Vector α n) (i : Fin n) (f : α → α) : (upd v i f).get i = f (v.get i) := by
  simp [upd, Vector.get_eq_getElem]

theorem upd_get_ne {α : Type} {n : Nat} (v : Vector α n) (i j : Fin n) (f : α → α) (h : j ≠ i) :
    (upd v i f).get j = v.get j := by
  have h' : i.val ≠ j.val := fun e => h (Fin.ext e.symm)
  simp [upd, Vector.get_eq_getElem, h']

end Sys2Proof.Machine
end

