-- ==== Sys2Proof/Laws/Closing.lean ====
section
/-! SUPPORT. What the shared forms of a command's answer leave in the recorder: no record is left over, whichever of them
answers. -/

namespace Sys2Proof.Machine

/-- Every next state that an answer gives has no record left over, if the state it was given in had none. -/
def Tidies (o : Out) (s : State) : Prop := ∀ t, o = .next t → s.evr.queue = [] → t.evr.queue = []

theorem tidies_done (x s : State) : Tidies (done x) s := by
  intro t h _; unfold done at h; cases h; simp

theorem tidies_stay (s : State) : Tidies (stay s) s := by
  intro t h hq; unfold stay at h; cases h; exact hq

theorem tidies_refused (r : Refusal) (s : State) : Tidies (.refused r) s := by intro t h; cases h

/-- An answer given in a state whose recorder is another's. -/
theorem tidies_of_evr {o : Out} {x s : State} (h : Tidies o x) (e : x.evr.queue = s.evr.queue) : Tidies o s :=
  fun t ht hq => h t ht (e.trans hq)

theorem tidies_issue (c : Fin 4) (k : Fin 8) (code : Nat) (s : State) (f : BitVec 128 → State → State) :
    Tidies (issue c k code s f) s := by
  unfold issue; split <;> exact tidies_done _ _

theorem tidies_takes (s : State) (l : Fin 36) (p : Packet) (type : Nat) : Tidies (s.takes l p type) s := by
  unfold State.takes; split
  · exact tidies_done _ _
  · exact tidies_stay _

theorem tidies_takesFence (s : State) (l : Fin 36) (p : Packet) (type : Nat) : Tidies (s.takesFence l p type) s := by
  unfold State.takesFence; split
  · exact tidies_done _ _
  · exact tidies_stay _

theorem tidies_takesAll (s : State) (xs : List (Fin 36 × Packet)) : Tidies (s.takesAll xs) s := tidies_done _ _

theorem tidies_takesFrame (s : State) (l : Fin 36) (p : Packet) (f : Frame) (ok : Nat → Bool) :
    Tidies (s.takesFrame l p f ok) s := by
  unfold State.takesFrame; split
  · exact tidies_takes _ _ _ _
  · exact tidies_stay _

theorem tidies_takePair (s : State) (l : Fin 36) (p : Packet) (kind : Nat) (act : State → State) :
    Tidies (s.takePair l p kind act) s := by
  unfold State.takePair; dsimp only; split
  · exact tidies_stay _
  · generalize s.collected l p = x
    split <;> exact tidies_done _ _

theorem tidies_fetchStep (c : Fin 4) (k : Fin 8) (s : State) : Tidies (fetchStep c k s) s := by
  unfold fetchStep; repeat' (first | exact tidies_done _ _ | exact tidies_stay _ | split)

theorem tidies_startItem (e : Fin 8) (i : Fin 4) (kind : Nat) (s : State) : Tidies (startItem e i kind s) s := by
  unfold startItem; repeat' (first | exact tidies_done _ _ | exact tidies_stay _ | split)

/-- A row of a command register, whichever register it is. -/
theorem tidies_commandRow (s : State) (p : Path) (off : Nat) (rivals : List Rival) (act : State → State)
    (refuse : Rival → State → State) : Tidies (s.commandRow p off rivals act refuse) s := by
  unfold State.commandRow; split
  · exact tidies_stay _
  · split <;> exact tidies_done _ _

theorem tidies_pathRead (s : State) (p : Path) (off : Nat) : Tidies (s.pathRead p off) s := by
  unfold State.pathRead; repeat' (first | exact tidies_done _ _ | exact tidies_stay _ | split)

theorem tidies_pathWrite (s : State) (p : Path) (off : Nat) (v : Word) : Tidies (s.pathWrite p off v) s := by
  unfold State.pathWrite; repeat' (first | exact tidies_done _ _ | exact tidies_stay _ | split)

theorem tidies_bar2Write (fn : Fin 2) (off : Nat) (data : List Byte) (s : State) : Tidies (execBar2Write fn off data s) s := by
  unfold execBar2Write; dsimp only; repeat' (first | exact tidies_done _ _ | exact tidies_stay _ | split)

end Sys2Proof.Machine
end

