-- ==== Sys2Proof/Laws/Reads.lean ====
section
/-! SUPPORT. What each named view of the state (a core, a context, a vane, a link, …) reads after an update of one of them, and
what issuing an operation leaves. -/

namespace Sys2Proof.Machine

variable (s : State)

theorem upd_get {α : Type} {n : Nat} (v : Vector α n) (i j : Fin n) (f : α → α) :
    (upd v i f).get j = if j = i then f (v.get i) else v.get j := by
  by_cases h : j = i
  · subst h; simp
  · simp [h, upd_get_ne _ _ _ _ h]

/-! A part after its own update. -/

theorem State.core_modCore (c d : Fin 4) (f : Core → Core) :
    (s.modCore c f).core d = if d = c then f (s.core c) else s.core d := upd_get _ _ _ _
theorem State.gale_modGale (g h : Fin 8) (f : Gale → Gale) :
    (s.modGale g f).gale h = if h = g then f (s.gale g) else s.gale h := upd_get _ _ _ _
theorem State.drt_modDrt (e d : Fin 8) (f : Draught → Draught) :
    (s.modDrt e f).drt d = if d = e then f (s.drt e) else s.drt d := upd_get _ _ _ _
theorem State.stack_modStack (n m : Fin 12) (f : Stack → Stack) :
    (s.modStack n f).stack m = if m = n then f (s.stack n) else s.stack m := upd_get _ _ _ _
theorem State.stc_modStc (n m : Fin 8) (f : Stash → Stash) :
    (s.modStc n f).stc m = if m = n then f (s.stc n) else s.stc m := upd_get _ _ _ _
theorem State.fhn_modFhn (n m : Fin 12) (f : Foehn → Foehn) :
    (s.modFhn n f).fhn m = if m = n then f (s.fhn n) else s.fhn m := upd_get _ _ _ _
theorem State.link_modLink (l m : Fin 36) (f : Link → Link) :
    (s.modLink l f).link m = if m = l then f (s.link l) else s.link m := upd_get _ _ _ _

@[simp] theorem State.core_modCore_self (c : Fin 4) (f : Core → Core) : (s.modCore c f).core c = f (s.core c) := upd_get_self _ _ _
@[simp] theorem State.gale_modGale_self (g : Fin 8) (f : Gale → Gale) : (s.modGale g f).gale g = f (s.gale g) := upd_get_self _ _ _
@[simp] theorem State.drt_modDrt_self (e : Fin 8) (f : Draught → Draught) : (s.modDrt e f).drt e = f (s.drt e) := upd_get_self _ _ _
@[simp] theorem State.stack_modStack_self (n : Fin 12) (f : Stack → Stack) : (s.modStack n f).stack n = f (s.stack n) := upd_get_self _ _ _
@[simp] theorem State.stc_modStc_self (n : Fin 8) (f : Stash → Stash) : (s.modStc n f).stc n = f (s.stc n) := upd_get_self _ _ _
@[simp] theorem State.fhn_modFhn_self (n : Fin 12) (f : Foehn → Foehn) : (s.modFhn n f).fhn n = f (s.fhn n) := upd_get_self _ _ _
@[simp] theorem State.link_modLink_self (l : Fin 36) (f : Link → Link) : (s.modLink l f).link l = f (s.link l) := upd_get_self _ _ _

theorem State.ctx_modCore (c d : Fin 4) (j : Fin 8) (f : Core → Core) :
    (s.modCore c f).ctx d j = if d = c then (f (s.core c)).ctxs.get j else s.ctx d j := by
  change ((s.modCore c f).core d).ctxs.get j = _
  rw [State.core_modCore]; split <;> rfl

/-- An update of a core that leaves its contexts leaves every context. -/
theorem State.ctx_modCore_of (c d : Fin 4) (j : Fin 8) (f : Core → Core) (h : (f (s.core c)).ctxs = (s.core c).ctxs) :
    (s.modCore c f).ctx d j = s.ctx d j := by
  rw [State.ctx_modCore, h]; split
  · subst d; rfl
  · rfl

theorem State.ctx_modCtx (c d : Fin 4) (k j : Fin 8) (f : Ctx → Ctx) :
    (s.modCtx c k f).ctx d j = if d = c ∧ j = k then f (s.ctx c k) else s.ctx d j := by
  rw [State.modCtx, State.ctx_modCore]
  by_cases h : d = c
  · subst h; simp only [upd_get, true_and, if_true]; split <;> rfl
  · simp [h]

@[simp] theorem State.ctx_modCtx_self (c : Fin 4) (k : Fin 8) (f : Ctx → Ctx) : (s.modCtx c k f).ctx c k = f (s.ctx c k) := by
  rw [State.ctx_modCtx]; simp

theorem State.core_modCtx (c d : Fin 4) (k : Fin 8) (f : Ctx → Ctx) :
    (s.modCtx c k f).core d = if d = c then { s.core c with ctxs := upd (s.core c).ctxs k f } else s.core d :=
  State.core_modCore _ _ _ _

/-- A context update leaves everything else of its core, said once for each field that statements read. -/
@[simp] theorem State.core_modCtx_store (c d : Fin 4) (k : Fin 8) (f : Ctx → Ctx) : ((s.modCtx c k f).core d).store = (s.core d).store := by
  rw [State.core_modCtx]; split <;> simp_all
@[simp] theorem State.core_modCtx_lastIssued (c d : Fin 4) (k : Fin 8) (f : Ctx → Ctx) :
    ((s.modCtx c k f).core d).lastIssued = (s.core d).lastIssued := by
  rw [State.core_modCtx]; split <;> simp_all
@[simp] theorem State.core_modCtx_bank (c d : Fin 4) (k : Fin 8) (f : Ctx → Ctx) : ((s.modCtx c k f).core d).bank = (s.core d).bank := by
  rw [State.core_modCtx]; split <;> simp_all

/-! Views that `close`, `ask` and `recognise` leave. -/

@[simp] theorem core_close (c : Fin 4) : (close s).core c = s.core c := by simp [State.core]
@[simp] theorem ctx_close (c : Fin 4) (k : Fin 8) : (close s).ctx c k = s.ctx c k := by simp [State.ctx]
@[simp] theorem gale_close (g : Fin 8) : (close s).gale g = s.gale g := by simp [State.gale]
@[simp] theorem drt_close (e : Fin 8) : (close s).drt e = s.drt e := by simp [State.drt]
@[simp] theorem stack_close (n : Fin 12) : (close s).stack n = s.stack n := by simp [State.stack]
@[simp] theorem stc_close (n : Fin 8) : (close s).stc n = s.stc n := by simp [State.stc]
@[simp] theorem fhn_close (n : Fin 12) : (close s).fhn n = s.fhn n := by simp [State.fhn]
@[simp] theorem link_close (l : Fin 36) : (close s).link l = s.link l := by simp [State.link]
@[simp] theorem vane_close (v : VaneId) : (close s).vane v = s.vane v := by cases v <;> simp [State.vane]

@[simp] theorem State.core_ask (t u : Nat) (p : List Byte) (c : Fin 4) : (s.ask t u p).core c = s.core c := rfl
@[simp] theorem State.ctx_ask (t u : Nat) (p : List Byte) (c : Fin 4) (k : Fin 8) : (s.ask t u p).ctx c k = s.ctx c k := rfl
@[simp] theorem State.gale_ask (t u : Nat) (p : List Byte) (g : Fin 8) : (s.ask t u p).gale g = s.gale g := rfl
@[simp] theorem State.stack_ask (t u : Nat) (p : List Byte) (n : Fin 12) : (s.ask t u p).stack n = s.stack n := rfl
@[simp] theorem State.stc_ask (t u : Nat) (p : List Byte) (n : Fin 8) : (s.ask t u p).stc n = s.stc n := rfl
@[simp] theorem State.fhn_ask (t u : Nat) (p : List Byte) (n : Fin 12) : (s.ask t u p).fhn n = s.fhn n := rfl
@[simp] theorem State.link_ask (t u : Nat) (p : List Byte) (l : Fin 36) : (s.ask t u p).link l = s.link l := rfl
@[simp] theorem State.core_violate (v : Vio) (c : Fin 4) : (s.violate v).core c = s.core c := rfl
@[simp] theorem State.ctx_violate (v : Vio) (c : Fin 4) (k : Fin 8) : (s.violate v).ctx c k = s.ctx c k := rfl
@[simp] theorem State.core_recognise (src : Nat) (scope : Scope) (c : Fin 4) : (s.recognise src scope).core c = s.core c := rfl
@[simp] theorem State.ctx_recognise (src : Nat) (scope : Scope) (c : Fin 4) (k : Fin 8) :
    (s.recognise src scope).ctx c k = s.ctx c k := rfl
@[simp] theorem State.stack_recognise (src : Nat) (scope : Scope) (n : Fin 12) : (s.recognise src scope).stack n = s.stack n := rfl

/-! Issuing (R100, R111, R129). -/

/-- The core of an operation that issued: it issued last, and it is counted. -/
theorem State.core_issuedTo (c : Fin 4) (k : Fin 8) (next : Nat) :
    ((s.issuedTo c k next).core c).lastIssued = k ∧ ((s.issuedTo c k next).core c).bank = (s.core c).bank.add 0 1 := by
  simp [State.issuedTo, State.retireTo]

/-- The context of an operation that issued has retired it. -/
theorem State.ctx_issuedTo (c d : Fin 4) (k j : Fin 8) (next : Nat) :
    (s.issuedTo c k next).ctx d j = if d = c ∧ j = k then ((s.ctx c k).retire next).settle else s.ctx d j := by
  rw [State.issuedTo, State.retireTo, State.ctx_modCtx]
  simp only [State.ctx_modCore_of]

theorem State.issued_eq (c : Fin 4) (k : Fin 8) : s.issued c k = s.issuedTo c k ((s.ctx c k).execPos + 1) := by
  rw [State.issued, State.issuedTo, State.retire, State.ctx_modCore_of]; rfl

end Sys2Proof.Machine
end

