-- ==== Sys2Proof/Laws/Memory.lean ====
section
/-! SUPPORT. Every memory operation keeps all memory in canonical form (`State.MemoryOk`), and reset memory has it. -/

namespace Sys2Proof.Machine

/-! Sparse bytes. -/

theorem memCells_low (bs : List Byte) : ∀ a, ∀ e ∈ memCells a bs, a ≤ e.1 ∧ e.1 < a + bs.length ∧ e.2 ≠ 0 := by
  induction bs with
  | nil => intro a e h; simp [memCells] at h
  | cons v vs ih =>
    intro a e h
    simp only [memCells] at h
    rw [List.length_cons]
    split at h
    · obtain ⟨h1, h2, h3⟩ := ih (a + 1) e h
      exact ⟨by omega, by omega, h3⟩
    · rcases List.mem_cons.1 h with h | h
      · subst h; exact ⟨Nat.le_refl a, by simp only; omega, by assumption⟩
      · obtain ⟨h1, h2, h3⟩ := ih (a + 1) e h
        exact ⟨by omega, by omega, h3⟩

theorem memCells_rising (bs : List Byte) : ∀ a, (memCells a bs).Pairwise (fun x y => x.1 < y.1) := by
  induction bs with
  | nil => intro a; simp [memCells]
  | cons v vs ih =>
    intro a
    simp only [memCells]
    split
    · exact ih _
    · exact List.pairwise_cons.2 ⟨fun e h => by have := memCells_low vs (a + 1) e h; simp only; omega, ih _⟩

/-- A write keeps sparse bytes in canonical form. -/
theorem memWrite_wf {m : List (Nat × Byte)} (h : memWf m) (a : Nat) (bs : List Byte) : memWf (memWrite m a bs) := by
  obtain ⟨hp, hz⟩ := h
  unfold memWrite
  refine ⟨List.pairwise_append.2 ⟨List.pairwise_append.2 ⟨hp.filter _, memCells_rising bs a, ?_⟩, hp.filter _, ?_⟩, ?_⟩
  · intro x hx y hy
    have := memCells_low bs a y hy
    simp only [List.mem_filter, decide_eq_true_eq] at hx; omega
  · intro x hx y hy
    simp only [List.mem_filter, decide_eq_true_eq] at hy
    rcases List.mem_append.1 hx with hx | hx
    · simp only [List.mem_filter, decide_eq_true_eq] at hx; omega
    · have := memCells_low bs a x hx; omega
  · intro e he
    rcases List.mem_append.1 he with he | he
    · rcases List.mem_append.1 he with he | he
      · exact hz e (List.mem_filter.1 he).1
      · exact (memCells_low bs a e he).2.2
    · exact hz e (List.mem_filter.1 he).1

/-! One controller. -/

variable {m : LineMem}

/-- What keeps the bytes of a controller keeps their form. -/
theorem LineMem.Ok.of_eq {m' : LineMem} (h : m.Ok) (hd : m'.data = m.data) (hu : m'.upset = m.upset) : m'.Ok := by
  unfold LineMem.Ok at *; rw [hd, hu]; exact h

/-- The bytes, the entries and the waiting corrections of a controller are the same in another. -/
def LineMem.Keeps (m m' : LineMem) : Prop := m'.data = m.data ∧ m'.upset = m.upset ∧ m'.fixes = m.fixes ∧ m'.wc = m.wc

theorem LineMem.Keeps.trans {a b c : LineMem} (h : a.Keeps b) (k : b.Keeps c) : a.Keeps c :=
  ⟨k.1.trans h.1, k.2.1.trans h.2.1, k.2.2.1.trans h.2.2.1, k.2.2.2.trans h.2.2.2⟩

theorem LineMem.Keeps.ok {m' : LineMem} (k : m.Keeps m') (h : m.Ok) : m'.Ok := h.of_eq k.1 k.2.1

theorem LineMem.turn_keeps (m : LineMem) (g : Nat) (w : Bool) : m.Keeps (m.turn g w).1 := ⟨rfl, rfl, rfl, rfl⟩

theorem LineMem.readCheck_keeps (m : LineMem) (g : Nat) : m.Keeps (m.readCheck g).1 := ⟨rfl, rfl, rfl, rfl⟩

theorem LineMem.setPoison_keeps (m : LineMem) (line : Nat) (p : Bool) : m.Keeps (m.setPoison line p) := ⟨rfl, rfl, rfl, rfl⟩

theorem LineMem.restorePair_keeps (m : LineMem) (g : Nat) : m.Keeps (m.restorePair g) := by
  unfold LineMem.restorePair; exact ⟨rfl, rfl, rfl, rfl⟩

theorem LineMem.evict_keeps (m : LineMem) (g : Nat) : m.Keeps (m.evict g).1 := by
  unfold LineMem.evict
  dsimp only
  split <;> split <;> exact ⟨rfl, rfl, rfl, rfl⟩

theorem LineMem.cacheIn_keeps (m : LineMem) (g max : Nat) : m.Keeps (m.cacheIn g max).1 := by
  unfold LineMem.cacheIn
  split
  · exact ⟨rfl, rfl, rfl, rfl⟩
  · split
    · rename_i old _ _
      exact (m.evict_keeps old).trans ⟨rfl, rfl, rfl, rfl⟩
    · exact ⟨rfl, rfl, rfl, rfl⟩

theorem LineMem.needCheck_keeps (m : LineMem) (line max : Nat) : m.Keeps (m.needCheck line max).1 := by
  unfold LineMem.needCheck
  dsimp only
  split
  · split
    · split <;> exact ⟨rfl, rfl, rfl, rfl⟩
    · exact ⟨rfl, rfl, rfl, rfl⟩
  · exact (m.cacheIn_keeps _ max).trans (readCheck_keeps _ _)

theorem LineMem.touchGroup_keeps (m : LineMem) (g : Nat) (bit : BitVec 16) (max : Nat) :
    m.Keeps (m.touchGroup g bit max).1 := by
  unfold LineMem.touchGroup
  dsimp only
  have hc := m.cacheIn_keeps g max
  split
  · split
    · split <;> exact ⟨rfl, rfl, rfl, rfl⟩
    · exact ⟨rfl, rfl, rfl, rfl⟩
  · split <;> exact hc.trans ⟨rfl, rfl, rfl, rfl⟩

theorem LineMem.touchCheck_keeps (m : LineMem) (line max : Nat) : m.Keeps (m.touchCheck line max).1 :=
  m.touchGroup_keeps _ _ _

theorem LineMem.poisonOnly_keeps (m : LineMem) (line max : Nat) : m.Keeps (m.poisonOnly line max).1 :=
  (m.needCheck_keeps line max).trans ⟨rfl, rfl, rfl, rfl⟩

theorem LineMem.read_ok (h : m.Ok) (cr : Option Crypt) (code line max : Nat) : (m.read cr code line max).1.Ok := by
  have h2 : ((m.needCheck line max).1.turn (groupOf line) false).1.Ok :=
    ((m.needCheck_keeps line max).trans (turn_keeps _ _ _)).ok h
  unfold LineMem.read
  dsimp only
  generalize hx : ((m.needCheck line max).1.turn (groupOf line) false).1 = x at h2 ⊢
  have h3 : (if (x.decodeLine cr code line).2.2 = true then
      { x.setPoison line true with dirty := insSorted x.dirty (groupOf line) } else x : LineMem).Ok := by
    split
    · exact h2.of_eq rfl rfl
    · exact h2
  split
  · exact h3.of_eq rfl rfl
  · exact h3

/-- A read whose transfer failed for good changes no byte, and no waiting correction. -/
theorem LineMem.readLost_keeps (m : LineMem) (line max : Nat) : m.Keeps (m.readLost line max).1 :=
  ((m.needCheck_keeps line max).trans (turn_keeps _ (groupOf line) false)).trans ⟨rfl, rfl, rfl, rfl⟩

theorem LineMem.write_ok (h : m.Ok) (line max : Nat) (bytes : List Byte) (p : Bool) : (m.write line max bytes p).1.Ok := by
  have h2 := (m.touchCheck_keeps line max).ok h
  exact ⟨memWrite_wf (m := (m.touchCheck line max).1.data) h2.1 _ _,
    memWrite_wf (m := (m.touchCheck line max).1.upset) h2.2 _ _⟩

theorem LineMem.fix_ok (h : m.Ok) (line max : Nat) : (m.fix line max).1.Ok := by
  unfold LineMem.fix
  split
  · exact h
  · have h2 : ((m.touchCheck line max).1.restorePair (groupOf line)).Ok :=
      ((m.touchCheck_keeps line max).trans (restorePair_keeps _ _)).ok h
    exact ⟨memWrite_wf h2.1 _ _, memWrite_wf h2.2 _ _⟩

/-- The step of `fixAll`. -/
def LineMem.fixStep (max : Nat) (acc : LineMem × LineEv) (l : Nat) : LineMem × LineEv :=
  ((acc.1.fix l max).1, acc.2.plus (acc.1.fix l max).2)

theorem LineMem.fixAll_eq (m : LineMem) (max : Nat) :
    m.fixAll max = (m.fixes.map (·.1)).foldl (LineMem.fixStep max) (m, LineEv.none) := rfl

theorem LineMem.foldFix_ok (max : Nat) (ls : List Nat) : ∀ {acc : LineMem × LineEv}, acc.1.Ok →
    (ls.foldl (LineMem.fixStep max) acc).1.Ok := by
  induction ls with
  | nil => exact fun h => h
  | cons l ls ih => exact fun h => ih (fix_ok h l max)

theorem LineMem.fixAll_ok (h : m.Ok) (max : Nat) : (m.fixAll max).1.Ok := by
  rw [LineMem.fixAll_eq]; exact foldFix_ok max _ h

theorem LineMem.strike_ok (h : m.Ok) (line : Nat) (upset : List Byte) (flags : BitVec 16) : (m.strike line upset flags).Ok :=
  ⟨h.1, memWrite_wf h.2 _ _⟩

theorem LineMem.finish_ok (h : m.Ok) (cr : Option Crypt) (line max : Nat) : (m.finish cr line max).1.Ok := by
  unfold LineMem.finish
  split
  · exact h
  · rename_i w _
    have h1 : ({ m with wc := Tbl.erase m.wc line } : LineMem).Ok := h.of_eq rfl rfl
    have h2 := read_ok h1 cr w.code line max
    dsimp only
    exact write_ok h2 _ _ _ _

theorem LineMem.combine_ok (h : m.Ok) (line max now addr code : Nat)
    (bytes : List (Nat × Byte)) (p : Bool) : (m.combine line max now addr code bytes p).1.Ok := by
  unfold LineMem.combine
  dsimp only
  split
  · exact write_ok h _ _ _ _
  · exact h.of_eq rfl rfl

/-! No correction waits after all are written back. -/

theorem Tbl.get?_none_of_erase {α : Type} (t : Tbl α) (k : Nat) : Tbl.get? (Tbl.erase t k) k = none := by
  induction t with
  | nil => rfl
  | cons e t ih =>
    unfold Tbl.erase at *
    by_cases h : e.1 = k
    · simp [h, ih]
    · obtain ⟨i, x⟩ := e
      simp only [List.filter_cons, bne_iff_ne, ne_eq, h, not_false_eq_true, if_true, Tbl.get?, if_false, ih]

theorem Tbl.get?_isSome_of_mem {α : Type} {t : Tbl α} {k : Nat} (h : k ∈ t.map (·.1)) : (Tbl.get? t k).isSome = true := by
  induction t with
  | nil => simp at h
  | cons e t ih =>
    obtain ⟨i, x⟩ := e
    simp only [Tbl.get?]
    split
    · rfl
    · rename_i hne
      simp only [List.map_cons, List.mem_cons] at h
      rcases h with h | h
      · exact absurd h.symm hne
      · exact ih h

theorem LineMem.fix_fixes (m : LineMem) (l max : Nat) : (m.fix l max).1.fixes = Tbl.erase m.fixes l := by
  unfold LineMem.fix
  split
  · rename_i h
    symm
    unfold Tbl.erase
    refine List.filter_eq_self.2 (fun e he => ?_)
    simp only [bne_iff_ne, ne_eq]
    intro hk
    have := Tbl.get?_isSome_of_mem (t := m.fixes) (k := l) (List.mem_map.2 ⟨e, he, hk⟩)
    rw [h] at this; simp at this
  · have hk := ((m.touchCheck_keeps l max).trans (restorePair_keeps _ (groupOf l))).2.2.1
    exact congrArg (fun t => Tbl.erase t l) hk

theorem LineMem.foldFix_fixes (max : Nat) (ls : List Nat) : ∀ acc : LineMem × LineEv,
    (ls.foldl (LineMem.fixStep max) acc).1.fixes = acc.1.fixes.filter (fun e => !ls.contains e.1) := by
  induction ls with
  | nil => intro acc; simp
  | cons l ls ih =>
    intro acc
    rw [List.foldl_cons, ih]
    show ((acc.1.fix l max).1.fixes).filter _ = _
    rw [LineMem.fix_fixes]
    unfold Tbl.erase
    rw [List.filter_filter]
    congr 1
    funext e
    simp only [List.contains_cons]
    by_cases h : e.1 = l <;> simp [h, bne, Bool.and_comm]

theorem LineMem.fixAll_fixes (m : LineMem) (max : Nat) : (m.fixAll max).1.fixes = [] := by
  rw [LineMem.fixAll_eq, LineMem.foldFix_fixes]
  refine List.filter_eq_nil_iff.2 (fun e he => ?_)
  simp only [Bool.not_eq_true', Bool.not_eq_false, List.contains_iff_mem]
  exact List.mem_map.2 ⟨e, he, rfl⟩

/-! The device. -/

variable {s : State}

/-- The form is kept by what leaves the three memories. -/
theorem State.MemoryOk.of_eq {t : State} (h : s.MemoryOk) (hm : t.mem = s.mem) (hs : t.stash = s.stash)
    (hc : t.cores = s.cores) : t.MemoryOk := by
  unfold State.MemoryOk State.stack State.stc State.core at *; rw [hm, hs, hc]; exact h

theorem State.MemoryOk.close (h : s.MemoryOk) : (Sys2Proof.Machine.close s).MemoryOk :=
  h.of_eq (close_mem s) (close_stash s) (close_cores s)

theorem State.modStack_ok (h : s.MemoryOk) (n : Fin 12) (f : Stack → Stack) (hf : (f (s.stack n)).arr.Ok) :
    (s.modStack n f).MemoryOk := by
  refine ⟨fun k => ?_, h.2.1, h.2.2⟩
  rw [State.stack_modStack]; split
  · exact hf
  · exact h.1 k

theorem State.modStc_ok (h : s.MemoryOk) (n : Fin 8) (f : Stash → Stash) (hf : (f (s.stc n)).arr.Ok)
    (hx : (f (s.stc n)).arr.fixes = []) : (s.modStc n f).MemoryOk := by
  refine ⟨h.1, fun k => ?_, h.2.2⟩
  rw [State.stc_modStc]; split
  · exact ⟨hf, hx⟩
  · exact h.2.1 k

theorem State.modCore_ok (h : s.MemoryOk) (c : Fin 4) (f : Core → Core) (hf : memWf (f (s.core c)).store) :
    (s.modCore c f).MemoryOk := by
  refine ⟨h.1, h.2.1, fun k => ?_⟩
  rw [State.core_modCore]; split
  · exact hf
  · exact h.2.2 k

theorem State.ask_ok (h : s.MemoryOk) (t u : Nat) (p : List Byte) : (s.ask t u p).MemoryOk := h.of_eq rfl rfl rfl

theorem State.stackTook_ok (h : s.MemoryOk) (n : Fin 12) {m : LineMem} (hm : m.Ok) (e : LineEv) (addr line code : Nat) :
    (s.stackTook n m e addr line code).MemoryOk := by
  have h2 : (s.modStack n (fun st => st.took m e addr line)).MemoryOk := s.modStack_ok h n _ hm
  unfold State.stackTook
  dsimp only
  split
  · exact h2
  · exact State.ask_ok h2 _ _ _

theorem State.stashTook_ok (h : s.MemoryOk) (n : Fin 8) {m : LineMem} (hm : m.Ok) (e : LineEv) (addr line code : Nat) :
    (s.stashTook n m e addr line code).MemoryOk := by
  have h2 : (s.modStc n (fun c => c.took m e addr line)).MemoryOk :=
    s.modStc_ok h n _ (LineMem.fixAll_ok hm _) (LineMem.fixAll_fixes m _)
  unfold State.stashTook
  dsimp only
  split
  · exact h2
  · exact State.ask_ok h2 _ _ _

/-- A read of a line keeps the form. -/
theorem State.touchLine_ok (h : s.MemoryOk) (a : Nat) (work : Bool) : (s.touchLine a work).MemoryOk := by
  unfold State.touchLine
  split
  · rename_i n loc code _
    have hr := LineMem.read_ok (h.1 n) none code (loc / 64) stackCache
    dsimp only
    exact stackTook_ok h n hr _ _ _ _
  · rename_i n pos loc code _
    have hr := LineMem.read_ok (h.2.1 n).1 ((s.stc n).crypt (stashLine pos loc)) code (stashLine pos loc) stashCache
    dsimp only
    exact stashTook_ok h n hr _ _ _ _
  · exact h

theorem State.finishStack_ok (h : s.MemoryOk) (n : Fin 12) (line : Nat) : (s.finishStack n line).MemoryOk := by
  unfold State.finishStack
  split
  · exact h
  · have hf := LineMem.finish_ok (h.1 n) none line stackCache
    dsimp only
    exact stackTook_ok h n hf _ _ _ _

theorem State.finishStash_ok (h : s.MemoryOk) (n : Fin 8) (line : Nat) : (s.finishStash n line).MemoryOk := by
  unfold State.finishStash
  split
  · exact h
  · have hf := LineMem.finish_ok (h.2.1 n).1 ((s.stc n).crypt line) line stashCache
    dsimp only
    exact stashTook_ok h n hf _ _ _ _

theorem State.roomStack_ok (h : s.MemoryOk) (n : Fin 12) (line : Nat) : (s.roomStack n line).MemoryOk := by
  unfold State.roomStack; split
  · exact finishStack_ok h _ _
  · exact h

theorem State.roomStash_ok (h : s.MemoryOk) (n : Fin 8) (line : Nat) : (s.roomStash n line).MemoryOk := by
  unfold State.roomStash; split
  · exact finishStash_ok h _ _
  · exact h

/-- A write of a line, or of part of one, keeps the form. -/
theorem State.writeLine_ok (h : s.MemoryOk) (a off : Nat) (bytes : List Byte) (p work : Bool) :
    (s.writeLine a off bytes p work).MemoryOk := by
  unfold State.writeLine
  dsimp only
  split
  · rename_i n loc code _
    have hr : (if bytes.length = 64 then s else s.roomStack n (loc / 64)).MemoryOk := by
      split
      · exact h
      · exact roomStack_ok h _ _
    generalize (if bytes.length = 64 then s else s.roomStack n (loc / 64)) = x at hr ⊢
    refine stackTook_ok hr n ?_ _ _ _ _
    split
    · exact LineMem.write_ok (hr.1 n) _ _ _ _
    · exact LineMem.combine_ok (hr.1 n) _ _ _ _ _ _ _
  · rename_i n pos loc code _
    have hr : (if bytes.length = 64 then s else s.roomStash n (stashLine pos loc)).MemoryOk := by
      split
      · exact h
      · exact roomStash_ok h _ _
    generalize (if bytes.length = 64 then s else s.roomStash n (stashLine pos loc)) = x at hr ⊢
    refine stashTook_ok hr n ?_ _ _ _ _
    split
    · exact LineMem.write_ok (hr.2.1 n).1 _ _ _ _
    · exact LineMem.combine_ok (hr.2.1 n).1 _ _ _ _ _ _ _
  · exact modCore_ok h _ _ (memWrite_wf (h.2.2 _) _ _)
  · exact h

/-- Poisoning a line keeps the form. -/
theorem State.poisonLine_ok (h : s.MemoryOk) (a : Nat) : (s.poisonLine a).MemoryOk := by
  unfold State.poisonLine
  split
  · exact h
  · split
    · exact modStack_ok h _ _ ((LineMem.poisonOnly_keeps _ _ _).ok (h.1 _))
    · have hk := fun n line => LineMem.poisonOnly_keeps (s.stc n).arr line stashCache
      exact modStc_ok h _ _ ((hk _ _).ok (h.2.1 _).1) ((hk _ _).2.2.1.trans (h.2.1 _).2)
    · exact modCore_ok h _ _ (h.2.2 _)
    · exact h

/-- A fold of steps that each keep the form keeps it. -/
theorem State.foldl_ok {α : Type} (f : State → α → State) (hf : ∀ s a, s.MemoryOk → (f s a).MemoryOk) (xs : List α) :
    ∀ {s : State}, s.MemoryOk → (xs.foldl f s).MemoryOk := by
  induction xs with
  | nil => exact fun h => h
  | cons a xs ih => exact fun h => ih (hf _ a h)

theorem State.touch_ok (h : s.MemoryOk) (ranges : List (Nat × Nat)) (work : Bool) : (s.touch ranges work).MemoryOk :=
  foldl_ok _ (fun _ _ h => touchLine_ok h _ _) _ h

theorem State.writeBytesN_ok (p work : Bool) (fuel : Nat) : ∀ {s : State} (a : Nat) (bs : List Byte), s.MemoryOk →
    (s.writeBytesN p work fuel a bs).MemoryOk := by
  induction fuel with
  | zero => exact fun _ _ h => h
  | succ n ih =>
    intro s a bs h
    unfold State.writeBytesN
    split
    · exact h
    · exact ih _ _ (writeLine_ok h _ _ _ _ _)

theorem State.writeBytes_ok (h : s.MemoryOk) (a : Nat) (bs : List Byte) (p work : Bool) :
    (s.writeBytes a bs p work).MemoryOk := writeBytesN_ok _ _ _ _ _ h

theorem State.poisonRanges_ok (h : s.MemoryOk) (ranges : List (Nat × Nat)) : (s.poisonRanges ranges).MemoryOk :=
  foldl_ok _ (fun _ _ h => poisonLine_ok h _) _ h

theorem State.land_ok (h : s.MemoryOk) (b : WBlk) : (s.land b).MemoryOk := by
  unfold State.land
  split
  · split
    · exact poisonRanges_ok h _
    · exact h
  · exact writeBytes_ok h _ _ _ _

/-- What an operation writes keeps the form. -/
theorem State.landAll_ok (h : s.MemoryOk) (bs : List WBlk) : (s.landAll bs).MemoryOk :=
  foldl_ok _ (fun _ _ h => land_ok h _) _ h

theorem State.finishEntries_ok (h : s.MemoryOk) : s.finishEntries.MemoryOk := by
  unfold State.finishEntries
  refine foldl_ok _ (fun s n h => foldl_ok _ (fun _ _ h => finishStash_ok h _ _) _ h) _ ?_
  exact foldl_ok _ (fun s n h => foldl_ok _ (fun _ _ h => finishStack_ok h _ _) _ h) _ h

/-- Memory right after reset: nothing is listed anywhere. -/
theorem memory_empty {x : State} (hm : ∀ n, (x.stack n).arr = LineMem.zero) (hs : ∀ n, (x.stc n).arr = LineMem.zero)
    (hc : ∀ c, (x.core c).store = []) : x.MemoryOk := by
  have hz : LineMem.zero.Ok := ⟨by decide, by decide⟩
  refine ⟨fun n => by rw [hm]; exact hz, fun n => by rw [hs]; exact ⟨hz, rfl⟩, fun c => by rw [hc]; decide⟩

end Sys2Proof.Machine
end

