-- ==== Sys2Proof/Laws/Registers.lean ====
section
/-! SUPPORT. Answering a path changes no register, and no right to reach one. -/

namespace Sys2Proof.Machine

variable (s : State) (p : Path) (r : Resp) (d : List Byte)

@[simp] theorem State.devReg_respond (o : Nat) : (s.respond p r d).devReg o = s.devReg o := by
  simp only [State.devReg, State.respond, State.modPorts]

@[simp] theorem State.rstReg_respond (q : Path) (o : Nat) : (s.respond p r d).rstReg q o = s.rstReg q o := by
  unfold State.rstReg
  simp only [State.respond, State.modPorts]
  rfl

@[simp] theorem State.evrReg_respond (q : Path) (o : Nat) : (s.respond p r d).evrReg q o = s.evrReg q o := by
  unfold State.evrReg
  simp only [State.respond, State.modPorts]
  rfl

@[simp] theorem State.hltReg_respond (q : Path) (o : Nat) : (s.respond p r d).hltReg q o = s.hltReg q o := by
  unfold State.hltReg
  simp only [State.respond, State.modPorts]
  rfl

@[simp] theorem State.secReg_respond (q : Path) (o : Nat) : (s.respond p r d).secReg q o = s.secReg q o := by
  unfold State.secReg
  simp only [State.respond, State.modPorts]
  rfl

@[simp] theorem State.vioReg_respond (o : Nat) : (s.respond p r d).vioReg o = s.vioReg o := by
  unfold State.vioReg
  simp only [State.respond, State.modPorts]
  rfl

@[simp] theorem State.coreReg_respond (c : Fin 4) (o : Nat) : (s.respond p r d).coreReg c o = s.coreReg c o := by
  unfold State.coreReg
  simp only [State.respond, State.modPorts]
  rfl

@[simp] theorem State.ctxReg_respond (c : Fin 4) (k : Fin 8) (o : Nat) : (s.respond p r d).ctxReg c k o = s.ctxReg c k o := by
  unfold State.ctxReg
  simp only [State.respond, State.modPorts]
  rfl

@[simp] theorem State.vaneReg_respond (c : Fin 4) (o : Nat) : (s.respond p r d).vaneReg c o = s.vaneReg c o := by
  unfold State.vaneReg
  simp only [State.respond, State.modPorts]
  rfl

@[simp] theorem State.galeReg_respond (g : Fin 8) (o : Nat) : (s.respond p r d).galeReg g o = s.galeReg g o := by
  unfold State.galeReg
  simp only [State.respond, State.modPorts]
  rfl

@[simp] theorem State.eddyReg_respond (c : Fin 4) (o : Nat) : (s.respond p r d).eddyReg c o = s.eddyReg c o := by
  unfold State.eddyReg
  simp only [State.respond, State.modPorts]
  rfl

@[simp] theorem State.veerReg_respond (q : Path) (c : Fin 4) (o : Nat) : (s.respond p r d).veerReg q c o = s.veerReg q c o := by
  unfold State.veerReg
  simp only [State.respond, State.modPorts]
  rfl

@[simp] theorem State.coreWindow_respond (q : Path) (c : Fin 4) (o : Nat) : (s.respond p r d).coreWindow q c o = s.coreWindow q c o := by
  simp only [State.coreWindow, State.coreReg_respond, State.ctxReg_respond, State.vaneReg_respond,
    State.galeReg_respond, State.eddyReg_respond, State.veerReg_respond]

@[simp] theorem State.drtReg_respond (e : Fin 8) (o : Nat) : (s.respond p r d).drtReg e o = s.drtReg e o := by
  unfold State.drtReg
  simp only [State.respond, State.modPorts]
  rfl

@[simp] theorem State.memReg_respond (n : Fin 12) (o : Nat) : (s.respond p r d).memReg n o = s.memReg n o := by
  unfold State.memReg
  simp only [State.respond, State.modPorts]
  rfl

@[simp] theorem State.fhnReg_respond (n : Fin 12) (o : Nat) : (s.respond p r d).fhnReg n o = s.fhnReg n o := by
  unfold State.fhnReg
  simp only [State.respond, State.modPorts]
  rfl

@[simp] theorem State.stcReg_respond (n : Fin 8) (o : Nat) : (s.respond p r d).stcReg n o = s.stcReg n o := by
  unfold State.stcReg
  simp only [State.respond, State.modPorts]
  rfl

@[simp] theorem State.chainReg_respond (o : Nat) : (s.respond p r d).chainReg o = s.chainReg o := by
  unfold State.chainReg
  simp only [State.respond, State.modPorts]
  rfl

@[simp] theorem State.linkReg_respond (l : Fin 36) (o : Nat) : (s.respond p r d).linkReg l o = s.linkReg l o := by
  unfold State.linkReg
  simp only [State.respond, State.modPorts]
  rfl

@[simp] theorem State.portReg_respond (o : Nat) : (s.respond p r d).portReg o = s.portReg o := by
  unfold State.portReg
  simp only [State.respond, State.modPorts]
  rfl

@[simp] theorem State.slpReg_respond (o : Nat) : (s.respond p r d).slpReg o = s.slpReg o := by
  unfold State.slpReg
  simp only [State.respond, State.modPorts]
  rfl

@[simp] theorem State.register_respond (q : Path) (o : Nat) : (s.respond p r d).register q o = s.register q o := by
  simp only [State.register, State.devReg_respond, State.rstReg_respond, State.evrReg_respond, State.hltReg_respond,
    State.secReg_respond, State.vioReg_respond, State.coreWindow_respond, State.drtReg_respond, State.memReg_respond,
    State.fhnReg_respond, State.stcReg_respond, State.linkReg_respond, State.portReg_respond, State.slpReg_respond]

@[simp] theorem State.mayRead_respond (q : Path) (c : RegClass) : (s.respond p r d).mayRead q c = s.mayRead q c := by
  unfold State.mayRead State.respond State.modPorts
  rfl

@[simp] theorem State.mayWrite_respond (q : Path) (c : RegClass) : (s.respond p r d).mayWrite q c = s.mayWrite q c := by
  unfold State.mayWrite State.respond State.modPorts
  rfl

@[simp] theorem State.portReaches_respond (q : Path) : (s.respond p r d).portReaches q = s.portReaches q := rfl

@[simp] theorem State.shut_respond (q : Path) (o : Nat) : (s.respond p r d).shut q o = s.shut q o := rfl

/-- What a path reads last is what it was answered. -/
@[simp] theorem State.respond_resp : assoc (s.respond p r d).ports.resp p = some (r, d) := by
  simp [State.respond, assoc]

end Sys2Proof.Machine
end

