-- ==== Sys2Proof/Laws/Turns.lean ====
section
/-! SUPPORT. A packet on a link: what taking it from the link leaves, and what its arrival does at its turn. -/

namespace Sys2Proof.Machine

variable (s : State)

@[simp] theorem State.collected_chain (l : Fin 36) (p : Packet) : (s.collected l p).chain = s.chain := rfl
@[simp] theorem State.collected_dev (l : Fin 36) (p : Packet) : (s.collected l p).dev = s.dev := rfl
@[simp] theorem State.collected_expected (l : Fin 36) (p : Packet) (src vl : Nat) :
    (s.collected l p).expected src vl = s.expected src vl := rfl

theorem State.collected_link (l m : Fin 36) (p : Packet) :
    (s.collected l p).link m = if m = l then { s.link l with arrived := (s.link l).arrived.erase p } else s.link m :=
  s.link_modLink _ _ _

@[simp] theorem State.collected_session (l m : Fin 36) (p : Packet) :
    ((s.collected l p).link m).session = (s.link m).session := by rw [State.collected_link]; split <;> simp_all

@[simp] theorem State.collected_peerStore (l m : Fin 36) (p : Packet) :
    ((s.collected l p).link m).peerStore = (s.link m).peerStore := by rw [State.collected_link]; split <;> simp_all

@[simp] theorem State.collected_st (l m : Fin 36) (p : Packet) :
    ((s.collected l p).link m).st = (s.link m).st := by rw [State.collected_link]; split <;> simp_all

@[simp] theorem State.collected_self (l : Fin 36) (p : Packet) : (s.collected l p).self = s.self := rfl

/-- A packet at its turn is delivered with its effect, and nothing follows it. -/
theorem State.deliverPkt_at_turn (l : Fin 36) (p : Packet) (type : Nat) (proof : Option ChunkProof) (h : s.InTurn l p type) :
    s.deliverPkt l p proof = (s.atTurn l p).actOf l p proof := by
  obtain ⟨_, hses, _, _, hok, hstore, hseq, hheld⟩ := h
  have hmay : ((s.link l).peerStore && !storeMay p.type) = false := by
    cases hp : (s.link l).peerStore with
    | false => rfl
    | true => simp [hstore hp]
  simp only [State.deliverPkt, State.authentic, hses, State.collected_peerStore, hok, hmay, Bool.true_or, Bool.not_true,
    Bool.false_eq_true, if_false, Bool.or_self, State.inOrder, State.collected_expected, hseq, if_true,
    State.collected_chain, hheld, List.length_nil, State.release, State.actOn, State.atTurn]

/-- A packet at its turn stands at its link. -/
theorem State.comes_at_turn (l : Fin 36) (p : Packet) (type : Nat) (h : s.InTurn l p type) : s.comes l p type = true := by
  obtain ⟨hst, _, hty, hloc, _⟩ := h
  simp [State.comes, State.hands, hst, hty, hloc]

/-- The command of a packet at its turn answers the packet's effect. -/
theorem State.takes_at_turn (l : Fin 36) (p : Packet) (type : Nat) (h : s.InTurn l p type) :
    s.takes l p type = done ((s.atTurn l p).actOf l p none) := by
  simp only [State.takes, s.comes_at_turn l p type h, if_true, s.deliverPkt_at_turn l p type none h]

/-- The command of a fence packet at its turn answers the packet's effect, and then the root judges. -/
theorem State.takesFence_at_turn (l : Fin 36) (p : Packet) (type : Nat) (h : s.InTurn l p type) :
    s.takesFence l p type = done ((s.atTurn l p).actOf l p none).rootJudge := by
  simp only [State.takesFence, s.comes_at_turn l p type h, if_true, s.deliverPkt_at_turn l p type none h]

end Sys2Proof.Machine
end

