-- ==== Sys2Proof/WellFormed.lean ====
section
/-! DEFINITION. When a command is one that a sender can send: every operand within the width that the specification gives
it. The machine gives every command a meaning, well formed or not. -/

namespace Sys2Proof

/-- An offset of control space: three bytes (R17, R25). -/
def offsetOk (off : Nat) : Bool := decide (off < 2 ^ 24)

/-- Bytes that stay within the 64-byte line of their address (R256). -/
def lineOk (addr : Nat) (data : List Byte) : Bool :=
  decide (addr < 2 ^ 48 ∧ 0 < data.length ∧ addr % 64 + data.length ≤ 64)

/-- A temperature that a sensor reports: 16 bits, signed, in eighths of a degree (R417). -/
def tempOk (t : Int) : Bool := decide (-32768 ≤ t ∧ t < 32768)

/-- The widths of the packet header (R313). -/
def Packet.wf (p : Packet) : Bool :=
  decide (p.type < 2 ^ 8 ∧ p.vl < 8 ∧ p.src < 2 ^ 16 ∧ p.dst < 2 ^ 16 ∧ p.pseq < 2 ^ 24 ∧ p.addr < 2 ^ 48 ∧ p.req < 2 ^ 16 ∧
    p.aux < 2 ^ 32 ∧ p.mask < 2 ^ 64 ∧ p.payload.length ≤ 4096)

/-- The widths of a frame's header (R246). -/
def Frame.wf (f : Frame) : Bool :=
  decide (f.type < 2 ^ 8 ∧ f.version < 2 ^ 8 ∧ f.srcDev < 2 ^ 16 ∧ f.step < 2 ^ 48 ∧ f.stack < 2 ^ 8 ∧ f.kind < 2 ^ 8 ∧
    f.group < 2 ^ 16 ∧ f.chunk < 2 ^ 32 ∧ f.offset < 2 ^ 32 ∧ f.seq < 2 ^ 64 ∧ f.attempt < 2 ^ 16 ∧ f.payload.length ≤ 4032)

/-- A wire flit has 272 bytes (R306). -/
def wireOk (wire : List Byte) : Bool := wire.length == 272

/-- A width of an access in bytes, as a bus can make one (R18). -/
def widthOk (n : Nat) : Bool := n == 1 || n == 2 || n == 4 || n == 8

/-- A control-space write, with a width that a bus can make (R18). -/
def formOk (f : Form) : Bool := widthOk f.width

/-- The widths of a chunk's proof (R246, R344). -/
def ChunkProof.wf (p : ChunkProof) : Bool :=
  decide (p.srcDev < 2 ^ 16 ∧ p.step < 2 ^ 48 ∧ p.kind < 2 ^ 8 ∧ p.group < 2 ^ 16 ∧ p.chunk < 2 ^ 32 ∧ p.length ≤ 0x400000 ∧
    p.leafIndex < p.leaves) && p.path.all (fun n => n.all (fun d => d.length == 48))

/-- A chunk's bytes, or a sealed chunk record with its 64 bytes of header. -/
def ChunkSource.wf : ChunkSource → Bool
  | .twin bytes => decide (bytes.length ≤ 0x400000)
  | .store record => decide (64 ≤ record.length ∧ record.length ≤ 0x400000 + 64)

/-- Slacks lie from −1 to 63 (R412). -/
def Measurement.wf (m : Measurement) : Bool := m.slacks.all (fun v => decide (-1 ≤ v ∧ v ≤ 63)) && tempOk m.temp

/-- A command whose operands lie within their widths. -/
def Instr.wf : Instr → Bool
  | .registerWrite _ off _ f | .loWrite _ off ⟨_, f⟩ | .hiWrite _ off ⟨_, f⟩ => offsetOk off && formOk f
  | .loRead _ a | .hiRead _ a => offsetOk a.off && widthOk a.width
  | .bar2Read _ off len => decide (0 < len ∧ off + len ≤ 2 ^ 36)
  | .bar2Write _ off data => decide (0 < data.length ∧ off + data.length ≤ 2 ^ 36)
  | .mbRegRead off => offsetOk off
  | .mbRegWrite off _ => offsetOk off
  | .chunkSend _ _ _ chunk => decide (chunk < 2 ^ 32)
  | .hbmRead addr upset _ => decide (addr < 2 ^ 48 ∧ upset.length ≤ 68)
  | .hbmWrite addr data _ => lineOk addr data
  | .correctionWriteBack _ line => decide (line < 2 ^ 33)
  | .wcEntryFinish _ line => decide (line < 2 ^ 33)
  | .checkLineEvict _ group => decide (group < 2 ^ 33)
  | .stashRead addr upset _ => decide (addr < 2 ^ 48 ∧ upset.length ≤ 68)
  | .stashWrite addr data _ _ => lineOk addr data
  | .flitReceive _ wire => wireOk wire
  | .report x xs | .memberReqAttach x xs | .memberReqDetach x xs | .memberReqTakeover x xs =>
    x.2.wf && xs.all (fun y => y.2.wf)
  | .attach p ⟨_, rivals⟩ | .detach p ⟨_, rivals⟩ | .nonce p ⟨_, rivals⟩ | .session p ⟨_, rivals⟩
  | .endSession p ⟨_, rivals⟩ | .keyLoad p ⟨_, rivals⟩ | .keyDelete p ⟨_, rivals⟩ | .policy p ⟨_, rivals⟩
  | .endorse p ⟨_, rivals⟩ | .debugUnlock p ⟨_, rivals⟩ | .submit p _ ⟨_, rivals⟩ | .coldReset p ⟨_, rivals⟩
  | .warmReset p ⟨_, rivals⟩ | .coreReset p ⟨_, rivals⟩
  | .ship p ⟨_, rivals, _⟩ | .fuseOwner p ⟨_, rivals, _⟩ => rivalsFollow p rivals
  | .restoreChunk proof src => proof.wf && src.wf
  | .thermalTrip _ temp => tempOk temp
  | .thermalTripRelease temps => temps.all tempOk
  | .phase1 env => env.fixedWords.all (· < 0x20000) && env.lostWords.all (· < 0x20000) && env.flushCut.all (fun x => x.2 ≤ 9)
  | .phase6 env => env.peers.all (fun x => decide (x.2.1 < 2 ^ 16 ∧ x.2.2 < 36)) &&
      env.allots.all (fun x => decide (x.1 < 288 ∧ x.2 ≤ 512))
  | .phase7 env => env.meas.wf
  | .measurementComplete m => m.wf
  | .avsSettled vread => decide (vread < 2 ^ 16)
  | .avsSettleTimeout vread => decide (vread < 2 ^ 16)
  | .tempWarn _ temp => tempOk temp
  | .tempWarnRearm _ temp => tempOk temp
  | .shard _ pkt proof => pkt.wf && proof.all ChunkProof.wf
  | .packetForward _ pkt | .writePacket _ pkt | .writeAck _ pkt | .readReq _ pkt | .readData _ pkt
  | .signalPacket _ pkt | .errorPacket _ pkt | .peerRegRead _ pkt | .peerRegWrite _ pkt | .regResp _ pkt
  | .fenceReport _ pkt | .fenceClose _ pkt | .retryOrder _ pkt | .retryDone _ pkt | .haltOrder _ pkt
  | .memberGrant _ pkt
  | .memberDeny _ pkt | .heartbeat _ pkt | .hello _ pkt | .reply _ pkt | .confirm _ pkt | .finish _ pkt => pkt.wf
  | .dataFrame _ pkt frame | .chunkEnd _ pkt frame | .chunkAck _ pkt frame | .chunkNak _ pkt frame
  | .stepEnd _ pkt frame | .stepAck _ pkt frame | .abortFrame _ pkt frame => pkt.wf && frame.wf
  | .vioStatusClear _ _ | .hpApertureWrite _ _ _ | .stagingLengthWrite _ _ | .mbLastStatus | .mbBadCommand _
  | .mbPecError | .clockLowTimeout | .alertResponse | .perfClearCores _ | .perfClearDraught _ | .perfClearMemory _
  | .perfClearStash _ | .perfClearLinks _ | .perfClearSlipstream _ | .perfClearViolations _ | .fetchOperation _ _
  | .nop _ _ | .endOp _ _ | .endComplete _ _ | .tile _ _ | .fillRow _ _ | .fillCol _ _ | .gather _ _ | .scatter _ _
  | .merge _ _ | .compact _ _ | .expand _ _ | .eddyTile _ _ | .predict _ _ | .predictComplete _ | .verify _ _
  | .tcopy _ _ | .pcopy _ _ | .copy _ _ | .convert _ _ | .vecAdd _ _ | .vecSub _ _ | .vecMul _ _ | .vecFma _ _
  | .vecFunc _ _ | .vecMax _ _ | .vecMin _ _ | .vecSum _ _ | .vecDot _ _ | .vecSelect _ _ | .vecDropout _ _
  | .vectorOperationComplete _ | .route _ _ | .dispatchPair _ | .routeComplete _ | .veerHistSelWrite _ _ _
  | .vaneSignal _ _ | .vaneSignalTakesEffect _ | .vaneWait _ _ | .vaneTest _ _ | .waitBoundExpiry _ _ | .draught _ _
  | .loopSet _ _ | .loopNext _ _ | .branchVane _ _ | .jump _ _ | .galeBroadcast _ | .galeStall _
  | .groupEntersReducer _ | .groupSumAdd _ | .drainRowRead _ | .drainRowWrite _ | .accLoadRow _ | .bayFillComplete _ _
  | .xchkIssue _ | .xchkRowCompare _ | .move _ _ | .mxStore _ _ | .compress _ _ | .draughtDescComplete _ | .localFence
  | .commit | .fenceBoundExpiry | .loadComplete | .groupUpdateComplete _ _ | .stepEndSend | .refresh _ _ _
  | .stackFault _ | .laneSpare _ _ | .nak _ _ | .ackTimeout _ | .retrainComplete _ | .reportResend
  | .settleWindowClose | .heartbeatSend | .twinSilent | .pairBoundExpiry
  | .sessionExpiry _ | .unlockComplete | .ingestBufferReady
  | .entropyFail | .extest | .clamp | .highz | .extestPulse | .extestTrain | .samplePreload | .idcode | .bypass
  | .privateTestInstruction _ | .powerOnReset | .pinReset | .resetRelease _
  | .twinReset | .watchdogExpiry | .supplyMonitorReset | .resetTake | .phase2 _
  | .phase3 _ | .phase4 _ | .phase5 _ | .phase8 | .phase9 | .phaseBoundExpiry | .failedBringUpWaitExpiry | .hpPerst
  | .functionLevelReset _ | .pwrFail | .pwrFailRise | .faultFlushEnd | .routineFlush | .seqMarkWriteEnd
  | .recordAllowanceRise | .evrCursorWrite _ _ _ | .rstHistSelWrite _ _ | .hltCanarySelWrite _ _ | .measurementStart
  | .eddyOperationComplete _ | .copyOperationComplete _ | .linkRetrainFailure _ | .referenceClockLoss _
  | .pcieLinkLoss | .hpPerstRelease | .twinRstOutRelease => true

end Sys2Proof
end

