-- ==== Sys2Proof/Tests/Slice0.lean ====
section
/-! SUPPORT. Tests of the model on small states: terms that the check of well-formedness refuses, steps whose result the
specification gives, and for every statement with hypotheses a state and operands that meet them. -/

namespace Sys2Proof.Tests

open Sys2Proof.Machine

set_option Elab.async false

/-! Small states. -/

/-- The device running, with nothing loaded into its tables. -/
def runSt : State :=
  { State.reset with
    dev := { Dev.reset with st := .run, phase := 9 }, rst := { Rst.reset with taking := none }, loaded := true }

/-- A plan that gives core 0 something. -/
def onCore (p : PlanCore) : Plan := { Plan.empty with cores := Plan.empty.cores.set 0 p }

/-- Context 0 of core 0 with one operation at its head. -/
def ready (op : BitVec 128) (p : PlanCore := PlanCore.empty) : State :=
  ({ runSt with plan := onCore { p with ops := [(0, op)] } } : State).modCtx 0 0 (fun x =>
    { x with defined := true, len := 2, st := .ready, queue := [⟨0, 0, false, [], [], false⟩] })

/-- A write of one whole register (R18). -/
def whole : Form := ⟨4, 0xF, none⟩

/-- An operation from its opcode and operand references: DST, SRC0, SRC1, SRC2; and its bits from 80 up. -/
def opOf (code : Nat) (d : Nat := 0) (a : Nat := 0) (b : Nat := 0) (c : Nat := 0) (e : Nat := 0) : BitVec 128 :=
  BitVec.ofNat 128 (code + d * 2 ^ 16 + a * 2 ^ 32 + b * 2 ^ 48 + c * 2 ^ 64 + e * 2 ^ 80)

/-- A linear tensor of rank 1 at an address: format code and extent (R135). -/
def rowDesc (base fmt ext : Nat) : BitVec 512 := BitVec.ofNat 512 (base + fmt * 2 ^ 64 + ext * 2 ^ 128)

/-- A 32-bit index tensor (R144). -/
def idxDesc (base ext : Nat) : BitVec 512 := BitVec.ofNat 512 (base + 5 * 2 ^ 56 + 11 * 2 ^ 64 + ext * 2 ^ 128)

/-- Three binary32 tensors of two elements in core store 0, then one in no range, then index tensors. -/
def tensors : PlanCore :=
  { PlanCore.empty with tensors :=
    [(1, rowDesc 0xF000000000 11 2), (2, rowDesc 0xF000000040 11 2), (3, rowDesc 0xF000000080 11 2), (4, rowDesc 0x1000 11 2),
      (5, idxDesc 0xF0000000C0 2), (6, rowDesc 0xF000000100 11 2), (7, idxDesc 0xF000000140 1)] }

/-- A packet of a type from device 1 to this device, device 0. -/
def pkt (type : Nat) (aux : Nat := 0) (addr : Nat := 0) (payload : List Byte := []) : Packet :=
  ⟨type, (typeLane type).getD 0, false, 1, 0, 0, addr, 0, aux, 0, payload⟩

/-- Link 0 and link 32 UP with their sessions ready. -/
def linked : State :=
  (runSt.modLink 0 (fun x => { x with st := .up, session := true })).modLink 32 (fun x => { x with st := .up, session := true })

/-- Device 1 is reached by link 0. -/
def routed : State :=
  { linked with plan := { Plan.empty with routes := [BitVec.ofNat 128 (1 + 1 * 2 ^ 16 + 1 * 2 ^ 32)] } }

/-! Ill-formed terms that the check refuses. -/

theorem test_wf_offset : (Instr.loRead .f0 ⟨0x1000000, 4⟩).wf = false ∧ (Instr.loRead .f0 ⟨0xFFFFFF, 4⟩).wf = true := by decide
theorem test_wf_offset_write : (Instr.registerWrite .f0 0x1000000 0 whole).wf = false ∧
    (Instr.loWrite .f0 0x1000000 ⟨0, whole⟩).wf = false ∧
    (Instr.hiWrite .f0 0x1000000 ⟨0, whole⟩).wf = false ∧ (Instr.hiRead .f0 ⟨0x1000000, 4⟩).wf = false ∧
    (Instr.mbRegRead 0x1000000).wf = false ∧ (Instr.mbRegWrite 0x1000000 0).wf = false := by decide
theorem test_wf_width : (Instr.registerWrite .f0 0 0 ⟨3, 0xF, none⟩).wf = false ∧ (Instr.loRead .f0 ⟨0, 16⟩).wf = false ∧
    (Instr.hiWrite .f0 0 ⟨0, ⟨2, 0xF, none⟩⟩).wf = true := by decide
theorem test_wf_rivals : (Instr.nonce .f0 ⟨0, [⟨.f1, 1, 0⟩]⟩).wf = false ∧ (Instr.nonce .f1 ⟨0, [⟨.f0, 1, 0⟩]⟩).wf = true ∧
    (Instr.ship .f0 ⟨0, [⟨.f0, 4, 0⟩], []⟩).wf = false := by decide
theorem test_wf_bar2 : (Instr.bar2Read 0 0 0).wf = false ∧ (Instr.bar2Write 0 (2 ^ 36) [1]).wf = false := by decide
theorem test_wf_chunk : (Instr.chunkSend 0 0 0 (2 ^ 32)).wf = false := by decide
theorem test_wf_line : (Instr.hbmWrite 60 [1, 2, 3, 4, 5] false).wf = false ∧ (Instr.hbmWrite 60 [1, 2, 3, 4] false).wf = true ∧
    (Instr.stashWrite 0 [] false 0).wf = false := by decide
theorem test_wf_upset : (Instr.hbmRead 0 (zeros 69) 0).wf = false ∧ (Instr.stashRead (2 ^ 48) [] 0).wf = false := by decide
theorem test_wf_controller_line : (Instr.correctionWriteBack 0 (2 ^ 33)).wf = false ∧ (Instr.wcEntryFinish 0 (2 ^ 33)).wf = false ∧
    (Instr.checkLineEvict 0 (2 ^ 33)).wf = false := by decide
theorem test_wf_flit : (Instr.flitReceive 0 (zeros 271)).wf = false ∧ (Instr.flitReceive 0 (zeros 272)).wf = true := by decide +kernel
theorem test_wf_packet : (Instr.writePacket 0 { pkt 1 with vl := 8 }).wf = false ∧ (Instr.writePacket 0 (pkt 1)).wf = true ∧
    (Instr.shard 0 { pkt 0x32 with pseq := 2 ^ 24 } none).wf = false ∧
    (Instr.report (0, pkt 0x22) [(0, { pkt 0x22 with type := 256 })]).wf = false ∧
    (Instr.memberReqDetach (0, { pkt 0x23 with type := 256 }) []).wf = false := by decide
theorem test_wf_frame : (Instr.dataFrame 0 (pkt 0x10) ⟨1, 1, 0, 2 ^ 48, 0, 0, 0, 0, 0, 0, 0, []⟩).wf = false := by decide
theorem test_wf_restore : (Instr.restoreChunk ⟨0, 0, 0, 0, 0, 0, 0, 0, 0, false, []⟩ (.twin [])).wf = false := by decide
theorem test_wf_temperature : (Instr.thermalTrip 0 32768).wf = false ∧ (Instr.tempWarn 0 (-32769)).wf = false ∧
    (Instr.tempWarnRearm 0 32768).wf = false ∧ (Instr.thermalTripRelease (Vector.replicate 12 32768)).wf = false := by decide +kernel
theorem test_wf_bring_up : (Instr.phase1 ⟨true, [0x20000], [], []⟩).wf = false ∧ (Instr.phase6 ⟨[], [(0, 1, 36)], [], false, false⟩).wf = false ∧
    (Instr.phase6 ⟨[], [], [(0, 513)], false, false⟩).wf = false ∧
    (Instr.phase7 ⟨[], ⟨Vector.replicate 128 64, 0⟩⟩).wf = false ∧ (Instr.measurementComplete ⟨Vector.replicate 128 (-2), 0⟩).wf = false := by
  decide +kernel
theorem test_wf_voltage : (Instr.avsSettled 65536).wf = false ∧ (Instr.avsSettleTimeout 65536).wf = false := by decide

/-! The hypotheses of each statement, met together: one theorem for each statement that has any, a part for each of its clauses. -/

/-- An outcome is a next state. -/
def isNext : Out → Bool
  | .next _ => true
  | _ => false

theorem next_of {i : Instr} {s : State} (h : isNext (exec i s) = true) : ∃ t, exec i s = .next t := by
  cases he : exec i s with
  | next t => exact ⟨t, rfl⟩
  | fault f => simp [he, isNext] at h
  | refused r => simp [he, isNext] at h

theorem test_witness_StepRunsFrontCommand :
    ({ runSt with pending := [.nop 0 0, .pwrFail] } : State).pending = Instr.nop 0 0 :: [.pwrFail] := rfl

/-- A SHIP of function 1 whose programming of fuses began at tick 0. -/
def programming : Fusing := ⟨4, .f1, 0, 0, [], 0, []⟩

/-- How long the programming of fuses takes is opaque: the second part holds of this state wherever it takes 100 ticks or fewer. -/
theorem test_witness_EmptyQueueIsATick (short : Config.fuseTicks ≤ 100) :
    (runSt.pending = [] ∧ ∀ f, runSt.rst.fusing = some f → (runSt.dev.tick + 1).toNat < f.since + Config.fuseTicks) ∧
    (let s := ((runSt.modRst (fun r => { r with fusing := some programming })).modDev (fun d => { d with tick := 100 }))
     s.pending = [] ∧ s.rst.fusing = some programming ∧ programming.since + Config.fuseTicks ≤ (s.dev.tick + 1).toNat) := by
  refine ⟨⟨rfl, fun f h => by simp [runSt, Rst.reset] at h⟩, rfl, rfl, ?_⟩
  have h : (((100 : BitVec 64) + 1).toNat) = 101 := by decide
  show 0 + Config.fuseTicks ≤ ((100 : BitVec 64) + 1).toNat
  omega

theorem test_witness_StepMakesEveryRecord : runSt.RecordsMade ∧ ∃ t, exec .pwrFail runSt = .next t :=
  ⟨rfl, next_of (by decide +kernel)⟩

theorem test_witness_AccessFrame :
    (family .mbPecError = .port ∧ ∃ t, exec .mbPecError runSt = .next t) ∧
    (family (.loRead .f0 ⟨0, 4⟩) = .register ∧ ∃ t, exec (.loRead .f0 ⟨0, 4⟩) runSt = .next t) ∧
    (runSt.chain.heldPkts = [] ∧ runSt.chain.inbox = []) :=
  ⟨⟨rfl, next_of (by decide +kernel)⟩, ⟨rfl, next_of (by decide +kernel)⟩, rfl, rfl⟩

theorem test_witness_StreamFrame : family (.nop 0 0) = .stream ∧ ∃ t, exec (.nop 0 0) (ready (opOf 0)) = .next t :=
  ⟨rfl, next_of (by decide +kernel)⟩

theorem test_witness_UnitFrame :
    (family (.vecAdd 0 0) = .unit ∧ ∃ t, exec (.vecAdd 0 0) (ready (opOf 0x40 3 1 2) tensors) = .next t) ∧
    (family (.tile 0 0) = .gale ∧ ∃ t, exec (.tile 0 0) runSt = .next t) ∧
    (family (.move 0 0) = .move ∧ ∃ t, exec (.move 0 0) runSt = .next t) :=
  ⟨⟨rfl, next_of (by decide +kernel)⟩, ⟨rfl, next_of (by decide +kernel)⟩, rfl, next_of (by decide +kernel)⟩

theorem test_witness_FenceFrame :
    (family .loadComplete = .fence ∧ ∃ t, exec .loadComplete runSt = .next t) ∧
    (family .stepEndSend = .slip ∧ ∃ t, exec .stepEndSend runSt = .next t) :=
  ⟨⟨rfl, next_of (by decide +kernel)⟩, rfl, next_of (by decide +kernel)⟩

theorem test_witness_MemoryFrame : family (.stackFault (.stack 0)) = .memory ∧ ∃ t, exec (.stackFault (.stack 0)) runSt = .next t :=
  ⟨rfl, next_of (by decide +kernel)⟩

theorem test_witness_ChainFrame :
    (family (.nak 0 0) = .link ∧ ∃ t, exec (.nak 0 0) linked = .next t) ∧
    (family .reportResend = .chain ∧ ∃ t, exec .reportResend runSt = .next t) ∧
    (family .pairBoundExpiry = .pair ∧ ∃ t, exec .pairBoundExpiry runSt = .next t) ∧
    (linked.chain.heldPkts = [] ∧ linked.chain.inbox = []) :=
  ⟨⟨rfl, next_of (by decide +kernel)⟩, ⟨rfl, next_of (by decide +kernel)⟩, ⟨rfl, next_of (by decide +kernel)⟩, rfl, rfl⟩

theorem test_witness_SecrecyFrame :
    (family .entropyFail = .secrecy ∧ ∃ t, exec .entropyFail runSt = .next t) ∧
    (family .ingestBufferReady = .restore ∧ ∃ t, exec .ingestBufferReady runSt = .next t) :=
  ⟨⟨rfl, next_of (by decide +kernel)⟩, rfl, next_of (by decide +kernel)⟩

theorem test_witness_ResetFrame :
    (family .pinReset = .reset ∧ ∃ t, exec .pinReset runSt = .next t) ∧
    (family .phase8 = .bringUp ∧ ∃ t, exec .phase8 runSt = .next t) ∧
    (family .pwrFail = .health ∧ ∃ t, exec .pwrFail runSt = .next t) :=
  ⟨⟨rfl, next_of (by decide +kernel)⟩, ⟨rfl, next_of (by decide +kernel)⟩, rfl, next_of (by decide +kernel)⟩

theorem test_witness_ControlOperationsIssue :
    (ready (opOf 0x00)).mayIssue 0 0 0x00 = some (opOf 0x00) ∧
    (ready (opOf 0x01)).mayIssue 0 0 0x01 = some (opOf 0x01) ∧
    (ready (opOf 0x80)).mayIssue 0 0 0x80 = some (opOf 0x80) ∧
    (((ready (opOf 0x81)).modCtx 0 0 (fun x => { x with lcX := x.lcX.set 0 2 })).mayIssue 0 0 0x81 = some (opOf 0x81) ∧
      1 < ((((ready (opOf 0x81)).modCtx 0 0 (fun x => { x with lcX := x.lcX.set 0 2 })).ctx 0 0).lcX.get (opLoop (opOf 0x81))).toNat) ∧
    ((ready (opOf 0x81)).mayIssue 0 0 0x81 = some (opOf 0x81) ∧
      (((ready (opOf 0x81)).ctx 0 0).lcX.get (opLoop (opOf 0x81))).toNat ≤ 1) ∧
    (ready (opOf 0x83)).mayIssue 0 0 0x83 = some (opOf 0x83) ∧
    (ready (opOf 0x62)).mayIssue 0 0 0x62 = some (opOf 0x62) ∧
    (ready (opOf 0x82)).mayIssue 0 0 0x82 = some (opOf 0x82) := by
  decide +kernel

/-- A context whose END has been fetched and has issued. -/
def ended : State :=
  (ready (opOf 0x01)).modCtx 0 0 (fun x => { x with ending := true, endFetched := true, queue := [] })

/-- The same, with one operation of the context still under way. -/
def endedLate : State := ended.modCore 0 (fun x => { x with flights := [⟨0, 0, [], []⟩] })

theorem test_witness_EndCompletes :
    ((ended.ctx 0 0).ending = true ∧ (ended.ctx 0 0).st = .ready ∧ ended.allComplete 0 0 = true) ∧
    ((endedLate.ctx 0 0).ending = true ∧ (endedLate.ctx 0 0).st = .ready ∧ endedLate.allComplete 0 0 = false) ∧
    ((ended.ctx 0 0).endFetched = true ∧ (ended.ctx 0 0).routeTodo = []) := by
  decide +kernel

/-- A MOVE of this device's own data: SRC tensor 1, one destination, tensor 2 (R155). -/
def moveDesc : BitVec 512 := BitVec.ofNat 512 (1 * 2 ^ 32 + 2 * 2 ^ 64)

/-- Context 0 of core 0 with an operation of its program to fetch. -/
def toFetch (op : BitVec 128) (p : PlanCore := PlanCore.empty) : State :=
  ({ runSt with plan := onCore { p with ops := [(0, op)] } } : State).modCtx 0 0 (fun x =>
    { x with defined := true, len := 2, st := .ready })

/-- Every array with two empty bays in each feeder. -/
def fed (s : State) : State :=
  let f : Feeder := ⟨2, 0, 0, false, false, [Bay.none, Bay.none]⟩
  s.modGale 0 (fun y => { y with row := f, col := f })

/-- What FETCH_OPERATION asks of the fetch engine: it can take an operation up, and it is this context's turn. -/
def fetchReady (s : State) (code : Nat) : Bool :=
  s.running && (match s.tryFetch 0 0 with | .ok _ => true | .error _ => false) && s.fetches 0 0 && s.nextFetch 0 0 == some code

theorem test_witness_FetchTakesOperations :
    fetchReady (toFetch (opOf 0x40 3 1 2) tensors) 0x40 = true ∧
    fetchReady (fed (toFetch (opOf 0x2014 11 1) tensors)) 0x14 = true ∧
    fetchReady (fed (toFetch (opOf 0x2015 11 1) tensors)) 0x15 = true ∧
    fetchReady (toFetch (opOf 0x70) { tensors with descs := [(0, moveDesc)] }) 0x70 = true ∧
    (let s := toFetch (opOf 0x40 3 1 2) tensors
     (s.ctx 0 0).routeTodo = [] ∧ s.opAt 0 (s.ctx 0 0).fetchPos = some (opOf 0x40 3 1 2) ∧ fetchSide (opcode (opOf 0x40 3 1 2)) = false) ∧
    (let s := (toFetch (opOf 0x40 3 1 2) tensors).modCtx 0 0 (fun x => { x with branchOpen := true })
     s.running = true ∧ (match s.tryFetch 0 0 with | .error (n + 1, _) => decide (n < 100) | _ => false) = true) := by
  decide +kernel

theorem test_witness_VanesRun :
    ((ready (opOf 0x60 1)).mayIssue 0 0 0x60 = some (opOf 0x60 1) ∧ bitAt (opOf 0x60 1) 13 = false) ∧
    ((ready (opOf 0x2060 1)).mayIssue 0 0 0x60 = some (opOf 0x2060 1) ∧ bitAt (opOf 0x2060 1) 13 = true) ∧
    (let s := (ready (opOf 0x61 1)).modVane (opVane 0 (opOf 0x61 1)) (fun v => { v with count := 2 })
     s.mayIssue 0 0 0x61 = some (opOf 0x61 1) ∧ s.frozen = false ∧ (∀ n, (s.fhn n).due = []) ∧
       (s.vane (opVane 0 (opOf 0x61 1))).waiters = [] ∧ opCount (opOf 0x61 1) ≤ (s.vane (opVane 0 (opOf 0x61 1))).count ∧
       s.recompute 0 0 (s.ctx 0 0).execPos = none) ∧
    (({ runSt with signals := [⟨.chain 3, 0, 1, 1, 0, 0, none, none, false⟩] } : State).signals.filter
      (fun p => p.vane == .chain 3 && runSt.sigDue p) ≠ []) ∧
    ((ready (opOf 0x61 1)).mayIssue 0 0 0x61 = some (opOf 0x61 1) ∧ (ready (opOf 0x61 1)).frozen = false ∧
      (∀ n, ((ready (opOf 0x61 1)).fhn n).due = []) ∧
      ((ready (opOf 0x61 1)).vane (opVane 0 (opOf 0x61 1))).waiters = [] ∧
      ((ready (opOf 0x61 1)).vane (opVane 0 (opOf 0x61 1))).count < opCount (opOf 0x61 1)) ∧
    (let s := runSt.modCtx 0 0 (fun x => { x with st := .waiting, wait := some ⟨false, 0, 1, 0, 0⟩ })
     s.running = true ∧ (s.ctx 0 0).st = .waiting ∧ (s.ctx 0 0).wait = some ⟨false, 0, 1, 0, 0⟩ ∧ 0 + 0 ≤ s.now) := by
  decide +kernel

/-- One vane of the chain set at its limit. -/
def fullVane : State := runSt.modVane (.chain 0) (fun v => { v with count := 0xFFFF })

theorem test_witness_SignalsAddToVanes :
    (fullVane.frozen = false ∧ (fullVane.vane (.chain 0)).count + 0 ≤ 0xFFFF) ∧
    (fullVane.frozen = false ∧ 0xFFFF < (fullVane.vane (.chain 0)).count + 1) ∧
    ({ fullVane with frozen := true } : State).frozen = true := by
  decide +kernel

/-- An operation of the vector unit, the copy path or the Eddy engine may issue, with a destination, and every operand in a
range of R137. -/
def mappedOp (code : Nat) (op : BitVec 128) : Bool :=
  let s := ready op tensors
  let dst := s.opDst 0 (s.ctx 0 0).lcX op
  s.mayIssue 0 0 code == some op && dst.isSome && (s.unmappedOpd dst (s.opSrcs 0 (s.ctx 0 0).lcX op)).isNone

theorem test_witness_VectorElementwise :
    mappedOp 0x38 (opOf 0x38 3 1) = true ∧ mappedOp 0x40 (opOf 0x40 3 1 2) = true ∧ mappedOp 0x41 (opOf 0x41 3 1 2) = true ∧
    mappedOp 0x42 (opOf 0x42 3 1 2) = true ∧ mappedOp 0x43 (opOf 0x43 3 1 2 6) = true ∧ mappedOp 0x44 (opOf 0x44 3 1) = true ∧
    (mappedOp 0x45 (opOf 0x45 3 1 2) = true ∧
      ((ready (opOf 0x45 3 1 2) tensors).opSrcs 0 (Vector.replicate 8 0) (opOf 0x45 3 1 2)).length ≠ 1) ∧
    (mappedOp 0x46 (opOf 0x46 3 1 2) = true ∧
      ((ready (opOf 0x46 3 1 2) tensors).opSrcs 0 (Vector.replicate 8 0) (opOf 0x46 3 1 2)).length ≠ 1) ∧
    mappedOp 0x49 (opOf 0x49 3 1 2 6) = true := by
  decide +kernel

theorem test_witness_VectorReductions :
    (mappedOp 0x45 (opOf 0x45 3 1) = true ∧
      ((ready (opOf 0x45 3 1) tensors).opSrcs 0 (Vector.replicate 8 0) (opOf 0x45 3 1)).length = 1) ∧
    (mappedOp 0x46 (opOf 0x46 3 1) = true ∧
      ((ready (opOf 0x46 3 1) tensors).opSrcs 0 (Vector.replicate 8 0) (opOf 0x46 3 1)).length = 1) ∧
    mappedOp 0x47 (opOf 0x47 3 1) = true ∧ mappedOp 0x48 (opOf 0x48 3 1 2) = true ∧
    (mappedOp 0x4A (opOf 0x4A 3 1) = true ∧
      ((ready (opOf 0x4A 3 1) tensors).opSrcs 0 (Vector.replicate 8 0) (opOf 0x4A 3 1)).length = 1) := by
  decide +kernel

/-- An operation whose first source lies in no range may issue. -/
def unmappedOp (code : Nat) (op : BitVec 128) : Bool :=
  let s := ready op tensors
  s.mayIssue 0 0 code == some op && s.unmappedOpd (s.opDst 0 (s.ctx 0 0).lcX op) (s.opSrcs 0 (s.ctx 0 0).lcX op) == some 0x1000

theorem test_witness_UnmappedOperandPoisons :
    unmappedOp 0x38 (opOf 0x38 3 4) = true ∧ unmappedOp 0x40 (opOf 0x40 3 4 2) = true ∧ unmappedOp 0x41 (opOf 0x41 3 4 2) = true ∧
    unmappedOp 0x42 (opOf 0x42 3 4 2) = true ∧ unmappedOp 0x43 (opOf 0x43 3 4 2 6) = true ∧ unmappedOp 0x44 (opOf 0x44 3 4) = true ∧
    unmappedOp 0x45 (opOf 0x45 3 4 2) = true ∧ unmappedOp 0x46 (opOf 0x46 3 4) = true ∧ unmappedOp 0x47 (opOf 0x47 3 4) = true ∧
    unmappedOp 0x48 (opOf 0x48 3 4 2) = true ∧ unmappedOp 0x49 (opOf 0x49 3 4 2 6) = true ∧ unmappedOp 0x4A (opOf 0x4A 3 4) = true ∧
    unmappedOp 0x30 (opOf 0x30 3 4) = true ∧ unmappedOp 0x31 (opOf 0x31 3 4 7) = true ∧ unmappedOp 0x32 (opOf 0x32 3 4) = true ∧
    unmappedOp 0x20 (opOf 0x20 3 4 5) = true ∧ unmappedOp 0x21 (opOf 0x21 3 4 5) = true ∧ unmappedOp 0x22 (opOf 0x22 3 4 5) = true ∧
    unmappedOp 0x25 (opOf 0x25 3 4 2) = true := by
  decide +kernel

/-- A copy may issue with mapped operands; whether DST overlaps SRC0, and where the permutation breaks, with the first word of its
tensor as given. -/
def copyOp (code : Nat) (op : BitVec 128) (meets : Bool) (bad : Option Nat) (word : Byte := 0) : Bool :=
  let s := (ready op tensors).modCore 0 (fun x => { x with store := if word = 0 then [] else [(0x140, word)] })
  let srcs := s.opSrcs 0 (s.ctx 0 0).lcX op
  s.mayIssue 0 0 code == some op && (s.unmappedOpd (s.opDst 0 (s.ctx 0 0).lcX op) srcs).isNone &&
    (match s.opDst 0 (s.ctx 0 0).lcX op, srcs with
      | some o, a :: _ => overlap o.ranges a.ranges == meets
      | _, _ => false) && (code != 0x31 || permBad (s.permOf srcs) == bad)

theorem test_witness_CopiesPermute :
    copyOp 0x32 (opOf 0x32 3 1) false none = true ∧ copyOp 0x30 (opOf 0x30 3 1) false none = true ∧
    copyOp 0x30 (opOf 0x30 1 1) true none = true ∧ copyOp 0x31 (opOf 0x31 3 1 7) false none = true ∧
    copyOp 0x31 (opOf 0x31 1 1 7) true none = true ∧ copyOp 0x31 (opOf 0x31 3 1 7) false (some 0) 9 = true := by
  decide +kernel

/-- A chain of one row and one column that drains into tensor 3 of core 0. -/
def someChain : Chain :=
  { ctx := 0, serial := 0, bank := false, mode := .mac, m := 1, n := 1, load := none
    dest := (ready 0 tensors).dstOpd 0 3 (Vector.replicate 8 0), badDest := false, badLoad := false, claimed := false, destEddy := false
    drain := true, drainFmt := 0, round := false, gust := none, eligible := true, srcA := [], srcB := [], valid := [], init := []
    poison := false, tag := none, drainSerial := 0 }

/-- An operation of the Eddy engine may issue, with at least two sources where it needs them. -/
def eddyOp (code : Nat) (op : BitVec 128) (n : Nat) : Bool :=
  let s := (fed (ready op tensors)).modEddy 0 (fun e => { e with bufA := [⟨someChain, [], true⟩] })
  s.mayIssue 0 0 code == some op && n ≤ (s.opSrcs 0 (s.ctx 0 0).lcX op).length

theorem test_witness_EddyOperationsStart :
    (mappedOp 0x20 (opOf 0x20 3 1 5) = true ∧
      (let s := ready (opOf 0x20 3 1 5) tensors
       (s.opSrcs 0 (s.ctx 0 0).lcX (opOf 0x20 3 1 5)).map (fun b => rangeVio (s.indices b) 2 b.base)) = [none, none]) ∧
    eddyOp 0x21 (opOf 0x21 3 1 5) 2 = true ∧ eddyOp 0x22 (opOf 0x22 3 1 5) 2 = true ∧
    eddyOp 0x23 (opOf 0x23 0 1 2 0 2) 2 = true ∧ eddyOp 0x24 (opOf 0x24 3) 0 = true ∧ eddyOp 0x25 (opOf 0x25 3 1 2) 0 = true ∧
    (eddyOp 0x26 (opOf 0x26 0 1 2) 0 = true ∧
      (let s := (ready (opOf 0x26 0 1 2) tensors).modSec (fun x => { x with policy := 2 })
       s.mayIssue 0 0 0x26 = some (opOf 0x26 0 1 2) ∧ s.padTiming = true)) ∧
    eddyOp 0x27 (opOf 0x27 3 1 2) 0 = true := by
  decide +kernel

/-- A run of an operation, as a unit of core 0 holds it, that writes nothing. -/
def aRun (code : Nat) : RunOp := ⟨0, 0, opOf code, none, [], [], [], false, none, none, none, []⟩

/-- Core 0's Eddy engine runs a COMPACT with groups left to fill, with its run after the bays it can fill are fed. -/
def compacting (left : List BayGroup) : Option (State × RunOp × CompactRun) :=
  let s := runSt.modEddy 0 (fun x =>
    { x with run := some { aRun 0x23 with compact := some ⟨0, left, [], 0, 0, false, false, none, false, 0⟩ } })
  match ((s.feedCompact 0).core 0).eddy.run with
  | some r => r.compact.map (fun q => (s, r, q))
  | none => none

theorem test_witness_UnitsComplete :
    ((runSt.modCore 0 (fun x => { x with vec := some (aRun 0x40) })).core 0).vec = some (aRun 0x40) ∧
    ((runSt.modCore 0 (fun x => { x with copy := some (aRun 0x32) })).core 0).copy = some (aRun 0x32) ∧
    (((runSt.modEddy 0 (fun x => { x with run := some (aRun 0x20) })).core 0).eddy.run = some (aRun 0x20) ∧
      (aRun 0x20).predict = none ∧ opcode (aRun 0x20).op ≠ 0x23 ∧ opcode (aRun 0x20).op ≠ 0x24) ∧
    (let ch : ExpandChain := ⟨someChain, [], true⟩
     let s := runSt.modEddy 0 (fun x => { x with run := some (aRun 0x24), bufA := [ch] })
     (s.core 0).eddy.run = some (aRun 0x24) ∧ (aRun 0x24).predict = none ∧ opcode (aRun 0x24).op = 0x24 ∧
       (s.core 0).eddy.buf (expSide (aRun 0x24).op) = [ch] ∧ ch.complete = true) ∧
    ((compacting []).any (fun q => (q.1.feedCompact 0).compactDone q.2.1 q.2.2) = true ∧
      (compacting [⟨[], ⟨0, none, 0, none, [], []⟩⟩]).any (fun q => !(q.1.feedCompact 0).compactDone q.2.1 q.2.2) = true ∧
      opcode (aRun 0x23).op = 0x23) ∧
    (let r : RunOp := { aRun 0x26 with predict := some (0, 0, [true], none) }
     let s := runSt.modEddy 0 (fun x => { x with run := some r })
     (s.core 0).eddy.run = some r ∧ r.predict = some (0, 0, [true], none) ∧ (s.ctx 0 0).spec = none) := by
  decide +kernel

/-- A router that routes layer 0, with the pairs left to dispatch. -/
def routing (pairs : List Pair) (later : List TokenPlan := []) : State :=
  runSt.modCore 0 (fun x => { x with veer := { x.veer with
    table := [(0, ⟨0, []⟩)], run := some ⟨0, 0, 0, 0, [], [], pairs, later, 0, [], [], false, false, none, 1, 0⟩ } })

theorem test_witness_RoutingRuns :
    (let op := opOf 0x50 0 1 2
     let s := (ready op tensors).modCore 0 (fun x => { x with veer := { x.veer with table := [(0, ⟨0, []⟩)] } })
     s.mayIssue 0 0 0x50 = some op ∧ Tbl.get? (s.core 0).veer.table (rteLayer op) = some ⟨0, []⟩ ∧
       2 ≤ (s.opSrcs 0 (s.ctx 0 0).lcX op).length) ∧
    (((routing [⟨0, 0, 0, 0⟩]).core 0).veer.run.map (·.pairs)) = some [⟨0, 0, 0, 0⟩] ∧
    ((((routing []).core 0).veer.run.map (fun r => (r.pairs, r.predDesc))) = some ([], 0) ∧
      Tbl.get? ((routing []).core 0).veer.table 0 = some ⟨0, []⟩ ∧ (∀ h, (homeExperts ⟨0, []⟩ h).isEmpty = true) ∧
      ((routing []).ctx 0 0).spec = none) := by
  decide +kernel

/-- Array 0 of core 0 runs a tile operation of one row, one column and one group, whose bays are full. -/
def tiling : State :=
  let b : Bay := { Bay.none with st := .full, groups := [⟨[(zeros 32 |>.map (·.toNat), 0)], ⟨0, some 0xF000000000, 1, none, [], []⟩⟩] }
  let f : Feeder := ⟨2, 0, 1, false, false, [b, Bay.none]⟩
  runSt.modGale 0 (fun y =>
    { y with row := f, col := f, run := some ⟨opOf 0x10, 0, 0, 0, false⟩, opened := some someChain })

/-- A group of someChain's product terms. -/
def aGroup (closed : Bool) : TermGroup := ⟨someChain, [], closed, false⟩

theorem test_witness_ArraysRun :
    (ready (opOf 0x10)).mayIssue 0 0 0x10 = some (opOf 0x10) ∧
    ((tiling.gale 0).run.isSome = true ∧ tiling.running = true ∧ (tiling.gale 0).canBroadcast = true ∧
      (tiling.gale 0).broadcast.run.isSome = true) ∧
    (let s := tiling.modGale 0 (fun y => { y with row := Feeder.none })
     (s.gale 0).run.isSome = true ∧ s.running = true ∧ (s.gale 0).canBroadcast = false) ∧
    (let s := runSt.modGale 0 (fun y => { y with group := some (aGroup true) })
     (s.gale 0).group = some (aGroup true) ∧ (s.gale 0).reducer = none ∧ (aGroup true).closed = true) ∧
    (let s := runSt.modGale 0 (fun y => { y with reducer := some (aGroup true) })
     (s.gale 0).reducer = some (aGroup true) ∧ ((s.gale 0).acc (aGroup true).chain.bank).takes (aGroup true).chain = true ∧
       (aGroup true).last = false) := by
  decide +kernel

/-- Bank 0 of array 0 waits for the drain path, for a drain or for a LOAD of tensor 1. -/
def draining (load : Bool) : State :=
  let ch : Chain := if load then { someChain with load := (ready 0 tensors).srcOpd 0 1 (Vector.replicate 8 0) } else someChain
  runSt.modGale 0 (fun y =>
    { y with drainOrder := [(false, load)], bank0 := ⟨if load then .loading else .draining, false, [[0]], some ch⟩ })

/-- A cross-check of someChain is offered to array 1. -/
def checking : State :=
  ({ runSt with plan := onCore { PlanCore.empty with xchk := ⟨true, 0, 0, some 0⟩ } } : State).modGale 0 (fun y =>
    { y with xqueue := [someChain] })

/-- A check of a chain of m rows at its first row. -/
def aCheck (m : Nat) : XchkRun := ⟨{ someChain with m := m }, 0, [], 0, 0, false, false⟩

/-- Array 1 runs that check; the stored result begins with a byte. -/
def checkingRow (m : Nat) (stored : Byte) : State :=
  (runSt.modGale 1 (fun y => { y with check := some (aCheck m) })).modCore 0 (fun x =>
    { x with store := if stored = 0 then [] else [(0x80, stored)] })

/-- The first column that differs, where the check can compare. -/
def compares (m : Nat) (stored : Byte) : Option (Option Nat) :=
  let s := checkingRow m stored
  let r := aCheck m
  if (s.gale 1).check == some r && r.chain.recordedWhole && !s.checkPoison r && (s.gale 0).wrote r.chain 0 then
    some ((List.range r.chain.n).find? (fun j =>
      (drainRow r.chain (s.checkRow 1 r) (r.chain.flat 0)).getD j 0 != (s.storedRow r.chain 0).getD j 0))
  else none

theorem test_witness_DrainPathAndChecksRun :
    (((draining false).gale 0).drainOrder = [(false, false)] ∧ (((draining false).gale 0).acc false).chain = some someChain ∧
      (draining false).drainAccepts 0 someChain = true ∧ ((draining false).gale 0).held.length < 2) ∧
    (let h : HeldRow := ⟨someChain, 0, [0], true⟩
     let s := (draining false).modGale 0 (fun y => { y with held := [h, h] })
     2 ≤ (s.gale 0).held.length ∧ (s.gale 0).drainOrder = [(false, false)] ∧ someChain.destEddy = false ∧
       ({ someChain with destEddy := true } : Chain).destEddy = true) ∧
    (((draining true).gale 0).drainOrder = [(false, true)] ∧
      ((((draining true).gale 0).acc false).chain.bind (·.load)).isSome = true ∧
      ((((draining true).gale 0).acc false).chain.bind (·.load)).all (draining true).srcReady = true) ∧
    (let ch : Chain := { someChain with badLoad := true, load := (ready 0 tensors).srcOpd 0 4 (Vector.replicate 8 0) }
     ch.badLoad = true ∧ ch.load.isSome = true) ∧
    (let b : Bay := { Bay.none with st := .filling }
     let s := runSt.modGale 0 (fun y => { y with row := ⟨1, 0, 0, false, true, [b]⟩ })
     (fillOldest ((s.gale 0).feeder false).items).2 = some b ∧ (s.core (coreOf 0)).eddy.owns b = false ∧
       ((s.modEddy 0 (fun x => { x with run := some { aRun 0x23 with compact := some ⟨0, [], [], 0, 0, false, false, none, false, 0⟩ } })).core
         (coreOf 0)).eddy.owns b = true) ∧
    (let s := checking
     (s.prog (coreOf 0)).xchk.ctx = some 0 ∧ (s.gale 0).xqueue = [someChain] ∧ s.running = true ∧
       s.chosen (coreOf 0) = some (Fin.ofNat 8 0) ∧ s.checkOffer (coreOf 0) (Fin.ofNat 8 0) = true ∧ s.checkReady 0 = true) ∧
    (compares 2 0 = some none ∧ compares 1 0 = some none ∧ compares 2 5 = some (some 0) ∧
      (checkingRow 2 5).chain.isRoot = false ∧ (checkingRow 2 5).chain.inbox = [] ∧ ((checkingRow 2 5).gale 0).mismatch = false) ∧
    ({ someChain with badDest := true } : Chain).recordedWhole = false ∧ (aCheck 2).chain.recordedWhole = true ∧
    (let s := (checkingRow 2 0).modCore 0 (fun x => { x with poison := [2] })
     s.checkPoison (aCheck 2) = false ∧ (s.gale 0).wrote (aCheck 2).chain 0 = true ∧ s.storedPoison (aCheck 2).chain 0 = true) ∧
    ((draining false).gale 0).wrote someChain 0 = false ∧
    ((draining false).drainAccepts 0 someChain = false ∨ 2 ≤ [someChain, someChain].length) := by
  decide +kernel

/-- Engine 0 with one descriptor in its queue. -/
def described (kind : Nat) (begun : Bool) : State :=
  let x : DrtItem :=
    { desc := 0, raw := BitVec.ofNat 512 (kind + 1 * 2 ^ 32 + 2 * 2 ^ 64), core := 0, ctx := 0, serial := 0
      srcBase := 0xF000000000, dstBases := [0xF000000040], maskBase := 0, gust := none, claims := [], srcSlot := none
      spec := false, started := begun, moved := begun, acks := [], rx := [], noDone := false, poisoned := false
      stashPoison := false, counts := [] }
  ({ runSt with plan := { onCore tensors with routes := routed.plan.routes } } : State).modDrt 0 (fun d => { d with queue := [x] })

/-- The descriptor at the head of engine 0 may start: with a source of this device or of another, and with or without a violation,
once it is as given. -/
def mayStart (kind : Nat) (here : Bool := true) (bad : Bool := false) (as : DrtItem → DrtItem := id) : Bool :=
  let s := (described kind false).modDrt 0 (fun d => { d with queue := d.queue.map as })
  match (s.drt 0).queue with
  | x :: _ => !x.started && dscKind x.raw == kind && startedBefore (s.drt 0).queue 0 && (s.itemVio x).isSome == bad &&
      s.isLocal (dscSrcDev x.raw) == here && s.isLocal (dscDstDev x.raw) && !x.spec
  | [] => false

theorem test_witness_DescriptorsRun :
    mayStart 0 = true ∧ mayStart 1 = true ∧ mayStart 2 = true ∧
    mayStart 0 false false (fun x => { x with raw := x.raw ||| (1#512 <<< 48) }) = true ∧
    mayStart 0 true true (fun x => { x with dstBases := [0x1000] }) = true ∧
    mayStart 0 false true (fun x => { x with raw := x.raw ||| (2#512 <<< 48) }) = true ∧
    (let s := (described 0 true).modDrt 0 (fun d => { d with queue := d.queue.map (fun x => { x with spec := true }) })
     (s.drt 0).queue.all (·.spec) = true ∧ (s.drt 0).queue.length = 1) ∧
    ((described 0 true).drt 0).queue.all (fun x => x.started && x.moved && x.acks.isEmpty && !x.spec &&
      ((described 0 true).doneSignal 0 x).isEmpty) = true ∧ ((described 0 true).drt 0).queue ≠ [] := by
  decide +kernel

/-- A device that trains, its plan with one fence on core 0 that wants no signal and one parameter group. -/
def training : State :=
  { runSt with
    plan := { onCore { PlanCore.empty with fence := some ⟨0, 0, 1⟩ } with fenceBound := 0 }, begun := true
    chain := { ChainSt.reset with role := .member, isRoot := true } }

/-- A parameter group of two elements that signals its DONE vane. -/
def aParamGroup : BitVec 512 := BitVec.ofNat 512 (2 ^ 10 + 2 * 2 ^ 64)

/-- Foehn unit 0 updates a group, of which a number of blocks is done. -/
def updating (g : BitVec 512) (blocks : Nat := 1) : State :=
  let p : PlanStack := { PlanStack.empty with groups := [(0, g)] }
  ({ training with plan := { training.plan with foehns := training.plan.foehns.set 0 p } } : State).modFhn 0 (fun f =>
    { f with running := [(0, (blocks, false))] })

/-- The same group with its gradients at the start of core store 0. -/
def aPoisonedGroup : BitVec 512 := BitVec.ofNat 512 (2 ^ 10 + 2 * 2 ^ 64 + 0xF000000000 * 2 ^ 272)

/-- The slipstream's buffer holds n bytes. -/
def holding (n : Nat) : State :=
  (updating aParamGroup 0).modSlip (fun x =>
    { x with chunks := [⟨0, 0, 0, 0, 0, 0, List.replicate n 0, Vector.replicate 2 false, Vector.replicate 2 false,
        Vector.replicate 2 0⟩] })

theorem holding_room (n : Nat) : (holding n).slipRoom = decide (n + chunkSize ≤ slipBuffer) := by
  simp only [State.slipRoom, Slip.used, holding, State.modSlip, List.foldl_cons, List.foldl_nil, List.length_replicate, Nat.zero_add]

/-- A group with nothing to hand on stays where it is while the buffer has no room (R244). -/
theorem updateBlocks_full {s : State} {n : Fin 12} {gi : Nat} {q : Nat × Bool} (g : BitVec 512) (fuel : Nat)
    (r : Tbl.get? (s.fhn n).running gi = some q) (w : (s.fhn n).waitsToHand gi = []) (room : s.slipRoom = false) :
    s.updateBlocks n gi g (fuel + 1) = s := by
  simp [State.updateBlocks, State.handWaiting, r, w, room]

/-- A group of one block waits where the buffer has no room. -/
theorem holding_waits (n : Nat) (room : (holding n).slipRoom = false) :
    Tbl.get? ((holding n).fhn 0).running 0 = some (0, false) ∧ Tbl.get? ((holding n).groupTable 0) 0 = some aParamGroup ∧
    (holding n).running = true ∧ 0 < groupChunks aParamGroup ∧
    Tbl.get? (((holding n).updateBlocks 0 0 aParamGroup (groupChunks aParamGroup + 1)).fhn 0).running 0 = some (0, false) := by
  have same : (holding n).fhn 0 = (updating aParamGroup 0).fhn 0 := rfl
  have r : Tbl.get? ((holding n).fhn 0).running 0 = some (0, false) := by rw [same]; decide +kernel
  have w : ((holding n).fhn 0).waitsToHand 0 = [] := by rw [same]; decide +kernel
  have table : (holding n).groupTable 0 = (updating aParamGroup 0).groupTable 0 := rfl
  have runs : (holding n).running = (updating aParamGroup 0).running := rfl
  refine ⟨r, by rw [table]; decide +kernel, by rw [runs]; decide +kernel, by decide +kernel, ?_⟩
  rw [updateBlocks_full aParamGroup _ r w room]
  exact r

theorem test_witness_FenceRuns_waits : (holding slipBuffer).slipRoom = false := by
  rw [holding_room]
  decide

theorem test_witness_FenceRuns :
    (runSt.running = true ∧ runSt.loaded = true ∧ runSt.loads = [] ∧ runSt.begun = false) ∧
    (let s := training.modSlip (fun x => { x with rootClosed := true })
     s.trains = true ∧ s.chain.local_ = false ∧ s.fenceReady = true) ∧
    (let s := training.modChain (fun x => { x with closing := true })
     s.trains = true ∧ s.commitReady = true ∧ s.chain.closing = true) ∧
    (let s := training.modChain (fun x => { x with local_ := true })
     s.trains = true ∧ s.commitReady = true ∧ s.chain.closing = false ∧ s.rootReady = true ∧ s.chain.local_ = true ∧
       s.chain.boundExpired = false ∧ s.chain.localTick + s.plan.fenceBound ≤ s.now ∧ s.chain.inbox = [] ∧
       s.chain.myReports.any (fun r => r.1 == 5) = false ∧ s.chain.isRoot = true ∧ s.chain.retried = false ∧ s.chain.settleSince = none ∧
       (s.modChain (fun c => { c with retried := true })).chain.retried = true ∧
       (s.modChain (fun c => { c with isRoot := false })).chain.isRoot = false) ∧
    (let s := updating aParamGroup
     Tbl.get? (s.fhn 0).running 0 = some (1, false) ∧ Tbl.get? (s.groupTable 0) 0 = some aParamGroup ∧ s.running = true ∧
       Tbl.get? ((s.updateBlocks 0 0 aParamGroup (groupChunks aParamGroup + 1)).fhn 0).running 0 = some (1, false) ∧
       groupChunks aParamGroup ≤ 1 ∧ ((s.updateBlocks 0 0 aParamGroup (groupChunks aParamGroup + 1)).fhn 0).waitsToHand 0 = [] ∧
       grpDoneEn aParamGroup = true) ∧
    (let s := (updating aPoisonedGroup 0).modCore 0 (fun x => { x with poison := [0] })
     Tbl.get? (s.fhn 0).running 0 = some (0, false) ∧ Tbl.get? (s.groupTable 0) 0 = some aPoisonedGroup ∧
       Tbl.get? ((s.updateBlocks 0 0 aPoisonedGroup (groupChunks aPoisonedGroup + 1)).fhn 0).running 0 = none) := by
  decide +kernel

/-- A packet stands at its turn, as a truth value. -/
def turns (s : State) (l : Fin 36) (p : Packet) (type : Nat) : Bool :=
  decide ((s.link l).st = .up) && (s.link l).session && p.type == type && s.isLocal p.dst && pktOk p &&
    (!(s.link l).peerStore || storeMay p.type) && p.pseq % 2 ^ 24 == s.expected p.src p.vl && s.chain.heldPkts.isEmpty

theorem inTurn_iff (s : State) (l : Fin 36) (p : Packet) (type : Nat) : s.InTurn l p type ↔ turns s l p type = true := by
  simp only [State.InTurn, turns, Bool.and_eq_true, Bool.or_eq_true, Bool.not_eq_true', decide_eq_true_eq, beq_iff_eq, and_assoc,
    List.isEmpty_iff]
  cases (s.link l).peerStore <;> simp

/-- A frame of a type of device 1, step 0 and attempt 0, in a SLIPSTREAM packet. -/
def framePkt (type : Byte) : Packet := { pkt 0x10 with payload := [type, 1, 0, 0, 1, 0] ++ zeros 58 }

/-- Device 1 is the twin and the checkpoint store, and one chunk waits for its answer. -/
def slipping : State :=
  let c : Chunk := ⟨0, 0, 0, 0, 0, 0, [1, 2], Vector.replicate 2 false, Vector.replicate 2 false, Vector.replicate 2 0⟩
  let plan : Plan := { Plan.empty with twin := some ⟨1, [], 0, 0, 0⟩, storeDev := some 1 }
  ({ linked with plan := plan, begun := true } : State).modSlip (fun x => { x with chunks := [c] })

/-- The group of `updating` with its chunk still to reach, and device 1 as twin. -/
def reaching : State :=
  let s := updating aParamGroup 0
  { s with plan := { s.plan with twin := slipping.plan.twin, storeDev := some 1 } }

/-- A CHUNK_END of an empty chunk with a digest. -/
def endPkt (digest : List Byte) : Packet :=
  { pkt 0x10 with payload := ([2, 1, 0, 0, 1, 0] ++ zeros 22) ++ leBytes 4 48 ++ zeros 32 ++ digest }

/-- A member receives a frame of the twin in its order. -/
def receives (type : Byte) : Bool :=
  let s := slipping.modChain (fun c => { c with role := .member })
  let f := (frameOf (framePkt type).payload).1
  turns s 32 (framePkt type) 0x10 && f.type == type.toNat && !(s.atTurn 32 (framePkt type)).outsider &&
    (s.atTurn 32 (framePkt type)).shadows f && f.step == s.step && s.slip.rx.step == f.step && s.slip.rx.attempt == f.attempt &&
    s.slip.rx.seq == f.seq

/-- A device outside the chain receives one. -/
def receivesJoin (type : Byte) : Bool :=
  let s := slipping.modChain (fun c => { c with role := .outside })
  turns s 32 (framePkt type) 0x10 && (s.atTurn 32 (framePkt type)).outsider

theorem test_witness_SlipstreamRuns :
    (slipping.running = true ∧ (slipping.unsent 0 0 0 0).isSome = true) ∧
    (reaching.running = true ∧ reaching.unsent 0 0 0 0 = none ∧ ((reaching.reachChunk 0 0 0).unsent 0 0 0 0).isSome = true) ∧
    (({ slipping with chain := { ChainSt.reset with role := .member } } : State).modSlip (fun x => { x with chunks := [] })).stepComplete = true ∧
    (slipping.InTurn 32 (framePkt 5) 0x10 ∧ (frameOf (framePkt 5).payload).1.type = 5 ∧
      ((slipping.atTurn 32 (framePkt 5)).answerFrom (framePkt 5)).isSome = true ∧
      ((slipping.atTurn 32 (framePkt 5)).chunkOf (frameOf (framePkt 5).payload).1).isSome = true) ∧
    (let s := slipping.modSlip (fun x => { x with aborted := [(0, 0)] })
     s.InTurn 32 (framePkt 6) 0x10 ∧ (frameOf (framePkt 6).payload).1.type = 6 ∧ s.slip.aborted.contains (0, 0) = true ∧
       (frameOf (framePkt 6).payload).1.step = 0 ∧ (frameOf (framePkt 6).payload).1.attempt = 0 ∧
       slipping.slip.aborted.contains (0, 0) = false ∧ ((slipping.atTurn 32 (framePkt 6)).answerFrom (framePkt 6)).isSome = true) ∧
    (let s := slipping.modSlip (fun x => { x with stepEndSent := true })
     s.InTurn 32 (framePkt 7) 0x10 ∧ (frameOf (framePkt 7).payload).1.type = 7 ∧
       (s.atTurn 32 (framePkt 7)).answerFrom (framePkt 7) = some 0 ∧ (frameOf (framePkt 7).payload).1.step = s.step ∧
       (frameOf (framePkt 7).payload).1.attempt = s.chain.attempt ∧ s.slip.stepEndSent = true) ∧
    (let s := { slipping with plan := { slipping.plan with twin := none } }
     s.InTurn 32 (framePkt 7) 0x10 ∧ (s.atTurn 32 (framePkt 7)).answerFrom (framePkt 7) = some 1 ∧
       (s.atTurn 32 (framePkt 7)).storeAttempt 0 0 = true ∧ s.slip.storeAck = none) ∧
    (receives 1 = true ∧ receives 2 = true ∧ receives 3 = true ∧ receivesJoin 1 = true ∧ receivesJoin 2 = true ∧
      (slipping.modChain (fun c => { c with role := .member })).slip.rx.acked = false) ∧
    (chunkBytes (slipping.slip.rx.part (Frame.place (frameOf (framePkt 2).payload).1)) = some [] ∧
      (frameOf (endPkt (sha384 [])).payload).1.payload = sha384 [] ∧ (frameOf (framePkt 2).payload).1.payload ≠ sha384 []) ∧
    (slipping.InTurn 32 (framePkt 4) 0x10 ∧ (frameOf (framePkt 4).payload).1.type = 4 ∧
      (slipping.atTurn 32 (framePkt 4)).shadows (frameOf (framePkt 4).payload).1 = true ∧
      (slipping.atTurn 32 (framePkt 4)).slip.rx.step = (frameOf (framePkt 4).payload).1.step ∧
      (frameOf (framePkt 4).payload).1.step = slipping.step ∧
      (slipping.atTurn 32 (framePkt 4)).slip.rx.attempt = (frameOf (framePkt 4).payload).1.attempt ∧
      (slipping.atTurn 32 (framePkt 4)).slip.rx.seq = (frameOf (framePkt 4).payload).1.seq) := by
  simp only [inTurn_iff]
  decide +kernel

/-- A region table entry (R264): base, kind, stack, size, LOCAL_BASE 0. -/
def regionAt (base kind stack size : Nat) : BitVec 256 :=
  BitVec.ofNat 256 (base + kind * 2 ^ 48 + stack * 2 ^ 56 + size * 2 ^ 64)

/-- A plan with regions, over eight stash devices that are fitted. -/
def mapped : State :=
  { runSt with
    dev := { runSt.dev with stashDevices := 8 }
    plan := { Plan.empty with
      regions := [regionAt 0x10000 1 0 0x1000, regionAt 0x20000 2 1 0x1000, regionAt 0x30000 3 2 0x1000,
        regionAt 0x40000 0 0 0x6000, regionAt stashBase 4 0 0x100000] } }

theorem test_witness_RegionsPlaceAddresses :
    (mapped.region 0x10FFF = some (regionAt 0x10000 1 0 0x1000) ∧ regKind (regionAt 0x10000 1 0 0x1000) = 1) ∧
    (mapped.region 0x20000 = some (regionAt 0x20000 2 1 0x1000) ∧ regKind (regionAt 0x20000 2 1 0x1000) = 2) ∧
    (mapped.region 0x30000 = some (regionAt 0x30000 3 2 0x1000) ∧ regKind (regionAt 0x30000 3 2 0x1000) = 3) ∧
    (mapped.region 0x45FFF = some (regionAt 0x40000 0 0 0x6000) ∧ regKind (regionAt 0x40000 0 0 0x6000) = 0 ∧
      mapped.region 0x40000 = some (regionAt 0x40000 0 0 0x6000) ∧ (0x45FFF - 0x40000) >>> 11 ≠ 0 ∧ ((0x45FFF - 0x40000) >>> 11) / 12 = 0) := by
  decide +kernel

theorem test_witness_StashPlacesAddresses :
    mapped.region (stashBase + 0x8000) = some (regionAt stashBase 4 0 0x100000) ∧ regKind (regionAt stashBase 4 0 0x100000) = 4 ∧
    stashBase ≤ stashBase + 0x8000 ∧ stashBase + 0x8000 < stashBase + mapped.dev.stashDevices * stashDeviceSize ∧
    mapped.dev.stashDevices = 8 := by
  decide +kernel

theorem mapped_ok : mapped.MemoryOk := by
  have h : State.MemoryOk State.reset := by
    refine ⟨fun n => ?_, fun n => ?_, fun c => ?_⟩
    · simp [State.reset, State.stack, Stack.zero, LineMem.Ok, LineMem.zero, memWf]
    · simp [State.reset, State.stc, Stash.zero, LineMem.Ok, LineMem.zero, memWf]
    · simp [State.reset, State.core, Core.zero, memWf]
  exact h

/-- A write of part of a line that waits in the write-combining buffer of stack 0, past its age. -/
def combining : State :=
  ({ mapped with plan := { mapped.plan with wcAge := 1 }, dev := { mapped.dev with tick := 100 } } : State).modStack 0 (fun x =>
    { x with arr := { x.arr with wc := [(0, ⟨[(0, 1)], false, 0, 0x10000, 0⟩)] } })

/-- The same in stash controller 0. -/
def combiningStash : State :=
  ({ mapped with plan := { mapped.plan with wcAge := 1 }, dev := { mapped.dev with tick := 100 } } : State).modStc 0 (fun x =>
    { x with arr := { x.arr with wc := [(0, ⟨[(0, 1)], false, 0, stashBase, 0⟩)] } })

theorem test_witness_MemoryCommandsComplete :
    mapped.hbmLine 0x10000 = some (0, 0) ∧
    Tbl.get? ((mapped.modStack 0 (fun x => { x with arr := { x.arr with fixes := [(0, zeros 64)] } })).stack 0).arr.fixes 0 =
      some (zeros 64) ∧ (zeros 64).length = 64 ∧
    (Tbl.get? (combining.unitLines 0).wc 0 = some ⟨[(0, 1)], false, 0, 0x10000, 0⟩ ∧
      combining.wcDue 0 0 ⟨[(0, 1)], false, 0, 0x10000, 0⟩ = true ∧ unitOf 0 = .inl 0) ∧
    (Tbl.get? (combiningStash.unitLines 12).wc 0 = some ⟨[(0, 1)], false, 0, stashBase, 0⟩ ∧
      combiningStash.wcDue 12 0 ⟨[(0, 1)], false, 0, stashBase, 0⟩ = true ∧ unitOf 12 = .inr 0) ∧
    ((mapped.modStack 0 (fun x => { x with arr := { x.arr with cache := [3] } })).unitLines 0).cache.contains 3 = true ∧
    (((mapped.modStack 0 (fun x => { x with trained := true })).stack 0).trained = true ∧
      ((mapped.modStack 0 (fun x => { x with trained := true })).stack 0).selfRefresh = false) ∧
    mapped.running = true ∧
    (mapped.stack 0).arr.dead = [] ∧ (mapped.stc 0).arr.dead = [] ∧
    (mapped.stashLineOf stashBase).isSome = true ∧ (3 : Fin 5).val < 4 ∧ (4 : Fin 5).val = 4 ∧ stashBase % 64 = 0 := by
  decide +kernel

theorem test_witness_HbmWriteThenRead :
    (mapped.hbmLine 0x10000 = some (0, 0) ∧ mapped.inParameter 0x10000 = false ∧ (mapped.stack 0).arr.dead = [] ∧
      0x10000 % 64 = 0 ∧ (zeros 64).length = 64) ∧
    ((mapped.hbmLine 0x20000).isSome = true ∧ mapped.inParameter 0x20000 = true) ∧
    (mapped.hbmLine 0x10FC5 = some (0, 63) ∧ mapped.hbmLine (0x10FC5 / 64 * 64) = some (0, 63) ∧ mapped.inParameter 0x10FC5 = false ∧
      0 < [(1 : Byte), 2].length ∧ 0x10FC5 % 64 + [(1 : Byte), 2].length < 64 ∧ Tbl.get? (mapped.stack 0).arr.wc 63 = none ∧
      (mapped.stack 0).arr.wc.length < stackWc) := by
  decide +kernel

theorem test_witness_HbmWriteFrame :
    mapped.MemoryOk ∧ mapped.hbmLine 0x10000 = some (0, 0) ∧ 0x10000 % 64 = 0 ∧ (zeros 64).length = 64 ∧
      (∃ t, exec (.hbmWrite 0x10000 (zeros 64) false) mapped = .next t) ∧ mapped.lineAt 0x10040 ≠ mapped.lineAt 0x10000 ∧
      0 < [(1 : Byte)].length ∧ storeSize - 1 + [(1 : Byte)].length ≤ storeSize :=
  ⟨mapped_ok, by decide +kernel, by decide, by decide, next_of (by decide +kernel), by decide +kernel, by decide, by decide⟩

theorem test_witness_MemoryStaysCanonical :
    let s : State := { mapped with pending := [.hbmWrite 0x10000 [1] false] }
    s.MemoryOk ∧ ∃ t, step s = .next t :=
  ⟨mapped_ok, next_of (i := .hbmWrite 0x10000 [1] false) (s := mapped) (by decide +kernel)⟩

/-- A DATA flit of lane 0 and number 0. -/
def dataFlit : Flit := ⟨1, 0, 0, 0, 0, 0, zeros 240⟩

/-- The 272 bytes that go on the wire with a CRC (R306, R307). -/
def wireWith (crc : List Byte) : List Byte := wireOf (1 :: zeros 247 ++ crc)

/-- The CRC of its first 248 bytes. -/
def dataCrc : List Byte := [23, 98, 103, 48, 246, 144, 53, 208]

/-- That CRC, computed in four parts. -/
theorem crc_dataFlit : crc64 (1 :: zeros 247) = 15003057120703111703 := by
  have cut : (1 :: zeros 247 : List Byte) =
      ([1] ++ zeros 31 ++ zeros 31 ++ zeros 31 ++ zeros 31) ++ (zeros 31 ++ zeros 31 ++ zeros 31 ++ zeros 30) := by decide +kernel
  have a : ([1] ++ zeros 31 ++ zeros 31 : List Byte).foldl crcByte 0 = 14515624286542030240 := by decide +kernel
  have b : (zeros 31 ++ zeros 31).foldl crcByte 14515624286542030240 = 16961147832161785687 := by decide +kernel
  have c : (zeros 31 ++ zeros 31).foldl crcByte 16961147832161785687 = 11113060308488976945 := by decide +kernel
  have d : (zeros 31 ++ zeros 30).foldl crcByte 11113060308488976945 = 15003057120703111703 := by decide +kernel
  simp only [crc64, cut, List.foldl_append] at a b c d ⊢
  simp only [a, b, c, d]

theorem dataFlit_image : flitImage dataFlit = 1 :: zeros 247 ++ dataCrc := by
  have body : leBytes 8 (dataFlit.ftype % 16 + put 4 (dataFlit.vl % 8) + put 8 (dataFlit.seq % 2 ^ 24) + put 32 (dataFlit.ack % 2 ^ 24) +
      put 56 (dataFlit.creditVl % 8) + put 59 (dataFlit.creditCount % 32)) ++ (dataFlit.payload ++ zeros flitBytes).take flitBytes =
      1 :: zeros 247 := by decide +kernel
  simp only [flitImage, body, crc_dataFlit]
  decide +kernel

/-- It is good with its CRC, and bad with another. -/
theorem wireWith_decodes : ∀ crc ∈ [dataCrc, zeros 8], (decodeWire (wireWith crc)).bad = (crc != dataCrc) ∧
    (decodeWire (wireWith crc)).flit = dataFlit ∧ (decodeWire (wireWith crc)).hits = [] := by
  have words : ∀ crc ∈ [dataCrc, zeros 8], wireBytes (wireWords (wireWith crc)) = 1 :: zeros 247 ++ crc ∧
      (wireWords (wireWith crc)).any (·.2.lost) = false ∧ wireHits (wireWords (wireWith crc)) = [] := by decide +kernel
  have parts : ∀ crc ∈ [dataCrc, zeros 8], (1 :: zeros 247 ++ crc).take 248 = 1 :: zeros 247 ∧
      (ofLe ((1 :: zeros 247 ++ crc).drop 248) != (15003057120703111703 : DWord).toNat) = (crc != dataCrc) ∧
        flitOf (1 :: zeros 247 ++ crc) = dataFlit := by decide +kernel
  intro crc h
  simp only [decodeWire, (words crc h).1, (words crc h).2.1, (words crc h).2.2, (parts crc h).1, (parts crc h).2.1, (parts crc h).2.2,
    crc_dataFlit, Bool.false_or, and_self]

/-- A link whose lane 0 has had more corrected symbols than the plan allows. -/
def fading : State :=
  ({ linked with plan := { linked.plan with laneLimit := 1 } } : State).modLink 0 (fun x => { x with laneHits := [(0, 0), (0, 0)] })

theorem test_witness_FlitLayerRuns :
    ((linked.link 0).st = .up ∧ (linked.link 0).badAck (0#24).toNat = false ∧ (linked.link 0).badAck (5#24).toNat = true) ∧
    (let w : WireIn := ⟨dataFlit, [], false⟩
     ((linked.modLink 0 (·.heard w)).link 0).failing linked.plan.laneLimit = none ∧
       ((fading.modLink 0 (·.heard w)).link 0).failing fading.plan.laneLimit = some 0) ∧
    ((fading.link 0).spareUsed = false ∧ (fading.link 0).st = .up) ∧
    (dataFlit.ftype = 1 ∧ (linked.link 0).badAck dataFlit.ack = false ∧
      (linked.link 0).rxNext = dataFlit.seq ∧
      (let x := { linked.link 0 with allot := Vector.replicate 8 4 }
       x.held 0 < x.allot.get 0)) ∧
    ((linked.modLink 0 (fun x => { x with st := .retraining })).chain.lowering = false ∧
      (linked.modChain (fun c => { c with lowering := true })).chain.lowering = true) ∧
    (let s := linked.modLink 0 (fun x => { x with retry := [⟨0, 1, zeros 240, 1, none⟩] })
     (s.link 0).st = .up ∧ (s.link 0).retry ≠ []) ∧
    ((linked.modLink 0 (fun x => { x with st := .retraining })).link 0).st = .retraining ∧
    ((linked.modLink 0 (fun x => { x with st := .training })).link 0).st = .training ∧
    (linked.link 0).spareUsed = false ∧
    (let s := linked.modLink 0 (fun x => { x with spareUsed := true })
     (s.link 0).st = .up ∧ (s.link 0).spareUsed = true) := by
  decide +kernel

/-- A descriptor of engine 0 waits for the answers to two packets that went to device 1. -/
def asking : State :=
  (described 0 true).modDrt 0 (fun d => { d with queue := d.queue.map (fun x =>
    { x with acks := [⟨1, 3, 0, 0xF000000040, 64⟩, ⟨1, 4, 0, 0xF000000040, 64⟩] }) })

/-- The same with link 0 and link 32 UP. -/
def askingUp : State := { asking with links := linked.links }

theorem test_witness_PacketsTakeEffect :
    linked.InTurn 0 (pkt 0x01) 0x01 ∧
    (askingUp.InTurn 0 (pkt 0x02) 0x02 ∧ ((askingUp.atTurn 0 (pkt 0x02)).findAck 1 3 0).isSome = true) ∧
    linked.InTurn 0 (pkt 0x03) 0x03 ∧
    (askingUp.InTurn 0 (pkt 0x04) 0x04 ∧ ((askingUp.atTurn 0 (pkt 0x04)).findAck 1 4 0).isSome = true) ∧
    (linked.InTurn 0 (pkt 0x05 0xFFFF) 0x05 ∧
      ((linked.atTurn 0 (pkt 0x05 0xFFFF)).chainVanes.get (Fin.ofNat 64 0)).count + 0xFFFF % 65536 ≤ 0xFFFF) ∧
    linked.InTurn 0 (pkt 0x06) 0x06 ∧ (linked.InTurn 0 (pkt 0x07) 0x07 ∧ (pkt 0x07).payload = []) ∧
    (linked.InTurn 0 (pkt 0x08 0 0 [1, 2, 3, 4]) 0x08 ∧ (pkt 0x08 0 0 [1, 2, 3, 4]).payload.length = 4) ∧
    linked.InTurn 0 (pkt 0x09) 0x09 := by
  simp only [inTurn_iff]
  decide +kernel

/-- A WRITE packet with a number of its own. -/
def numbered (n : Nat) : Packet := { pkt 0x01 with pseq := n }

theorem test_witness_PacketsKeepTheirOrder :
    (let s := linked.modLink 0 (fun x => { x with session := false })
     (s.link 0).st = .up ∧ (s.link 0).session = false ∧ numbered 0 ∉ (s.link 0).arrived ∧ s.isLocal 0 = true) ∧
    ((numbered 0).type = 0x01 ∧ linked.isLocal (numbered 0).dst = true ∧ pktOk (numbered 0) = true ∧
      (numbered 0).pseq % 2 ^ 24 = linked.expected 1 (numbered 0).vl) ∧
    ((linked.modChain (fun c => { c with heldPkts := [⟨0, numbered 1, none⟩] })).chain.heldPkts.any (fun h => h.pkt == numbered 1) = true) ∧
    (pktOk { numbered 0 with vl := 5 } = false ∧
      (linked.modLink 0 (fun x => { x with peerStore := true })).isLocal 0 = true) ∧
    ((linked.link 0).st = .up ∧ (linked.link 0).session = true ∧ linked.isLocal 0 = true ∧ pktOk (numbered 1) = true ∧
      (linked.link 0).peerStore = false ∧ (numbered 1).pseq % 2 ^ 24 ≠ linked.expected 1 (numbered 1).vl ∧
      seqAfter (numbered 1).pseq (linked.expected 1 (numbered 1).vl) = true) ∧
    (pktOk (numbered 0xFFFFFF) = true ∧ (numbered 0xFFFFFF).pseq % 2 ^ 24 ≠ linked.expected 1 (numbered 0xFFFFFF).vl ∧
      seqAfter (numbered 0xFFFFFF).pseq (linked.expected 1 (numbered 0xFFFFFF).vl) = false) ∧
    ((routed.link 32).st = .up ∧ (routed.link 32).session = true ∧ routed.isLocal 1 = false ∧
      pktOk { pkt 0x01 with dst := 1 } = true ∧ (routed.link 32).peerStore = false ∧
      ((routed.collected 32 { pkt 0x01 with dst := 1 }).linkFor (routed.addressed 1) 0).isSome = true) ∧
    (linked.isLocal 1 = false ∧ (linked.collected 32 { pkt 0x01 with dst := 1 }).linkFor (linked.addressed 1) 0 = none) := by
  decide +kernel

/-- A recovery packet of an action and attempt 1, for step 0. -/
def abandonPkt (action : Byte) : Packet := pkt 0x22 0 0 ([action, 0, 0, 0, 1, 0] ++ zeros 58)

/-- A member that trains, with a fence child on link 0. -/
def fencing : State :=
  ({ linked with begun := true } : State).modChain (fun c => { c with role := .member, isRoot := false, children := [0] })

theorem test_witness_FencePacketsTakeEffect :
    (linked.InTurn 0 (abandonPkt 0) 0x22 ∧ (abandonOf (abandonPkt 0).payload).action = 0) ∧
    (linked.InTurn 0 (abandonPkt 1) 0x22 ∧ (abandonOf (abandonPkt 1).payload).action = 1 ∧ linked.running = true ∧
      pktStep (abandonPkt 1) = linked.step ∧ linked.chain.attempt < (abandonOf (abandonPkt 1).payload).attempt) ∧
    (linked.InTurn 0 (abandonPkt 2) 0x22 ∧ (abandonOf (abandonPkt 2).payload).action = 2) ∧
    (let s := linked.modChain (fun c => { c with attempt := 1 })
     s.InTurn 0 (abandonPkt 3) 0x22 ∧ (abandonOf (abandonPkt 3).payload).action = 3 ∧ pktStep (abandonPkt 3) = s.step ∧
       (abandonOf (abandonPkt 3).payload).attempt = s.chain.attempt) ∧
    linked.InTurn 0 (pkt 0x20) 0x20 ∧ linked.InTurn 0 (pkt 0x21) 0x21 ∧ linked.chain.inbox = [] ∧
    (let s := linked.modChain (fun c => { c with role := .outside })
     (s.atTurn 0 (pkt 0x20)).belongs = false ∧ (s.atTurn 0 (pkt 0x21)).trains = false) ∧
    (let s := fencing
     s.InTurn 0 (pkt 0x20) 0x20 ∧ (s.atTurn 0 (pkt 0x20)).belongs = true ∧ (s.atTurn 0 (pkt 0x20)).fenceMine (pkt 0x20) = true ∧
       s.chain.isRoot = false ∧ (s.atTurn 0 (pkt 0x20)).childLink 0 (pkt 0x20) ∈ s.chain.children ∧
       (s.atTurn 0 (pkt 0x20)).childLink 0 (pkt 0x20) ∉ s.chain.retrying) ∧
    (let s := fencing
     s.InTurn 0 (pkt 0x21) 0x21 ∧ (s.atTurn 0 (pkt 0x21)).trains = true ∧ (s.atTurn 0 (pkt 0x21)).fenceMine (pkt 0x21) = true ∧
       s.chain.closing = false ∧ (s.atTurn 0 (pkt 0x21)).commitReady = true ∧
       ((s.modChain (fun c => { c with lastCommit := some 0 })).atTurn 0 (pkt 0x21)).commitReady = false) := by
  simp only [inTurn_iff]
  decide +kernel

/-- The fence root, running, with its twin paired and its checkpoint store named. -/
def root : State :=
  { linked with
    plan := { Plan.empty with storeDev := some 2, twin := some ⟨1, [], 4, 4, 4⟩ }, begun := true
    chain := { ChainSt.reset with role := .member, isRoot := true, twin := .paired, hbPeriod := 4, hbLimit := 4, shardCurrent := true }
    sec := { linked.sec with sessions := Vector.replicate 2 (some ⟨1, 0, 1000000, 0⟩) }
    dev := { linked.dev with tick := 1000 } }

theorem test_witness_MembershipRuns :
    (root.InTurn 0 (pkt 0x23 1) 0x23 ∧ (pkt 0x23 1).aux % 4 = 1 ∧ root.running = true ∧ root.chain.isRoot = true ∧ root.chain.inbox = [] ∧
      (root.modChain (fun c => { c with isRoot := false })).chain.isRoot = false) ∧
    (root.InTurn 0 (pkt 0x23 2) 0x23 ∧ (pkt 0x23 2).aux % 4 = 2) ∧ (root.InTurn 0 (pkt 0x23 3) 0x23 ∧ (pkt 0x23 3).aux % 4 = 3) ∧
    (let s := root.modChain (fun c => { c with twin := .lost })
     s.InTurn 0 (pkt 0x24 3) 0x24 ∧ (pkt 0x24 3).aux % 4 = 3 ∧ s.chain.twin = .lost) ∧
    (root.InTurn 0 (pkt 0x24 1) 0x24 ∧ (pkt 0x24 1).aux % 4 = 1) ∧
    (let s := root.modChain (fun c => { c with role := .joining })
     s.InTurn 0 (pkt 0x25 1) 0x25 ∧ (pkt 0x25 1).aux % 4 = 1 ∧ s.chain.role = .joining) ∧
    (let s := root.modChain (fun c => { c with role := .leaving })
     s.InTurn 0 (pkt 0x25 2) 0x25 ∧ (pkt 0x25 2).aux % 4 = 2 ∧ s.chain.role = .leaving) ∧
    (let s := root.modChain (fun c => { c with role := .outside })
     (s.party .f1).privileged = true ∧ s.chain.cmd.busy = false ∧ s.mayAttach = true) ∧
    ((root.party .f1).privileged = true ∧ root.chain.cmd.busy = false ∧ root.mayDetach = true) ∧
    (let s := root.modChain (fun c => { c with cmd := ⟨1, true, 0, 0, none⟩ })
     (s.party .f1).privileged = true ∧ s.chain.cmd.busy = true) ∧
    (root.mayAttach = false ∧ (root.party .f0).privileged = false ∧ rivalsFollow .f1 [⟨.f0, 2, 7⟩] = true ∧
      root.allReach .f1 [⟨.f0, 2, 7⟩] = true ∧ root.allReach .f0 [] = true ∧ root.dev.st ≠ .safe) ∧
    (let s := root.modDev (fun d => { d with st := .safe })
     s.allReach .mb [] = true ∧ s.dev.st = .safe) := by
  simp only [inTurn_iff]
  decide +kernel

/-- A session handshake message of a kind on link 0. -/
def pairPkt (kind : Nat) : Packet := pkt 0x31 kind

theorem test_witness_ChainTimersAndHandshakes :
    (let s := root.modChain (fun c => { c with myReports := [(4, 0)], isRoot := false })
     (s.chain.myReports.filter (fun r => decide (r.2 + s.plan.settle ≤ s.now))) ≠ [] ∧ s.running = true ∧
       s.chain.isRoot = false ∧ s.chain.inbox = []) ∧
    (let s := root.modChain (fun c => { c with settleSince := some 0 })
     s.chain.settleSince = some 0 ∧ s.running = true ∧ s.chain.isRoot = true ∧ 0 + s.plan.settle ≤ s.now) ∧
    (root.running = true ∧ root.chain.twin = .paired ∧ root.chain.hbPeriod ≠ 0 ∧ root.chain.hbSent + root.chain.hbPeriod ≤ root.now ∧
      root.chain.role = .member ∧ root.chain.hbLast + root.chain.hbLimit * root.chain.hbPeriod ≤ root.now) ∧
    (32 ≤ (32 : Fin 36).val ∧ root.InTurn 32 (pkt 0x30) 0x30) ∧
    ((linked.link 0).st = .up ∧ isPair 0x31 = true ∧ pktOk (pairPkt 0) = true ∧ (pairPkt 0).aux % 4 = 0 ∧ (pairPkt 1).aux % 4 = 1 ∧
      (pairPkt 2).aux % 4 = 2 ∧ (pairPkt 3).aux % 4 = 3 ∧ (linked.link 0).peerStore = false) ∧
    ((0 : Fin 36).val < 32 ∧ root.InTurn 0 (pkt 0x30) 0x30) ∧
    (let s := root.modChain (fun c => { c with twin := .unpaired })
     s.running = true ∧ s.chain.twin = .unpaired ∧ s.plan.twin ≠ none ∧ s.chain.pairSince + s.chain.pairBound ≤ s.now) ∧
    (let s : State := { linked with
       dev := { linked.dev with st := .bringUp, phase := 6 }, rst := { linked.rst with linksBegun := true }
       chain := { linked.chain with twin := .pairing } }
     s.inPhase 6 = true ∧ s.rst.linksBegun = true ∧ s.chain.twin = .pairing ∧ s.chain.twinSpoke = false ∧
       s.rst.phaseSince + s.chain.pairBound ≤ s.now) := by
  simp only [inTurn_iff]
  decide +kernel

/-- A token whose fields are zero but its length, opcode, role, path and two bytes of its BODY (R358). -/
def tokenOf (op role body b0 b1 : Nat) : List (Nat × Byte) :=
  [(0, BitVec.ofNat 8 (384 + body)), (1, BitVec.ofNat 8 ((384 + body) / 256)), (4, BitVec.ofNat 8 op), (5, BitVec.ofNat 8 role),
    (6, 1), (288, BitVec.ofNat 8 b0), (289, BitVec.ofNat 8 b1)]

/-- Function 1 may command, its mailbox holds a token, its nonce is 32 zero bytes, and the owner's key is 97 zero bytes. -/
def commanding (lifecycle : Nat) (mail : List (Nat × Byte)) : State :=
  runSt.modSec (fun x =>
    { x with
      lifecycle := lifecycle, ownerHash := sha384 (zeros 97), debugOpen := false, nonces := x.nonces.set 0 (some (zeros 32))
      mailbox := x.mailbox.set 0 mail })

theorem commanding_ownerHash (lc mail) : (commanding lc mail).sec.ownerHash = sha384 (zeros 97) := by
  simp only [commanding, State.modSec]

theorem passes {s : State} {op role : Nat} (sig : ∀ k m g, Config.ecdsaVerify k m g = true)
    (may : s.MayCommand .f1 0) (form : tokenForm op 0 (s.token 0) = true) (state : s.tokenState op (s.token 0) = true)
    (signer : tokSigner (s.token 0) = zeros 97) (hash : s.sec.ownerHash = sha384 (zeros 97)) (hrole : tokRole (s.token 0) = role)
    (here : slice (s.token 0) 8 8 == leBytes 8 s.dev.serial.toNat && s.sec.nonces.get 0 == some (slice (s.token 0) 16 32) &&
      roleMay op role s.sec.lifecycle)
    (who : role = 1 ∧ (op = 5 ∨ s.sec.lifecycle = 2) ∨ role = 3 ∧ sha384 (zeros 97) = Config.vendorHash) : s.TokenPasses op .f1 0 := by
  refine ⟨may, ?_⟩
  have h : s.signerOk op (s.token 0) = true := by
    rcases who with ⟨rfl, h⟩ | ⟨rfl, h⟩
    · rcases h with h | h <;> simp [State.signerOk, hrole, signer, hash, h]
    · simp [State.signerOk, hrole, signer, h]
  have h2 : s.tokenAuthority op 0 (s.token 0) = true := by
    simp only [State.tokenAuthority, sig, h, hrole, Bool.and_true, here]
  simp [State.tokenCheck, form, state, h2]

/-- The signature check is opaque: the hypotheses hold of these states wherever a signature verifies (and, for SHIP, the signer is the
vendor). -/
theorem test_witness_TokenCommandsTakeEffect (sig : ∀ k m g, Config.ecdsaVerify k m g = true)
    (vendor : sha384 (zeros 97) = Config.vendorHash) (opens : ∀ k n a c t, Config.gcmOpen k n a c t = some (zeros 32)) :
    (commanding 2 (tokenOf 2 1 4 1 0)).TokenPasses 2 .f1 0 ∧
    ((commanding 0 (tokenOf 4 3 0 0 0)).TokenPasses 4 .f1 0 ∧ (commanding 0 (tokenOf 4 3 0 0 0)).sec.entropyFail = false) ∧
    (commanding 1 (tokenOf 5 1 0 0 0)).TokenPasses 5 .f1 0 ∧
    ((commanding 2 (tokenOf 6 1 152 0 1)).TokenPasses 6 .f1 0 ∧ ∃ key, ∀ k n a c t, Config.gcmOpen k n a c t = some key) ∧
    (commanding 2 (tokenOf 7 1 4 0 0)).TokenPasses 7 .f1 0 ∧ (commanding 2 (tokenOf 8 1 8 0 0)).TokenPasses 8 .f1 0 ∧
    ((commanding 2 (tokenOf 9 1 100 0 0)).TokenPasses 9 .f1 0 ∧ ∀ k m g, Config.ecdsaVerify k m g = true) ∧
    (commanding 2 (tokenOf 10 1 0 0 0)).TokenPasses 10 .f1 0 ∧ rivalsFollow .f1 [] = true ∧
    ∀ lc mail, (commanding lc mail).allReach .f1 [] = true := by
  have may (lc mail) : (commanding lc mail).MayCommand .f1 0 := ⟨nofun, rfl, rfl⟩
  have hash {lc mail} := commanding_ownerHash lc mail
  refine ⟨?_, ⟨?_, rfl⟩, ?_, ⟨?_, zeros 32, opens⟩, ?_, ?_, ⟨?_, sig⟩, ?_, rfl, fun _ _ => rfl⟩
  · exact passes (role := 1) sig (may _ _) (by decide +kernel) (by decide +kernel) (by decide +kernel) hash (by decide +kernel)
      (by decide +kernel) (.inl ⟨rfl, .inr rfl⟩)
  · exact passes (role := 3) sig (may _ _) (by decide +kernel) (by decide +kernel) (by decide +kernel) hash (by decide +kernel)
      (by decide +kernel) (.inr ⟨rfl, vendor⟩)
  · exact passes (role := 1) sig (may _ _) (by decide +kernel) (by decide +kernel) (by decide +kernel) hash (by decide +kernel)
      (by decide +kernel) (.inl ⟨rfl, .inl rfl⟩)
  all_goals
    exact passes (role := 1) sig (may _ _) (by decide +kernel) (by decide +kernel) (by decide +kernel) hash (by decide +kernel)
      (by decide +kernel) (.inl ⟨rfl, .inr rfl⟩)

theorem test_witness_FailedTokensChangeNothing :
    ((commanding 2 []).MayCommand .f1 0 ∧ ∀ op, (commanding 2 []).tokenCheck op 0 ((commanding 2 []).token 0) = some .malformed) ∧
    (let s := (commanding 2 []).modSec (fun x => { x with cmd := ⟨1, true, 0, 0, none⟩ })
     s.dev.st ≠ .safe ∧ secPath .f1 = some 0 ∧ s.sec.cmd.busy = true) ∧ rivalsFollow .f1 [⟨.f0, 2, 9⟩] = true ∧
    (commanding 2 []).allReach .f1 [⟨.f0, 2, 9⟩] = true ∧
    ((commanding 2 []).allReach .f0 [] = true ∧ secPath .f0 = none ∧ rivalsFollow .f0 [] = true ∧ (commanding 2 []).dev.st ≠ .safe) := by
  refine ⟨⟨⟨by decide, rfl, rfl⟩, fun op => ?_⟩, by decide +kernel, rfl, rfl, rfl, rfl, rfl, by decide⟩
  have h : (384 ≤ tokLength ((commanding 2 []).token 0)) = False := by decide +kernel
  simp [State.tokenCheck, tokenForm, h]

theorem test_witness_SecrecyCommandsTakeEffect :
    ((commanding 2 []).MayCommand .f1 0 ∧ (commanding 2 []).sec.entropyFail = false ∧ (commanding 2 []).sessionOpen 0 = false ∧
      rivalsFollow .f1 [⟨.f0, 1, 9⟩] = true ∧ (commanding 2 []).allReach .f1 [⟨.f0, 1, 9⟩] = true) ∧
    (let s := (commanding 2 []).modDev (fun d => { d with st := .safe })
     s.allReach .mb [] = true ∧ s.dev.st = .safe ∧ rivalsFollow .mb [] = true) ∧
    (let s := (commanding 2 []).modSec (fun x => { x with entropyFail := true })
     s.MayCommand .f1 0 ∧ s.sec.entropyFail = true) ∧
    (root.MayCommand .f1 0 ∧ root.sessionOpen 0 = true) ∧
    (let s := root.modDev (fun d => { d with tick := 1000000 })
     secPath .f1 = some 0 ∧ s.session 0 = some ⟨1, 0, 1000000, 0⟩ ∧ 0 + 1000000 ≤ s.now) ∧
    ((runSt.modSec (fun x => { x with zeroising := true })).sec.zeroising = true) := by
  unfold State.MayCommand
  decide +kernel

/-- One ingest channel of two buffers of 128 bytes at the start of core store 0, whose first buffer holds no bytes under a key
slot, or none. -/
def ingesting (slot : Byte) : State :=
  let e : BitVec 256 := BitVec.ofNat 256 (0xF000000000 + 2 * 2 ^ 48 + 128 * 2 ^ 64)
  ({ runSt with plan := { Plan.empty with ingest := [e] } } : State).modSec (fun x =>
    { x with channels := [(0, ⟨0, [0, 1], [], none⟩)] })
    |>.modCore 0 (fun x => { x with store := if slot = 0 then [] else [(8, slot)] })

/-- The same with the first buffer submitted. -/
def submitted (slot : Byte) : State :=
  (ingesting slot).modSec (fun x =>
    { x with channels := [(0, ⟨0, [1], [], some 0⟩)], ingestCmd := { x.ingestCmd with running := some (0, .f0, 0) } })

theorem test_witness_IngestAndRestoreRun :
    ((ingesting 0).dev.st ≠ .safe ∧ (ingesting 0).allReach .f0 [] = true ∧ rivalsFollow .f0 [] = true ∧ (ingesting 0).mayIngest .f0 = true ∧ (ingesting 0).sec.ingestCmd.busy = false ∧
      ((ingesting 0).channel 0).isSome = true ∧ ((ingesting 0).channel 0).all (fun q => (ingesting 0).submitRefused q.1 q.2 == none) = true) ∧
    ((submitted 1).sec.ingestCmd.running = some (0, .f0, 0) ∧ ((submitted 1).channel 0).any (fun q => q.2.busy == some 0 &&
      ((submitted 1).openBuffer q.1 0).isNone) = true) ∧
    ((submitted 0).sec.ingestCmd.running = some (0, .f0, 0) ∧ ((submitted 0).channel 0).any (fun q => q.2.busy == some 0 &&
      ((submitted 0).openBuffer q.1 0).isSome && !ingLoad q.1) = true) ∧
    ((ingesting 0).channel 1 = none ∧ ((submitted 0).channel 0).all (fun q => ((submitted 0).submitRefused q.1 q.2).isSome) = true) ∧
    linked.running = true ∧ linked.InTurn 32 (pkt 0x32) 0x32 := by
  simp only [inTurn_iff]
  decide +kernel

theorem test_witness_ResetSourcesAreRecognised :
    runSt.ports.resetLow = false ∧ runSt.ports.twinInLow = false ∧
    (let s := (runSt.modRst (fun r => { r with wdt := 5 })).modDev (fun d => { d with tick := 5 })
     s.running = true ∧ s.rst.wdt ≠ 0 ∧ s.rst.wdtSince + s.rst.wdt ≤ s.now) ∧
    ((880 : Int) ≤ 880 ∧ runSt.rst.heldThermal = false) ∧ runSt.sec.debugOpen = true ∧
    (let s := (runSt.modRst (fun r => { r with failedWait := some 0 })).modDev (fun d => { d with tick := 2 ^ 24 })
     s.rst.failedWait = some 0 ∧ s.rst.taking = none ∧ 0 + 2 ^ 24 ≤ s.now) ∧
    (runSt.modPorts (fun p => { p with twinInLow := true })).ports.twinInLow = true ∧
    (runSt.modPorts (fun p => { p with resetLow := true })).ports.resetLow = true ∧
    ((runSt.modRst (fun r => { r with heldThermal := true })).rst.heldThermal = true ∧
      (Vector.replicate 12 (759 : Int)).all (fun t => t < 760) = true) := by
  decide +kernel

theorem test_witness_ResetCommandsAnswer :
    (root.mayReset .f1 = true ∧ root.rst.taking = none ∧ root.dev.st ≠ .bringUp ∧ root.dev.st ≠ .safe) ∧
    (let s := root.modRst (fun r => { r with taking := some Taking.powerOn })
     s.mayReset .f1 = true ∧ s.rst.taking.isSome = true) ∧
    root.mayReset .f0 = false ∧ rivalsFollow .f1 [⟨.f0, 2, 9⟩] = true ∧ root.allReach .f1 [⟨.f0, 2, 9⟩] = true ∧
    root.allReach .f0 [] = true := by
  decide +kernel

/-- A warm reset that escalation asked for, recognised and not yet applied. -/
def asked : Taking := { Taking.powerOn with sources := 0x100, scope := .warm, source := 8, applied := false }

/-- A running device whose report to its fence parent cannot leave at once: the lane to it has no credit. -/
def leaving : State :=
  ({ routed with begun := true } : State).modChain (fun c => { c with role := .member, isRoot := false, parent := some 0 })

theorem test_witness_ResetIsTaken :
    (let s := runSt.modRst (fun r => { r with taking := some asked })
     s.rst.taking = some asked ∧ asked.applied = false ∧ s.rst.fusing = none ∧ asked.scope ≠ .core) ∧
    (let k : Taking := { asked with scope := .cold, cut := true }
     let s := runSt.modRst (fun r => { r with taking := some k, fusing := some programming })
     s.rst.taking = some k ∧ k.applied = false ∧ s.rst.fusing ≠ none ∧ k.cut = true ∧ k.scope = .cold ∧ k.halts = false) ∧
    (let k : Taking := { asked with scope := .core, source := 2, sources := 4, cut := false }
     let s := runSt.modRst (fun r => { r with taking := some k })
     s.rst.taking = some k ∧ k.scope = .core ∧ k.halts = true ∧ s.running = true ∧ (close (s.haltSteps 7)).chain.lowering = false) ∧
    (let k : Taking := { asked with cut := false }
     let s := leaving.modRst (fun r => { r with taking := some k })
     s.rst.taking = some k ∧ k.halts = true ∧ s.running = true ∧ (close (s.haltSteps 7)).chain.lowering = true) := by
  decide +kernel

/-- A bring-up in a phase. -/
def bringing (phase : Nat) : State :=
  { State.reset with dev := { Dev.reset with phase := phase }, rst := { Rst.reset with taking := none } }

/-- An image of no body under a seal of the vendor whose fields are zero but MAGIC, VERSION and SIGNER (R369). -/
def emptyImage : List Byte := [0xA1, 0x5E, 0x12, 0x28, 1, 3] ++ zeros 282

/-- Where a signature verifies and the vendor's key is 97 zero bytes, the empty image passes on a device of lifecycle MANUFACTURE
whose policy asks for nothing. -/
theorem empty_image_passes (s : State) (sig : ∀ k m g, Config.ecdsaVerify k m g = true)
    (vendor : sha384 (zeros 97) = Config.vendorHash) (life : s.sec.lifecycle = 0) (pol : s.sec.policy = 0) :
    s.sealCheck emptyImage = 0 := by
  have key : sealSignerKey emptyImage = zeros 97 := by decide +kernel
  have form : sealForm emptyImage 0 = true := by decide +kernel
  have enc : sealEnc emptyImage = 0 := by decide +kernel
  have signer : sealSigner emptyImage = 3 := by decide +kernel
  have len : emptyImage.length - 288 = 0 := by decide +kernel
  simp only [State.sealCheck, len, List.drop_zero, form, sig, enc, State.sealSignerOk, life, pol, signer, key, vendor]
  simp

/-- A configuration memory that holds it (R400): its length, and the image from byte 64. -/
def flash (image : List Byte) : List Byte := leBytes 8 image.length ++ zeros 56 ++ image

/-- Phase 4 with the twin as source, whose image has come. -/
def fromTwin (image : List Byte) (begun : Bool := true) : State :=
  ((bringing 4).modRst (fun r => { r with straps := ⟨3, 0, false⟩, strapsLatched := true, linksBegun := begun })).modChain (fun c =>
    { c with shardRx := image })

/-- Phase 4 with the host as source, whose image has come. -/
def fromHost (n : Nat) (store : List (Nat × Byte)) : State :=
  ((bringing 4).modRst (fun r => { r with straps := ⟨2, 0, false⟩, strapsLatched := true, staging := some n })).modCore 0 (fun x =>
    { x with store := store })

/-- A phase under way in a bring-up of a scope. -/
def inScope (phase : Nat) (scope : Scope) : State := (bringing phase).modRst (fun r => { r with cur := { r.cur with scope := scope } })

/-- A plan that gives no core a program, with a default bound for each and a checkpoint store, in phase 8: it fits. -/
def fit : State :=
  let plan : Plan := { Plan.empty with
    cores := Vector.replicate 4 { PlanCore.empty with defaultBound := 100 }, storeDev := some 2 }
  { bringing 8 with plan := plan, loaded := true }

theorem test_witness_BringUpPhasesRun :
    (State.reset.phase1Due = some Taking.powerOn ∧ Taking.powerOn.scope ≠ .core ∧ State.reset.rst.safe = false ∧
      State.reset.rst.fails < 32 ∧ (⟨true, [], [], []⟩ : Phase1Env).backupOk = true) ∧
    (let k : Taking := { Taking.powerOn with scope := .core, sources := 4 }
     let s := State.reset.modRst (fun r => { r with taking := some k })
     s.phase1Due = some k ∧ k.scope = .core ∧ s.sec.zeroiseFlag = false ∧ s.unlocked = false ∧
       (s.modSec (fun x => { x with lifecycle := 2, debugOpen := true })).unlocked = true ∧
       (s.modRst (fun r => { r with safe := true })).rst.safe = true ∧ k.sources.getLsbD 0 = false) ∧
    ((bringing 2).inPhase 2 = true ∧ ((bringing 2).sec.fuses.read []).readable = true) ∧
    ((bringing 3).inPhase 3 = true ∧ (bringing 3).rst.cur.sources.getLsbD 0 = true ∧ (⟨0, 0, false⟩ : Straps).paceSel ≠ 2 ∧
      (bringing 3).rst.safe = false ∧ (bringing 3).sec.zeroiseFlag = false ∧ (bringing 3).unlocked = false) ∧
    (let s := (bringing 3).modRst (fun r => { r with cur := { r.cur with sources := 2 } })
     s.rst.cur.sources.getLsbD 0 = false ∧ s.rst.strapsLatched = false) ∧
    (let s := (bringing 3).modRst (fun r => { r with cur := { r.cur with sources := 2 }, strapsLatched := true })
     s.rst.cur.sources.getLsbD 0 = false ∧ s.rst.strapsLatched = true ∧ s.rst.straps.paceSel ≠ 2) ∧
    ((bringing 4).inPhase 4 = true ∧ (bringing 4).rst.source < 2 ∧ memoryImage (flash emptyImage) = some emptyImage ∧
      (bringing 4).sec.lifecycle = 0 ∧ (bringing 4).sec.pending = 0) ∧
    (let s := fromHost 288 [(0, 0xA1), (1, 0x5E), (2, 0x12), (3, 0x28), (4, 1), (5, 3)]
     s.rst.source = 2 ∧ s.rst.staging = some 288 ∧ imageLengthOk 288 = true ∧ s.peek (storeBase 0) 288 = emptyImage) ∧
    ((fromTwin emptyImage).inPhase 4 = true ∧ (fromTwin emptyImage).rst.source = 3 ∧ (fromTwin emptyImage).sec.entropyFail = false ∧
      (fromTwin emptyImage).rst.linksBegun = true ∧ (fromTwin emptyImage).chain.shardRx ≠ [] ∧
      imageLengthOk (fromTwin emptyImage).chain.shardRx.length = true ∧ (fromTwin [] false).rst.linksBegun = false) := by
  decide +kernel

theorem test_witness_BringUpPhasesRun_late :
    ((bringing 5).inPhase 5 = true ∧ (bringing 5).sec.entropyFail = false ∧ (bringing 5).sec.zeroiseFlag = false) ∧
    ((inScope 5 .core).inPhase 5 = true ∧ (inScope 5 .warm).inPhase 5 = true ∧ (inScope 5 .cold).inPhase 5 = true ∧
      (inScope 5 .core).rst.cur.scope = .core ∧ (0 : Fin 12) ∉ (⟨[1], [], []⟩ : Phase5Env).failedStacks) ∧
    ((bringing 5).modSec (fun x => { x with zeroiseFlag := true })).sec.zeroiseFlag = true ∧
    ((bringing 6).modRst (fun r => { r with linksBegun := true })).rst.linksBegun = true ∧
    ((bringing 6).modRst (fun r => { r with linksBegun := true })).linksSettled = true ∧
    (linked.modChain (fun c => { c with twin := .pairing })).linksSettled = false ∧
    ((inScope 6 .cold).inPhase 6 = true ∧ (inScope 6 .cold).rst.linksBegun = false ∧ (inScope 6 .cold).usedLinks = [] ∧
      (∀ l, ((inScope 6 .cold).link l).used = false) ∧ (inScope 6 .cold).plan.twin = none ∧ (inScope 6 .cold).coreBringUp = false) ∧
    ((bringing 7).inPhase 7 = true ∧ ((bringing 7).hlt.measure ⟨Vector.replicate 128 0, 0⟩ 0 0 0 true).late = false) ∧
    (fit.inPhase 8 = true ∧ fit.firstFailure = none) ∧
    (bringing 9).inPhase 9 = true := by
  decide +kernel

/-- A plan whose core 0 has a context without its operations does not fit. -/
def unfit : State :=
  { bringing 8 with plan := onCore { PlanCore.empty with progs := [⟨0, 0, 1, 0, none, none⟩] }, loaded := true }

theorem test_witness_BringUpFailuresAreHeld :
    ((bringing 2).inPhase 2 = true ∧ ((bringing 2).sec.fuses.read [⟨.serial, false⟩, ⟨.serial, true⟩]).readable = false ∧
      ((bringing 2).sec.fuses.read []).readable = true) ∧
    ((bringing 3).inPhase 3 = true ∧ (bringing 3).rst.cur.sources.getLsbD 0 = true ∧ (⟨0, 2, false⟩ : Straps).paceSel = 2) ∧
    ((bringing 2).modRst (fun r => { r with fails := 255 })).rst.fails = 255 ∧
    ((bringing 4).inPhase 4 = true ∧ (bringing 4).rst.source < 2 ∧
      (⟨none, [], Plan.empty⟩ : Phase4Env).memory.bind memoryImage = none ∧
      (⟨some (flash (zeros 287)), [], Plan.empty⟩ : Phase4Env).memory.bind memoryImage = none ∧
      (⟨some (flash (zeros 288)), [], Plan.empty⟩ : Phase4Env).memory.bind memoryImage = some (zeros 288) ∧
      (bringing 4).sealCheck (zeros 288) ≠ 0) ∧
    ((fromHost 287 []).rst.source = 2 ∧ (fromHost 287 []).rst.staging = some 287 ∧ imageLengthOk 287 = false ∧
      imageLengthOk 288 = true ∧ (fromHost 288 []).peek (storeBase 0) 288 = zeros 288) ∧
    ((fromTwin []).modSec (fun x => { x with entropyFail := true })).sec.entropyFail = true ∧
    ((fromTwin (zeros 287)).rst.linksBegun = true ∧ (fromTwin (zeros 287)).chain.shardRx ≠ [] ∧
      imageLengthOk (fromTwin (zeros 287)).chain.shardRx.length = false) ∧
    (let s := (({ bringing 6 with plan := { Plan.empty with usedLinks := 1 } } : State)).modSec (fun x => { x with entropyFail := true })
     s.inPhase 6 = true ∧ s.rst.linksBegun = false ∧ s.sec.entropyFail = true ∧ s.usedLinks ≠ []) ∧
    (let s := State.reset.modDev (fun d => { d with tick := 2 ^ 20 })
     s.phase1Due = some Taking.powerOn ∧ s.rst.phaseSince + 2 ^ 20 ≤ s.now) ∧
    (let s := (bringing 5).modSec (fun x => { x with entropyFail := true })
     s.inPhase 5 = true ∧ s.sec.entropyFail = true) ∧
    (let s := { bringing 6 with plan := { Plan.empty with twin := some ⟨5, [], 256, 2, 256⟩, usedLinks := 1#36 <<< 32 } }
     s.inPhase 6 = true ∧ s.rst.linksBegun = false ∧ s.coreBringUp = false ∧ s.plan.twin.isSome = true ∧
       s.plan.usedLinks.getLsbD (32 : Fin 36).val = true) ∧ (unfit.inPhase 8 = true ∧ unfit.firstFailure.isSome = true) ∧
    (let s := (bringing 7).modDev (fun d => { d with tick := 2 ^ 24 })
     s.phaseBound = some (2 ^ 24) ∧ s.inPhase s.dev.phase = true ∧ s.rst.phaseSince + 2 ^ 24 ≤ s.now) := by
  decide +kernel

theorem test_witness_HealthCommandsRun :
    (let s := runSt.modDev (fun d => { d with tick := 2 ^ 32 })
     s.hlt.wraps < s.now / 2 ^ 32 ∧ s.hlt.measuring = false) ∧
    (let s := runSt.modHlt (fun h => { h with measuring := true })
     s.hlt.measuring = true ∧ (s.hlt.measure ⟨Vector.replicate 128 0, 0⟩ s.rst.count s.now s.step false).late = false ∧
       (s.hlt.measure ⟨Vector.replicate 128 (-1), 0⟩ s.rst.count s.now s.step false).late = true) ∧
    (let s := runSt.modHlt (fun h => { h with avs := some (800, 0) })
     s.hlt.avs = some (800, 0) ∧ 805 ≤ 800 + 5 ∧ 800 ≤ 805 + 5 ∧ 0 + s.plan.health.avsSettle ≤ s.now) ∧
    (runSt.loaded = true ∧ runSt.hlt.warned.get 0 = false ∧ (runSt.plan.health.tempWarn : Int) ≤ 0) ∧
    (let s := runSt.modHlt (fun h => { h with warned := h.warned.set 0 true })
     s.hlt.warned.get 0 = true ∧ (-40 : Int) + 40 ≤ (s.plan.health.tempWarn : Int)) := by
  decide +kernel

/-- A recorder whose mark is being written; and one with a record to keep. -/
def recording : State := runSt.modEvr (fun e => { e with newMark := some 4096 })

theorem test_witness_RecorderRuns :
    recording.RecordsMade ∧ recording.evr.next ≤ seqMax ∧
    (let s := runSt.modDev (fun d => { d with tick := 256 })
     s.RecordsMade ∧ s.evr.next ≤ seqMax ∧ s.evr.rose + 256 ≤ s.now ∧ s.evr.suppressed = 0) ∧
    (let s := (runSt.modDev (fun d => { d with tick := 256 })).modEvr (fun e =>
       { e with allowance := 0, suppressed := 3, suppressedBy := [(1, 3)], mark := 1 })
     s.RecordsMade ∧ s.evr.rose + 256 ≤ s.now ∧ 0 < s.evr.suppressed ∧ 0 ≤ s.evr.allowance ∧
       (s.modEvr (fun e => { e with allowance := -1 })).evr.allowance < 0 ∧ s.evr.next < s.evr.mark ∧ s.evr.waiting = [] ∧
       (s.modEvr (fun e => { e with mark := 0 })).evr.mark ≤ (s.modEvr (fun e => { e with mark := 0 })).evr.next) ∧
    (let s := runSt.modEvr (fun e => { e with unkept := [0] })
     s.RecordsMade ∧ s.evr.unkept = [0] ∧ s.evr.flushing = false) ∧
    (runSt.modEvr (fun e => { e with flushing := true })).evr.flushing = true ∧
    (recording.evr.newMark = some 4096 ∧ recording.keepHeld = none ∧ recording.evr.waiting = [] ∧ recording.evr.next < 4096) ∧
    ({ recording with keepHeld := some recording.keepImage } : State).keepHeld.isSome = true ∧
    runSt.ports.pwrFailLow = false ∧ (runSt.modPorts (fun p => { p with pwrFailLow := true })).ports.pwrFailLow = true := by
  unfold State.RecordsMade
  decide +kernel

/-- A register that a path may read, or write, of a half. -/
def canRead (s : State) (p : Path) (off : Nat) (h : RegHalf) : Bool :=
  s.portReaches p && !s.shut p off && (s.register p off).any (fun r => s.mayRead p r.cls && r.half == h)

def canWrite (s : State) (p : Path) (off : Nat) : Bool :=
  s.portReaches p && !s.shut p off && (s.register p off).any (fun r => s.mayWrite p r.cls && r.cls != .rstCmd && r.cls != .secCmd &&
    r.cls != .ingestCmd && r.cls != .chainCmd)

theorem test_witness_RegisterReadsAnswer :
    Path.f0 ≠ .mb ∧ canRead root .f1 0x050018 .lo = true ∧ canRead root .f1 0x05001C .hi = true ∧
    assoc (root.modPorts (fun q => { q with latch := [((.f1, 0x050018), 7)] })).ports.latch (.f1, 0x05001C - 4) = some 7 ∧
    2 ≠ 4 ∧ (root.register .f1 4095).isNone = true ∧
    (let s := runSt.modDev (fun d => { d with st := .safe })
     s.portReaches .mb = true ∧ s.shut .mb 0x040010 = true) ∧ (runSt.portReaches .f0 = true ∧ (runSt.register .f0 0x020000).any (fun r => !runSt.mayRead .f0 r.cls) = true) := by
  decide +kernel

/-- Function 1 writes 0x40 to GALE_STATUS of array 0, whose MISMATCH is set, in the handshake of a row comparison on array 1 that
finds a difference, or none. -/
def meets (stored : Byte) : Bool :=
  let s : State := { checkingRow 2 stored with sec := root.sec, gales := (checkingRow 2 stored).gales.set 0 { (checkingRow 2 stored).gale 0 with mismatch := true } }
  s.portReaches .f1 && !s.shut .f1 0x104000 && (s.gale 0).mismatch &&
    match exec (.registerWrite .f1 0x104000 0x40 whole) s with
    | .next u => !(u.gale 0).mismatch && (u.gale 1).check == some (aCheck 2) &&
        (match exec (.xchkRowCompare 1) u with
          | .next x => (x.gale 0).mismatch == (stored != 0)
          | _ => false)
    | _ => false

theorem test_witness_RegisterWritesLand :
    Path.f1 ≠ .mb ∧ canWrite root .f1 0x2C = true ∧ canWrite root .f1 0x050010 = true ∧ canWrite root .f1 0x600000 = true ∧
    canWrite root .f1 0x600004 = true ∧ canWrite root .f1 0x28 = true ∧ canWrite root .f1 0x107010 = true ∧
    canWrite root .f1 0x137010 = true ∧ canWrite root .f1 0x010020 = true ∧ canWrite root .f1 0x030014 = true ∧
    (root.portReaches .f1 = true ∧ (root.party .f1).privileged = true) ∧
    (⟨2, 0xF, none⟩ : Form).whole = false ∧ whole.whole = true ∧ whole.met = none ∧ (root.register .f1 4095).isNone = true ∧
    (let s := root.modDev (fun d => { d with st := .safe })
     s.portReaches .mb = true ∧ s.shut .mb 0x040010 = true) ∧
    meets 5 = true ∧ meets 0 = true ∧
    (match exec (.registerWrite .f1 0x2C 0 whole) root with | .next u => (u.gale 1).check == none | _ => false) = true ∧
    (runSt.portReaches .f0 = true ∧ (runSt.register .f0 0x050010).any (fun r => !runSt.mayWrite .f0 r.cls) = true) ∧
    (root.register .f1 0x010000).any (fun r => r.cls == .rstCmd) = true := by
  decide +kernel

/-- Function 0's aperture shows the first 2^36 bytes of device addresses; a window grants both functions a part of it. -/
def windowing : State :=
  { mapped with plan := { mapped.plan with windows := [BitVec.ofNat 128 (0x10000 + 0x1000 * 2 ^ 48 + 3 * 2 ^ 96)] } }

/-- The same device in phase 4 with the host as source of the plan. -/
def staging : State :=
  (bringing 4).modRst (fun r => { r with straps := ⟨2, 0, false⟩, strapsLatched := true })

/-- Four bytes at an offset of BAR2 lie in memory, and for a write in no parameter region. -/
def barReaches (s : State) (off : Nat) (write : Bool) : Bool :=
  let a := s.barAddress 0 off
  !hitsControl a 4 && (lineAddrs a 4).all (fun x => (s.place x).isMemory && !(write && s.inParameter x))

theorem test_witness_Bar2Accesses :
    windowing.portReaches (fnPath 0) = true ∧ windowing.stagingOpen = false ∧
    (barReaches windowing 0x10000 false = true ∧
      windowing.windowed (0 : Fin 2).val (windowing.barAddress 0 0x10000) 4 = true) ∧
    (barReaches windowing 0x30000 false = true ∧
      windowing.windowed (0 : Fin 2).val (windowing.barAddress 0 0x30000) 4 = false) ∧
    (let s := (ingesting 0).modPorts (fun p => { p with aperture := Vector.replicate 2 0xF })
     s.portReaches (fnPath 0) = true ∧ s.stagingOpen = false ∧ barReaches s 0 true = true ∧
       s.inFreeBuffer (s.barAddress 0 0) 4 = true) ∧
    (hitsControl (windowing.barAddress 0 0x800000000) 4 = false ∧ barReaches windowing 0x800000000 false = false) ∧
    (hitsControl (windowing.barAddress 0 0x20000) 4 = false ∧ barReaches windowing 0x20000 false = true ∧
      barReaches windowing 0x20000 true = false) ∧
    (let s := windowing.modPorts (fun p => { p with aperture := Vector.replicate 2 (BitVec.ofNat 12 (ctlBase / 2 ^ 36)) })
     s.portReaches (fnPath 0) = true ∧ s.stagingOpen = false ∧ hitsControl (s.barAddress 0 (ctlBase % 2 ^ 36)) 4 = true ∧
       hitsControl (s.barAddress 0 (ctlBase % 2 ^ 36 - 4)) 4 = false ∧ hitsControl (s.barAddress 0 (ctlBase % 2 ^ 36 - 4)) 5 = true) ∧
    (staging.portReaches (fnPath 0) = true ∧ staging.stagingOpen = true ∧ 0 + [(1 : Byte)].length ≤ storeSize ∧
      storeSize < storeSize + [(1 : Byte)].length ∧ staging.rst.staging = none ∧
      (staging.modRst (fun r => { r with staging := some 5 })).rst.staging.isSome = true) := by
  decide +kernel

theorem test_witness_ManagementPortCounts :
    root.portReaches .mb = true ∧ root.shut .mb 0 = false ∧ root.shut .mb 0x600104 = false ∧
    (runSt.register .mb 0x600104).any (fun r => !runSt.mayWrite .mb r.cls) = true ∧ canWrite root .mb 0x600104 = true ∧ canWrite root .mb 0x2C = true ∧
    (root.register .mb 0x2C).all (fun r => r.cls == .scratch && r.half == .word) = true ∧
    (let s := runSt.modDev (fun d => { d with st := .safe })
     s.portReaches .mb = true ∧ s.shut .mb 0x040010 = true) ∧
    (let s := runSt.modDev (fun d => { d with st := .halted })
     s.portReaches .mb = true ∧ s.alert = true) ∧ runSt.alert = false ∧ root.shut .mb 0x600104 = false ∧
    ((0x0F : Byte).toNat < 0x10 ∧ 0x12 < (0x13 : Byte).toNat) := by
  decide +kernel

theorem test_witness_TestPortAnswers :
    runSt.ports.resetLow = false ∧ (runSt.modPorts (fun p => { p with resetLow := true })).ports.resetLow = true ∧
    (runSt.modSec (fun x => { x with debugOpen := false })).sec.debugOpen = false := by
  decide +kernel

theorem test_witness_HostLinkEvents :
    runSt.ports.linkUp = true ∧ runSt.ports.perstLow = false ∧ (linked.link 0).st = .up ∧ 0 ∈ dieStacks false ∧ 11 ∉ dieStacks false ∧
    4 ∈ dieStash true ∧ 3 ∉ dieStash true := by
  decide +kernel

/-! Values that the specification's worked examples and tables give. -/

/-- A BF16 element in the common form. -/
def bf (code : Nat) : CF := decode ⟨.bf16, false⟩ code 127

/-- spec/02, the group in which truncation matters: 1 + 2^(−24) + 2^(−50) gives 0x3F80_0000. -/
theorem test_group_truncates :
    dotTerms 0 [product (bf 0x3F80) (bf 0x3F80), product (bf 0x3980) (bf 0x3980), product (bf 0x3300) (bf 0x3300)] = 0x3F800000#32 := by
  decide +kernel

/-- spec/02, E5M2 × MXFP4 with a BF16 × FP16 pair: the group sum is 0x400B_0000. -/
theorem test_group_mixed :
    groupSum [product (decode ⟨.e5m2, false⟩ 0xC3 127) (decode ⟨.e2m1, true⟩ 0x5 0x7A),
      product (bf 0x4000) (decode ⟨.fp16, false⟩ 0x3D00 127)] = 0x400B0000#32 := by
  decide +kernel

/-- spec/02, R54: 0x3F80_8000 to BF16 under a drawn word at and below the boundary, and to nearest even. -/
theorem test_stochastic_rounding :
    convert .bf16 (.sr 0x8000) 0x3F808000#32 = 0x3F81 ∧ convert .bf16 (.sr 0x7FFF) 0x3F808000#32 = 0x3F80 ∧
      convert .bf16 .rne 0x3F808000#32 = 0x3F80 := by
  decide +kernel

/-- spec/05: the element (300, 1,000) of a BF16 LOP tensor of 2,304 tokens lies at byte 1,391,128. -/
theorem test_element_address :
    (⟨0, false, 0, 0, 0, false, 1, 1, 2, [5376, 2304], [0, 147456], []⟩ : TDesc).bitOff 300 1000 0 0 = 8 * 1391128 := by
  decide +kernel

/-- spec/10: offset 0x123_4567 of an interleaved region lies in stack 0 at local 0x18_4567, whose check group 1,656 is on
channel 10. -/
theorem test_interleaved_byte :
    interleave 12 0x1234567 0 = (0, 0x184567) ∧ 0x184567 / 64 / 15 = 1656 ∧ channelOf 1656 = 10 := by
  decide +kernel

/-- spec/09: a momentum element; its weight is stored as 0x3F7E at a drawn word of 0xC000 and as 0x3F7D below. -/
theorem test_momentum_element :
    (let r := updateRule 1 ⟨0x3F800000#32, 0, 0x3F600000#32, 0, 0, 0, 0x3C800000#32, 0, 0, id⟩ 0x3F800000#32 0x3F000000#32 0
       0x3E800000#32
     convert .bf16 (.sr 0xC000) r.1 = 0x3F7E ∧ convert .bf16 (.sr 0xBFFF) r.1 = 0x3F7D ∧
       r.2.map (convert .bf16 (.sr 0)) = [0x3F30]) := by
  decide +kernel

/-- The routing layer of spec/07's fragment: expert 7 has CAPACITY 3, the others 60, THRESHOLD 0.25, K_MAX 2. -/
def fragment : RouteEntry :=
  ⟨BitVec.ofNat 1536 (96 + 2 * 2 ^ 16 + 0x3E800000 * 2 ^ 32),
    (List.range 96).map (fun i => BitVec.ofNat 256 ((if i = 7 then 3 else 60) * 2 ^ 16))⟩

/-- The scores of a token of the fragment, the others +0. -/
def scoresOf (xs : List (Nat × Word)) : List Word := (List.range 96).map (fun i => (assoc xs i).getD 0)

/-- spec/07: tokens 0 to 5 of the fragment. -/
def fragmentRun : RouteAcc :=
  ([[(7, 0x3F200000#32), (12, 0x3EA00000#32), (40, 0x3E000000#32)], [(3, 0x3F000000#32), (7, 0x3F000000#32), (12, 0x3F000000#32)],
    [(20, 0x3E000000#32)], [(7, 0x3F600000#32)], [(7, 0x3EC00000#32), (12, 0x3EC00000#32)],
    [(7, 0x7FC00000#32), (50, 0x3E800000#32)]].zipIdx).foldl
    (fun a t => routeToken fragment t.2 true (scoresOf t.1) a) (RouteAcc.empty 96)

/-- spec/07: the pairs admitted, with their ranks; and token 4's route record. -/
theorem test_route_fragment :
    (fragmentRun.tokens.flatMap (·.pairs)).map (fun p => (p.tok, p.expert, p.rank)) =
      [(0, 7, 0), (0, 12, 0), (1, 3, 0), (1, 7, 1), (3, 7, 2), (4, 12, 1), (5, 50, 0)] ∧
    fragmentRun.drops.getD 7 0 = 1 := by
  decide +kernel

/-- spec/07: the route record of token 4. -/
theorem test_route_record :
    fragmentRun.records.getD 4 [] = [0xFFFF0007, 0x0001000C] ++ List.replicate 6 0xFFFFFFFF := by
  decide +kernel

/-- A property of the state that a command leads to; false where it answers none. -/
def after (i : Instr) (s : State) (p : State → Bool) : Bool :=
  match exec i s with
  | .next t => p t
  | _ => false

/-- spec/11: a count of 2 and a DONE signal of 1 make 3; a signal that would pass 0xFFFF leaves the count. -/
theorem test_vane_counts :
    (let s := runSt.modVane (.core 1 12) (fun v => { v with count := 2 })
     ((s.applySignal (.core 1 12) 1 0 false).1.vane (.core 1 12)).count = 3 ∧
       ((s.applySignal (.core 1 12) 65535 0 false).1.vane (.core 1 12)).count = 2) := by
  decide +kernel

/-- VEC_ADD of 1.0 and 2.0 will write 3.0 (R61, spec/05). -/
theorem test_vec_add :
    after (.vecAdd 0 0) ((ready (opOf 0x40 3 1 2) tensors).modCore 0 (fun x =>
        { x with store := [(2, 0x80), (3, 0x3F), (0x43, 0x40)] })) (fun t =>
      match (t.core 0).vec with
      | some r => r.writes.any (fun w => w.addr == 0xF000000080 && w.data.take 4 == [0, 0, 0x40, 0x40])
      | none => false) = true := by
  decide +kernel

/-- LOOP_NEXT with a counter of 1 leaves the loop and writes 0 (R109). -/
theorem test_loop_next :
    after (.loopNext 0 0) ((ready (opOf 0x81 0 5)).modCtx 0 0 (fun x => { x with lcX := x.lcX.set 0 1 })) (fun t =>
      (t.ctx 0 0).lcX.get 0 == 0 && (t.ctx 0 0).execPos == 1) = true ∧
    after (.loopNext 0 0) ((ready (opOf 0x81 0 5)).modCtx 0 0 (fun x => { x with lcX := x.lcX.set 0 3 })) (fun t =>
      (t.ctx 0 0).lcX.get 0 == 2 && (t.ctx 0 0).execPos == 5) = true := by
  decide +kernel

/-- A line written is read back with the poison of its write (R262). -/
theorem test_hbm_write :
    after (.hbmWrite 0x10040 (List.replicate 64 0xA5) true) mapped (fun t =>
      t.peekLine 0x10040 == (List.replicate 64 0xA5, true) && t.peekLine 0x10080 == (zeros 64, false)) = true := by
  decide +kernel

/-- SCRATCH holds what was written (spec/01); a write with a byte enable clear is a REG_FORM violation, kind 0x07 (R18). -/
theorem test_scratch :
    after (.registerWrite .f1 0x2C 0x1234 whole) root (fun t => t.dev.scratch == 0x1234) = true ∧
    after (.registerWrite .f1 0x2C 0x1234 ⟨4, 0x7, none⟩) root (fun t => t.dev.scratch == 0 && t.vio.kind == 7 && t.vio.valid) = true := by
  decide +kernel

/-- A DATA flit of number 0xFFFFFF is followed by number 0 (R308). -/
theorem test_flit_wrap :
    (((linked.modLink 0 (fun x => { x with rxNext := 0xFFFFFF, allot := Vector.replicate 8 4 })).takeFlit 0
      { dataFlit with vl := 1, seq := 0xFFFFFF }).link 0).rxNext = 0 := by
  decide +kernel

/-- spec/15, a damaged primary image: phase 1 after a power-on counts RST_COUNT to 1 and sets RST_CAUSE bit 0. -/
theorem test_power_on :
    after (.phase1 ⟨true, [], [], []⟩) State.reset (fun t =>
      t.rst.count == 1 && t.rst.cause == 1 && t.dev.phase == 2 && t.dev.st == .bringUp) = true := by
  decide +kernel

/-- R411, R421: a failed copy of the SEQ mark counts in KEEP_UNCORRECTABLE and sets KEEP_ERR_SEEN. -/
theorem test_mark_copy_fails :
    after (.phase1 ⟨true, [], [markWordB], []⟩) State.reset (fun t =>
      t.hlt.keepErrSeen && t.hlt.bank.ctr[5] == 1 && t.dev.phase == 2) = true := by
  decide +kernel

/-- FIPS 180-4: the first and the last round constant and the first word of SHA-384's initial value. -/
theorem test_sha_constants :
    shaK.length = 80 ∧ shaK.getD 0 0 = 0x428a2f98d728ae22 ∧ shaK.getD 79 0 = 0x6c44198c4a475817 ∧
    shaInit.getD 0 0 = 0xcbbb9d5dc1059ed8 ∧ shaInit.getD 7 0 = 0x47b5481dbefa4fa4 := by
  decide +kernel

/-- An empty mailbox is MALFORMED, and the nonce is consumed (R359, R360). -/
theorem test_token_malformed :
    after (.session .f1 ⟨5, []⟩) (commanding 2 []) (fun t =>
      t.sec.cmd.code == Answer.malformed.code && t.sec.cmd.tag == 5 && t.sec.nonces.get 0 == none) = true := by
  decide +kernel

/-- The first step from reset takes the command in front; a tick counts on an empty queue. -/
theorem test_step :
    (match step { State.reset with pending := [.pwrFail] } with
      | .next t => t.ports.pwrFailLow && t.pending.isEmpty && t.evr.flushing
      | _ => false) = true ∧
    (match step runSt with | .next t => t.dev.tick == 1 | _ => false) = true := by
  decide +kernel

end Sys2Proof.Tests
end

section
/-! SUPPORT. Where the region table puts a device address (R264 to R267, R279): the interleaving of granules over any number of
units is one-to-one, and `State.place` of an address of each kind of region. -/

namespace Sys2Proof.Machine

/-! Interleaving over `d` units (R267, R279). -/

section
variable {d o o' base : Nat}

/-- The unit of an offset, in the shifts that the specification writes. -/
theorem interleave_unit (d o base : Nat) :
    (interleave d o base).1 =
      ((o >>> 11) % d + ((o >>> 11) / d ^^^ ((o >>> 11) / d) >>> 5 ^^^ ((o >>> 11) / d) >>> 11) % d) % d := by
  simp [interleave, Nat.shiftRight_eq_div_pow]

/-- The local address of an offset. -/
theorem interleave_local (d o base : Nat) :
    (interleave d o base).2 = base + (o >>> 11) / d * 2048 + o % 2048 := by
  simp [interleave, Nat.shiftRight_eq_div_pow]

theorem interleave_unit_lt (hd : 0 < d) : (interleave d o base).1 < d := by
  rw [interleave_unit]
  exact Nat.mod_lt _ hd

/-- In one set of `d` consecutive granules the stack hash is a constant rotation, so that only one granule lies in each unit. -/
theorem interleave_granule_eq (hset : (o >>> 11) / d = (o' >>> 11) / d)
    (hunit : (interleave d o base).1 = (interleave d o' base).1) : o >>> 11 = o' >>> 11 := by
  rw [interleave_unit, interleave_unit, hset] at hunit
  have hrem : (o >>> 11) % d = (o' >>> 11) % d := by simpa [Nat.ModEq] using Nat.ModEq.add_right_cancel' _ hunit
  calc o >>> 11 = d * ((o >>> 11) / d) + (o >>> 11) % d := (Nat.div_add_mod _ _).symm
    _ = d * ((o' >>> 11) / d) + (o' >>> 11) % d := by rw [hset, hrem]
    _ = o' >>> 11 := Nat.div_add_mod _ _

/-- Interleaving is one-to-one: the local address gives the set of granules, and the unit then gives the granule. -/
theorem interleave_injective (hunit : (interleave d o base).1 = (interleave d o' base).1)
    (hlocal : (interleave d o base).2 = (interleave d o' base).2) : o = o' := by
  rw [interleave_local, interleave_local] at hlocal
  have hgranule : o >>> 11 = o' >>> 11 := interleave_granule_eq (by omega) hunit
  have hin : o % 2048 = o' % 2048 := by omega
  simp only [Nat.shiftRight_eq_div_pow] at hgranule
  omega

end

/-- Two units below twelve that name one stack are one unit. -/
theorem interleave_stack_eq {o o' base : Nat}
    (h : Fin.ofNat 12 (interleave 12 o base).1 = Fin.ofNat 12 (interleave 12 o' base).1) :
    (interleave 12 o base).1 = (interleave 12 o' base).1 := by
  have hval := congrArg Fin.val h
  rwa [Fin.val_ofNat, Fin.val_ofNat, Nat.mod_eq_of_lt (interleave_unit_lt (by decide)),
    Nat.mod_eq_of_lt (interleave_unit_lt (by decide))] at hval

/-! `State.place` of an address of each kind of region. -/

section
variable {s : State} {a : Nat} {r : BitVec 256}

/-- A region holds no address below its base (R264). -/
theorem State.regBase_le_of_region (h : s.region a = some r) : regBase r ≤ a := by
  have hin := List.find?_some h
  simp only [Bool.and_eq_true, decide_eq_true_eq] at hin
  exact hin.1

theorem State.place_affine (ha : a < 0x008700000000) (h : s.region a = some r) (hk : regKind r = 1 ∨ regKind r = 3)
    (work : Bool) : s.place a work = .hbm (Fin.ofNat 12 (regStack r)) (regLocal r + (a - regBase r)) (regCode r) := by
  rcases hk with hk | hk <;> simp only [State.place, if_pos ha, h, hk]

theorem State.place_parameter (ha : a < 0x008700000000) (h : s.region a = some r) (hk : regKind r = 2) (work : Bool) :
    s.place a work = .hbm (Fin.ofNat 12 (regStack r))
      (regLocal r + s.halfOf (Fin.ofNat 12 (regStack r)) work * regSize r + (a - regBase r)) (regCode r) := by
  simp only [State.place, if_pos ha, h, hk]

theorem State.place_interleaved (ha : a < 0x008700000000) (h : s.region a = some r) (hk : regKind r = 0) (work : Bool) :
    s.place a work = .hbm (Fin.ofNat 12 (interleave 12 (a - regBase r) (regLocal r)).1)
      (interleave 12 (a - regBase r) (regLocal r)).2 (regCode r) := by
  simp only [State.place, if_pos ha, h, hk]

/-- The device number is split into its controller and the device at it where sixteen devices are fitted (R278, R279). -/
theorem State.place_stash (hlo : stashBase ≤ a) (hhi : a < stashBase + s.dev.stashDevices * stashDeviceSize)
    (h : s.region a = some r) (hk : regKind r = 4) (work : Bool) :
    let x := interleave s.dev.stashDevices (a - regBase r) (regLocal r)
    s.place a work =
      if s.dev.stashDevices = 16 then .stash (Fin.ofNat 8 (x.1 / 2)) (x.1 % 2 == 1) x.2 (regCode r)
      else .stash (Fin.ofNat 8 x.1) false x.2 (regCode r) := by
  have hbm : ¬ a < 0x008700000000 := by simp only [stashBase] at hlo; omega
  simp only [State.place, if_neg hbm, hlo, hhi, decide_true, Bool.and_true, if_true, h, hk]

end

/-- Two addresses of one interleaved region that lie at one place are one address (R267). -/
theorem State.place_interleaved_injective {s : State} {a b : Nat} {r : BitVec 256} {work : Bool} (hk : regKind r = 0)
    (ha : a < 0x008700000000) (hra : s.region a = some r) (hb : b < 0x008700000000) (hrb : s.region b = some r)
    (h : s.place b work = s.place a work) : b = a := by
  rw [State.place_interleaved ha hra hk, State.place_interleaved hb hrb hk, Place.hbm.injEq] at h
  obtain ⟨hstack, hlocal, -⟩ := h
  have hoff : b - regBase r = a - regBase r := interleave_injective (interleave_stack_eq hstack) hlocal
  have hle := State.regBase_le_of_region hra
  have hle' := State.regBase_le_of_region hrb
  omega

/-- Two granules of one set of twelve lie in different stacks (R267). -/
theorem State.place_interleaved_stack_ne {s : State} {a b : Nat} {r : BitVec 256} {work : Bool} {n m : Fin 12} {x y : Nat}
    (hk : regKind r = 0) (ha : a < 0x008700000000) (hra : s.region a = some r) (hb : b < 0x008700000000)
    (hrb : s.region b = some r) (hn : s.place a work = .hbm n x (regCode r)) (hm : s.place b work = .hbm m y (regCode r))
    (hset : ((b - regBase r) >>> 11) / 12 = ((a - regBase r) >>> 11) / 12)
    (hne : (b - regBase r) >>> 11 ≠ (a - regBase r) >>> 11) : m ≠ n := by
  rw [State.place_interleaved ha hra hk, Place.hbm.injEq] at hn
  rw [State.place_interleaved hb hrb hk, Place.hbm.injEq] at hm
  obtain ⟨hn, -, -⟩ := hn
  obtain ⟨hm, -, -⟩ := hm
  intro heq
  exact hne (interleave_granule_eq hset (interleave_stack_eq (hm.trans (heq.trans hn.symm))))

/-- Settles O32: `State.place` by kind of region, and the interleaving one-to-one because in each set of twelve granules the
stack hash only rotates the stacks. -/
theorem regionsPlaceAddresses : Obligations.RegionsPlaceAddresses := by
  intro s a r ha hr
  refine ⟨State.place_affine ha hr, State.place_parameter ha hr,
    fun hk work => ⟨?_, fun b hb hrb => ⟨State.place_interleaved_injective hk ha hr hb hrb, ?_⟩⟩⟩
  · rw [State.place_interleaved ha hr hk, interleave_unit, interleave_local]
  · intro n m x y hn hm hset hne
    exact State.place_interleaved_stack_ne hk ha hr hb hrb hn hm hset hne

/-- Settles O33: the device is below D, so that it, or its half where D is 16, names one of the eight controllers. -/
theorem stashPlacesAddresses : Obligations.StashPlacesAddresses := by
  intro s a r work hr hk hlo hhi hD
  dsimp only
  have hlt : (interleave s.dev.stashDevices (a - regBase r) (regLocal r)).1 < s.dev.stashDevices :=
    interleave_unit_lt (by omega)
  have hplace := State.place_stash hlo hhi hr hk work
  rw [← interleave_unit _ _ (regLocal r), ← interleave_local]
  rcases hD with h8 | h16
  case inl =>
    refine ⟨_, _, hplace.trans (if_neg (by omega)), ?_⟩
    rw [if_neg (by omega)]
    exact ⟨Nat.mod_eq_of_lt (by omega), rfl⟩
  case inr =>
    refine ⟨_, _, hplace.trans (if_pos h16), ?_⟩
    rw [if_pos h16]
    exact ⟨Nat.mod_eq_of_lt (by omega), rfl⟩

end Sys2Proof.Machine
end

section
/-! SUPPORT. How a command answers: its effect has been had and the handshake closed, or nothing happens. Every command but one
kind of test access instruction (R382) answers so; the recorder's work at the end of a handshake leaves no record over. -/

namespace Sys2Proof.Machine

/-- The answer is a state in which nothing has happened, or the end of a handshake. -/
def Answers (o : Out) (s : State) : Prop := o = stay s ∨ ∃ x, o = done x

theorem answers_stay (s : State) : Answers (stay s) s := .inl rfl

theorem answers_done (x s : State) : Answers (done x) s := .inr ⟨x, rfl⟩

theorem Answers.next {o : Out} {s : State} (h : Answers o s) : ∃ t, o = .next t := by
  rcases h with h | ⟨x, h⟩
  · exact ⟨s, h⟩
  · exact ⟨close x, h⟩

theorem Answers.ite {c : Prop} [Decidable c] {a b : Out} {s : State} (ha : Answers a s) (hb : Answers b s) :
    Answers (if c then a else b) s := by
  split
  · exact ha
  · exact hb

/-- An answer in a state in which the handshake has already been closed once. -/
theorem Answers.of_next {o : Out} {s t : State} (h : Answers o t) (ht : Answers (.next t) s) : Answers o s := by
  rcases h with rfl | h
  · exact ht
  · exact .inr h

theorem Answers.tidies {o : Out} {s : State} (h : Answers o s) : Tidies o s := by
  rcases h with rfl | ⟨x, rfl⟩
  · exact tidies_stay s
  · exact tidies_done x s

/-! The shared forms of a row. -/

section
variable (s : State)

theorem answers_issue (c : Fin 4) (k : Fin 8) (code : Nat) (f : BitVec 128 → State → State) :
    Answers (issue c k code s f) s := by
  unfold issue
  split <;> exact answers_done _ _

theorem answers_vec1 (c : Fin 4) (k : Fin 8) (code : Nat) (f : BitVec 128 → Word → Word) : Answers (vec1 c k code s f) s := by
  unfold vec1
  exact answers_issue _ _ _ _ _

theorem answers_vec2 (c : Fin 4) (k : Fin 8) (code : Nat) (f : Word → Word → Word) : Answers (vec2 c k code s f) s := by
  unfold vec2
  exact answers_issue _ _ _ _ _

theorem answers_vecCompare (c : Fin 4) (k : Fin 8) (code : Nat) (f : Word → Word → Word) :
    Answers (vecCompare c k code s f) s := by
  unfold vecCompare
  exact answers_issue _ _ _ _ _

theorem answers_takes (l : Fin 36) (p : Packet) (type : Nat) : Answers (s.takes l p type) s :=
  .ite (answers_done _ _) (answers_stay _)

theorem answers_takesFence (l : Fin 36) (p : Packet) (type : Nat) : Answers (s.takesFence l p type) s :=
  .ite (answers_done _ _) (answers_stay _)

theorem answers_takesFrame (l : Fin 36) (p : Packet) (f : Frame) (ok : Nat → Bool) : Answers (s.takesFrame l p f ok) s :=
  .ite (answers_takes _ _ _ _) (answers_stay _)

theorem answers_takePair (l : Fin 36) (p : Packet) (kind : Nat) (act : State → State) :
    Answers (s.takePair l p kind act) s :=
  .ite (answers_stay _) (.ite (answers_done _ _) (answers_done _ _))

theorem answers_commandRow (p : Path) (off : Nat) (rivals : List Rival) (act : State → State)
    (refuse : Rival → State → State) : Answers (s.commandRow p off rivals act refuse) s :=
  .ite (answers_stay _) (.ite (answers_done _ _) (answers_done _ _))

theorem answers_pathRead (p : Path) (off : Nat) : Answers (s.pathRead p off) s :=
  .ite (answers_stay _) (.ite (answers_done _ _) (answers_done _ _))

theorem answers_pathWrite (p : Path) (off : Nat) (v : Word) : Answers (s.pathWrite p off v) s :=
  .ite (answers_stay _) (.ite (answers_done _ _) (answers_done _ _))

theorem answers_badForm (p : Path) (off n : Nat) : Answers (s.badForm p off n) s :=
  .ite (answers_stay _) (answers_done _ _)

theorem answers_fetchStep (c : Fin 4) (k : Fin 8) : Answers (fetchStep c k s) s := by
  unfold fetchStep
  refine .ite (answers_stay _) ?_
  split
  · exact .ite (answers_done _ _) (answers_stay _)
  · exact answers_stay _
  · exact answers_done _ _

theorem answers_startItem (e : Fin 8) (i : Fin 4) (kind : Nat) : Answers (startItem e i kind s) s := by
  unfold startItem
  split
  · exact answers_stay _
  · refine .ite (answers_stay _) ?_
    split
    · exact .ite (answers_stay _) (answers_done _ _)
    · exact .ite (answers_done _ _) (answers_done _ _)

theorem answers_xchkRowCompare (g : Fin 8) : Answers (execXchkRowCompare g s) s := by
  unfold execXchkRowCompare
  split
  · exact answers_stay _
  · refine .ite (answers_done _ _) (.ite (answers_stay _) (.ite (answers_done _ _) ?_))
    exact .ite (answers_done _ _) (answers_done _ _)

theorem answers_compareMet {t : State} (w : Fin 8) (ht : Answers (.next t) s) : Answers (s.compareMet t w) s := by
  unfold State.compareMet
  split
  · exact .ite (answers_done _ _) (answers_done _ _)
  · exact (answers_xchkRowCompare t w).of_next ht

theorem answers_formWrite (p : Path) (off : Nat) (v : Word) (f : Form) : Answers (s.formWrite p off v f) s := by
  have hw : Answers (if f.whole || p = .mb then s.pathWrite p off v else s.badForm p off 0) s :=
    .ite (answers_pathWrite _ _ _ _) (answers_badForm _ _ _ _)
  unfold State.formWrite
  dsimp only
  generalize (if f.whole || p = .mb then s.pathWrite p off v else s.badForm p off 0) = o at hw ⊢
  split
  · exact answers_compareMet s _ hw
  · exact hw

theorem answers_evrCursorWrite (p : Path) (lo hi : Word) : Answers (execEvrCursorWrite p lo hi s) s := by
  have hw := answers_pathWrite s p cursorLo lo
  unfold execEvrCursorWrite
  split
  next t h => exact (answers_pathWrite t _ _ _).of_next (h ▸ hw)
  next => exact hw

theorem answers_bar2Write (fn : Fin 2) (off : Nat) (data : List Byte) : Answers (execBar2Write fn off data s) s := by
  unfold execBar2Write
  refine .ite (answers_stay _) (.ite (answers_done _ _) ?_)
  split
  · exact answers_done _ _
  · exact .ite (answers_done _ _) (answers_done _ _)

/-! The commands with an effect of their own: every branch closes the handshake, or nothing happens. -/

theorem answers_bar2Read (fn : Fin 2) (off len : Nat) : Answers (execBar2Read fn off len s) s := by
  unfold execBar2Read
  refine .ite (answers_stay _) (.ite (answers_done _ _) ?_)
  split
  · exact answers_done _ _
  · exact .ite (answers_done _ _) (answers_done _ _)

theorem answers_endComplete (c : Fin 4) (k : Fin 8) : Answers (execEndComplete c k s) s := by
  unfold execEndComplete
  exact .ite (answers_done _ _) (answers_stay _)

theorem answers_predictComplete (c : Fin 4) : Answers (execPredictComplete c s) s := by
  unfold execPredictComplete
  split
  · exact answers_stay _
  · split
    · exact answers_stay _
    · split <;> exact answers_done _ _

theorem answers_vectorOperationComplete (c : Fin 4) : Answers (execVectorOperationComplete c s) s := by
  unfold execVectorOperationComplete
  split
  · exact answers_stay _
  · exact answers_done _ _

theorem answers_dispatchPair (c : Fin 4) : Answers (execDispatchPair c s) s := by
  unfold execDispatchPair
  split
  · exact answers_stay _
  · split
    · exact answers_done _ _
    · exact answers_stay _

theorem answers_routeComplete (c : Fin 4) : Answers (execRouteComplete c s) s := by
  unfold execRouteComplete
  split
  · exact answers_stay _
  · split
    · exact answers_done _ _
    · exact answers_stay _

theorem answers_vaneSignalTakesEffect (v : VaneId) : Answers (execVaneSignalTakesEffect v s) s := by
  unfold execVaneSignalTakesEffect
  dsimp only
  split
  · exact answers_stay _
  · exact answers_done _ _

theorem answers_waitBoundExpiry (c : Fin 4) (k : Fin 8) : Answers (execWaitBoundExpiry c k s) s := by
  unfold execWaitBoundExpiry
  split
  · exact answers_stay _
  · exact .ite (answers_done _ _) (answers_stay _)

theorem answers_galeBroadcast (g : Fin 8) : Answers (execGaleBroadcast g s) s := by
  unfold execGaleBroadcast
  dsimp only
  split
  · exact answers_stay _
  · exact .ite (answers_done _ _) (answers_stay _)

theorem answers_galeStall (g : Fin 8) : Answers (execGaleStall g s) s := by
  unfold execGaleStall
  dsimp only
  split
  · exact answers_stay _
  · exact .ite (answers_stay _) (answers_done _ _)

theorem answers_groupEntersReducer (g : Fin 8) : Answers (execGroupEntersReducer g s) s := by
  unfold execGroupEntersReducer
  dsimp only
  split
  · exact .ite (answers_done _ _) (answers_stay _)
  · exact answers_stay _

theorem answers_groupSumAdd (g : Fin 8) : Answers (execGroupSumAdd g s) s := by
  unfold execGroupSumAdd
  dsimp only
  split
  · exact answers_stay _
  · exact .ite (answers_done _ _) (answers_stay _)

theorem answers_drainRowRead (g : Fin 8) : Answers (execDrainRowRead g s) s := by
  unfold execDrainRowRead
  dsimp only
  split
  · split
    · exact answers_stay _
    · exact .ite (answers_done _ _) (answers_done _ _)
  · exact answers_stay _

theorem answers_drainRowWrite (g : Fin 8) : Answers (execDrainRowWrite g s) s := by
  unfold execDrainRowWrite
  split
  · exact answers_stay _
  · exact .ite (answers_done _ _) (answers_done _ _)

theorem answers_accLoadRow (g : Fin 8) : Answers (execAccLoadRow g s) s := by
  unfold execAccLoadRow
  dsimp only
  split
  · split
    · exact answers_stay _
    · split
      · exact answers_stay _
      · exact .ite (answers_stay _) (.ite (answers_done _ _) (answers_done _ _))
  · exact answers_stay _

theorem answers_bayFillComplete (g : Fin 8) (col : Bool) : Answers (execBayFillComplete g col s) s := by
  unfold execBayFillComplete
  dsimp only
  split
  · exact answers_stay _
  · exact .ite (answers_done _ _) (answers_done _ _)

theorem answers_xchkIssue (g : Fin 8) : Answers (execXchkIssue g s) s := by
  unfold execXchkIssue
  dsimp only
  split
  · exact .ite (answers_done _ _) (answers_stay _)
  · exact answers_stay _

theorem answers_draughtDescComplete (e : Fin 8) : Answers (execDraughtDescComplete e s) s := by
  unfold execDraughtDescComplete
  split
  · exact answers_stay _
  · exact .ite (answers_stay _) (answers_done _ _)

theorem answers_commit : Answers (execCommit s) s := by
  unfold execCommit
  exact .ite (answers_stay _) (.ite (answers_done _ _) (.ite (answers_done _ _) (answers_stay _)))

theorem answers_loadComplete : Answers (execLoadComplete s) s := by
  unfold execLoadComplete
  exact .ite (answers_done _ _) (answers_stay _)

theorem answers_groupUpdateComplete (n : Fin 12) (group : Fin 256) :
    Answers (execGroupUpdateComplete n group s) s := by
  unfold execGroupUpdateComplete
  split
  next g _ _ =>
    refine .ite (answers_stay _) ?_
    extract_lets s1
    clear_value s1
    split
    · exact answers_done _ _
    · exact .ite (answers_done _ _) (.ite (answers_done _ _) (answers_done _ _))
  next => exact answers_stay _

theorem answers_chunkSend (n : Fin 12) (group : Fin 256) (kind : Fin 3) (chunk : Nat) :
    Answers (execChunkSend n group kind chunk s) s := by
  unfold execChunkSend
  refine .ite (answers_stay _) ?_
  extract_lets t
  clear_value t
  split
  · exact answers_done _ _
  · exact answers_done _ _

theorem answers_hbmRead (addr : Nat) (upset : List Byte) (flags : BitVec 16) :
    Answers (execHbmRead addr upset flags s) s := by
  unfold execHbmRead
  split
  · exact answers_stay _
  · exact answers_done _ _

theorem answers_hbmWrite (addr : Nat) (data : List Byte) (poison : Bool) :
    Answers (execHbmWrite addr data poison s) s := by
  unfold execHbmWrite
  split
  · exact answers_stay _
  · exact .ite (answers_stay _) (answers_done _ _)

theorem answers_correctionWriteBack (n : Fin 12) (line : Nat) :
    Answers (execCorrectionWriteBack n line s) s := by
  unfold execCorrectionWriteBack
  split
  · exact answers_stay _
  · exact answers_done _ _

theorem answers_wcEntryFinish (unit : Fin 20) (line : Nat) : Answers (execWcEntryFinish unit line s) s := by
  unfold execWcEntryFinish
  split
  · exact answers_stay _
  · refine .ite (answers_stay _) ?_
    split <;> exact answers_done _ _

theorem answers_checkLineEvict (unit : Fin 20) (group : Nat) : Answers (execCheckLineEvict unit group s) s := by
  unfold execCheckLineEvict
  refine .ite (answers_stay _) ?_
  dsimp only
  split
  · exact answers_done _ _
  · exact answers_done _ _

theorem answers_refresh (n : Fin 12) (channel : Fin 32) (hot : Bool) :
    Answers (execRefresh n channel hot s) s := by
  unfold execRefresh
  exact .ite (answers_done _ _) (answers_stay _)

theorem answers_stackFault (what : ServiceFault) : Answers (execStackFault what s) s := by
  unfold execStackFault
  refine .ite (answers_stay _) ?_
  split <;> exact answers_done _ _

theorem answers_stashRead (addr : Nat) (upset : List Byte) (crcFails : Fin 5) :
    Answers (execStashRead addr upset crcFails s) s := by
  unfold execStashRead
  split
  · exact answers_stay _
  · exact .ite (answers_done _ _) (answers_done _ _)

theorem answers_stashWrite (addr : Nat) (data : List Byte) (poison : Bool) (crcFails : Fin 5) :
    Answers (execStashWrite addr data poison crcFails s) s := by
  unfold execStashWrite
  split
  · exact answers_stay _
  · exact .ite (answers_stay _) (.ite (answers_done _ _) (answers_done _ _))

theorem answers_flitReceive (l : Fin 36) (wire : List Byte) : Answers (execFlitReceive l wire s) s := by
  unfold execFlitReceive
  exact .ite (answers_stay _) (.ite (answers_done _ _) (.ite (answers_done _ _) (answers_done _ _)))

theorem answers_nak (l : Fin 36) (ack : BitVec 24) : Answers (execNak l ack s) s := by
  unfold execNak
  exact .ite (answers_stay _) (.ite (answers_done _ _) (answers_done _ _))

theorem answers_packetForward (l : Fin 36) (pkt : Packet) : Answers (execPacketForward l pkt s) s := by
  unfold execPacketForward
  refine .ite (answers_stay _) ?_
  extract_lets _ s1
  clear_value s1
  refine .ite (answers_done _ _) (.ite (answers_done _ _) ?_)
  dsimp only
  split
  · exact answers_done _ _
  · exact answers_done _ _

theorem answers_reportResend : Answers (execReportResend s) s := by
  unfold execReportResend
  exact .ite (answers_done _ _) (answers_stay _)

theorem answers_settleWindowClose : Answers (execSettleWindowClose s) s := by
  unfold execSettleWindowClose
  split
  · exact .ite (answers_done _ _) (answers_stay _)
  · exact answers_stay _

theorem answers_heartbeatSend : Answers (execHeartbeatSend s) s := by
  unfold execHeartbeatSend
  exact .ite (answers_done _ _) (answers_stay _)

theorem answers_pairBoundExpiry : Answers (execPairBoundExpiry s) s := by
  unfold execPairBoundExpiry
  exact .ite (answers_done _ _) (.ite (answers_done _ _) (answers_stay _))

theorem answers_sessionExpiry (p : Path) : Answers (execSessionExpiry p s) s := by
  unfold execSessionExpiry
  split
  · split
    · exact .ite (answers_done _ _) (answers_stay _)
    · exact answers_stay _
  · exact answers_stay _

theorem answers_unlockComplete : Answers (execUnlockComplete s) s := by
  unfold execUnlockComplete
  refine .ite (answers_stay _) ?_
  dsimp only
  split <;> exact answers_done _ _

theorem answers_ingestBufferReady : Answers (execIngestBufferReady s) s := by
  unfold execIngestBufferReady
  split
  · exact answers_stay _
  · split
    · split
      · exact answers_stay _
      · split <;> exact answers_done _ _
    · exact answers_stay _

theorem answers_resetRelease (twin : Bool) : Answers (execResetRelease twin s) s := by
  unfold execResetRelease
  exact .ite (.ite (answers_done _ _) (answers_stay _)) (.ite (answers_done _ _) (answers_stay _))

theorem answers_thermalTrip (sensor : Fin 12) (temp : Int) : Answers (execThermalTrip sensor temp s) s := by
  unfold execThermalTrip
  exact .ite (answers_stay _) (.ite (answers_done _ _) (answers_done _ _))

theorem answers_resetTake : Answers (execResetTake s) s := by
  unfold execResetTake
  split
  next => exact answers_stay _
  next t _ =>
    refine .ite (answers_stay _) ?_
    dsimp only
    split
    · exact .ite (answers_done _ _) (answers_done _ _)
    · exact .ite (answers_stay _) (answers_done _ _)

theorem answers_phase1 (env : Phase1Env) : Answers (execPhase1 env s) s := by
  unfold execPhase1
  split
  · exact answers_stay _
  · exact answers_done _ _

theorem answers_phase2 (env : Phase2Env) : Answers (execPhase2 env s) s := by
  unfold execPhase2
  refine .ite (answers_stay _) ?_
  exact .ite (answers_done _ _) (.ite (answers_done _ _) (.ite (answers_done _ _) (answers_done _ _)))

theorem answers_phase3 (straps : Straps) : Answers (execPhase3 straps s) s := by
  unfold execPhase3
  exact .ite (answers_stay _) (.ite (answers_done _ _) (answers_done _ _))

theorem answers_phase4 (env : Phase4Env) : Answers (execPhase4 env s) s := by
  unfold execPhase4
  refine .ite (answers_stay _) ?_
  extract_lets s1 src s2
  clear_value s2 src
  split
  · split
    · exact .ite (answers_done _ _) (answers_done _ _)
    · exact answers_done _ _
  · refine .ite (answers_done _ _) (.ite (answers_done _ _) ?_)
    exact .ite (answers_done _ _) (.ite (answers_done _ _) (answers_done _ _))
  · split
    · exact answers_done _ _
    · exact answers_done _ _

theorem answers_phase5 (env : Phase5Env) : Answers (execPhase5 env s) s := by
  unfold execPhase5
  exact .ite (answers_stay _) (.ite (answers_done _ _) (.ite (answers_done _ _) (answers_done _ _)))

theorem answers_phase6 (env : Phase6Env) : Answers (execPhase6 env s) s := by
  unfold execPhase6
  exact .ite (answers_stay _) (.ite (answers_done _ _) (.ite (answers_done _ _) (answers_done _ _)))

theorem answers_phase7 (env : Phase7Env) : Answers (execPhase7 env s) s := by
  unfold execPhase7
  exact .ite (answers_stay _) (.ite (answers_done _ _) (answers_done _ _))

theorem answers_phase8 : Answers (execPhase8 s) s := by
  unfold execPhase8
  refine .ite (answers_stay _) ?_
  split <;> exact answers_done _ _

theorem answers_phaseBoundExpiry : Answers (execPhaseBoundExpiry s) s := by
  unfold execPhaseBoundExpiry
  split
  · refine .ite (answers_stay _) (.ite (answers_done _ _) ?_)
    split
    · exact answers_done _ _
    · exact answers_stay _
  · exact answers_stay _

theorem answers_failedBringUpWaitExpiry : Answers (execFailedBringUpWaitExpiry s) s := by
  unfold execFailedBringUpWaitExpiry
  split
  · exact .ite (answers_done _ _) (answers_stay _)
  · exact answers_stay _

theorem answers_functionLevelReset (fn : Fin 2) : Answers (execFunctionLevelReset fn s) s := by
  unfold execFunctionLevelReset
  exact .ite (answers_stay _) (answers_done _ _)

theorem answers_routineFlush : Answers (execRoutineFlush s) s := by
  unfold execRoutineFlush
  split
  · exact .ite (answers_stay _) (answers_done _ _)
  · exact answers_stay _

theorem answers_seqMarkWriteEnd : Answers (execSeqMarkWriteEnd s) s := by
  unfold execSeqMarkWriteEnd
  split
  · exact answers_stay _
  · exact .ite (answers_stay _) (answers_done _ _)

theorem answers_measurementComplete (m : Measurement) : Answers (execMeasurementComplete m s) s := by
  unfold execMeasurementComplete
  exact .ite (.ite (answers_done _ _) (answers_done _ _)) (answers_stay _)

theorem answers_avsSettled (vread : Nat) : Answers (execAvsSettled vread s) s := by
  unfold execAvsSettled
  split
  · exact .ite (answers_done _ _) (answers_stay _)
  · exact answers_stay _

theorem answers_avsSettleTimeout (vread : Nat) : Answers (execAvsSettleTimeout vread s) s := by
  unfold execAvsSettleTimeout
  split
  · exact .ite (answers_done _ _) (answers_stay _)
  · exact answers_stay _

theorem answers_eddyOperationComplete (c : Fin 4) : Answers (execEddyOperationComplete c s) s := by
  unfold execEddyOperationComplete
  split
  · exact answers_stay _
  · refine .ite (answers_stay _) ?_
    refine .ite ?_ ?_
    · dsimp only
      split
      · exact answers_stay _
      · split
        · exact answers_stay _
        · exact .ite (answers_done _ _) (answers_done _ _)
    · refine .ite ?_ (answers_done _ _)
      split
      · exact answers_stay _
      · exact .ite (answers_done _ _) (answers_stay _)

theorem answers_copyOperationComplete (c : Fin 4) : Answers (execCopyOperationComplete c s) s := by
  unfold execCopyOperationComplete
  split
  · exact answers_stay _
  · exact answers_done _ _

theorem answers_referenceClockLoss (clock : RefClock) : Answers (execReferenceClockLoss clock s) s := by
  unfold execReferenceClockLoss
  split <;> exact answers_done _ _

end

/-- Every command but a test access instruction (R382) has had its effect, or nothing happens. -/
theorem exec_answers (i : Instr) (s : State) (h : ∀ op, i ≠ .privateTestInstruction op) : Answers (exec i s) s := by
  cases i
  all_goals unfold exec
  case registerWrite | loWrite | hiWrite => exact answers_formWrite _ _ _ _ _
  case loRead | hiRead => exact .ite (answers_pathRead _ _ _) (answers_badForm _ _ _ _)
  case vioStatusClear | hpApertureWrite | mbRegWrite | perfClearCores | perfClearDraught | perfClearMemory |
      perfClearStash | perfClearLinks | perfClearSlipstream | perfClearViolations | veerHistSelWrite | rstHistSelWrite
      | hltCanarySelWrite =>
    exact answers_pathWrite _ _ _ _
  case bar2Read => exact answers_bar2Read _ _ _ _
  case bar2Write | stagingLengthWrite => exact answers_bar2Write _ _ _ _
  case mbRegRead => exact answers_pathRead _ _ _
  case mbLastStatus | mbBadCommand | mbPecError | clockLowTimeout | laneSpare | ackTimeout | retrainComplete |
      pinReset | twinReset | phase9 | pwrFail =>
    exact .ite (answers_stay _) (answers_done _ _)
  case alertResponse | localFence | fenceBoundExpiry | stepEndSend | twinSilent | shard | restoreChunk |
      watchdogExpiry | thermalTripRelease | pwrFailRise | faultFlushEnd | recordAllowanceRise | measurementStart |
      tempWarn | linkRetrainFailure | tempWarnRearm =>
    exact .ite (answers_done _ _) (answers_stay _)
  case fetchOperation => exact answers_fetchStep _ _ _
  case nop | endOp | tile | gather | scatter | merge | compact | expand | eddyTile | predict | verify | tcopy | pcopy
      | copy | vecFma | vecSum | vecDot | vecSelect | vecDropout | route | vaneSignal | vaneWait | vaneTest | loopSet
      | loopNext | branchVane | jump =>
    exact answers_issue _ _ _ _ _
  case endComplete => exact answers_endComplete _ _ _
  case fillRow | fillCol | draught => exact .ite (answers_fetchStep _ _ _) (answers_stay _)
  case predictComplete => exact answers_predictComplete _ _
  case convert | vecFunc => exact answers_vec1 _ _ _ _ _
  case vecAdd | vecSub | vecMul => exact answers_vec2 _ _ _ _ _
  case vecMax | vecMin => exact answers_vecCompare _ _ _ _ _
  case vectorOperationComplete => exact answers_vectorOperationComplete _ _
  case dispatchPair => exact answers_dispatchPair _ _
  case routeComplete => exact answers_routeComplete _ _
  case vaneSignalTakesEffect => exact answers_vaneSignalTakesEffect _ _
  case waitBoundExpiry => exact answers_waitBoundExpiry _ _ _
  case galeBroadcast => exact answers_galeBroadcast _ _
  case galeStall => exact answers_galeStall _ _
  case groupEntersReducer => exact answers_groupEntersReducer _ _
  case groupSumAdd => exact answers_groupSumAdd _ _
  case drainRowRead => exact answers_drainRowRead _ _
  case drainRowWrite => exact answers_drainRowWrite _ _
  case accLoadRow => exact answers_accLoadRow _ _
  case bayFillComplete => exact answers_bayFillComplete _ _ _
  case xchkIssue => exact answers_xchkIssue _ _
  case xchkRowCompare => exact answers_xchkRowCompare _ _
  case move | mxStore | compress => exact answers_startItem _ _ _ _
  case draughtDescComplete => exact answers_draughtDescComplete _ _
  case commit => exact answers_commit _
  case loadComplete => exact answers_loadComplete _
  case groupUpdateComplete => exact answers_groupUpdateComplete _ _ _
  case chunkSend => exact answers_chunkSend _ _ _ _ _
  case dataFrame | chunkEnd | chunkAck | chunkNak | stepEnd | stepAck | abortFrame =>
    exact answers_takesFrame _ _ _ _ _
  case hbmRead => exact answers_hbmRead _ _ _ _
  case hbmWrite => exact answers_hbmWrite _ _ _ _
  case correctionWriteBack => exact answers_correctionWriteBack _ _ _
  case wcEntryFinish => exact answers_wcEntryFinish _ _ _
  case checkLineEvict => exact answers_checkLineEvict _ _ _
  case refresh => exact answers_refresh _ _ _ _
  case stackFault => exact answers_stackFault _ _
  case stashRead => exact answers_stashRead _ _ _ _
  case stashWrite => exact answers_stashWrite _ _ _ _ _
  case flitReceive => exact answers_flitReceive _ _ _
  case nak => exact answers_nak _ _ _
  case packetForward => exact answers_packetForward _ _ _
  case writePacket | writeAck | readReq | readData | errorPacket | peerRegRead | peerRegWrite | regResp | heartbeat =>
    exact answers_takes _ _ _ _
  case signalPacket | fenceReport | fenceClose | memberGrant | memberDeny => exact answers_takesFence _ _ _ _
  case report | memberReqAttach | memberReqDetach | memberReqTakeover | entropyFail | extest | clamp | highz |
      extestPulse | extestTrain | samplePreload | idcode | bypass | powerOnReset | supplyMonitorReset | hpPerst |
      pcieLinkLoss | hpPerstRelease | twinRstOutRelease =>
    exact answers_done _ _
  case reportResend => exact answers_reportResend _
  case settleWindowClose => exact answers_settleWindowClose _
  case retryOrder | retryDone | haltOrder => exact .ite (answers_takesFence _ _ _ _) (answers_stay _)
  case attach | detach | nonce | session | endSession | ship | fuseOwner | keyLoad | keyDelete | policy | endorse |
      debugUnlock | submit | coldReset | warmReset | coreReset =>
    exact answers_commandRow _ _ _ _ _ _
  case heartbeatSend => exact answers_heartbeatSend _
  case hello | reply | confirm | finish => exact answers_takePair _ _ _ _ _
  case pairBoundExpiry => exact answers_pairBoundExpiry _
  case sessionExpiry => exact answers_sessionExpiry _ _
  case unlockComplete => exact answers_unlockComplete _
  case ingestBufferReady => exact answers_ingestBufferReady _
  case privateTestInstruction => exact absurd rfl (h _)
  case resetRelease => exact answers_resetRelease _ _
  case thermalTrip => exact answers_thermalTrip _ _ _
  case resetTake => exact answers_resetTake _
  case phase1 => exact answers_phase1 _ _
  case phase2 => exact answers_phase2 _ _
  case phase3 => exact answers_phase3 _ _
  case phase4 => exact answers_phase4 _ _
  case phase5 => exact answers_phase5 _ _
  case phase6 => exact answers_phase6 _ _
  case phase7 => exact answers_phase7 _ _
  case phase8 => exact answers_phase8 _
  case phaseBoundExpiry => exact answers_phaseBoundExpiry _
  case failedBringUpWaitExpiry => exact answers_failedBringUpWaitExpiry _
  case functionLevelReset => exact answers_functionLevelReset _ _
  case routineFlush => exact answers_routineFlush _
  case seqMarkWriteEnd => exact answers_seqMarkWriteEnd _
  case evrCursorWrite => exact answers_evrCursorWrite _ _ _ _
  case measurementComplete => exact answers_measurementComplete _ _
  case avsSettled => exact answers_avsSettled _ _
  case avsSettleTimeout => exact answers_avsSettleTimeout _ _
  case eddyOperationComplete => exact answers_eddyOperationComplete _ _
  case copyOperationComplete => exact answers_copyOperationComplete _ _
  case referenceClockLoss => exact answers_referenceClockLoss _ _

/-- A test access instruction answers so as well, unless it reaches internal state while DEBUG_OPEN is set (R382). -/
theorem exec_privateTestInstruction (op : TestOp) (s : State) :
    Answers (exec (.privateTestInstruction op) s) s ∨
      s.sec.debugOpen = true ∧ (∃ n, op = .internal n) ∧
        exec (.privateTestInstruction op) s = .refused .testAccessNotDescribed := by
  simp only [exec, execPrivateTestInstruction]
  cases s.sec.debugOpen
  case false => exact .inl (answers_stay s)
  case true =>
    cases op
    case reset => exact .inl (answers_done _ _)
    case internal n => exact .inr ⟨rfl, ⟨n, rfl⟩, rfl⟩

/-! A device tick. -/

/-- What a device tick counts, before a programming of fuses may end. -/
def State.counted (s : State) : State :=
  let s := (allFin 12).foldl State.tickFoehn (s.modDev (fun d => { d with tick := d.tick + 1 }))
  let s := if s.storeLagging then s.modSlip (fun x => { x with bank := x.bank.add 7 1 }) else s
  (s.modHlt (fun h => h.tickRate s.now)).modEvr Evr.beginWrite

theorem tick_eq (s : State) : tick s = s.counted.tickFuse := rfl

theorem State.tickFoehn_evr (s : State) (n : Fin 12) : (s.tickFoehn n).evr = s.evr := by
  unfold State.tickFoehn
  dsimp only
  split <;> rfl

theorem State.foldl_tickFoehn_evr (ns : List (Fin 12)) : ∀ s : State, (ns.foldl State.tickFoehn s).evr = s.evr := by
  induction ns with
  | nil => exact fun _ => rfl
  | cons n ns ih => exact fun s => (ih _).trans (s.tickFoehn_evr n)

theorem State.counted_evr (s : State) : s.counted.evr = s.evr.beginWrite := by
  unfold State.counted
  extract_lets t u
  have ht : t.evr = s.evr := State.foldl_tickFoehn_evr _ _
  have hu : u.evr = t.evr := by simp only [u, apply_ite State.evr, State.modSlip_evr, ite_self]
  rw [State.modEvr_evr, State.modHlt_evr, hu, ht]

theorem Evr.beginWrite_queue (e : Evr) : e.beginWrite.queue = e.queue := by
  unfold Evr.beginWrite
  split
  · split <;> rfl
  · rfl

theorem State.tickFuse_recordsMade {s : State} (h : s.RecordsMade) : s.tickFuse.RecordsMade := by
  unfold State.tickFuse
  split
  · split
    · rw [State.RecordsMade, close_evr, Evr.close_queue]
    · exact h
  · exact h

/-- A device tick closes a handshake only where a programming of fuses ends; otherwise it asks for no record. -/
theorem tick_recordsMade (s : State) (h : s.RecordsMade) : (tick s).RecordsMade := by
  rw [tick_eq]
  refine State.tickFuse_recordsMade ?_
  rw [State.RecordsMade, State.counted_evr, Evr.beginWrite_queue]
  exact h

theorem exec_tidies (i : Instr) (s : State) : Tidies (exec i s) s := by
  by_cases h : ∃ op, i = .privateTestInstruction op
  · obtain ⟨op, rfl⟩ := h
    rcases exec_privateTestInstruction op s with h | ⟨-, -, h⟩
    · exact h.tidies
    · rw [h]
      exact tidies_refused _ _
  · exact (exec_answers i s (fun op hi => h ⟨op, hi⟩)).tidies

/-- Settles O6: every command has its effect or nothing happens, and a test access instruction (R382) is refused only where it
reaches internal state. -/
theorem onlyTestAccessIsRefused : Obligations.OnlyTestAccessIsRefused := by
  intro i s
  by_cases h : ∃ op, i = .privateTestInstruction op
  · obtain ⟨op, rfl⟩ := h
    rcases exec_privateTestInstruction op s with h | ⟨hopen, ⟨n, rfl⟩, h⟩
    · exact .inl h.next
    · exact .inr ⟨hopen, ⟨n, rfl⟩, h⟩
  · exact .inl (exec_answers i s (fun op hi => h ⟨op, hi⟩)).next

/-- Settles O5: a step ends with a handshake's closing, with nothing done, or with a device tick, which asks for no record. -/
theorem stepMakesEveryRecord : Obligations.StepMakesEveryRecord := by
  intro s t h hs
  unfold step at hs
  split at hs
  next =>
    have ht : tick s = t := Host.Outcome.next.inj hs
    rw [← ht]
    exact tick_recordsMade s h
  next c rest _ =>
    have ht : Tidies (exec c { s with pending := rest }) { s with pending := rest } := exec_tidies c _
    exact ht t hs h

end Sys2Proof.Machine
end

section
/-! SUPPORT. The statements about one step and about the state right after reset. -/

namespace Sys2Proof.Machine

/-- Settles O1. -/
theorem stepRunsFrontCommand : Obligations.StepRunsFrontCommand := by
  intro s c rest h
  simp only [step, h]

/-! Right after reset every indexed part holds its reset value. -/

@[simp] theorem State.reset_core (c : Fin 4) : State.reset.core c = Core.zero := by
  simp [State.core, State.reset, Vector.get_eq_getElem]

@[simp] theorem State.reset_ctx (c : Fin 4) (k : Fin 8) : State.reset.ctx c k = Ctx.idle := by
  change (State.reset.core c).ctxs.get k = _
  simp [Core.zero, Vector.get_eq_getElem]

@[simp] theorem State.reset_stack (n : Fin 12) : State.reset.stack n = Stack.zero := by
  simp [State.stack, State.reset, Vector.get_eq_getElem]

@[simp] theorem State.reset_stc (n : Fin 8) : State.reset.stc n = Stash.zero := by
  simp [State.stc, State.reset, Vector.get_eq_getElem]

@[simp] theorem State.reset_link (l : Fin 36) : State.reset.link l = Link.zero := by
  simp [State.link, State.reset, Vector.get_eq_getElem]

@[simp] theorem State.reset_vane (v : VaneId) : State.reset.vane v = Vane.zero := by
  cases v with
  | core c v =>
    change (State.reset.core c).vanes.get v = _
    simp [Core.zero, Vector.get_eq_getElem]
  | chain v => simp [State.vane, State.reset, Vector.get_eq_getElem]

theorem State.reset_session (i : Fin 2) : State.reset.session i = none := by
  simp [State.session, State.reset, Sec.reset, Vector.get_eq_getElem]

/-- Settles O3: the queues are empty, and no memory lists a byte. -/
theorem resetIsGood : Obligations.ResetIsGood :=
  ⟨rfl, rfl, memory_empty (fun n => by rw [State.reset_stack]; rfl) (fun n => by rw [State.reset_stc]; rfl)
    (fun c => by rw [State.reset_core]; rfl)⟩

/-- Settles O4: each part by its reset value. -/
theorem resetHolds : Obligations.ResetHolds := by
  refine ⟨rfl, rfl, ⟨Taking.powerOn, rfl, rfl, rfl⟩, rfl, rfl, rfl, rfl, fun l => ?_, fun v => ?_, rfl, rfl,
    State.reset_session, rfl, rfl, rfl, fun c k => ?_⟩
  · rw [State.reset_link]; rfl
  · rw [State.reset_vane]; rfl
  · rw [State.reset_ctx]; rfl

end Sys2Proof.Machine
end

section
/-! SUPPORT. Frames: `OnlyChanges` is an equivalence that weakens with its parts, and every update of one part of the state changes
that part alone. A rule `onlyChanges_f` says that `f` changes only the parts listed in its hypothesis, so that `simp` takes the
frame of a composition apart. -/

namespace Sys2Proof.Machine

/-! The relation. -/

section
variable {A B : List Part} {s t u : State}

theorem Part.same_refl (p : Part) (s : State) : p.same s s := by
  cases p <;> simp [Part.same]

theorem Part.same_symm {p : Part} (h : p.same s t) : p.same t s := by
  cases p <;> simp_all [Part.same]

theorem Part.same_trans {p : Part} (h : p.same s t) (k : p.same t u) : p.same s u := by
  cases p <;> simp_all [Part.same]

@[simp] theorem onlyChanges_refl (A : List Part) (s : State) : OnlyChanges A s s := fun p _ => p.same_refl s

theorem OnlyChanges.symm (h : OnlyChanges A s t) : OnlyChanges A t s := fun p hp => Part.same_symm (h p hp)

theorem OnlyChanges.trans (h : OnlyChanges A s t) (k : OnlyChanges A t u) : OnlyChanges A s u :=
  fun p hp => Part.same_trans (h p hp) (k p hp)

theorem OnlyChanges.mono (h : OnlyChanges A s t) (hAB : A ⊆ B) : OnlyChanges B s t := fun p hp => h p (fun hA => hp (hAB hA))

/-- A change within the parts of a frame does not matter to it. -/
theorem frame_of (hAB : A ⊆ B) (h : OnlyChanges A t u) : OnlyChanges B s u ↔ OnlyChanges B s t :=
  ⟨fun k => k.trans (h.mono hAB).symm, fun k => k.trans (h.mono hAB)⟩

@[simp] theorem onlyChanges_ite {c : Prop} [Decidable c] :
    OnlyChanges A s (if c then t else u) ↔ (c → OnlyChanges A s t) ∧ (¬c → OnlyChanges A s u) := by
  split <;> simp_all

theorem onlyChanges_foldl {α : Type} {f : State → α → State} (hf : ∀ t a, OnlyChanges A t (f t a)) (xs : List α) :
    ∀ t, OnlyChanges A t (xs.foldl f t) := by
  induction xs with
  | nil => exact fun t => onlyChanges_refl A t
  | cons a xs ih => exact fun t => (hf t a).trans (ih _)

/-- A fold over a state and something kept beside it. -/
theorem onlyChanges_foldl_fst {α β : Type} {f : State × β → α → State × β} (hf : ∀ z a, OnlyChanges A z.1 (f z a).1) (xs : List α) :
    ∀ z, OnlyChanges A z.1 (xs.foldl f z).1 := by
  induction xs with
  | nil => exact fun z => onlyChanges_refl A z.1
  | cons a xs ih => exact fun z => (hf z a).trans (ih _)

@[simp] theorem onlyChanges_foldl_iff {α : Type} {f : State → α → State} (hf : ∀ t a, OnlyChanges A t (f t a)) (xs : List α) :
    OnlyChanges A s (xs.foldl f t) ↔ OnlyChanges A s t :=
  frame_of (List.Subset.refl A) (onlyChanges_foldl hf xs t)

end

/-! One part written. -/

section
variable {B : List Part} {s t : State}

@[simp] theorem onlyChanges_dev {x : Dev} (h : [.dev] ⊆ B) : OnlyChanges B s { t with dev := x } ↔ OnlyChanges B s t :=
  frame_of h fun p hp => by cases p <;> simp [Part.same, State.ctx, State.core, State.stack, State.stc] at hp ⊢

@[simp] theorem onlyChanges_ports {x : Ports} (h : [.ports] ⊆ B) : OnlyChanges B s { t with ports := x } ↔ OnlyChanges B s t :=
  frame_of h fun p hp => by cases p <;> simp [Part.same, State.ctx, State.core, State.stack, State.stc] at hp ⊢

@[simp] theorem onlyChanges_vio {x : VioLog} (h : [.vio] ⊆ B) : OnlyChanges B s { t with vio := x } ↔ OnlyChanges B s t :=
  frame_of h fun p hp => by cases p <;> simp [Part.same, State.ctx, State.core, State.stack, State.stc] at hp ⊢

@[simp] theorem onlyChanges_gales {x : Vector Gale 8} (h : [.gales] ⊆ B) : OnlyChanges B s { t with gales := x } ↔ OnlyChanges B s t :=
  frame_of h fun p hp => by cases p <;> simp [Part.same, State.ctx, State.core, State.stack, State.stc] at hp ⊢

@[simp] theorem onlyChanges_draughts {x : Vector Draught 8} (h : [.draughts] ⊆ B) :
    OnlyChanges B s { t with draughts := x } ↔ OnlyChanges B s t :=
  frame_of h fun p hp => by cases p <;> simp [Part.same, State.ctx, State.core, State.stack, State.stc] at hp ⊢

@[simp] theorem onlyChanges_chainVanes {x : Vector Vane 64} (h : [.chainVanes] ⊆ B) :
    OnlyChanges B s { t with chainVanes := x } ↔ OnlyChanges B s t :=
  frame_of h fun p hp => by cases p <;> simp [Part.same, State.ctx, State.core, State.stack, State.stc] at hp ⊢

@[simp] theorem onlyChanges_frozen {x : Bool} (h : [.frozen] ⊆ B) : OnlyChanges B s { t with frozen := x } ↔ OnlyChanges B s t :=
  frame_of h fun p hp => by cases p <;> simp [Part.same, State.ctx, State.core, State.stack, State.stc] at hp ⊢

@[simp] theorem onlyChanges_chainBank {x : Bank 3} (h : [.chainBank] ⊆ B) :
    OnlyChanges B s { t with chainBank := x } ↔ OnlyChanges B s t :=
  frame_of h fun p hp => by cases p <;> simp [Part.same, State.ctx, State.core, State.stack, State.stc] at hp ⊢

@[simp] theorem onlyChanges_signals {x : List PSig} (h : [.signals] ⊆ B) :
    OnlyChanges B s { t with signals := x } ↔ OnlyChanges B s t :=
  frame_of h fun p hp => by cases p <;> simp [Part.same, State.ctx, State.core, State.stack, State.stc] at hp ⊢

@[simp] theorem onlyChanges_foehn {x : Vector Foehn 12} (h : [.foehn] ⊆ B) :
    OnlyChanges B s { t with foehn := x } ↔ OnlyChanges B s t :=
  frame_of h fun p hp => by cases p <;> simp [Part.same, State.ctx, State.core, State.stack, State.stc] at hp ⊢

@[simp] theorem onlyChanges_slip {x : Slip} (h : [.slip] ⊆ B) : OnlyChanges B s { t with slip := x } ↔ OnlyChanges B s t :=
  frame_of h fun p hp => by cases p <;> simp [Part.same, State.ctx, State.core, State.stack, State.stc] at hp ⊢

@[simp] theorem onlyChanges_links {x : Vector Link 36} (h : [.links] ⊆ B) :
    OnlyChanges B s { t with links := x } ↔ OnlyChanges B s t :=
  frame_of h fun p hp => by cases p <;> simp [Part.same, State.ctx, State.core, State.stack, State.stc] at hp ⊢

@[simp] theorem onlyChanges_chain {x : ChainSt} (h : [.chain] ⊆ B) : OnlyChanges B s { t with chain := x } ↔ OnlyChanges B s t :=
  frame_of h fun p hp => by cases p <;> simp [Part.same, State.ctx, State.core, State.stack, State.stc] at hp ⊢

@[simp] theorem onlyChanges_sec {x : Sec} (h : [.sec] ⊆ B) : OnlyChanges B s { t with sec := x } ↔ OnlyChanges B s t :=
  frame_of h fun p hp => by cases p <;> simp [Part.same, State.ctx, State.core, State.stack, State.stc] at hp ⊢

@[simp] theorem onlyChanges_rst {x : Rst} (h : [.rst] ⊆ B) : OnlyChanges B s { t with rst := x } ↔ OnlyChanges B s t :=
  frame_of h fun p hp => by cases p <;> simp [Part.same, State.ctx, State.core, State.stack, State.stc] at hp ⊢

@[simp] theorem onlyChanges_hlt {x : Hlt} (h : [.hlt] ⊆ B) : OnlyChanges B s { t with hlt := x } ↔ OnlyChanges B s t :=
  frame_of h fun p hp => by cases p <;> simp [Part.same, State.ctx, State.core, State.stack, State.stc] at hp ⊢

@[simp] theorem onlyChanges_plan {x : Plan} (h : [.plan] ⊆ B) : OnlyChanges B s { t with plan := x } ↔ OnlyChanges B s t :=
  frame_of h fun p hp => by cases p <;> simp [Part.same, State.ctx, State.core, State.stack, State.stc] at hp ⊢

@[simp] theorem onlyChanges_loaded {x : Bool} (h : [.loaded] ⊆ B) : OnlyChanges B s { t with loaded := x } ↔ OnlyChanges B s t :=
  frame_of h fun p hp => by cases p <;> simp [Part.same, State.ctx, State.core, State.stack, State.stc] at hp ⊢

@[simp] theorem onlyChanges_fit {x : Nat × Nat × Nat × Nat × Bool} (h : [.fit] ⊆ B) :
    OnlyChanges B s { t with fit := x } ↔ OnlyChanges B s t :=
  frame_of h fun p hp => by cases p <;> simp [Part.same, State.ctx, State.core, State.stack, State.stc] at hp ⊢

@[simp] theorem onlyChanges_step {x : Nat} (h : [.step] ⊆ B) : OnlyChanges B s { t with step := x } ↔ OnlyChanges B s t :=
  frame_of h fun p hp => by cases p <;> simp [Part.same, State.ctx, State.core, State.stack, State.stc] at hp ⊢

@[simp] theorem onlyChanges_loads {x : List Nat} (h : [.loads] ⊆ B) : OnlyChanges B s { t with loads := x } ↔ OnlyChanges B s t :=
  frame_of h fun p hp => by cases p <;> simp [Part.same, State.ctx, State.core, State.stack, State.stc] at hp ⊢

@[simp] theorem onlyChanges_begun {x : Bool} (h : [.begun] ⊆ B) : OnlyChanges B s { t with begun := x } ↔ OnlyChanges B s t :=
  frame_of h fun p hp => by cases p <;> simp [Part.same, State.ctx, State.core, State.stack, State.stc] at hp ⊢

@[simp] theorem onlyChanges_hostLeaves {x : List Leaf} (h : [.hostLeaves] ⊆ B) :
    OnlyChanges B s { t with hostLeaves := x } ↔ OnlyChanges B s t :=
  frame_of h fun p hp => by cases p <;> simp [Part.same, State.ctx, State.core, State.stack, State.stc] at hp ⊢

@[simp] theorem onlyChanges_loadedChunks {x : List (Nat × Nat × Nat × Nat)} (h : [.loadedChunks] ⊆ B) :
    OnlyChanges B s { t with loadedChunks := x } ↔ OnlyChanges B s t :=
  frame_of h fun p hp => by cases p <;> simp [Part.same, State.ctx, State.core, State.stack, State.stc] at hp ⊢

@[simp] theorem onlyChanges_withheld {x : Bool} (h : [.withheld] ⊆ B) : OnlyChanges B s { t with withheld := x } ↔ OnlyChanges B s t :=
  frame_of h fun p hp => by cases p <;> simp [Part.same, State.ctx, State.core, State.stack, State.stc] at hp ⊢

@[simp] theorem onlyChanges_answer {x : Option (List Byte × Bool)} (h : [.answer] ⊆ B) :
    OnlyChanges B s { t with answer := x } ↔ OnlyChanges B s t :=
  frame_of h fun p hp => by cases p <;> simp [Part.same, State.ctx, State.core, State.stack, State.stc] at hp ⊢

@[simp] theorem onlyChanges_mxScales {x : Tbl Nat} (h : [.mxScales] ⊆ B) :
    OnlyChanges B s { t with mxScales := x } ↔ OnlyChanges B s t :=
  frame_of h fun p hp => by cases p <;> simp [Part.same, State.ctx, State.core, State.stack, State.stc] at hp ⊢

@[simp] theorem onlyChanges_fresh {x : Nat} (h : [.fresh] ⊆ B) : OnlyChanges B s { t with fresh := x } ↔ OnlyChanges B s t :=
  frame_of h fun p hp => by cases p <;> simp [Part.same, State.ctx, State.core, State.stack, State.stc] at hp ⊢

@[simp] theorem onlyChanges_keepHeld {x : Option KeepImage} (h : [.keepHeld] ⊆ B) :
    OnlyChanges B s { t with keepHeld := x } ↔ OnlyChanges B s t :=
  frame_of h fun p hp => by cases p <;> simp [Part.same, State.ctx, State.core, State.stack, State.stc] at hp ⊢

@[simp] theorem onlyChanges_chainOverflowSeen {x : Bool} (h : [.chainSeen] ⊆ B) :
    OnlyChanges B s { t with chainOverflowSeen := x } ↔ OnlyChanges B s t :=
  frame_of h fun p hp => by cases p <;> simp [Part.same, State.ctx, State.core, State.stack, State.stc] at hp ⊢

@[simp] theorem onlyChanges_chainDiscardSeen {x : Bool} (h : [.chainSeen] ⊆ B) :
    OnlyChanges B s { t with chainDiscardSeen := x } ↔ OnlyChanges B s t :=
  frame_of h fun p hp => by cases p <;> simp [Part.same, State.ctx, State.core, State.stack, State.stc] at hp ⊢

@[simp] theorem onlyChanges_evr {x : Evr} : OnlyChanges B s { t with evr := x } ↔ OnlyChanges B s t :=
  frame_of (List.nil_subset B) fun p _ => by cases p <;> simp [Part.same, State.ctx, State.core, State.stack, State.stc]

/-- A change of the reset being taken alone is none of the parts. -/
theorem onlyChanges_rst_taking {r : Rst} (h : { r with taking := none } = { t.rst with taking := none }) :
    OnlyChanges B s { t with rst := r } ↔ OnlyChanges B s t :=
  frame_of (List.nil_subset B) fun p _ => by
    cases p
    case rst => exact h
    all_goals simp [Part.same, State.ctx, State.core, State.stack, State.stc]

/-! The updates of one part. -/

@[simp] theorem onlyChanges_modDev {f : Dev → Dev} (h : [.dev] ⊆ B) : OnlyChanges B s (t.modDev f) ↔ OnlyChanges B s t :=
  onlyChanges_dev h
@[simp] theorem onlyChanges_modPorts {f : Ports → Ports} (h : [.ports] ⊆ B) :
    OnlyChanges B s (t.modPorts f) ↔ OnlyChanges B s t := onlyChanges_ports h
@[simp] theorem onlyChanges_modChain {f : ChainSt → ChainSt} (h : [.chain] ⊆ B) :
    OnlyChanges B s (t.modChain f) ↔ OnlyChanges B s t := onlyChanges_chain h
@[simp] theorem onlyChanges_modSec {f : Sec → Sec} (h : [.sec] ⊆ B) : OnlyChanges B s (t.modSec f) ↔ OnlyChanges B s t :=
  onlyChanges_sec h
@[simp] theorem onlyChanges_modRst {f : Rst → Rst} (h : [.rst] ⊆ B) : OnlyChanges B s (t.modRst f) ↔ OnlyChanges B s t :=
  onlyChanges_rst h
@[simp] theorem onlyChanges_modEvr {f : Evr → Evr} : OnlyChanges B s (t.modEvr f) ↔ OnlyChanges B s t := onlyChanges_evr
@[simp] theorem onlyChanges_modHlt {f : Hlt → Hlt} (h : [.hlt] ⊆ B) : OnlyChanges B s (t.modHlt f) ↔ OnlyChanges B s t :=
  onlyChanges_hlt h
@[simp] theorem onlyChanges_modSlip {f : Slip → Slip} (h : [.slip] ⊆ B) : OnlyChanges B s (t.modSlip f) ↔ OnlyChanges B s t :=
  onlyChanges_slip h
@[simp] theorem onlyChanges_modGale {g : Fin 8} {f : Gale → Gale} (h : [.gales] ⊆ B) :
    OnlyChanges B s (t.modGale g f) ↔ OnlyChanges B s t := onlyChanges_gales h
@[simp] theorem onlyChanges_modDrt {e : Fin 8} {f : Draught → Draught} (h : [.draughts] ⊆ B) :
    OnlyChanges B s (t.modDrt e f) ↔ OnlyChanges B s t := onlyChanges_draughts h
@[simp] theorem onlyChanges_modFhn {n : Fin 12} {f : Foehn → Foehn} (h : [.foehn] ⊆ B) :
    OnlyChanges B s (t.modFhn n f) ↔ OnlyChanges B s t := onlyChanges_foehn h
@[simp] theorem onlyChanges_modLink {l : Fin 36} {f : Link → Link} (h : [.links] ⊆ B) :
    OnlyChanges B s (t.modLink l f) ↔ OnlyChanges B s t := onlyChanges_links h

/-! A core: its contexts, its store with the poison flags, and the rest of it are parts of their own. -/

theorem modCore_onlyChanges {c : Fin 4} {f : Core → Core} (hx : .ctxs ∈ B ∨ (f (t.core c)).ctxs = (t.core c).ctxs)
    (hs : .stores ∈ B ∨ (f (t.core c)).store = (t.core c).store ∧ (f (t.core c)).poison = (t.core c).poison)
    (hc : .cores ∈ B ∨ (f (t.core c)).rest = (t.core c).rest) : OnlyChanges B t (t.modCore c f) := by
  intro p hp
  cases p
  case ctxs =>
    intro d k
    exact t.ctx_modCore_of c d k f (hx.resolve_left hp)
  case cores =>
    intro d
    rw [State.core_modCore]
    split
    · next h => rw [h, hc.resolve_left hp]
    · rfl
  case stores =>
    intro d
    rw [State.core_modCore]
    split
    · next h => rw [h]; exact hs.resolve_left hp
    · exact ⟨rfl, rfl⟩
  all_goals simp [Part.same, State.stack, State.stc]

@[simp] theorem onlyChanges_modCore {c : Fin 4} {f : Core → Core} (hx : .ctxs ∈ B ∨ (f (t.core c)).ctxs = (t.core c).ctxs)
    (hs : .stores ∈ B ∨ (f (t.core c)).store = (t.core c).store ∧ (f (t.core c)).poison = (t.core c).poison)
    (hc : .cores ∈ B ∨ (f (t.core c)).rest = (t.core c).rest) : OnlyChanges B s (t.modCore c f) ↔ OnlyChanges B s t :=
  frame_of (List.Subset.refl B) (modCore_onlyChanges hx hs hc)

@[simp] theorem onlyChanges_modCtx {c : Fin 4} {k : Fin 8} {f : Ctx → Ctx} (h : [.ctxs] ⊆ B) :
    OnlyChanges B s (t.modCtx c k f) ↔ OnlyChanges B s t :=
  onlyChanges_modCore (.inl (h (List.mem_singleton.2 rfl))) (.inr ⟨rfl, rfl⟩) (.inr rfl)

@[simp] theorem onlyChanges_modEddy {c : Fin 4} {f : Eddy → Eddy} (h : [.cores] ⊆ B) :
    OnlyChanges B s (t.modEddy c f) ↔ OnlyChanges B s t :=
  onlyChanges_modCore (.inr rfl) (.inr ⟨rfl, rfl⟩) (.inl (h (List.mem_singleton.2 rfl)))

@[simp] theorem onlyChanges_modVeer {c : Fin 4} {f : Veer → Veer} (h : [.cores] ⊆ B) :
    OnlyChanges B s (t.modVeer c f) ↔ OnlyChanges B s t :=
  onlyChanges_modCore (.inr rfl) (.inr ⟨rfl, rfl⟩) (.inl (h (List.mem_singleton.2 rfl)))

/-! A controller: the bytes it holds, and the rest of it. -/

theorem modStack_onlyChanges {n : Fin 12} {f : Stack → Stack} (hr : .stacks ∈ B ∨ (f (t.stack n)).rest = (t.stack n).rest)
    (hb : .stackBytes ∈ B ∨ (f (t.stack n)).arr.bytes = (t.stack n).arr.bytes) : OnlyChanges B t (t.modStack n f) := by
  intro p hp
  rcases eq_or_ne p .stacks with rfl | hne
  · intro m
    rw [State.stack_modStack]
    split
    · next h => rw [h, hr.resolve_left hp]
    · rfl
  cases p
  case stackBytes =>
    intro m
    rw [State.stack_modStack]
    split
    · next h => rw [h, hb.resolve_left hp]
    · rfl
  all_goals simp [Part.same, State.ctx, State.core, State.stc] at hne ⊢

@[simp] theorem onlyChanges_modStack {n : Fin 12} {f : Stack → Stack}
    (hr : .stacks ∈ B ∨ (f (t.stack n)).rest = (t.stack n).rest)
    (hb : .stackBytes ∈ B ∨ (f (t.stack n)).arr.bytes = (t.stack n).arr.bytes) :
    OnlyChanges B s (t.modStack n f) ↔ OnlyChanges B s t :=
  frame_of (List.Subset.refl B) (modStack_onlyChanges hr hb)

theorem modStc_onlyChanges {n : Fin 8} {f : Stash → Stash} (hr : .stashes ∈ B ∨ (f (t.stc n)).rest = (t.stc n).rest)
    (hb : .stashBytes ∈ B ∨ (f (t.stc n)).arr.bytes = (t.stc n).arr.bytes) : OnlyChanges B t (t.modStc n f) := by
  intro p hp
  cases p
  case stashes =>
    intro m
    rw [State.stc_modStc]
    split
    · next h => rw [h, hr.resolve_left hp]
    · rfl
  case stashBytes =>
    intro m
    rw [State.stc_modStc]
    split
    · next h => rw [h, hb.resolve_left hp]
    · rfl
  all_goals simp [Part.same, State.ctx, State.core, State.stack]

@[simp] theorem onlyChanges_modStc {n : Fin 8} {f : Stash → Stash}
    (hr : .stashes ∈ B ∨ (f (t.stc n)).rest = (t.stc n).rest)
    (hb : .stashBytes ∈ B ∨ (f (t.stc n)).arr.bytes = (t.stc n).arr.bytes) :
    OnlyChanges B s (t.modStc n f) ↔ OnlyChanges B s t :=
  frame_of (List.Subset.refl B) (modStc_onlyChanges hr hb)

/-! Records, the reset being taken and violations. -/

@[simp] theorem onlyChanges_ask {type unit : Nat} {payload : List Byte} :
    OnlyChanges B s (t.ask type unit payload) ↔ OnlyChanges B s t := onlyChanges_modEvr

@[simp] theorem onlyChanges_askBare {type : Nat} {payload : List Byte} :
    OnlyChanges B s (t.askBare type payload) ↔ OnlyChanges B s t := onlyChanges_modEvr

@[simp] theorem onlyChanges_commandRecord {block tag : Nat} {p : Path} {a : Answer} :
    OnlyChanges B s (t.commandRecord block p tag a) ↔ OnlyChanges B s t := onlyChanges_ask

@[simp] theorem onlyChanges_recognise {src : Nat} {scope : Scope} :
    OnlyChanges B s (t.recognise src scope) ↔ OnlyChanges B s t := by
  obtain ⟨k, hk⟩ := recognise_rst t src scope
  exact onlyChanges_rst_taking (r := (t.recognise src scope).rst) (by rw [hk])

@[simp] theorem onlyChanges_escalate : OnlyChanges B s t.escalate ↔ OnlyChanges B s t := onlyChanges_recognise

@[simp] theorem onlyChanges_atRecordLimit {before : Nat} : OnlyChanges B s (t.atRecordLimit before) ↔ OnlyChanges B s t := by
  unfold State.atRecordLimit
  split
  · exact onlyChanges_escalate
  · rfl

@[simp] theorem onlyChanges_close : OnlyChanges B s (close t) ↔ OnlyChanges B s t := by
  unfold close
  rw [onlyChanges_atRecordLimit, onlyChanges_evr]

@[simp] theorem onlyChanges_violate {v : Vio} (h : [.vio] ⊆ B) : OnlyChanges B s (t.violate v) ↔ OnlyChanges B s t := by
  simp [State.violate, h]

@[simp] theorem onlyChanges_violateAll {vs : List Vio} (h : [.vio] ⊆ B) :
    OnlyChanges B s (t.violateAll vs) ↔ OnlyChanges B s t := by
  simp [State.violateAll, h]

@[simp] theorem onlyChanges_secAnswer {p : Path} {tag : Nat} {a : Answer} {busy : Bool} (h : [.sec] ⊆ B) :
    OnlyChanges B s (t.secAnswer p tag a busy) ↔ OnlyChanges B s t := by
  simp [State.secAnswer, h]

end
end Sys2Proof.Machine
end

section
/-! SUPPORT. Frames of the reads and writes of memory: what the controllers and the core stores let change. -/

namespace Sys2Proof.Machine

/-! One controller: what keeps its bytes. -/

section
variable {m m' : LineMem}

theorem LineMem.Keeps.bytes (k : m.Keeps m') : m'.bytes = m.bytes := by
  obtain ⟨hd, hu, -, hw⟩ := k
  simp only [LineMem.bytes, hd, hu, hw]

theorem LineMem.read_bytes (m : LineMem) (cr : Option Crypt) (code line max : Nat) :
    (m.read cr code line max).1.bytes = m.bytes := by
  have hk := ((m.needCheck_keeps line max).trans (turn_keeps _ (groupOf line) false)).bytes
  unfold LineMem.read
  dsimp only
  generalize ((m.needCheck line max).1.turn (groupOf line) false).1 = x at hk ⊢
  rw [← hk]
  split <;> split <;> rfl

end

section
variable {B : List Part} {s t : State}

/-! The vectors of cores and controllers written as a whole. -/

theorem cores_onlyChanges {x : Vector Core 4} (hx : .ctxs ∈ B ∨ ∀ c, (x.get c).ctxs = (t.core c).ctxs)
    (hs : .stores ∈ B ∨ ∀ c, (x.get c).store = (t.core c).store ∧ (x.get c).poison = (t.core c).poison)
    (hc : .cores ∈ B ∨ ∀ c, (x.get c).rest = (t.core c).rest) : OnlyChanges B t { t with cores := x } := by
  intro p hp
  cases p
  case ctxs => exact fun c k => congrArg (Vector.get · k) ((hx.resolve_left hp) c)
  case stores => exact hs.resolve_left hp
  case cores => exact hc.resolve_left hp
  all_goals simp [Part.same, State.stack, State.stc]

@[simp] theorem onlyChanges_cores {x : Vector Core 4} (hx : .ctxs ∈ B ∨ ∀ c, (x.get c).ctxs = (t.core c).ctxs)
    (hs : .stores ∈ B ∨ ∀ c, (x.get c).store = (t.core c).store ∧ (x.get c).poison = (t.core c).poison)
    (hc : .cores ∈ B ∨ ∀ c, (x.get c).rest = (t.core c).rest) :
    OnlyChanges B s { t with cores := x } ↔ OnlyChanges B s t :=
  frame_of (List.Subset.refl B) (cores_onlyChanges hx hs hc)

@[simp] theorem onlyChanges_mem {x : Vector Stack 12} (hr : .stacks ∈ B ∨ ∀ n, (x.get n).rest = (t.stack n).rest)
    (hb : .stackBytes ∈ B ∨ ∀ n, (x.get n).arr.bytes = (t.stack n).arr.bytes) :
    OnlyChanges B s { t with mem := x } ↔ OnlyChanges B s t :=
  frame_of (List.Subset.refl B) fun p hp => by
    rcases eq_or_ne p .stacks with rfl | hne
    · exact hr.resolve_left hp
    cases p
    case stackBytes => exact hb.resolve_left hp
    all_goals simp [Part.same, State.ctx, State.core, State.stc] at hne ⊢

@[simp] theorem onlyChanges_stash {x : Vector Stash 8} (hr : .stashes ∈ B ∨ ∀ n, (x.get n).rest = (t.stc n).rest)
    (hb : .stashBytes ∈ B ∨ ∀ n, (x.get n).arr.bytes = (t.stc n).arr.bytes) :
    OnlyChanges B s { t with stash := x } ↔ OnlyChanges B s t :=
  frame_of (List.Subset.refl B) fun p hp => by
    cases p
    case stashes => exact hr.resolve_left hp
    case stashBytes => exact hb.resolve_left hp
    all_goals simp [Part.same, State.ctx, State.core, State.stack]

/-! Reads and writes. -/

@[simp] theorem onlyChanges_memoryRecord {kind unit addr place code : Nat} :
    OnlyChanges B s (t.memoryRecord kind unit addr place code) ↔ OnlyChanges B s t := onlyChanges_ask

@[simp] theorem onlyChanges_stackTook {n : Fin 12} {m : LineMem} {e : LineEv} {addr line code : Nat} (h : [.stacks] ⊆ B)
    (hb : .stackBytes ∈ B ∨ m.bytes = (t.stack n).arr.bytes) :
    OnlyChanges B s (t.stackTook n m e addr line code) ↔ OnlyChanges B s t := by
  have hm : OnlyChanges B t (t.modStack n (fun st => st.took m e addr line)) :=
    modStack_onlyChanges (.inl (h (List.mem_singleton.2 rfl))) hb
  refine frame_of (List.Subset.refl B) (hm.trans ?_)
  unfold State.stackTook
  simp

@[simp] theorem onlyChanges_stashTook {n : Fin 8} {m : LineMem} {e : LineEv} {addr line code : Nat}
    (h : [.stashes, .stashBytes] ⊆ B) : OnlyChanges B s (t.stashTook n m e addr line code) ↔ OnlyChanges B s t :=
  frame_of h (by simp [State.stashTook])

@[simp] theorem onlyChanges_touchLine {a : Nat} {work : Bool} (h : partsRead ⊆ B) :
    OnlyChanges B s (t.touchLine a work) ↔ OnlyChanges B s t := by
  refine frame_of h ?_
  unfold State.touchLine
  split <;> simp [LineMem.read_bytes, partsRead]

@[simp] theorem onlyChanges_touch {ranges : List (Nat × Nat)} {work : Bool} (h : partsRead ⊆ B) :
    OnlyChanges B s (t.touch ranges work) ↔ OnlyChanges B s t := by
  simp [State.touch, h]

@[simp] theorem onlyChanges_finishStack {n : Fin 12} {line : Nat} (h : [.stacks, .stackBytes] ⊆ B) :
    OnlyChanges B s (t.finishStack n line) ↔ OnlyChanges B s t := by
  refine frame_of h ?_
  unfold State.finishStack
  split <;> simp

@[simp] theorem onlyChanges_finishStash {n : Fin 8} {line : Nat} (h : [.stashes, .stashBytes] ⊆ B) :
    OnlyChanges B s (t.finishStash n line) ↔ OnlyChanges B s t := by
  refine frame_of h ?_
  unfold State.finishStash
  split <;> simp

@[simp] theorem onlyChanges_roomStack {n : Fin 12} {line : Nat} (h : [.stacks, .stackBytes] ⊆ B) :
    OnlyChanges B s (t.roomStack n line) ↔ OnlyChanges B s t := by
  refine frame_of h ?_
  unfold State.roomStack
  split <;> simp

@[simp] theorem onlyChanges_roomStash {n : Fin 8} {line : Nat} (h : [.stashes, .stashBytes] ⊆ B) :
    OnlyChanges B s (t.roomStash n line) ↔ OnlyChanges B s t := by
  refine frame_of h ?_
  unfold State.roomStash
  split <;> simp

@[simp] theorem onlyChanges_writeLine {a off : Nat} {bytes : List Byte} {poison work : Bool} (h : partsStore ⊆ B) :
    OnlyChanges B s (t.writeLine a off bytes poison work) ↔ OnlyChanges B s t := by
  refine frame_of h ?_
  unfold State.writeLine
  dsimp only
  split <;> simp [partsStore, Core.rest]

@[simp] theorem onlyChanges_poisonLine {a : Nat} (h : partsStore ⊆ B) :
    OnlyChanges B s (t.poisonLine a) ↔ OnlyChanges B s t := by
  refine frame_of h ?_
  unfold State.poisonLine
  split
  · simp
  · split <;> simp [partsStore, Core.rest]

theorem writeBytesN_onlyChanges (poison work : Bool) (fuel : Nat) : ∀ (t : State) (a : Nat) (bs : List Byte),
    OnlyChanges partsStore t (t.writeBytesN poison work fuel a bs) := by
  induction fuel with
  | zero => exact fun t _ _ => onlyChanges_refl _ t
  | succ n ih =>
    intro t a bs
    unfold State.writeBytesN
    split
    · exact onlyChanges_refl _ t
    · exact .trans (by simp) (ih _ _ _)

@[simp] theorem onlyChanges_writeBytes {a : Nat} {bs : List Byte} {poison work : Bool} (h : partsStore ⊆ B) :
    OnlyChanges B s (t.writeBytes a bs poison work) ↔ OnlyChanges B s t :=
  frame_of h (writeBytesN_onlyChanges _ _ _ _ _ _)

@[simp] theorem onlyChanges_poisonRanges {ranges : List (Nat × Nat)} (h : partsStore ⊆ B) :
    OnlyChanges B s (t.poisonRanges ranges) ↔ OnlyChanges B s t := by
  simp [State.poisonRanges, h]

@[simp] theorem onlyChanges_land {b : WBlk} (h : partsStore ⊆ B) : OnlyChanges B s (t.land b) ↔ OnlyChanges B s t :=
  frame_of h (by simp [State.land])

@[simp] theorem onlyChanges_landAll {bs : List WBlk} (h : partsStore ⊆ B) :
    OnlyChanges B s (t.landAll bs) ↔ OnlyChanges B s t := by
  simp [State.landAll, h]

@[simp] theorem onlyChanges_finishEntries (h : [.stacks, .stackBytes, .stashes, .stashBytes] ⊆ B) :
    OnlyChanges B s t.finishEntries ↔ OnlyChanges B s t :=
  frame_of h ((onlyChanges_foldl (fun _ _ => by simp) _ t).trans (onlyChanges_foldl (fun _ _ => by simp) _ _))

end
end Sys2Proof.Machine
end

section
/-! SUPPORT. Frames of the state's operations: packets, streams, flit frames and operands. -/

namespace Sys2Proof.Machine

section
variable {B : List Part} {s t : State}

@[simp] theorem onlyChanges_pumpOn {l : Fin 36} (h : [.links, .sec] ⊆ B) :
    OnlyChanges B s (t.pumpOn l) ↔ OnlyChanges B s t :=
  frame_of h (by simp +decide [State.pumpOn])

@[simp] theorem onlyChanges_pushOn {l : Fin 36} {p : Packet} (h : [.links, .sec] ⊆ B) :
    OnlyChanges B s (t.pushOn l p) ↔ OnlyChanges B s t :=
  frame_of h (by simp +decide [State.pushOn])

@[simp] theorem onlyChanges_tookPseq {d vl : Nat} (h : [.chain] ⊆ B) :
    OnlyChanges B s (t.tookPseq d vl) ↔ OnlyChanges B s t :=
  frame_of h (by simp +decide [State.tookPseq])

@[simp] theorem onlyChanges_freshOrder {d : Nat} (h : [.chain] ⊆ B) :
    OnlyChanges B s (t.freshOrder d) ↔ OnlyChanges B s t :=
  frame_of h (by simp +decide [State.freshOrder])

@[simp] theorem onlyChanges_sendOn {l : Fin 36} {p : Packet} (h : partsSend ⊆ B) :
    OnlyChanges B s (t.sendOn l p) ↔ OnlyChanges B s t :=
  frame_of h (by simp +decide [State.sendOn])

theorem send?_onlyChanges {p : Packet} {u : State} (h : t.send? p = some u) : OnlyChanges partsSend t u := by
  unfold State.send? at h
  dsimp only at h
  split at h
  · cases h
  · rw [← Option.some.inj h]
    simp +decide

@[simp] theorem onlyChanges_send {p : Packet} (h : partsSend ⊆ B) : OnlyChanges B s (t.send p) ↔ OnlyChanges B s t := by
  refine frame_of h ?_
  unfold State.send
  cases hu : t.send? p with
  | none => exact onlyChanges_refl _ t
  | some u => exact send?_onlyChanges hu

@[simp] theorem onlyChanges_retireTo {c : Fin 4} {k : Fin 8} {next : Nat} (h : [.ctxs] ⊆ B) :
    OnlyChanges B s (t.retireTo c k next) ↔ OnlyChanges B s t :=
  frame_of h (by simp +decide [State.retireTo])

@[simp] theorem onlyChanges_retire {c : Fin 4} {k : Fin 8} (h : [.ctxs] ⊆ B) :
    OnlyChanges B s (t.retire c k) ↔ OnlyChanges B s t :=
  frame_of h (by simp +decide [State.retire])

@[simp] theorem onlyChanges_fly {c : Fin 4} {f : Flight} (h : [.cores] ⊆ B) :
    OnlyChanges B s (t.fly c f) ↔ OnlyChanges B s t :=
  frame_of h (by simp +decide [State.fly])

@[simp] theorem onlyChanges_landed {c : Fin 4} {k : Fin 8} {serial : Nat} (h : [.cores] ⊆ B) :
    OnlyChanges B s (t.landed c k serial) ↔ OnlyChanges B s t :=
  frame_of h (by simp +decide [State.landed])

@[simp] theorem onlyChanges_modVane {v : VaneId} {f : Vane → Vane} (h : [.cores, .chainVanes] ⊆ B) :
    OnlyChanges B s (t.modVane v f) ↔ OnlyChanges B s t := by
  refine frame_of h ?_
  unfold State.modVane
  split <;> simp +decide

@[simp] theorem onlyChanges_countVane {c : Fin 4} {i : Nat} (h : [.cores] ⊆ B) :
    OnlyChanges B s (t.countVane c i) ↔ OnlyChanges B s t :=
  frame_of h (by simp +decide [State.countVane])

@[simp] theorem onlyChanges_countChain {i : Nat} (h : [.chainBank] ⊆ B) :
    OnlyChanges B s (t.countChain i) ↔ OnlyChanges B s t :=
  frame_of h (by simp +decide [State.countChain])

@[simp] theorem onlyChanges_applySignal {v : VaneId} {n src : Nat} {fromDev : Bool}
    (h : [.cores, .chainVanes, .chainSeen, .chainBank] ⊆ B) :
    OnlyChanges B s (t.applySignal v n src fromDev).1 ↔ OnlyChanges B s t := by
  refine frame_of h ?_
  unfold State.applySignal
  dsimp only
  split
  · split <;> simp +decide
  · split <;> split <;> simp +decide [Core.rest]

@[simp] theorem onlyChanges_countRecompute {c : Fin 4} (h : [.cores] ⊆ B) :
    OnlyChanges B s (t.countRecompute c) ↔ OnlyChanges B s t :=
  frame_of h (by simp +decide [State.countRecompute])

@[simp] theorem onlyChanges_waitDone {c : Fin 4} {k : Fin 8} (h : [.ctxs, .cores] ⊆ B) :
    OnlyChanges B s (t.waitDone c k) ↔ OnlyChanges B s t := by
  refine frame_of h ?_
  unfold State.waitDone
  dsimp only
  split <;> simp +decide

@[simp] theorem onlyChanges_wake {w : Waiter} (h : [.ctxs, .cores, .foehn] ⊆ B) :
    OnlyChanges B s (t.wake w) ↔ OnlyChanges B s t := by
  refine frame_of h ?_
  cases w <;> simp +decide [State.wake]

@[simp] theorem onlyChanges_serveOne {v : VaneId} {w : Waiter × Nat} (h : [.ctxs, .cores, .chainVanes, .foehn] ⊆ B) :
    OnlyChanges B s (t.serveOne v w) ↔ OnlyChanges B s t := by
  refine frame_of h ?_
  unfold State.serveOne
  cases v <;> simp +decide

@[simp] theorem onlyChanges_serve {v : VaneId} (h : [.ctxs, .cores, .chainVanes, .foehn] ⊆ B) :
    OnlyChanges B s (t.serve v) ↔ OnlyChanges B s t :=
  frame_of h (by simp +decide [State.serve])

@[simp] theorem onlyChanges_enlist {v : VaneId} {w : Waiter} {n : Nat} (h : [.cores, .chainVanes] ⊆ B) :
    OnlyChanges B s (t.enlist v w n) ↔ OnlyChanges B s t :=
  frame_of h (by simp +decide [State.enlist])

@[simp] theorem onlyChanges_signalLater {p : PSig} (h : [.signals] ⊆ B) :
    OnlyChanges B s (t.signalLater p) ↔ OnlyChanges B s t :=
  frame_of h (by simp +decide [State.signalLater])

@[simp] theorem onlyChanges_sendTwin {p : Packet} (h : partsSend ⊆ B) :
    OnlyChanges B s (t.sendTwin p) ↔ OnlyChanges B s t := by
  refine frame_of h ?_
  unfold State.sendTwin
  split <;> simp +decide

@[simp] theorem onlyChanges_atSeqLimit {n : Nat}  : OnlyChanges B s (t.atSeqLimit n) ↔ OnlyChanges B s t :=
  frame_of (List.nil_subset B) (by simp +decide [State.atSeqLimit])

@[simp] theorem onlyChanges_emitFrame {d : Fin 2} {f : Frame} (h : partsSend ++ [.slip] ⊆ B) :
    OnlyChanges B s (t.emitFrame d f) ↔ OnlyChanges B s t :=
  frame_of h (by simp +decide [State.emitFrame])

@[simp] theorem onlyChanges_sendFrame {d : Fin 2} {f : Frame} (h : partsSend ++ [.slip] ⊆ B) :
    OnlyChanges B s (t.sendFrame d f) ↔ OnlyChanges B s t :=
  frame_of h (by simp +decide [State.sendFrame])

@[simp] theorem onlyChanges_slipAbort {attempt : Nat} (h : partsSend ++ [.slip] ⊆ B) :
    OnlyChanges B s (t.slipAbort attempt) ↔ OnlyChanges B s t :=
  frame_of h (by simp +decide [State.slipAbort])

@[simp] theorem onlyChanges_modRing {c : Fin 4} {i : Nat} {f : Ring → Ring} (h : [.cores] ⊆ B) :
    OnlyChanges B s (t.modRing c i f) ↔ OnlyChanges B s t := by
  refine frame_of h ?_
  unfold State.modRing
  split <;> simp +decide

@[simp] theorem onlyChanges_releaseSrc {o : Opd} (h : [.cores] ⊆ B) :
    OnlyChanges B s (t.releaseSrc o) ↔ OnlyChanges B s t := by
  refine frame_of h ?_
  unfold State.releaseSrc
  split <;> simp +decide

@[simp] theorem onlyChanges_claimDst {o : Opd} {spec : Bool} (h : [.cores] ⊆ B) :
    OnlyChanges B s (t.claimDst o spec) ↔ OnlyChanges B s t := by
  refine frame_of h ?_
  unfold State.claimDst
  split <;> simp +decide

@[simp] theorem onlyChanges_spent {n : Nat} (h : [.fresh] ⊆ B) : OnlyChanges B s (t.spent n) ↔ OnlyChanges B s t :=
  frame_of h (by simp +decide [State.spent])

end
end Sys2Proof.Machine
end

section
/-! SUPPORT. Frames of the state's operations: recovery, the issue of operations, the Gale arrays and the Foehn units. -/

namespace Sys2Proof.Machine

section
variable {B : List Part} {s t : State}

@[simp] theorem onlyChanges_closeRoot (h : [.slip] ⊆ B) : OnlyChanges B s t.closeRoot ↔ OnlyChanges B s t :=
  frame_of h (by simp +decide [State.closeRoot])

@[simp] theorem onlyChanges_fatalStop {cause : Nat} (h : [.ctxs, .frozen] ⊆ B) :
    OnlyChanges B s (t.fatalStop cause) ↔ OnlyChanges B s t := by
  refine frame_of h ?_
  have hx : OnlyChanges [.ctxs, .frozen] t { t with cores := t.cores.map (·.halt 2), frozen := true } := by
    refine ((onlyChanges_frozen (t := { t with cores := t.cores.map (·.halt 2) }) (by simp)).2 ?_)
    simp +decide [Core.halt, Core.rest, State.core]
  unfold State.fatalStop
  simpa using hx

@[simp] theorem onlyChanges_toParent {p : Packet} (h : partsSend ⊆ B) :
    OnlyChanges B s (t.toParent p) ↔ OnlyChanges B s t := by
  refine frame_of h ?_
  unfold State.toParent
  split <;> simp +decide

@[simp] theorem onlyChanges_toChildren {p : Packet} (h : partsSend ⊆ B) :
    OnlyChanges B s (t.toChildren p) ↔ OnlyChanges B s t :=
  frame_of h (by simp +decide [State.toChildren])

@[simp] theorem onlyChanges_countRec {n : Nat} (h : [.chain] ⊆ B) :
    OnlyChanges B s (t.countRec n) ↔ OnlyChanges B s t :=
  frame_of h (by simp +decide [State.countRec])

@[simp] theorem onlyChanges_recoveryRecord {action cause origin attempt : Nat}  :
    OnlyChanges B s (t.recoveryRecord action cause origin attempt) ↔ OnlyChanges B s t :=
  frame_of (List.nil_subset B) (by simp +decide [State.recoveryRecord])

@[simp] theorem onlyChanges_linksDown (h : [.links, .chain] ⊆ B) : OnlyChanges B s t.linksDown ↔ OnlyChanges B s t := by
  refine frame_of h ?_
  unfold State.linksDown
  exact (onlyChanges_links (by simp)).2 (by simp)

@[simp] theorem onlyChanges_stopLinks {atOnce : Bool} (h : [.links, .chain] ⊆ B) :
    OnlyChanges B s (t.stopLinks atOnce) ↔ OnlyChanges B s t :=
  frame_of h (by simp +decide [State.stopLinks])

@[simp] theorem onlyChanges_lowered (h : [.links, .chain] ⊆ B) : OnlyChanges B s t.lowered ↔ OnlyChanges B s t :=
  frame_of h (by simp +decide [State.lowered])

@[simp] theorem onlyChanges_haltSteps {cause : Nat} (h : partsSend ++ [.dev, .ctxs, .frozen, .slip] ⊆ B) :
    OnlyChanges B s (t.haltSteps cause) ↔ OnlyChanges B s t :=
  frame_of h (by simp +decide [State.haltSteps])

@[simp] theorem onlyChanges_haltLost {cause : Nat} (h : partsSend ++ [.dev, .ctxs, .frozen, .slip] ⊆ B) :
    OnlyChanges B s (t.haltLost cause) ↔ OnlyChanges B s t :=
  frame_of h (by simp +decide [State.haltLost])

@[simp] theorem onlyChanges_enlistFoehn {n : Fin 12} (h : [.cores, .chainVanes] ⊆ B) :
    OnlyChanges B s (t.enlistFoehn n) ↔ OnlyChanges B s t :=
  frame_of h (by simp +decide [State.enlistFoehn])

@[simp] theorem onlyChanges_enlistFoehns (h : [.cores, .chainVanes] ⊆ B) :
    OnlyChanges B s t.enlistFoehns ↔ OnlyChanges B s t :=
  frame_of h (by simp +decide [State.enlistFoehns])

@[simp] theorem onlyChanges_retryStep
    (h : [.ctxs, .cores, .gales, .draughts, .chainVanes, .signals, .foehn, .withheld] ⊆ B) :
    OnlyChanges B s t.retryStep ↔ OnlyChanges B s t := by
  refine frame_of h ?_
  unfold State.retryStep
  extract_lets take gone s1 s2 s3
  have h2 : OnlyChanges [.ctxs, .cores, .gales, .draughts, .chainVanes, .signals, .foehn, .withheld] t s2 := by
    intro p hp
    cases p <;> simp [Part.same, State.core, State.stack, State.stc, Core.retry, s2, s1] at hp ⊢
  have h3 : OnlyChanges [.cores] s2 s3 :=
    cores_onlyChanges (.inr (by simp [Core.retryVanes, State.core])) (.inr (by simp [Core.retryVanes, State.core])) (by simp)
  exact (onlyChanges_enlistFoehns (by simp +decide)).2 (h2.trans (h3.mono (by simp)))

@[simp] theorem onlyChanges_takePlace {lost : Nat} (h : [.chain] ⊆ B) :
    OnlyChanges B s (t.takePlace lost) ↔ OnlyChanges B s t :=
  frame_of h (by simp +decide [State.takePlace])

@[simp] theorem onlyChanges_applyTakeover {p : Nat × Nat} (h : [.dev, .foehn, .chain] ⊆ B) :
    OnlyChanges B s (t.applyTakeover p) ↔ OnlyChanges B s t := by
  refine frame_of h ?_
  unfold State.applyTakeover
  dsimp only
  split
  · exact onlyChanges_recoveryRecord.2 ((onlyChanges_foehn (by simp)).2 (by simp +decide))
  · simp

@[simp] theorem onlyChanges_leaveVanes {p : Fin 4 → Fin 8 → Bool} (h : [.cores, .chainVanes] ⊆ B) :
    OnlyChanges B s (t.leaveVanes p) ↔ OnlyChanges B s t := by
  refine frame_of h ?_
  refine (onlyChanges_chainVanes (t := { t with cores := t.cores.map (·.vanesWithout p) }) (by simp)).2 ?_
  simp +decide [Core.vanesWithout, State.core]

@[simp] theorem onlyChanges_takeEntries (h : [.ctxs, .cores, .chainVanes] ⊆ B) :
    OnlyChanges B s t.takeEntries ↔ OnlyChanges B s t := by
  refine frame_of h ?_
  refine (onlyChanges_cores (by simp) (by simp [Core.toTakeEntries, State.core]) (by simp)).2 ?_
  simp +decide

@[simp] theorem onlyChanges_resignalIngest (h : [.signals] ⊆ B) :
    OnlyChanges B s t.resignalIngest ↔ OnlyChanges B s t := by
  refine frame_of h (onlyChanges_foldl (fun u c => ?_) _ t)
  split <;> simp

@[simp] theorem onlyChanges_countAbandoned (h : [.chain] ⊆ B) : OnlyChanges B s t.countAbandoned ↔ OnlyChanges B s t :=
  frame_of h (by simp +decide [State.countAbandoned])

@[simp] theorem onlyChanges_obeyRetry {cause origin attempt : Nat} {pairs : List (Nat × Nat)} (h : partsSend ++ [.dev,
      .ports, .ctxs, .cores, .gales, .draughts, .chainVanes, .signals, .foehn, .slip, .rst, .withheld] ⊆ B) :
    OnlyChanges B s (t.obeyRetry cause origin attempt pairs) ↔ OnlyChanges B s t :=
  frame_of h (by simp +decide [State.obeyRetry])

@[simp] theorem onlyChanges_orderDown {p : Packet} {survivor : Bool} (h : partsSend ⊆ B) :
    OnlyChanges B s (t.orderDown p survivor) ↔ OnlyChanges B s t :=
  frame_of h (by simp +decide [State.orderDown])

@[simp] theorem onlyChanges_retryDown {p : Packet} {pairs : List (Nat × Nat)} (h : partsSend ⊆ B) :
    OnlyChanges B s (t.retryDown p pairs) ↔ OnlyChanges B s t :=
  frame_of h (by simp +decide [State.retryDown])

@[simp] theorem onlyChanges_haltDown {p : Packet} (h : partsSend ⊆ B) :
    OnlyChanges B s (t.haltDown p) ↔ OnlyChanges B s t :=
  frame_of h (by simp +decide [State.haltDown])

@[simp] theorem onlyChanges_orderRetry {cause origin : Nat} (h : partsSend ++ [.dev, .ports, .ctxs, .cores, .gales,
      .draughts, .chainVanes, .signals, .foehn, .slip, .rst, .withheld] ⊆ B) :
    OnlyChanges B s (t.orderRetry cause origin) ↔ OnlyChanges B s t :=
  frame_of h (by simp +decide [State.orderRetry])

@[simp] theorem onlyChanges_obeyHalt {cause origin : Nat} (h : partsSend ++ [.dev, .ctxs, .frozen, .slip, .rst] ⊆ B) :
    OnlyChanges B s (t.obeyHalt cause origin) ↔ OnlyChanges B s t :=
  frame_of h (by simp +decide [State.obeyHalt])

@[simp] theorem onlyChanges_orderHalt {cause origin : Nat} (h : partsSend ++ [.dev, .ctxs, .frozen, .slip, .rst] ⊆ B) :
    OnlyChanges B s (t.orderHalt cause origin) ↔ OnlyChanges B s t :=
  frame_of h (by simp +decide [State.orderHalt])

@[simp] theorem onlyChanges_rootHear {cause origin attempt : Nat} (h : [.chain] ⊆ B) :
    OnlyChanges B s (t.rootHear cause origin attempt) ↔ OnlyChanges B s t :=
  frame_of h (by simp +decide [State.rootHear])

@[simp] theorem onlyChanges_staleReport {r : Heard} (h : [.chain] ⊆ B) :
    OnlyChanges B s (t.staleReport r) ↔ OnlyChanges B s t :=
  frame_of h (by simp +decide [State.staleReport])

@[simp] theorem onlyChanges_rootAct {r : Heard} (h : partsRetry ⊆ B) :
    OnlyChanges B s (t.rootAct r) ↔ OnlyChanges B s t := by
  refine frame_of h ?_
  unfold State.rootAct
  dsimp only
  split
  · simp +decide
  · split
    · simp +decide
    · split <;> simp +decide

@[simp] theorem onlyChanges_rootJudge (h : partsRetry ⊆ B) :
    OnlyChanges B s t.rootJudge ↔ OnlyChanges B s t := by
  refine frame_of h ?_
  unfold State.rootJudge
  dsimp only
  split
  · simp +decide
  · split <;> simp +decide

@[simp] theorem onlyChanges_report {cause : Nat} (h : partsSend ⊆ B) :
    OnlyChanges B s (t.report cause) ↔ OnlyChanges B s t :=
  frame_of h (by simp +decide [State.report])

@[simp] theorem onlyChanges_learn {cause : Nat} (h : partsSend ⊆ B) :
    OnlyChanges B s (t.learn cause) ↔ OnlyChanges B s t :=
  frame_of h (by simp +decide [State.learn])

@[simp] theorem onlyChanges_stepAbandon {cause : Nat} (h : partsRetry ⊆ B) :
    OnlyChanges B s (t.stepAbandon cause) ↔ OnlyChanges B s t :=
  frame_of h (by simp +decide [State.stepAbandon])

@[simp] theorem onlyChanges_failLink {l : Fin 36} {event : Nat} (h : [.links, .sec] ⊆ B) :
    OnlyChanges B s (t.failLink l event) ↔ OnlyChanges B s t := by
  refine frame_of h ?_
  unfold State.failLink
  dsimp only
  split
  · simp
  · refine OnlyChanges.trans ?_ (onlyChanges_foldl (fun u p => ?_) _ _)
    · simp +decide
    · split <;> simp

@[simp] theorem onlyChanges_issued {c : Fin 4} {k : Fin 8} (h : [.ctxs, .cores] ⊆ B) :
    OnlyChanges B s (t.issued c k) ↔ OnlyChanges B s t :=
  frame_of h (by simp +decide [State.issued])

@[simp] theorem onlyChanges_heldStep {c : Fin 4} {k : Fin 8} (h : [.ctxs, .cores] ⊆ B) :
    OnlyChanges B s (t.heldStep c k) ↔ OnlyChanges B s t :=
  frame_of h (by simp +decide [State.heldStep])

@[simp] theorem onlyChanges_tileIssue {c : Fin 4} {k : Fin 8} {op : BitVec 128} (h : [.vio, .ctxs, .cores, .gales] ⊆ B) :
    OnlyChanges B s (tileIssue c k op t) ↔ OnlyChanges B s t :=
  frame_of h (by simp +decide [tileIssue])

@[simp] theorem onlyChanges_landedPart {c : Fin 4} {k : Fin 8} {serial : Nat} {reads : Bool} (h : [.cores] ⊆ B) :
    OnlyChanges B s (t.landedPart c k serial reads) ↔ OnlyChanges B s t :=
  frame_of h (by simp +decide [State.landedPart])

@[simp] theorem onlyChanges_sample {g : Fin 8} {ch : Chain} (h : [.gales] ⊆ B) :
    OnlyChanges B s (t.sample g ch) ↔ OnlyChanges B s t :=
  frame_of h (by simp +decide [State.sample])

@[simp] theorem onlyChanges_arrayStep {g : Fin 8} (h : [.hlt] ⊆ B) :
    OnlyChanges B s (t.arrayStep g) ↔ OnlyChanges B s t :=
  frame_of h (by simp +decide [State.arrayStep])

@[simp] theorem onlyChanges_claimDrain {g : Fin 8} {ch : Chain} (h : [.vio, .cores, .gales] ⊆ B) :
    OnlyChanges B s (t.claimDrain g ch).1 ↔ OnlyChanges B s t := by
  refine frame_of h ?_
  unfold State.claimDrain
  split
  · split
    · split
      · simp
      · dsimp only
        split <;> simp +decide
    · simp
  · simp

@[simp] theorem onlyChanges_drainHold {g : Fin 8} {full : Bool} (h : [.cores, .gales] ⊆ B) :
    OnlyChanges B s (t.drainHold g full) ↔ OnlyChanges B s t :=
  frame_of h (by simp +decide [State.drainHold])

@[simp] theorem onlyChanges_mismatch {g w : Fin 8} {ch : Chain} {i j : Nat} (h : partsRetry ⊆ B) :
    OnlyChanges B s (t.mismatch g w ch i j) ↔ OnlyChanges B s t := by
  refine frame_of h ?_
  unfold State.mismatch
  exact (onlyChanges_stepAbandon (by simp)).2 ((onlyChanges_withheld (by simp +decide)).2 (by simp +decide))

@[simp] theorem onlyChanges_handChunk {n : Fin 12} {gi : Nat} {g : BitVec 512} {b kind : Nat} (h : [.slip] ⊆ B) :
    OnlyChanges B s (t.handChunk n gi g b kind) ↔ OnlyChanges B s t :=
  frame_of h (by simp +decide [State.handChunk])

theorem handWaiting_onlyChanges (n : Fin 12) (gi : Nat) (g : BitVec 512) (fuel : Nat) :
    ∀ t : State, OnlyChanges [.foehn, .slip] t (t.handWaiting n gi g fuel) := by
  induction fuel with
  | zero => exact fun t => onlyChanges_refl _ t
  | succ m ih =>
    intro t
    unfold State.handWaiting
    split
    · simp
    · split
      · simp
      · exact OnlyChanges.trans (by simp +decide) (ih _)

@[simp] theorem onlyChanges_handWaiting {n : Fin 12} {gi : Nat} {g : BitVec 512} {fuel : Nat} (h : [.foehn, .slip] ⊆ B) :
    OnlyChanges B s (t.handWaiting n gi g fuel) ↔ OnlyChanges B s t := frame_of h (handWaiting_onlyChanges n gi g fuel t)

@[simp] theorem onlyChanges_storeBlock {n : Fin 12} {gi : Nat} {g : BitVec 512} {b : Nat}
    (h : partsStore ++ [.foehn, .slip] ⊆ B) : OnlyChanges B s (t.storeBlock n gi g b) ↔ OnlyChanges B s t := by
  refine frame_of h ?_
  unfold State.storeBlock
  simp +decide

@[simp] theorem onlyChanges_poisonStop {n : Fin 12} {gi : Nat} {g : BitVec 512} {bad : List (Nat × Nat × Nat)} (h :
      [.foehn] ⊆ B) :
    OnlyChanges B s (t.poisonStop n gi g bad) ↔ OnlyChanges B s t := by
  refine frame_of h ?_
  unfold State.poisonStop
  split <;> simp +decide

@[simp] theorem onlyChanges_reportPoison {u : State} (h : partsRetry ⊆ B) :
    OnlyChanges B s (t.reportPoison u) ↔ OnlyChanges B s t := by
  refine frame_of h ?_
  unfold State.reportPoison
  dsimp only
  split
  · simp
  · split <;> simp

@[simp] theorem onlyChanges_updateBlock {n : Fin 12} {gi : Nat} {g : BitVec 512} {b : Nat} (h : partsStore ++ [.foehn,
      .slip] ⊆ B) :
    OnlyChanges B s (t.updateBlock n gi g b) ↔ OnlyChanges B s t := by
  refine frame_of h ?_
  unfold State.updateBlock
  split <;> simp +decide

theorem updateBlocks_onlyChanges (n : Fin 12) (gi : Nat) (g : BitVec 512) (fuel : Nat) :
    ∀ t : State, OnlyChanges (partsStore ++ [.foehn, .slip]) t (t.updateBlocks n gi g fuel) := by
  induction fuel with
  | zero => exact fun t => onlyChanges_refl _ t
  | succ m ih =>
    intro t
    unfold State.updateBlocks
    split
    · simp
    · dsimp only
      split
      · simp +decide
      · exact OnlyChanges.trans (by simp +decide) (ih _)

@[simp] theorem onlyChanges_updateBlocks {n : Fin 12} {gi : Nat} {g : BitVec 512} {fuel : Nat}
    (h : partsStore ++ [.foehn, .slip] ⊆ B) : OnlyChanges B s (t.updateBlocks n gi g fuel) ↔ OnlyChanges B s t :=
  frame_of h (updateBlocks_onlyChanges n gi g fuel t)

@[simp] theorem onlyChanges_startGroup {n : Fin 12} {gi : Nat} (h : partsRead ++ [.foehn] ⊆ B) :
    OnlyChanges B s (t.startGroup n gi) ↔ OnlyChanges B s t := by
  refine frame_of h ?_
  unfold State.startGroup
  dsimp only
  split
  · simp
  · split <;> simp +decide

theorem startUnit_onlyChanges (n : Fin 12) (fuel : Nat) :
    ∀ t : State, OnlyChanges (partsRead ++ [.foehn]) t (t.startUnit n fuel) := by
  induction fuel with
  | zero => exact fun t => onlyChanges_refl _ t
  | succ m ih =>
    intro t
    unfold State.startUnit
    split
    · exact OnlyChanges.trans (by simp) (ih _)
    · simp

@[simp] theorem onlyChanges_startUnit {n : Fin 12} {fuel : Nat} (h : partsRead ++ [.foehn] ⊆ B) :
    OnlyChanges B s (t.startUnit n fuel) ↔ OnlyChanges B s t := frame_of h (startUnit_onlyChanges n fuel t)

@[simp] theorem onlyChanges_startDue (h : partsRetry ++ partsRead ⊆ B) :
    OnlyChanges B s t.startDue ↔ OnlyChanges B s t := by
  refine frame_of h ?_
  unfold State.startDue
  refine (onlyChanges_reportPoison (by simp)).2 (onlyChanges_foldl (fun u n => ?_) _ t)
  simp +decide

@[simp] theorem onlyChanges_turnSignal {p : PSig} (h : partsSend ++ [.cores, .chainVanes, .chainSeen, .chainBank] ⊆ B) :
    OnlyChanges B s (t.turnSignal p).1 ↔ OnlyChanges B s t := by
  refine frame_of h ?_
  unfold State.turnSignal
  split
  · simp +decide
  · split
    · simp +decide
    · dsimp only
      split
      · next u hu =>
        have hs := (send?_onlyChanges hu).mono
          (show partsSend ⊆ partsSend ++ [.cores, .chainVanes, .chainSeen, .chainBank] by simp)
        split <;> simp +decide [hs]
      · simp

@[simp] theorem onlyChanges_signalNow {ps : List PSig} (h : partsWake ⊆ B) :
    OnlyChanges B s (t.signalNow ps) ↔ OnlyChanges B s t := by
  refine frame_of h ?_
  unfold State.signalNow
  extract_lets ordered
  split
  next s1 vios hs =>
  have h1 : OnlyChanges partsWake t s1 := by
    have hf := onlyChanges_foldl_fst (A := partsWake) (f := fun (a : State × List Vio) p =>
      let (s', v) := a.1.turnSignal p
      (s', a.2 ++ v)) (fun z p => (onlyChanges_turnSignal (by simp +decide)).2 (onlyChanges_refl _ z.1)) ordered (t, [])
    rwa [hs] at hf
  refine (onlyChanges_startDue (by simp +decide)).2 ((onlyChanges_violateAll (by simp +decide)).2 ?_)
  exact h1.trans (onlyChanges_foldl (fun u v => by simp +decide) _ _)

end
end Sys2Proof.Machine
end

section
/-! SUPPORT. Frames of the state's operations: fetch, the stream operations of each unit, the Draught engines and the controllers. -/

namespace Sys2Proof.Machine

section
variable {B : List Part} {s t : State}

@[simp] theorem onlyChanges_claimFill {c : Fin 4} {k : Fin 8} {op : BitVec 128} {o : Opd} {sc : Option Opd} {packed : Option Nat}
    (h : partsFetch ⊆ B) : OnlyChanges B s (t.claimFill c k op o sc packed) ↔ OnlyChanges B s t := by
  refine frame_of h ?_
  unfold State.claimFill
  extract_lets g col x spec d poison tile bay moves before s1 s2 s3 s4 s5
  have h1 : OnlyChanges partsFetch t s1 := by
    simp +decide [s1]
  have h2 : OnlyChanges partsFetch s1 s2 := by
    simp +decide [s2]
  have h3 : OnlyChanges partsFetch s2 s3 := by
    simp only [s3]
    clear_value s2 tile
    split
    · split <;> simp +decide
    · simp
  have h4 : OnlyChanges partsFetch s3 s4 := by
    refine (onlyChanges_fly (by simp +decide)).2 (OnlyChanges.trans ?_ (onlyChanges_foldl (fun u o => ?_) _ _))
    all_goals simp +decide
  have h5 : OnlyChanges partsFetch s4 s5 := by
    simp only [s5]
    clear_value s4 d
    split
    · split <;> simp +decide
    · simp
  exact (onlyChanges_modCtx (by simp +decide)).2 (h1.trans (h2.trans (h3.trans (h4.trans h5))))

/-- A checked step that answers has passed its check. -/
theorem ok_of_ite {ε α : Type} {c : Prop} [Decidable c] {e : ε} {x : Except ε α} {u : α}
    (h : (if c then .error e else x) = .ok u) : x = .ok u := by
  split at h
  · cases h
  · exact h

theorem tryFill_onlyChanges {c : Fin 4} {k : Fin 8} {op : BitVec 128} {u : State} (h : t.tryFill c k op = .ok u) :
    OnlyChanges partsFetch t u := by
  unfold State.tryFill at h
  extract_lets g x y gate s0 spec at h
  have h0 : OnlyChanges partsFetch t s0 := by
    simp only [s0]
    clear_value gate
    split <;> simp +decide
  clear_value s0
  split at h
  · cases h
  · rw [← Except.ok.inj (ok_of_ite (ok_of_ite (ok_of_ite h)))]
    exact (onlyChanges_claimFill (List.Subset.refl _)).2 h0

theorem tryDesc_onlyChanges {c : Fin 4} {k : Fin 8} {e : Fin 8} {desc : Nat} {ahead : Bool} {u : State}
    (h : t.tryDesc c k e desc ahead = .ok u) : OnlyChanges [.cores, .draughts] t u := by
  unfold State.tryDesc at h
  dsimp only at h
  split at h
  · cases h
  · rw [← Except.ok.inj (ok_of_ite (ok_of_ite h))]
    simp +decide

@[simp] theorem onlyChanges_queueOp {c : Fin 4} {k : Fin 8} {op : BitVec 128} (h : [.ctxs, .cores] ⊆ B) :
    OnlyChanges B s (t.queueOp c k op) ↔ OnlyChanges B s t := by
  refine frame_of h ?_
  unfold State.queueOp
  extract_lets x idx lc r dsts reads wild serial s1 base
  have h1 : OnlyChanges [.ctxs, .cores] t s1 := by simp [s1]
  clear_value s1
  split
  case h_3 => split <;> simp [h1]
  case h_7 => split <;> (try split) <;> (try split) <;> simp [h1]
  all_goals simp [h1]

theorem tryTodo_onlyChanges {c : Fin 4} {k : Fin 8} {d : Nat} {rest : List Nat} {u : State}
    (h : t.tryTodo c k d rest = .ok u) : OnlyChanges partsFetch t u := by
  unfold State.tryTodo at h
  dsimp only at h
  split at h
  · cases h
  · next v hv =>
    rw [← Except.ok.inj h]
    exact (onlyChanges_modCtx (by simp +decide)).2 ((tryDesc_onlyChanges hv).mono (by simp +decide))

theorem tryFetch_onlyChanges {c : Fin 4} {k : Fin 8} {u : State} (h : t.tryFetch c k = .ok u) :
    OnlyChanges partsFetch t u := by
  unfold State.tryFetch at h
  dsimp only at h
  split at h
  · cases h
  split at h
  · exact tryTodo_onlyChanges h
  split at h
  · cases h
  split at h
  · cases h
  split at h
  · cases h
  split at h
  · cases h
  split at h
  · exact tryFill_onlyChanges h
  split at h
  · split at h
    · cases h
    · next v hv =>
      rw [← Except.ok.inj h]
      exact (onlyChanges_modCtx (by simp +decide)).2 ((tryDesc_onlyChanges hv).mono (by simp +decide))
  split at h
  · cases h
  split at h
  · split at h
    · rw [← Except.ok.inj h]
      simp +decide
    · cases h
    · rw [← Except.ok.inj h]
      simp +decide
  · rw [← Except.ok.inj h]
    simp +decide

@[simp] theorem onlyChanges_feedCompact {c : Fin 4} (h : [.cores, .gales] ⊆ B) :
    OnlyChanges B s (t.feedCompact c) ↔ OnlyChanges B s t := by
  refine frame_of h ?_
  unfold State.feedCompact
  repeat' split
  all_goals simp +decide

@[simp] theorem onlyChanges_discardItem {c : Fin 4} {k : Fin 8} {i : SpecItem} (h : [.cores, .gales, .draughts] ⊆ B) :
    OnlyChanges B s (t.discardItem c k i) ↔ OnlyChanges B s t := by
  refine frame_of h ?_
  unfold State.discardItem
  repeat' split
  all_goals simp +decide

@[simp] theorem onlyChanges_countReads {c : Fin 4} {k : Fin 8} {i : SpecItem} (h : partsRead ⊆ B) :
    OnlyChanges B s (t.countReads c k i) ↔ OnlyChanges B s t := by
  refine frame_of h ?_
  unfold State.countReads
  split <;> simp +decide

@[simp] theorem onlyChanges_confirmItem {c : Fin 4} {k : Fin 8} {i : SpecItem} (h : partsRead ++ [.vio, .cores,
      .gales, .draughts] ⊆ B) :
    OnlyChanges B s (t.confirmItem c k i) ↔ OnlyChanges B s t := by
  refine frame_of h ?_
  unfold State.confirmItem
  repeat' split
  all_goals simp +decide

@[simp] theorem onlyChanges_confirmOwner {k : Fin 8} {yes : List SpecItem} {g : Fin 8} (h : [.gales] ⊆ B) :
    OnlyChanges B s (t.confirmOwner k yes g) ↔ OnlyChanges B s t := by
  refine frame_of h ?_
  unfold State.confirmOwner
  split <;> simp +decide

@[simp] theorem onlyChanges_confirmQueue {c : Fin 4} {k : Fin 8} {upTo : Nat} (h : [.ctxs] ⊆ B) :
    OnlyChanges B s (t.confirmQueue c k upTo) ↔ OnlyChanges B s t :=
  frame_of h (by simp +decide [State.confirmQueue])

@[simp] theorem onlyChanges_resolve {c : Fin 4} {k : Fin 8} {actual : List Nat} {unit : Nat}
    (h : partsRead ++ [.vio, .ctxs, .cores, .gales, .draughts] ⊆ B) :
    OnlyChanges B s (t.resolve c k actual unit) ↔ OnlyChanges B s t := by
  refine frame_of h ?_
  unfold State.resolve
  split
  · simp
  split
  next yes no hy =>
  extract_lets s1 s2 s3 bays slots lastYes cut s4 s5 s6 n7 s7 s8 s9
  have h3 : OnlyChanges (partsRead ++ [.vio, .ctxs, .cores, .gales, .draughts]) t s3 := by
    simp +decide [s3, s2, s1, -List.foldl_reverse]
  have h6 : OnlyChanges (partsRead ++ [.vio, .ctxs, .cores, .gales, .draughts]) s3 s6 := by
    simp +decide [s6, s5, s4, Core.rest]
  have h7 : OnlyChanges (partsRead ++ [.vio, .ctxs, .cores, .gales, .draughts]) s6 s7 := by
    simp only [s7]
    clear_value s6
    split <;> simp +decide
  have h8 : OnlyChanges (partsRead ++ [.vio, .ctxs, .cores, .gales, .draughts]) s7 s8 := by
    simp only [s8]
    clear_value s7
    split <;> simp +decide
  have h9 : OnlyChanges (partsRead ++ [.vio, .ctxs, .cores, .gales, .draughts]) s8 s9 := by
    simp +decide [s9]
  have hs := h3.trans (h6.trans (h7.trans (h8.trans h9)))
  clear_value s9
  split <;> simp [hs]

@[simp] theorem onlyChanges_issuedTo {c : Fin 4} {k : Fin 8} {next : Nat} (h : [.ctxs, .cores] ⊆ B) :
    OnlyChanges B s (t.issuedTo c k next) ↔ OnlyChanges B s t :=
  frame_of h (by simp +decide [State.issuedTo])

@[simp] theorem onlyChanges_setLoop {c : Fin 4} {k : Fin 8} {r : Fin 8} {v : Word} (h : [.ctxs] ⊆ B) :
    OnlyChanges B s (t.setLoop c k r v) ↔ OnlyChanges B s t :=
  frame_of h (by simp +decide [State.setLoop])

@[simp] theorem onlyChanges_keepScales {l : List (Nat × Nat)} (h : [.mxScales] ⊆ B) :
    OnlyChanges B s (t.keepScales l) ↔ OnlyChanges B s t :=
  frame_of h (by simp +decide [State.keepScales])

@[simp] theorem onlyChanges_begin {c : Fin 4} {k : Fin 8} {op : BitVec 128} {dst : Option Opd} {srcs : List Opd} {e : Effect}
    (h : partsOp ⊆ B) : OnlyChanges B s (t.begin c k op dst srcs e).1 ↔ OnlyChanges B s t := by
  refine frame_of h ?_
  unfold State.begin
  cases dst <;> simp +decide

theorem begin_onlyChanges {c : Fin 4} {k : Fin 8} {op : BitVec 128} {dst : Option Opd} {srcs : List Opd} {e : Effect} {u : State}
    {r : RunOp} (h : t.begin c k op dst srcs e = (u, r)) : OnlyChanges partsOp t u := by
  have hb : OnlyChanges partsOp t (t.begin c k op dst srcs e).1 := by simp
  rwa [h] at hb

@[simp] theorem onlyChanges_finish {c : Fin 4} {r : RunOp} (h : partsStore ++ [.cores, .mxScales] ⊆ B) :
    OnlyChanges B s (t.finish c r) ↔ OnlyChanges B s t :=
  frame_of h (by simp +decide [State.finish])

@[simp] theorem onlyChanges_vecIssue {c : Fin 4} {k : Fin 8} {op : BitVec 128} {value : List Opd → Nat → Nat → Nat → Nat → Word}
    (h : partsOp ⊆ B) : OnlyChanges B s (vecIssue c k op t value) ↔ OnlyChanges B s t := by
  refine frame_of h ?_
  unfold vecIssue
  extract_lets lc dst srcs e scales
  split
  next s1 r hb =>
    have h1 := begin_onlyChanges hb
    simp +decide [h1]

@[simp] theorem onlyChanges_copyIssue {c : Fin 4} {k : Fin 8} {op : BitVec 128} {vio : Option Opd → List Opd → Option (Nat × Nat)}
    {perm : List Opd → List Nat} (h : partsOp ⊆ B) : OnlyChanges B s (copyIssue c k op t vio perm) ↔ OnlyChanges B s t := by
  refine frame_of h ?_
  unfold copyIssue
  extract_lets lc dst srcs p at_ e whole scales
  split
  next s1 r hb =>
    have h1 := begin_onlyChanges hb
    simp +decide [h1]

@[simp] theorem onlyChanges_takeEddy {c : Fin 4} {r : RunOp} (h : [.cores] ⊆ B) :
    OnlyChanges B s (t.takeEddy c r) ↔ OnlyChanges B s t :=
  frame_of h (by simp +decide [State.takeEddy])

@[simp] theorem onlyChanges_gatherIssue {c : Fin 4} {k : Fin 8} {op : BitVec 128} (h : partsOp ⊆ B) :
    OnlyChanges B s (gatherIssue c k op t) ↔ OnlyChanges B s t := by
  refine frame_of h ?_
  unfold gatherIssue
  extract_lets lc dst srcs d from_ e whole scales
  split
  next s1 r hb =>
    have h1 := begin_onlyChanges hb
    simp +decide [h1]

@[simp] theorem onlyChanges_mergeIssue {c : Fin 4} {k : Fin 8} {code : Nat} {op : BitVec 128} (h : partsOp ⊆ B) :
    OnlyChanges B s (mergeIssue c k code op t) ↔ OnlyChanges B s t := by
  refine frame_of h ?_
  unfold mergeIssue
  extract_lets lc dst srcs d idx e
  split
  next s1 r hb =>
    have h1 := begin_onlyChanges hb
    simp +decide [h1]

@[simp] theorem onlyChanges_formError {c : Fin 4} {addr : Nat} (h : [.cores] ⊆ B) :
    OnlyChanges B s (t.formError c addr) ↔ OnlyChanges B s t :=
  frame_of h (by simp +decide [State.formError])

@[simp] theorem onlyChanges_compactIssue {c : Fin 4} {k : Fin 8} {op : BitVec 128} (h : partsOp ++ [.gales] ⊆ B) :
    OnlyChanges B s (compactIssue c k op t) ↔ OnlyChanges B s t := by
  refine frame_of h ?_
  unfold compactIssue
  extract_lets lc srcs g
  clear_value srcs
  split
  · extract_lets
    split
    next s1 r hb =>
      have h1 := (begin_onlyChanges hb).mono (show partsOp ⊆ partsOp ++ [.gales] by simp)
      simp +decide [h1]
  · simp +decide

@[simp] theorem onlyChanges_expandIssue {c : Fin 4} {k : Fin 8} {op : BitVec 128} (h : partsOp ⊆ B) :
    OnlyChanges B s (expandIssue c k op t) ↔ OnlyChanges B s t := by
  refine frame_of h ?_
  unfold expandIssue
  extract_lets dst e
  split
  next s1 r hb =>
    have h1 := begin_onlyChanges hb
    simp +decide [h1]

@[simp] theorem onlyChanges_expandDone {c : Fin 4} {r : RunOp} {e : ExpandChain} (h : partsStore ++ [.cores, .fresh] ⊆ B) :
    OnlyChanges B s (t.expandDone c r e).1 ↔ OnlyChanges B s t := by
  refine frame_of h ?_
  unfold State.expandDone
  dsimp only
  split
  · simp
  · split
    · simp
    · split <;> simp +decide

@[simp] theorem onlyChanges_eddyTileIssue {c : Fin 4} {k : Fin 8} {op : BitVec 128} (h : partsOp ⊆ B) :
    OnlyChanges B s (eddyTileIssue c k op t) ↔ OnlyChanges B s t := by
  refine frame_of h ?_
  unfold eddyTileIssue
  extract_lets lc dst srcs mode g e
  split
  next s1 r hb =>
    have h1 := begin_onlyChanges hb
    simp +decide [h1]

@[simp] theorem onlyChanges_predictIssue {c : Fin 4} {k : Fin 8} {op : BitVec 128} (h : partsOp ⊆ B) :
    OnlyChanges B s (predictIssue c k op t) ↔ OnlyChanges B s t := by
  refine frame_of h ?_
  unfold predictIssue
  extract_lets lc srcs p poison mask steps e
  split
  next s1 r hb =>
    have h1 := begin_onlyChanges hb
    simp +decide [h1]

@[simp] theorem onlyChanges_freeEddy {c : Fin 4} {r : RunOp} {poison : Bool} (h : [.cores] ⊆ B) :
    OnlyChanges B s (t.freeEddy c r poison) ↔ OnlyChanges B s t :=
  frame_of h (by simp +decide [State.freeEddy])

@[simp] theorem onlyChanges_verifyIssue {c : Fin 4} {k : Fin 8} {op : BitVec 128} (h : partsOp ⊆ B) :
    OnlyChanges B s (verifyIssue c k op t) ↔ OnlyChanges B s t := by
  refine frame_of h ?_
  unfold verifyIssue
  extract_lets lc dst srcs p g idle whole passed missed e
  split
  next kk n hk =>
  extract_lets bound makeup
  split
  next s1 r hb =>
    have h1 := begin_onlyChanges hb
    simp +decide [h1]

@[simp] theorem onlyChanges_routeIssue {c : Fin 4} {k : Fin 8} {op : BitVec 128} (h : partsOp ⊆ B) :
    OnlyChanges B s (routeIssue c k op t) ↔ OnlyChanges B s t := by
  refine frame_of h ?_
  unfold routeIssue
  extract_lets lc dst srcs
  split
  · extract_lets bad first own acc poison eff
    split
    next s1 r hb =>
      have h1 := begin_onlyChanges hb
      simp +decide [h1]
  · simp +decide

@[simp] theorem onlyChanges_dispatch {c : Fin 4} {r : RouteRun} {e : RouteEntry} {p : Pair} (h : partsStore ⊆ B) :
    OnlyChanges B s (t.dispatch c r e p) ↔ OnlyChanges B s t := by
  refine frame_of h ?_
  unfold State.dispatch
  split <;> simp +decide

@[simp] theorem onlyChanges_writeAdmits {c : Fin 4} {r : RouteRun} {e : RouteEntry} (h : partsStore ⊆ B) :
    OnlyChanges B s (t.writeAdmits c r e) ↔ OnlyChanges B s t :=
  frame_of h (by simp +decide [State.writeAdmits])

@[simp] theorem onlyChanges_sendItem {p : Packet} {addr len : Nat} (h : partsSend ⊆ B) :
    OnlyChanges B s (t.sendItem p addr len).1 ↔ OnlyChanges B s t := by
  refine frame_of h ?_
  unfold State.sendItem
  cases hu : t.send? p with
  | none => exact onlyChanges_refl _ t
  | some u => exact send?_onlyChanges hu

/-- A packet sent, and what is kept of it put behind the list. -/
theorem sendItem_kept (z : State × List Ack) (p : Packet) (addr len : Nat) :
    OnlyChanges partsSend z.1 (let (u, k) := z.1.sendItem p addr len; (u, z.2 ++ k.toList)).1 := by
  have hs : OnlyChanges partsSend z.1 (z.1.sendItem p addr len).1 := (onlyChanges_sendItem (List.Subset.refl _)).2 (by simp)
  exact hs

@[simp] theorem onlyChanges_sendWrites {e : Fin 8} {dev : Nat} {bs : List WBlk} (h : partsSend ⊆ B) :
    OnlyChanges B s (t.sendWrites e dev bs).1 ↔ OnlyChanges B s t :=
  frame_of h (onlyChanges_foldl_fst (fun z _ => sendItem_kept z _ _ _) _ (t, []))

@[simp] theorem onlyChanges_sendReads {e : Fin 8} {dev : Nat} {rs : List (Nat × Nat)} (h : partsSend ⊆ B) :
    OnlyChanges B s (t.sendReads e dev rs).1 ↔ OnlyChanges B s t :=
  frame_of h (onlyChanges_foldl_fst (fun z _ => sendItem_kept z _ _ _) _ (t, []))

@[simp] theorem onlyChanges_modItem {e : Fin 8} {i : Nat} {f : DrtItem → DrtItem} (h : [.draughts] ⊆ B) :
    OnlyChanges B s (t.modItem e i f) ↔ OnlyChanges B s t :=
  frame_of h (by simp +decide [State.modItem])

@[simp] theorem onlyChanges_deliver {e : Fin 8} {i : Nat} {x : DrtItem}
    (h : partsSend ++ partsStore ++ [.cores, .draughts, .mxScales, .fresh] ⊆ B) :
    OnlyChanges B s (t.deliver e i x) ↔ OnlyChanges B s t := by
  refine frame_of h ?_
  unfold State.deliver
  split
  · simp
  · dsimp only
    refine (onlyChanges_modItem (by simp)).2 ?_
    split <;> split <;> simp +decide

@[simp] theorem onlyChanges_failItem {e : Fin 8} {i : Nat} {x : DrtItem} {kind addr dev : Nat}
    (h : partsSend ++ partsStore ++ [.vio, .cores, .draughts] ⊆ B) :
    OnlyChanges B s (t.failItem e i x kind addr dev) ↔ OnlyChanges B s t := by
  refine frame_of h ?_
  unfold State.failItem
  dsimp only
  refine (onlyChanges_violate (by simp)).2 ((onlyChanges_modItem (by simp)).2 ?_)
  split <;> (split <;> [skip; split]) <;> simp +decide

@[simp] theorem onlyChanges_pendRecompute {x : DrtItem} (h : [.cores] ⊆ B) :
    OnlyChanges B s (t.pendRecompute x) ↔ OnlyChanges B s t :=
  frame_of h (by simp +decide [State.pendRecompute])

@[simp] theorem onlyChanges_answered {e : Fin 8} {i : Nat} {x : DrtItem} {a : Ack} {blocks : List WBlk} {noDone :
      Bool} (h : partsStore ++ partsSend ++ [.cores, .draughts, .mxScales, .fresh] ⊆ B) :
    OnlyChanges B s (t.answered e i x a blocks noDone) ↔ OnlyChanges B s t :=
  frame_of h (by simp +decide [State.answered])

@[simp] theorem onlyChanges_crcRetries {n : Fin 8} {fails : Fin 5} (h : [.stashes, .stashBytes] ⊆ B) :
    OnlyChanges B s (t.crcRetries n fails) ↔ OnlyChanges B s t :=
  frame_of h (by simp +decide [State.crcRetries])

end
end Sys2Proof.Machine
end

section
/-! SUPPORT. Frames of the state's operations: health, training steps, links, the chain and the slipstream. -/

namespace Sys2Proof.Machine

section
variable {B : List Part} {s t : State}

@[simp] theorem onlyChanges_fatal (h : partsSend ++ [.dev, .ctxs, .frozen, .slip] ⊆ B) :
    OnlyChanges B s t.fatal ↔ OnlyChanges B s t :=
  frame_of h (by simp +decide [State.fatal])

@[simp] theorem onlyChanges_replan (h : [.hlt] ⊆ B) : OnlyChanges B s t.replan ↔ OnlyChanges B s t := by
  refine frame_of h ?_
  unfold State.replan
  simp +decide

@[simp] theorem onlyChanges_releaseKeep (h : [.sec, .keepHeld] ⊆ B) :
    OnlyChanges B s t.releaseKeep ↔ OnlyChanges B s t := by
  refine frame_of h ?_
  unfold State.releaseKeep
  dsimp only
  split
  · simp
  · split
    · split
      · exact (onlyChanges_secAnswer (by simp)).2 ((onlyChanges_modSec (by simp)).2 (by simp))
      · simp
    · simp

@[simp] theorem onlyChanges_loseHeld (h : [.sec, .rst, .hlt, .keepHeld] ⊆ B) :
    OnlyChanges B s t.loseHeld ↔ OnlyChanges B s t := by
  refine frame_of h ?_
  unfold State.loseHeld
  split
  · simp
  · exact (onlyChanges_keepHeld (by simp)).2 (by simp +decide)

@[simp] theorem onlyChanges_rearmFoehns (h : [.ctxs, .cores, .chainVanes, .foehn] ⊆ B) :
    OnlyChanges B s t.rearmFoehns ↔ OnlyChanges B s t := by
  refine frame_of h ?_
  unfold State.rearmFoehns
  extract_lets s1 s2 vs
  have h1 : OnlyChanges [.ctxs, .cores, .chainVanes, .foehn] t s1 :=
    (onlyChanges_cores (by simp) (by simp [Core.dropFoehn, State.core]) (by simp)).2 (by simp)
  have h2 : OnlyChanges [.ctxs, .cores, .chainVanes, .foehn] s1 s2 := by simp +decide [s2]
  exact (h1.trans h2).trans (onlyChanges_foldl (fun u v => by simp +decide) _ s2)

@[simp] theorem onlyChanges_answerChain {a : Answer} (h : [.chain] ⊆ B) :
    OnlyChanges B s (t.answerChain a) ↔ OnlyChanges B s t := by
  refine frame_of h ?_
  unfold State.answerChain
  split <;> simp +decide

@[simp] theorem onlyChanges_requestDenied {kind : Nat} (h : [.chain] ⊆ B) :
    OnlyChanges B s (t.requestDenied kind) ↔ OnlyChanges B s t := by
  refine frame_of h ?_
  unfold State.requestDenied
  split <;> simp +decide

@[simp] theorem onlyChanges_holdRequest {kind dev : Nat} (h : [.chain] ⊆ B) :
    OnlyChanges B s (t.holdRequest kind dev) ↔ OnlyChanges B s t :=
  frame_of h (by simp +decide [State.holdRequest])

@[simp] theorem onlyChanges_requestMember {kind : Nat} (h : partsSend ⊆ B) :
    OnlyChanges B s (t.requestMember kind) ↔ OnlyChanges B s t :=
  frame_of h (by simp +decide [State.requestMember])

@[simp] theorem onlyChanges_askLeave (h : partsSend ⊆ B) : OnlyChanges B s t.askLeave ↔ OnlyChanges B s t :=
  frame_of h (by simp +decide [State.askLeave])

@[simp] theorem onlyChanges_seekMember {kind : Nat} (h : partsSend ⊆ B) :
    OnlyChanges B s (t.seekMember kind) ↔ OnlyChanges B s t :=
  frame_of h (by simp +decide [State.seekMember])

@[simp] theorem onlyChanges_planFence (h : [.chain] ⊆ B) : OnlyChanges B s t.planFence ↔ OnlyChanges B s t :=
  frame_of h (by simp +decide [State.planFence])

@[simp] theorem onlyChanges_applyAttach {g : MemberReq} (h : [.dev, .ctxs, .cores, .chainVanes, .foehn, .chain] ⊆ B) :
    OnlyChanges B s (t.applyAttach g) ↔ OnlyChanges B s t := by
  refine frame_of h ?_
  unfold State.applyAttach
  extract_lets s1 s2 s3 s4 s5
  have h2 : OnlyChanges [.dev, .ctxs, .cores, .chainVanes, .foehn, .chain] t s2 := by
    simp +decide [s2, s1]
  split
  · simp +decide [h2]
  · split
    · refine (onlyChanges_planFence (by simp)).2 ((onlyChanges_cores (by simp) (by simp [Core.toStepEntries, State.core])
        (by simp)).2 ((onlyChanges_leaveVanes (by simp +decide)).2 ((onlyChanges_foehn (by simp)).2 ?_)))
      simp +decide [h2, s3]
    · split <;> simp +decide [h2]

@[simp] theorem onlyChanges_applyDetach {g : MemberReq} (h : [.dev, .ctxs, .cores, .chainVanes, .foehn, .chain] ⊆ B) :
    OnlyChanges B s (t.applyDetach g) ↔ OnlyChanges B s t :=
  frame_of h (by simp +decide [State.applyDetach])

@[simp] theorem onlyChanges_setEpoch {n : Nat} (h : [.chain] ⊆ B) :
    OnlyChanges B s (t.setEpoch n) ↔ OnlyChanges B s t :=
  frame_of h (by simp +decide [State.setEpoch])

@[simp] theorem onlyChanges_setStep {n : Nat} (h : [.step] ⊆ B) : OnlyChanges B s (t.setStep n) ↔ OnlyChanges B s t :=
  frame_of h (by simp +decide [State.setStep])

@[simp] theorem onlyChanges_applyGrants {gs : List MemberReq} (h : [.dev, .ctxs, .cores, .chainVanes, .foehn, .links,
      .chain] ⊆ B) :
    OnlyChanges B s (t.applyGrants gs) ↔ OnlyChanges B s t :=
  frame_of h (by simp +decide [State.applyGrants])

@[simp] theorem onlyChanges_departs {gs : List MemberReq} (h : [.dev, .links, .chain] ⊆ B) :
    OnlyChanges B s (t.departs gs) ↔ OnlyChanges B s t :=
  frame_of h (by simp +decide [State.departs])

@[simp] theorem onlyChanges_releaseIngest (h : [.sec] ⊆ B) : OnlyChanges B s t.releaseIngest ↔ OnlyChanges B s t := by
  refine frame_of h (onlyChanges_foldl (fun u c => ?_) _ t)
  split <;> simp

@[simp] theorem onlyChanges_commitSlip (h : [.slip] ⊆ B) : OnlyChanges B s t.commitSlip ↔ OnlyChanges B s t :=
  frame_of h (by simp +decide [State.commitSlip])

@[simp] theorem onlyChanges_swapHalves (h : [.foehn] ⊆ B) : OnlyChanges B s t.swapHalves ↔ OnlyChanges B s t :=
  onlyChanges_foehn h

@[simp] theorem onlyChanges_sendShard {l : Fin 36} {cs : List Chunk} (h : partsSend ⊆ B) :
    OnlyChanges B s (t.sendShard l cs) ↔ OnlyChanges B s t :=
  frame_of h (onlyChanges_foldl (fun u _ => onlyChanges_foldl (fun v _ => by simp) _ u) _ t)

@[simp] theorem onlyChanges_offerShard (h : partsSend ++ [.slip] ⊆ B) :
    OnlyChanges B s t.offerShard ↔ OnlyChanges B s t := by
  refine frame_of h ?_
  unfold State.offerShard
  split
  · split
    · extract_lets r cs f s1 s2
      have h1 : OnlyChanges (partsSend ++ [.slip]) t s1 := by simp +decide [s1]
      have h2 : OnlyChanges (partsSend ++ [.slip]) s1 s2 := by
        simp only [s2]
        split
        · exact onlyChanges_foldl (fun u c => onlyChanges_foldl (fun v f => by simp +decide) _ u) _ s1
        · simp
      exact (onlyChanges_modChain (by simp +decide)).2 (h1.trans h2)
    · simp
  · simp

@[simp] theorem onlyChanges_greetJoiner (h : partsSend ++ [.slip] ⊆ B) :
    OnlyChanges B s t.greetJoiner ↔ OnlyChanges B s t :=
  frame_of h (by simp +decide [State.greetJoiner])

@[simp] theorem onlyChanges_commitRecords {digest : List Byte}  :
    OnlyChanges B s (t.commitRecords digest) ↔ OnlyChanges B s t :=
  frame_of (List.nil_subset B) (by simp +decide [State.commitRecords])

@[simp] theorem onlyChanges_commit {gs : List MemberReq} (h : partsFence ⊆ B) :
    OnlyChanges B s (t.commit gs) ↔ OnlyChanges B s t := by
  refine frame_of h ?_
  unfold State.commit
  extract_lets digest s1 s2 s3 s4 s5 s6
  have h2 : OnlyChanges partsFence t s2 := by simp +decide [s2, s1]
  have h3 : OnlyChanges partsFence s2 s3 := by
    intro p hp
    cases p <;> simp [partsFence, partsWake, Part.same, State.core, Core.newStep, s3] at hp ⊢
  have h5 : OnlyChanges partsFence s3 s5 := by simp +decide [s5, s4]
  have h6 : OnlyChanges partsFence s5 s6 := by simp +decide [s6]
  have hs := h2.trans (h3.trans (h5.trans h6))
  clear_value s6
  simp +decide [hs]

@[simp] theorem onlyChanges_rootClose (h : partsFence ⊆ B) : OnlyChanges B s t.rootClose ↔ OnlyChanges B s t :=
  frame_of h (by simp +decide [State.rootClose])

@[simp] theorem onlyChanges_fenceProgress (h : partsFence ⊆ B) : OnlyChanges B s t.fenceProgress ↔ OnlyChanges B s t :=
  frame_of h (by simp +decide [State.fenceProgress])

@[simp] theorem onlyChanges_consumeFences (h : [.cores, .chainVanes] ⊆ B) :
    OnlyChanges B s t.consumeFences ↔ OnlyChanges B s t := by
  refine frame_of h (onlyChanges_foldl (fun u c => ?_) _ t)
  split <;> simp +decide

@[simp] theorem onlyChanges_fenceDiscard {l : Fin 36} (h : [.chain] ⊆ B) :
    OnlyChanges B s (t.fenceDiscard l) ↔ OnlyChanges B s t :=
  frame_of h (by simp +decide [State.fenceDiscard])

@[simp] theorem onlyChanges_takeReport {l : Fin 36} {p : Packet} (h : partsFence ⊆ B) :
    OnlyChanges B s (t.takeReport l p) ↔ OnlyChanges B s t :=
  frame_of h (by simp +decide [State.takeReport])

@[simp] theorem onlyChanges_takeClose {l : Fin 36} {p : Packet} (h : partsFence ⊆ B) :
    OnlyChanges B s (t.takeClose l p) ↔ OnlyChanges B s t :=
  frame_of h (by simp +decide [State.takeClose])

@[simp] theorem onlyChanges_linkRecord {l : Fin 36} {event : Nat}  :
    OnlyChanges B s (t.linkRecord l event) ↔ OnlyChanges B s t :=
  frame_of (List.nil_subset B) (by simp +decide [State.linkRecord])

@[simp] theorem onlyChanges_takenOver (h : [.chain] ⊆ B) : OnlyChanges B s t.takenOver ↔ OnlyChanges B s t :=
  frame_of h (by simp +decide [State.takenOver])

@[simp] theorem onlyChanges_deniedTakeover (h : [.dev, .links, .chain] ⊆ B) :
    OnlyChanges B s t.deniedTakeover ↔ OnlyChanges B s t :=
  frame_of h (by simp +decide [State.deniedTakeover])

@[simp] theorem onlyChanges_rootTakeover {dev : Nat} (h : partsSend ++ [.dev] ⊆ B) :
    OnlyChanges B s (t.rootTakeover dev) ↔ OnlyChanges B s t :=
  frame_of h (by simp +decide [State.rootTakeover])

@[simp] theorem onlyChanges_arbitrate {cause : Nat} (h : partsRetry ⊆ B) :
    OnlyChanges B s (t.arbitrate cause) ↔ OnlyChanges B s t :=
  frame_of h (by simp +decide [State.arbitrate])

@[simp] theorem onlyChanges_afterFail (h : partsRetry ⊆ B) : OnlyChanges B s t.afterFail ↔ OnlyChanges B s t :=
  frame_of h (by simp +decide [State.afterFail])

@[simp] theorem onlyChanges_linkFails {l : Fin 36} {event : Nat} (h : partsRetry ⊆ B) :
    OnlyChanges B s (t.linkFails l event) ↔ OnlyChanges B s t :=
  frame_of h (by simp +decide [State.linkFails])

@[simp] theorem onlyChanges_swapLane {l : Fin 36} {lane : Nat} (h : partsRetry ⊆ B) :
    OnlyChanges B s (t.swapLane l lane) ↔ OnlyChanges B s t :=
  frame_of h (by simp +decide [State.swapLane])

@[simp] theorem onlyChanges_spareLane {l : Fin 36} {lane : Nat} (h : partsRetry ⊆ B) :
    OnlyChanges B s (t.spareLane l lane) ↔ OnlyChanges B s t :=
  frame_of h (by simp +decide [State.spareLane])

@[simp] theorem onlyChanges_takeSwap {l : Fin 36} {payload : List Byte} (h : partsRetry ⊆ B) :
    OnlyChanges B s (t.takeSwap l payload) ↔ OnlyChanges B s t :=
  frame_of h (by simp +decide [State.takeSwap])

@[simp] theorem onlyChanges_retrain {l : Fin 36} (h : partsRetry ⊆ B) :
    OnlyChanges B s (t.retrain l) ↔ OnlyChanges B s t :=
  frame_of h (by simp +decide [State.retrain])

@[simp] theorem onlyChanges_resendHeld {l : Fin 36} (h : partsRetry ⊆ B) :
    OnlyChanges B s (t.resendHeld l) ↔ OnlyChanges B s t :=
  frame_of h (by simp +decide [State.resendHeld])

@[simp] theorem onlyChanges_beginArrival {l : Fin 36} {vl : Fin 8} (h : [.links, .sec] ⊆ B) :
    OnlyChanges B s (t.beginArrival l vl) ↔ OnlyChanges B s t :=
  frame_of h (by simp +decide [State.beginArrival])

@[simp] theorem onlyChanges_tookWhole {l : Fin 36} {vl : Fin 8} {p : Packet} {rest : List Byte} (h : [.links] ⊆ B) :
    OnlyChanges B s (t.tookWhole l vl p rest) ↔ OnlyChanges B s t :=
  frame_of h (by simp +decide [State.tookWhole])

theorem assemble_onlyChanges (l : Fin 36) (vl : Fin 8) (fuel : Nat) :
    ∀ t : State, OnlyChanges partsRetry t (t.assemble l vl fuel) := by
  induction fuel with
  | zero => exact fun t => onlyChanges_refl _ t
  | succ m ih =>
    intro t
    unfold State.assemble
    split
    · simp +decide
    · dsimp only
      split
      · simp +decide
      · split
        · simp +decide
        · exact OnlyChanges.trans (by simp +decide) (ih _)

@[simp] theorem onlyChanges_assemble {l : Fin 36} {vl : Fin 8} {fuel : Nat} (h : partsRetry ⊆ B) :
    OnlyChanges B s (t.assemble l vl fuel) ↔ OnlyChanges B s t := frame_of h (assemble_onlyChanges l vl fuel t)

@[simp] theorem onlyChanges_takeData {l : Fin 36} {f : Flit} (h : partsRetry ⊆ B) :
    OnlyChanges B s (t.takeData l f) ↔ OnlyChanges B s t := by
  refine frame_of h ?_
  unfold State.takeData
  dsimp only
  split
  · simp +decide
  · split
    · simp +decide
    · split
      · simp +decide
      · split <;> simp +decide

@[simp] theorem onlyChanges_takeFlit {l : Fin 36} {f : Flit} (h : partsRetry ⊆ B) :
    OnlyChanges B s (t.takeFlit l f) ↔ OnlyChanges B s t := by
  refine frame_of h ?_
  unfold State.takeFlit
  repeat' split
  all_goals simp +decide

@[simp] theorem onlyChanges_tookPacket {p : Packet} (h : [.chain] ⊆ B) :
    OnlyChanges B s (t.tookPacket p) ↔ OnlyChanges B s t :=
  frame_of h (by simp +decide [State.tookPacket])

@[simp] theorem onlyChanges_holdPacket {x : HeldPkt} (h : [.links, .chain] ⊆ B) :
    OnlyChanges B s (t.holdPacket x) ↔ OnlyChanges B s t :=
  frame_of h (by simp +decide [State.holdPacket])

@[simp] theorem onlyChanges_collected {l : Fin 36} {p : Packet} (h : [.links] ⊆ B) :
    OnlyChanges B s (t.collected l p) ↔ OnlyChanges B s t :=
  frame_of h (by simp +decide [State.collected])

@[simp] theorem onlyChanges_discarded {l : Fin 36} (h : [.links] ⊆ B) :
    OnlyChanges B s (t.discarded l) ↔ OnlyChanges B s t :=
  frame_of h (by simp +decide [State.discarded])

@[simp] theorem onlyChanges_deny {p : Path} {block addr : Nat} (h : [.sec] ⊆ B) :
    OnlyChanges B s (t.deny p block addr) ↔ OnlyChanges B s t :=
  frame_of h (by simp +decide [State.deny])

@[simp] theorem onlyChanges_denyReg {p : Path} {off : Nat} (h : [.sec] ⊆ B) :
    OnlyChanges B s (t.denyReg p off) ↔ OnlyChanges B s t :=
  frame_of h (by simp +decide [State.denyReg])

@[simp] theorem onlyChanges_remoteWrite {l : Fin 36} {p : Packet} (h : partsStore ++ partsSend ++ [.vio] ⊆ B) :
    OnlyChanges B s (t.remoteWrite l p) ↔ OnlyChanges B s t :=
  frame_of h (by simp +decide [State.remoteWrite])

@[simp] theorem onlyChanges_remoteRead {l : Fin 36} {p : Packet} (h : partsRead ++ partsSend ++ [.vio] ⊆ B) :
    OnlyChanges B s (t.remoteRead l p) ↔ OnlyChanges B s t :=
  frame_of h (by simp +decide [State.remoteRead])

@[simp] theorem onlyChanges_takeWriteAck {p : Packet} (h : partsStore ++ partsSend ++ [.cores, .draughts, .mxScales,
      .fresh] ⊆ B) :
    OnlyChanges B s (t.takeWriteAck p) ↔ OnlyChanges B s t := by
  refine frame_of h ?_
  unfold State.takeWriteAck
  split <;> simp +decide

@[simp] theorem onlyChanges_takeReadData {p : Packet} (h : partsStore ++ partsSend ++ [.cores, .draughts, .mxScales,
      .fresh] ⊆ B) :
    OnlyChanges B s (t.takeReadData p) ↔ OnlyChanges B s t := by
  refine frame_of h ?_
  unfold State.takeReadData
  split <;> simp +decide

@[simp] theorem onlyChanges_takeSignal {l : Fin 36} {p : Packet} (h : partsWake ⊆ B) :
    OnlyChanges B s (t.takeSignal l p) ↔ OnlyChanges B s t :=
  frame_of h (by simp +decide [State.takeSignal])

@[simp] theorem onlyChanges_takeError {p : Packet} (h : partsSend ++ partsStore ++ [.cores, .draughts, .mxScales, .fresh] ⊆ B) :
    OnlyChanges B s (t.takeError p) ↔ OnlyChanges B s t := by
  refine frame_of h ?_
  unfold State.takeError
  dsimp only
  split
  · split <;> simp +decide
  · split
    · split <;> simp +decide
    · simp +decide

@[simp] theorem onlyChanges_takeUp {p : Packet} {a : Abandon} (h : partsSend ⊆ B) :
    OnlyChanges B s (t.takeUp p a) ↔ OnlyChanges B s t :=
  frame_of h (by simp +decide [State.takeUp])

@[simp] theorem onlyChanges_takeRetry {p : Packet} {a : Abandon} (h : partsSend ++ [.dev, .ports, .ctxs, .cores,
      .gales, .draughts, .chainVanes, .signals, .foehn, .slip, .rst, .withheld] ⊆ B) :
    OnlyChanges B s (t.takeRetry p a) ↔ OnlyChanges B s t :=
  frame_of h (by simp +decide [State.takeRetry])

@[simp] theorem onlyChanges_takeHalt {a : Abandon} (h : partsSend ++ [.dev, .ctxs, .frozen, .slip, .rst] ⊆ B) :
    OnlyChanges B s (t.takeHalt a) ↔ OnlyChanges B s t :=
  frame_of h (by simp +decide [State.takeHalt])

@[simp] theorem onlyChanges_takeRetryDone {l : Fin 36} {p : Packet} {a : Abandon} (h : [.chain] ⊆ B) :
    OnlyChanges B s (t.takeRetryDone l p a) ↔ OnlyChanges B s t :=
  frame_of h (by simp +decide [State.takeRetryDone])

@[simp] theorem onlyChanges_takeAbandon {l : Fin 36} {p : Packet} (h : partsRetry ⊆ B) :
    OnlyChanges B s (t.takeAbandon l p) ↔ OnlyChanges B s t := by
  refine frame_of h ?_
  unfold State.takeAbandon
  dsimp only
  split <;> simp +decide

@[simp] theorem onlyChanges_takeMember {p : Packet} (h : partsSend ++ [.dev] ⊆ B) :
    OnlyChanges B s (t.takeMember p) ↔ OnlyChanges B s t := by
  refine frame_of h ?_
  unfold State.takeMember
  dsimp only
  split
  · simp
  · split
    · simp
    · split <;> simp +decide

@[simp] theorem onlyChanges_joins {payload : List Byte} (h : partsWake ++ [.step] ⊆ B) :
    OnlyChanges B s (t.joins payload) ↔ OnlyChanges B s t :=
  frame_of h (by simp +decide [State.joins])

@[simp] theorem onlyChanges_takeGrant {p : Packet} (h : partsWake ++ [.step] ⊆ B) :
    OnlyChanges B s (t.takeGrant p) ↔ OnlyChanges B s t := by
  refine frame_of h ?_
  unfold State.takeGrant
  split <;> simp +decide

@[simp] theorem onlyChanges_takeDeny {p : Packet} (h : [.dev, .links, .chain] ⊆ B) :
    OnlyChanges B s (t.takeDeny p) ↔ OnlyChanges B s t :=
  frame_of h (by simp +decide [State.takeDeny])

@[simp] theorem onlyChanges_takeHeartbeat {l : Fin 36} (h : [.chain] ⊆ B) :
    OnlyChanges B s (t.takeHeartbeat l) ↔ OnlyChanges B s t :=
  frame_of h (by simp +decide [State.takeHeartbeat])

@[simp] theorem onlyChanges_modChunk {c : Chunk} {f : Chunk → Chunk} (h : [.slip] ⊆ B) :
    OnlyChanges B s (t.modChunk c f) ↔ OnlyChanges B s t :=
  frame_of h (by simp +decide [State.modChunk])

@[simp] theorem onlyChanges_sendChunk {c : Chunk} {d : Fin 2} (h : partsSend ++ [.slip] ⊆ B) :
    OnlyChanges B s (t.sendChunk c d) ↔ OnlyChanges B s t :=
  frame_of h (by simp +decide [State.sendChunk])

@[simp] theorem onlyChanges_reachChunk {n : Fin 12} {gi : Fin 256} {chunk : Nat} (h : partsStore ++ [.foehn, .slip] ⊆ B) :
    OnlyChanges B s (t.reachChunk n gi chunk) ↔ OnlyChanges B s t := by
  refine frame_of h ?_
  unfold State.reachChunk
  split <;> simp +decide

@[simp] theorem onlyChanges_ackChunk {c : Chunk} {d : Fin 2} (h : [.slip] ⊆ B) :
    OnlyChanges B s (t.ackChunk c d) ↔ OnlyChanges B s t :=
  frame_of h (by simp +decide [State.ackChunk])

@[simp] theorem onlyChanges_takeChunkAck {p : Packet} {f : Frame} (h : [.slip] ⊆ B) :
    OnlyChanges B s (t.takeChunkAck p f) ↔ OnlyChanges B s t := by
  refine frame_of h ?_
  unfold State.takeChunkAck
  split <;> simp +decide

@[simp] theorem onlyChanges_slipFails {d : Fin 2} (h : partsRetry ⊆ B) :
    OnlyChanges B s (t.slipFails d) ↔ OnlyChanges B s t :=
  frame_of h (by simp +decide [State.slipFails])

@[simp] theorem onlyChanges_resendChunk {c : Chunk} {d : Fin 2} (h : partsSend ++ [.slip] ⊆ B) :
    OnlyChanges B s (t.resendChunk c d) ↔ OnlyChanges B s t :=
  frame_of h (by simp +decide [State.resendChunk])

@[simp] theorem onlyChanges_takeChunkNak {p : Packet} {f : Frame} (h : partsRetry ⊆ B) :
    OnlyChanges B s (t.takeChunkNak p f) ↔ OnlyChanges B s t := by
  refine frame_of h ?_
  unfold State.takeChunkNak
  split
  · simp
  · split
    · simp
    · dsimp only
      split
      · split <;> simp +decide
      · simp +decide

@[simp] theorem onlyChanges_takeStepAck {p : Packet} {f : Frame} (h : partsSend ++ [.slip] ⊆ B) :
    OnlyChanges B s (t.takeStepAck p f) ↔ OnlyChanges B s t := by
  refine frame_of h ?_
  unfold State.takeStepAck
  split <;> simp +decide

@[simp] theorem onlyChanges_shadowAnswer {type : Nat} {f : Frame} (h : partsSend ++ [.slip] ⊆ B) :
    OnlyChanges B s (t.shadowAnswer type f) ↔ OnlyChanges B s t :=
  frame_of h (by simp +decide [State.shadowAnswer])

theorem takeFrame_onlyChanges {A : List Part} {f : Frame} {act : State → State} (h : partsSend ++ [.slip] ⊆ A)
    (ha : ∀ u, OnlyChanges A u (act u)) : OnlyChanges A t (t.takeFrame f act) := by
  have hs : partsSend ⊆ A := fun p hp => h (List.mem_append_left _ hp)
  have hm : [.slip] ⊆ A := fun p hp => h (List.mem_append_right _ hp)
  unfold State.takeFrame
  split
  · simp
  · dsimp only
    split
    · simp [h]
    · split
      · simp
      · split <;> split <;> first | exact OnlyChanges.trans (by simp [hm]) (ha _) | simp [h, hm]

@[simp] theorem onlyChanges_takeFrameData {f : Frame} (h : [.slip] ⊆ B) :
    OnlyChanges B s (t.takeFrameData f) ↔ OnlyChanges B s t :=
  frame_of h (by simp +decide [State.takeFrameData])

@[simp] theorem onlyChanges_shadowCheck {f : Frame} (h : partsSend ++ [.slip] ⊆ B) :
    OnlyChanges B s (t.shadowCheck f) ↔ OnlyChanges B s t :=
  frame_of h (by simp +decide [State.shadowCheck])

@[simp] theorem onlyChanges_endChunk {f : Frame} (h : partsStore ++ partsSend ++ [.slip] ⊆ B) :
    OnlyChanges B s (t.endChunk f) ↔ OnlyChanges B s t := by
  refine frame_of h ?_
  unfold State.endChunk
  repeat' split
  all_goals simp +decide

@[simp] theorem onlyChanges_takeStepEnd {f : Frame} (h : partsSend ++ [.slip] ⊆ B) :
    OnlyChanges B s (t.takeStepEnd f) ↔ OnlyChanges B s t :=
  frame_of h (by simp +decide [State.takeStepEnd])

@[simp] theorem onlyChanges_takeAbort {f : Frame} (h : [.slip] ⊆ B) :
    OnlyChanges B s (t.takeAbort f) ↔ OnlyChanges B s t :=
  frame_of h (by simp +decide [State.takeAbort])

@[simp] theorem onlyChanges_takeSlip {p : Packet} (h : partsRetry ++ partsStore ⊆ B) :
    OnlyChanges B s (t.takeSlip p) ↔ OnlyChanges B s t := by
  refine frame_of h ?_
  have hs : partsSend ++ [.slip] ⊆ partsRetry ++ partsStore := by decide
  unfold State.takeSlip
  dsimp only
  split
  · exact takeFrame_onlyChanges hs fun u => by simp +decide
  · exact takeFrame_onlyChanges hs fun u => by simp +decide
  · exact takeFrame_onlyChanges hs fun u => by simp +decide
  · exact takeFrame_onlyChanges hs fun u => by simp +decide
  · simp +decide
  · simp +decide
  · simp +decide
  · split <;> simp +decide

end
end Sys2Proof.Machine
end

section
/-! SUPPORT. Frames of the state's operations: the security block, the keep store, restores, resets and the pairing. -/

namespace Sys2Proof.Machine

section
variable {B : List Part} {s t : State}

@[simp] theorem onlyChanges_drew {n : Nat} (h : [.sec] ⊆ B) : OnlyChanges B s (t.drew n) ↔ OnlyChanges B s t :=
  frame_of h (by simp +decide [State.drew])

@[simp] theorem onlyChanges_storeKey {slot use : Nat} {key : List Byte} (h : [.sec] ⊆ B) :
    OnlyChanges B s (t.storeKey slot use key) ↔ OnlyChanges B s t :=
  frame_of h (by simp +decide [State.storeKey])

@[simp] theorem onlyChanges_dropSession {i : Fin 2} (h : [.sec] ⊆ B) :
    OnlyChanges B s (t.dropSession i) ↔ OnlyChanges B s t :=
  frame_of h (by simp +decide [State.dropSession])

@[simp] theorem onlyChanges_tokenAnswer {op : Nat} {i : Fin 2} {tok : List Byte} {p : Path} {tag : Nat} {a : Answer} {busy : Bool}
    (h : [.sec] ⊆ B) : OnlyChanges B s (t.tokenAnswer op i tok p tag a busy) ↔ OnlyChanges B s t := by
  simp [State.tokenAnswer, h]

@[simp] theorem onlyChanges_secConflict {op : Nat} {p : Path} {tag : Nat} (h : [.sec] ⊆ B) :
    OnlyChanges B s (t.secConflict op p tag) ↔ OnlyChanges B s t := by
  refine frame_of h ?_
  unfold State.secConflict
  split
  · split <;> simp
  · simp

theorem secCommand_onlyChanges {A : List Part} {op : Nat} {p : Path} {tag : Nat} {act : Fin 2 → State → State} (h : [.sec] ⊆ A)
    (ha : ∀ i, OnlyChanges A t (act i t)) : OnlyChanges A t (t.secCommand op p tag act) := by
  unfold State.secCommand
  split
  · simp [h]
  · split
    · simp [h]
    · exact ha _

theorem tokenCommand_onlyChanges {A : List Part} {op : Nat} {p : Path} {tag : Nat}
    {act : Fin 2 → List Byte → State → State × Answer} (h : [.sec] ⊆ A) (ha : ∀ i b, OnlyChanges A t (act i b t).1) :
    OnlyChanges A t (t.tokenCommand op p tag act) := by
  unfold State.tokenCommand
  refine secCommand_onlyChanges h fun i => ?_
  dsimp only
  split
  · simp [h]
  · have hi := ha i (tokBody (t.token i))
    split <;> simp [h, hi]

@[simp] theorem onlyChanges_cmdNonce {p : Path} {tag : Nat} (h : [.sec] ⊆ B) :
    OnlyChanges B s (t.cmdNonce p tag) ↔ OnlyChanges B s t := by
  refine frame_of h (secCommand_onlyChanges (by simp) fun i => ?_)
  split <;> simp

@[simp] theorem onlyChanges_cmdSession {p : Path} {tag : Nat} (h : [.sec] ⊆ B) :
    OnlyChanges B s (t.cmdSession p tag) ↔ OnlyChanges B s t := by
  refine frame_of h (tokenCommand_onlyChanges (by simp) fun i b => ?_)
  simp

@[simp] theorem onlyChanges_cmdEndSession {p : Path} {tag : Nat} (h : [.sec] ⊆ B) :
    OnlyChanges B s (t.cmdEndSession p tag) ↔ OnlyChanges B s t := by
  refine frame_of h (secCommand_onlyChanges (by simp) fun i => ?_)
  split <;> simp

@[simp] theorem onlyChanges_beginFusing {op : Nat} {p : Path} {tag : Nat} {key : List Byte} {bad : List BadCopy} (h :
      [.sec, .rst] ⊆ B) :
    OnlyChanges B s (t.beginFusing op p tag key bad) ↔ OnlyChanges B s t :=
  frame_of h (by simp +decide [State.beginFusing])

@[simp] theorem onlyChanges_cmdShip {p : Path} {tag : Nat} {bad : List BadCopy} (h : [.sec, .rst] ⊆ B) :
    OnlyChanges B s (t.cmdShip p tag bad) ↔ OnlyChanges B s t := by
  refine frame_of h (tokenCommand_onlyChanges (by simp) fun i b => ?_)
  split <;> simp +decide

@[simp] theorem onlyChanges_cmdFuseOwner {p : Path} {tag : Nat} {bad : List BadCopy} (h : [.sec, .rst] ⊆ B) :
    OnlyChanges B s (t.cmdFuseOwner p tag bad) ↔ OnlyChanges B s t := by
  refine frame_of h (tokenCommand_onlyChanges (by simp) fun i b => ?_)
  simp +decide

@[simp] theorem onlyChanges_endFusing {f : Fusing} (h : [.sec, .rst] ⊆ B) :
    OnlyChanges B s (t.endFusing f) ↔ OnlyChanges B s t :=
  frame_of h (by simp +decide [State.endFusing])

@[simp] theorem onlyChanges_cmdKeyLoad {p : Path} {tag : Nat} (h : [.sec] ⊆ B) :
    OnlyChanges B s (t.cmdKeyLoad p tag) ↔ OnlyChanges B s t := by
  refine frame_of h (tokenCommand_onlyChanges (by simp) fun i b => ?_)
  dsimp only
  split <;> simp

@[simp] theorem onlyChanges_cmdKeyDelete {p : Path} {tag : Nat} (h : [.sec] ⊆ B) :
    OnlyChanges B s (t.cmdKeyDelete p tag) ↔ OnlyChanges B s t := by
  refine frame_of h (tokenCommand_onlyChanges (by simp) fun i b => ?_)
  simp

@[simp] theorem onlyChanges_cmdPolicy {p : Path} {tag : Nat} (h : [.sec] ⊆ B) :
    OnlyChanges B s (t.cmdPolicy p tag) ↔ OnlyChanges B s t := by
  refine frame_of h (tokenCommand_onlyChanges (by simp) fun i b => ?_)
  simp

@[simp] theorem onlyChanges_cmdEndorse {p : Path} {tag : Nat} (h : [.sec] ⊆ B) :
    OnlyChanges B s (t.cmdEndorse p tag) ↔ OnlyChanges B s t := by
  refine frame_of h (tokenCommand_onlyChanges (by simp) fun i b => ?_)
  dsimp only
  split <;> simp

@[simp] theorem onlyChanges_dropTables (h : [.ctxs, .cores, .stores, .gales, .draughts, .chainVanes, .sec, .plan, .loaded, .loads,
      .hostLeaves, .loadedChunks] ⊆ B) : OnlyChanges B s t.dropTables ↔ OnlyChanges B s t :=
  frame_of h fun p hp => by cases p <;> simp [Part.same, State.dropTables, State.stack, State.stc] at hp ⊢

@[simp] theorem onlyChanges_zeroFill (h : partsStore ++ [.ctxs, .cores, .gales, .draughts, .chainVanes, .sec, .plan, .loaded,
      .loads, .hostLeaves, .loadedChunks] ⊆ B) : OnlyChanges B s t.zeroFill ↔ OnlyChanges B s t := by
  refine frame_of h ?_
  unfold State.zeroFill
  have hd : OnlyChanges (partsStore ++ [.ctxs, .cores, .gales, .draughts, .chainVanes, .sec, .plan, .loaded, .loads, .hostLeaves,
    .loadedChunks]) t t.dropTables := by simp +decide
  refine hd.trans ?_
  generalize t.dropTables = u
  intro p hp
  cases p <;> simp [Part.same, partsStore] at hp ⊢

@[simp] theorem onlyChanges_cmdDebugUnlock {p : Path} {tag : Nat} (h : partsSend ++ [.dev, .ctxs, .frozen, .slip] ⊆ B) :
    OnlyChanges B s (t.cmdDebugUnlock p tag) ↔ OnlyChanges B s t := by
  refine frame_of h (tokenCommand_onlyChanges (by simp +decide) fun i b => ?_)
  exact (onlyChanges_modSec (by simp +decide)).2
    ((onlyChanges_links (by simp +decide)).2 (by simp))

@[simp] theorem onlyChanges_ingestAnswer {p : Path} {tag : Nat} {a : Answer} {busy : Bool} (h : [.sec] ⊆ B) :
    OnlyChanges B s (t.ingestAnswer p tag a busy) ↔ OnlyChanges B s t :=
  frame_of h (by simp +decide [State.ingestAnswer])

@[simp] theorem onlyChanges_modChannel {c : Nat} {f : IngestChan → IngestChan} (h : [.sec] ⊆ B) :
    OnlyChanges B s (t.modChannel c f) ↔ OnlyChanges B s t := by
  refine frame_of h ?_
  unfold State.modChannel
  split <;> simp +decide

@[simp] theorem onlyChanges_cmdSubmit {p : Path} {chan : Fin 8} {tag : Nat} (h : [.sec] ⊆ B) :
    OnlyChanges B s (t.cmdSubmit p chan tag) ↔ OnlyChanges B s t := by
  refine frame_of h ?_
  unfold State.cmdSubmit
  repeat' split
  all_goals simp +decide

@[simp] theorem onlyChanges_submitEnds {p : Path} {tag : Nat} {a : Answer} (h : [.sec] ⊆ B) :
    OnlyChanges B s (t.submitEnds p tag a) ↔ OnlyChanges B s t :=
  frame_of h (by simp +decide [State.submitEnds])

@[simp] theorem onlyChanges_dropKeep {w : Nat} (h : [.rst, .hlt] ⊆ B) :
    OnlyChanges B s (t.dropKeep w) ↔ OnlyChanges B s t := by
  refine frame_of h ?_
  unfold State.dropKeep
  repeat' split
  all_goals simp +decide

@[simp] theorem onlyChanges_keepErrors {n : Nat} (h : [.hlt] ⊆ B) :
    OnlyChanges B s (t.keepErrors n) ↔ OnlyChanges B s t :=
  frame_of h (by simp +decide [State.keepErrors])

@[simp] theorem onlyChanges_readKeep {fixed lost : List Nat} (h : [.rst, .hlt] ⊆ B) :
    OnlyChanges B s (t.readKeep fixed lost) ↔ OnlyChanges B s t :=
  frame_of h (by simp +decide [State.readKeep])

@[simp] theorem onlyChanges_refuseRestore (h : partsRetry ⊆ B) : OnlyChanges B s t.refuseRestore ↔ OnlyChanges B s t :=
  frame_of h (by simp +decide [State.refuseRestore])

@[simp] theorem onlyChanges_showLoading (h : [.foehn] ⊆ B) : OnlyChanges B s t.showLoading ↔ OnlyChanges B s t :=
  frame_of h (by simp +decide [State.showLoading])

@[simp] theorem onlyChanges_settleLoads (h : [.foehn, .loads] ⊆ B) :
    OnlyChanges B s t.settleLoads ↔ OnlyChanges B s t :=
  frame_of h (by simp +decide [State.settleLoads])

@[simp] theorem onlyChanges_loadedAt {loads : List Nat} {group kind chunk : Nat} (h : [.loadedChunks] ⊆ B) :
    OnlyChanges B s (t.loadedAt loads group kind chunk) ↔ OnlyChanges B s t :=
  frame_of h (by simp +decide [State.loadedAt])

@[simp] theorem onlyChanges_acceptChunk {p : ChunkProof} {a : Nat} {bytes : List Byte} {store : Bool} (h : partsRetry
      ++ partsStore ++ [.loads, .loadedChunks] ⊆ B) :
    OnlyChanges B s (t.acceptChunk p a bytes store) ↔ OnlyChanges B s t :=
  frame_of h (by simp +decide [State.acceptChunk])

@[simp] theorem onlyChanges_offerChunk {p : ChunkProof} {bytes : Option (List Byte)} {store : Bool} (h : partsRetry ++
      partsStore ++ [.loads, .loadedChunks] ⊆ B) :
    OnlyChanges B s (t.offerChunk p bytes store) ↔ OnlyChanges B s t := by
  refine frame_of h ?_
  unfold State.offerChunk
  repeat' split
  all_goals simp +decide

@[simp] theorem onlyChanges_shardCheck (h : partsWake ++ [.step] ⊆ B) : OnlyChanges B s t.shardCheck ↔ OnlyChanges B s t := by
  refine frame_of h ?_
  unfold State.shardCheck
  dsimp only
  split
  · split <;> simp +decide
  · simp

theorem joinFrame_onlyChanges {A : List Part} {f : Frame} {act : State → State} (h : partsSend ++ [.slip] ⊆ A)
    (ha : ∀ u, OnlyChanges A u (act u)) : OnlyChanges A t (t.joinFrame f act) := by
  have hm : [.slip] ⊆ A := fun p hp => h (List.mem_append_right _ hp)
  have hc : [.chain] ⊆ A := fun p hp => h (List.mem_append_left _ (by simp_all [partsSend]))
  unfold State.joinFrame
  extract_lets x none s1
  have h1 : OnlyChanges A t s1 := by
    simp only [s1]
    split
    · simp
    · exact (onlyChanges_modChain hc).2 ((onlyChanges_modSlip hm).2 (onlyChanges_refl A t))
  clear_value s1
  split
  · simp
  split
  · exact (onlyChanges_shadowAnswer h).2 h1
  · exact h1.trans (((onlyChanges_modSlip hm).2 (onlyChanges_refl A s1)).trans (ha _))

@[simp] theorem onlyChanges_joinChunk {f : Frame} (h : partsStore ++ partsWake ++ [.step, .loads, .loadedChunks] ⊆ B) :
    OnlyChanges B s (t.joinChunk f) ↔ OnlyChanges B s t := by
  refine frame_of h ?_
  unfold State.joinChunk
  dsimp only
  split
  · split <;> simp +decide
  · simp +decide

@[simp] theorem onlyChanges_takeJoin {p : Packet} (h : partsStore ++ partsWake ++ [.step, .loads, .loadedChunks] ⊆ B) :
    OnlyChanges B s (t.takeJoin p) ↔ OnlyChanges B s t := by
  refine frame_of h ?_
  have hs : (partsSend ++ [.slip] : List Part) ⊆ (partsStore ++ partsWake ++ [.step, .loads, .loadedChunks] : List Part) := by decide
  unfold State.takeJoin
  dsimp only
  split
  · exact joinFrame_onlyChanges hs fun u => by simp +decide
  · exact joinFrame_onlyChanges hs fun u => by simp +decide
  · exact joinFrame_onlyChanges hs fun u => by simp +decide
  · simp +decide

@[simp] theorem onlyChanges_takeShard {pkt : Packet} {proof : Option ChunkProof} (h : partsWake ++ [.stores,
      .stackBytes, .step, .loads, .loadedChunks] ⊆ B) :
    OnlyChanges B s (t.takeShard pkt proof) ↔ OnlyChanges B s t := by
  refine frame_of h ?_
  unfold State.takeShard
  split <;> simp +decide

@[simp] theorem onlyChanges_strayWrite {stack a : Nat} (h : [.vio] ⊆ B) :
    OnlyChanges B s (t.strayWrite stack a) ↔ OnlyChanges B s t :=
  frame_of h (by simp +decide [State.strayWrite])

@[simp] theorem onlyChanges_hostTake {f : Frame} (h : partsStore ++ [.vio, .hostLeaves] ⊆ B) :
    OnlyChanges B s (t.hostTake f).1 ↔ OnlyChanges B s t := by
  refine frame_of h ?_
  unfold State.hostTake
  dsimp only
  split
  · simp
  · repeat' split
    all_goals simp +decide

theorem hostFrames_onlyChanges (fuel : Nat) : ∀ (t : State) (bs : List Byte),
    OnlyChanges (partsStore ++ [.vio, .hostLeaves]) t (t.hostFrames fuel bs).1 := by
  induction fuel with
  | zero => exact fun t _ => onlyChanges_refl _ t
  | succ m ih =>
    intro t bs
    unfold State.hostFrames
    split
    · simp
    · split
      · simp
      · next f rest hf =>
        have ht : OnlyChanges (partsStore ++ [.vio, .hostLeaves]) t (t.hostTake f).1 := by simp +decide
        split
        · next u hu => rw [hu] at ht; exact ht.trans (ih _ _)
        · next u hu => rw [hu] at ht; exact ht

@[simp] theorem onlyChanges_hostDone (h : partsRetry ++ [.loads] ⊆ B) :
    OnlyChanges B s t.hostDone ↔ OnlyChanges B s t :=
  frame_of h (by simp +decide [State.hostDone])

@[simp] theorem onlyChanges_loadBuffer {c b : Nat} {plain : List Byte}
    (h : partsRetry ++ partsStore ++ [.vio, .loads, .hostLeaves] ⊆ B) :
    OnlyChanges B s (t.loadBuffer c b plain) ↔ OnlyChanges B s t := by
  refine frame_of h ?_
  unfold State.loadBuffer
  split
  next u ok hu =>
    have ht := hostFrames_onlyChanges (plain.length / 64 + 1) t plain
    rw [hu] at ht
    have hs : OnlyChanges (partsRetry ++ partsStore ++ [.vio, .loads, .hostLeaves]) t u := ht.mono (by decide)
    dsimp only
    cases ok <;> simp +decide [hs, -List.append_assoc]

@[simp] theorem onlyChanges_outcome {reached code : Nat} (h : [.rst] ⊆ B) :
    OnlyChanges B s (t.outcome reached code) ↔ OnlyChanges B s t :=
  frame_of h (by simp +decide [State.outcome])

@[simp] theorem onlyChanges_enterPhase {n : Nat} (h : [.dev, .rst] ⊆ B) :
    OnlyChanges B s (t.enterPhase n) ↔ OnlyChanges B s t :=
  frame_of h (by simp +decide [State.enterPhase])

@[simp] theorem onlyChanges_enterSafe {phase : Nat} (h : partsSend ++ [.dev, .rst] ⊆ B) :
    OnlyChanges B s (t.enterSafe phase) ↔ OnlyChanges B s t :=
  frame_of h (by simp +decide [State.enterSafe])

@[simp] theorem onlyChanges_failBringUp {code : Nat} (h : partsSend ++ [.dev, .rst] ⊆ B) :
    OnlyChanges B s (t.failBringUp code) ↔ OnlyChanges B s t :=
  frame_of h (by simp +decide [State.failBringUp])

@[simp] theorem onlyChanges_holdReleased (h : [.rst] ⊆ B) : OnlyChanges B s t.holdReleased ↔ OnlyChanges B s t :=
  frame_of h (by simp +decide [State.holdReleased])

@[simp] theorem onlyChanges_rstAnswer {p : Path} {tag : Nat} {a : Answer} {busy : Bool} (h : [.rst] ⊆ B) :
    OnlyChanges B s (t.rstAnswer p tag a busy) ↔ OnlyChanges B s t :=
  frame_of h (by simp +decide [State.rstAnswer])

@[simp] theorem onlyChanges_resetCommand {p : Path} {tag : Nat} {scope : Scope} (h : [.sec, .rst] ⊆ B) :
    OnlyChanges B s (t.resetCommand p tag scope) ↔ OnlyChanges B s t :=
  frame_of h (by simp +decide [State.resetCommand])

@[simp] theorem onlyChanges_coreScope (h : Part.all ⊆ B) : OnlyChanges B s t.coreScope ↔ OnlyChanges B s t :=
  frame_of h fun p hp => by cases p <;> simp [Part.all, Part.same, State.coreScope] at hp ⊢

@[simp] theorem onlyChanges_wideScope {cold powerOn : Bool} (h : Part.all ⊆ B) :
    OnlyChanges B s (t.wideScope cold powerOn) ↔ OnlyChanges B s t :=
  frame_of h fun p hp => by cases p <;> simp [Part.all, Part.same, State.wideScope] at hp ⊢

@[simp] theorem onlyChanges_applyScope {x : Taking} (h : Part.all ⊆ B) : OnlyChanges B s (t.applyScope x) ↔ OnlyChanges B s t := by
  refine frame_of h ?_
  unfold State.applyScope
  dsimp only
  split <;> simp +decide

@[simp] theorem onlyChanges_selfRefresh (h : partsRead ++ [.stackBytes] ⊆ B) :
    OnlyChanges B s t.selfRefresh ↔ OnlyChanges B s t :=
  frame_of h (by simp +decide [State.selfRefresh])

@[simp] theorem onlyChanges_pair {l : Fin 36} {kind : Nat} {m : List Byte} (h : [.links, .sec] ⊆ B) :
    OnlyChanges B s (t.pair l kind m) ↔ OnlyChanges B s t :=
  frame_of h (by simp +decide [State.pair])

@[simp] theorem onlyChanges_sendHello {l : Fin 36} {boot : Bool} (h : [.links, .sec] ⊆ B) :
    OnlyChanges B s (t.sendHello l boot) ↔ OnlyChanges B s t :=
  frame_of h (by simp +decide [State.sendHello])

@[simp] theorem onlyChanges_refuseSession {l : Fin 36} (h : partsRetry ⊆ B) :
    OnlyChanges B s (t.refuseSession l) ↔ OnlyChanges B s t :=
  frame_of h (by simp +decide [State.refuseSession])

@[simp] theorem onlyChanges_settleLinks (h : [.dev, .rst] ⊆ B) : OnlyChanges B s t.settleLinks ↔ OnlyChanges B s t :=
  frame_of h (by simp +decide [State.settleLinks])

@[simp] theorem onlyChanges_settlePairing (h : [.slip, .chain] ⊆ B) :
    OnlyChanges B s t.settlePairing ↔ OnlyChanges B s t :=
  frame_of h (by simp +decide [State.settlePairing])

@[simp] theorem onlyChanges_keyed {l : Fin 36} {initiator : Bool} {peer : List Byte} {prk okm : List Byte} (h : [.dev,
      .slip, .links, .chain, .rst] ⊆ B) :
    OnlyChanges B s (t.keyed l initiator peer prk okm) ↔ OnlyChanges B s t :=
  frame_of h (by simp +decide [State.keyed])

@[simp] theorem onlyChanges_sendImage {l : Fin 36} (h : [.links, .sec] ⊆ B) :
    OnlyChanges B s (t.sendImage l) ↔ OnlyChanges B s t := by
  refine frame_of h ?_
  unfold State.sendImage
  split <;> simp +decide

@[simp] theorem onlyChanges_answerHello {l : Fin 36} {m : List Byte} {boot : Bool} (h : partsSend ⊆ B) :
    OnlyChanges B s (t.answerHello l m boot) ↔ OnlyChanges B s t :=
  frame_of h (by simp +decide [State.answerHello])

@[simp] theorem onlyChanges_takeHello {l : Fin 36} {m : List Byte} (h : partsRetry ⊆ B) :
    OnlyChanges B s (t.takeHello l m) ↔ OnlyChanges B s t :=
  frame_of h (by simp +decide [State.takeHello])

@[simp] theorem onlyChanges_takeReply {l : Fin 36} {r : List Byte} (h : partsRetry ⊆ B) :
    OnlyChanges B s (t.takeReply l r) ↔ OnlyChanges B s t :=
  frame_of h (by simp +decide [State.takeReply])

@[simp] theorem onlyChanges_takeConfirm {l : Fin 36} {m : List Byte} (h : partsRetry ⊆ B) :
    OnlyChanges B s (t.takeConfirm l m) ↔ OnlyChanges B s t :=
  frame_of h (by simp +decide [State.takeConfirm])

@[simp] theorem onlyChanges_takeFinish {l : Fin 36} {m : List Byte} (h : partsRetry ⊆ B) :
    OnlyChanges B s (t.takeFinish l m) ↔ OnlyChanges B s t :=
  frame_of h (by simp +decide [State.takeFinish])

@[simp] theorem onlyChanges_offerPair (h : partsSend ⊆ B) : OnlyChanges B s t.offerPair ↔ OnlyChanges B s t :=
  frame_of h (by simp +decide [State.offerPair])

end
end Sys2Proof.Machine
end

section
/-! SUPPORT. Frames of the state's operations: bring-up, register writes, commands, packets at their turn and the ports. -/

namespace Sys2Proof.Machine

section
variable {B : List Part} {s t : State}

@[simp] theorem onlyChanges_afterPhase1 (h : partsSend ++ [.dev, .rst] ⊆ B) :
    OnlyChanges B s t.afterPhase1 ↔ OnlyChanges B s t :=
  frame_of h (by simp +decide [State.afterPhase1])

@[simp] theorem onlyChanges_countReset {x : Taking} (h : [.rst, .hlt] ⊆ B) :
    OnlyChanges B s (t.countReset x) ↔ OnlyChanges B s t :=
  frame_of h (by simp +decide [State.countReset])

@[simp] theorem onlyChanges_unseal {lost : List (Fin 16)} (h : [.sec, .hlt] ⊆ B) :
    OnlyChanges B s (t.unseal lost) ↔ OnlyChanges B s t :=
  frame_of h (by simp +decide [State.unseal])

@[simp] theorem onlyChanges_readFuses (h : [.dev, .sec] ⊆ B) : OnlyChanges B s t.readFuses ↔ OnlyChanges B s t :=
  frame_of h (by simp +decide [State.readFuses])

@[simp] theorem onlyChanges_readySlots {lost : List (Fin 16)} (h : [.sec, .hlt] ⊆ B) :
    OnlyChanges B s (t.readySlots lost) ↔ OnlyChanges B s t :=
  frame_of h (by simp +decide [State.readySlots])

@[simp] theorem onlyChanges_afterPhase3 (h : partsSend ++ [.dev, .rst] ⊆ B) :
    OnlyChanges B s t.afterPhase3 ↔ OnlyChanges B s t :=
  frame_of h (by simp +decide [State.afterPhase3])

@[simp] theorem onlyChanges_takePlan {image : List Byte} {body : Plan} (h : [.dev, .chain, .sec, .rst, .plan, .loaded] ⊆ B) :
    OnlyChanges B s (t.takePlan image body) ↔ OnlyChanges B s t := by
  refine frame_of h ?_
  unfold State.takePlan
  extract_lets n z s1 s2 s3 s4
  have h1 : OnlyChanges [.dev, .chain, .sec, .rst, .plan, .loaded] t s1 :=
    (onlyChanges_loaded (t := { t with plan := body }) (by simp)).2 (by simp)
  simp +decide [s4, s3, s2, h1]

@[simp] theorem onlyChanges_checkImage {image : List Byte} {body : Plan} (h : partsSend ++ [.dev, .rst, .plan,
      .loaded] ⊆ B) :
    OnlyChanges B s (t.checkImage image body) ↔ OnlyChanges B s t := by
  refine frame_of h ?_
  unfold State.checkImage
  split <;> simp +decide

@[simp] theorem onlyChanges_beginBoot {failed : List (Fin 36)} (h : [.links, .sec, .rst] ⊆ B) :
    OnlyChanges B s (t.beginBoot failed) ↔ OnlyChanges B s t :=
  frame_of h (by simp +decide [State.beginBoot])

@[simp] theorem onlyChanges_endBoot (h : [.links, .chain] ⊆ B) : OnlyChanges B s t.endBoot ↔ OnlyChanges B s t :=
  frame_of h (by simp +decide [State.endBoot])

@[simp] theorem onlyChanges_trainStash {env : Phase5Env} (h : [.dev, .stashes, .stashBytes, .sec] ⊆ B) :
    OnlyChanges B s (t.trainStash env) ↔ OnlyChanges B s t :=
  frame_of h (by simp +decide [State.trainStash])

@[simp] theorem onlyChanges_trainStacks {env : Phase5Env} (h : [.stacks, .stackBytes] ⊆ B) :
    OnlyChanges B s (t.trainStacks env) ↔ OnlyChanges B s t :=
  frame_of h (by simp +decide [State.trainStacks])

@[simp] theorem onlyChanges_endUnlock (h : [.dev, .ctxs, .cores, .stores, .gales, .draughts, .chainVanes, .sec, .plan,
      .loaded, .loads, .hostLeaves, .loadedChunks] ⊆ B) :
    OnlyChanges B s t.endUnlock ↔ OnlyChanges B s t :=
  frame_of h (by simp +decide [State.endUnlock])

@[simp] theorem onlyChanges_trainLink {env : Phase6Env} {l : Fin 36} (h : [.links, .sec] ⊆ B) :
    OnlyChanges B s (t.trainLink env l) ↔ OnlyChanges B s t :=
  frame_of h (by simp +decide [State.trainLink])

@[simp] theorem onlyChanges_judgeSides {env : Phase6Env} (h : partsRetry ⊆ B) :
    OnlyChanges B s (t.judgeSides env) ↔ OnlyChanges B s t := by
  refine frame_of h ?_
  unfold State.judgeSides
  split <;> simp +decide

@[simp] theorem onlyChanges_beginLinks {env : Phase6Env} (h : partsRetry ⊆ B) :
    OnlyChanges B s (t.beginLinks env) ↔ OnlyChanges B s t :=
  frame_of h (by simp +decide [State.beginLinks])

@[simp] theorem onlyChanges_loadZeros (h : [.stacks, .stackBytes] ⊆ B) : OnlyChanges B s t.loadZeros ↔ OnlyChanges B s t := by
  refine frame_of h (onlyChanges_foldl (fun u l => ?_) _ t)
  split
  · dsimp only
    simp +decide
  · simp

@[simp] theorem onlyChanges_startRun (h : [.stacks, .stackBytes, .chain, .sec, .step, .loads, .begun] ⊆ B) :
    OnlyChanges B s t.startRun ↔ OnlyChanges B s t := by
  refine frame_of h ?_
  unfold State.startRun
  extract_lets p s1 s2 s3
  have h1 : OnlyChanges [.stacks, .stackBytes, .chain, .sec, .step, .loads, .begun] t s1 :=
    fun p hp => by cases p <;> simp [Part.same, s1, State.core, State.ctx, State.stc] at hp ⊢
  simp +decide [s3, s2, h1]

@[simp] theorem onlyChanges_awaitShard (h : [.loads, .loadedChunks] ⊆ B) : OnlyChanges B s t.awaitShard ↔ OnlyChanges B s t :=
  frame_of h fun p hp => by
    cases p <;> simp [Part.same, State.awaitShard, State.core, State.ctx, State.stack, State.stc] at hp ⊢

@[simp] theorem onlyChanges_startPlan (h : partsWake ++ [.stackBytes, .step, .loads, .begun, .loadedChunks] ⊆ B) :
    OnlyChanges B s t.startPlan ↔ OnlyChanges B s t := by
  refine frame_of h ?_
  unfold State.startPlan
  extract_lets core s1 s2 role s3 s4
  have h1 : OnlyChanges (partsWake ++ [.stackBytes, .step, .loads, .begun, .loadedChunks]) t s1 :=
    fun p hp => by
      cases p <;> simp [partsWake, Part.same, s1, State.core, Core.start] at hp ⊢
  have h2 : OnlyChanges (partsWake ++ [.stackBytes, .step, .loads, .begun, .loadedChunks]) s1 s2 := by
    simp +decide [s2]
  have h4 : OnlyChanges (partsWake ++ [.stackBytes, .step, .loads, .begun, .loadedChunks]) s2 s4 := by
    simp +decide [s4, s3]
  have hs := h1.trans (h2.trans h4)
  clear_value s4
  simp +decide [hs]

@[simp] theorem onlyChanges_clearCommon {off : Nat} {v : Word} (h : [.ports, .vio, .slip, .sec, .rst, .hlt] ⊆ B) :
    OnlyChanges B s (t.clearCommon off v) ↔ OnlyChanges B s t := by
  refine frame_of h ?_
  unfold State.clearCommon
  split <;> simp +decide

@[simp] theorem onlyChanges_clearCore {c : Fin 4} {o : Nat} {v : Word} (h : [.ctxs, .cores, .chain] ⊆ B) :
    OnlyChanges B s (t.clearCore c o v) ↔ OnlyChanges B s t := by
  refine frame_of h ?_
  unfold State.clearCore
  split <;> simp +decide

@[simp] theorem onlyChanges_clearVanes {c : Fin 4} {o : Nat} {v : Word} (h : [.cores, .chainSeen, .chainBank] ⊆ B) :
    OnlyChanges B s (t.clearVanes c o v) ↔ OnlyChanges B s t := by
  refine frame_of h ?_
  unfold State.clearVanes
  split
  · extract_lets u
    have hu : OnlyChanges [.cores, .chainSeen, .chainBank] t u := by simp [u, Core.rest]
    refine hu.trans ?_
    intro p hp
    cases p <;> simp [Part.same, State.core, State.ctx, State.stack, State.stc] at hp ⊢
  · exact (onlyChanges_chainBank (by simp)).2 (by simp [Core.rest])
  · simp

@[simp] theorem onlyChanges_clearGale {g : Fin 8} {o : Nat} {v : Word} (h : [.gales] ⊆ B) :
    OnlyChanges B s (t.clearGale g o v) ↔ OnlyChanges B s t := by
  refine frame_of h ?_
  unfold State.clearGale
  split <;> simp +decide

@[simp] theorem onlyChanges_clearEddy {c : Fin 4} {o : Nat} {v : Word} (h : [.cores] ⊆ B) :
    OnlyChanges B s (t.clearEddy c o v) ↔ OnlyChanges B s t := by
  refine frame_of h ?_
  unfold State.clearEddy
  split <;> simp +decide

@[simp] theorem onlyChanges_clearVeer {c : Fin 4} {o : Nat} {v : Word} (h : [.cores] ⊆ B) :
    OnlyChanges B s (t.clearVeer c o v) ↔ OnlyChanges B s t := by
  refine frame_of h ?_
  unfold State.clearVeer
  split <;> simp +decide

@[simp] theorem onlyChanges_clearWindow {c : Fin 4} {o : Nat} {v : Word} (h : [.ctxs, .cores, .gales, .chainSeen,
      .chainBank, .chain] ⊆ B) :
    OnlyChanges B s (t.clearWindow c o v) ↔ OnlyChanges B s t :=
  frame_of h (by simp +decide [State.clearWindow])

@[simp] theorem onlyChanges_clearDrt {e : Fin 8} {o : Nat} {v : Word} (h : [.draughts] ⊆ B) :
    OnlyChanges B s (t.clearDrt e o v) ↔ OnlyChanges B s t := by
  refine frame_of h ?_
  unfold State.clearDrt
  split <;> simp +decide

@[simp] theorem onlyChanges_clearStack {n : Fin 12} {o : Nat} {v : Word} (h : [.stacks] ⊆ B) :
    OnlyChanges B s (t.clearStack n o v) ↔ OnlyChanges B s t := by
  refine frame_of h ?_
  unfold State.clearStack
  split <;> simp +decide

@[simp] theorem onlyChanges_clearFoehn {n : Fin 12} {o : Nat} {v : Word} (h : [.foehn] ⊆ B) :
    OnlyChanges B s (t.clearFoehn n o v) ↔ OnlyChanges B s t := by
  refine frame_of h ?_
  unfold State.clearFoehn
  split <;> simp +decide

@[simp] theorem onlyChanges_clearStash {n : Fin 8} {o : Nat} {v : Word} (h : [.stashes] ⊆ B) :
    OnlyChanges B s (t.clearStash n o v) ↔ OnlyChanges B s t := by
  refine frame_of h ?_
  unfold State.clearStash
  split <;> simp +decide

@[simp] theorem onlyChanges_clearLink {l : Fin 36} {o : Nat} {v : Word} (h : [.links, .chain] ⊆ B) :
    OnlyChanges B s (t.clearLink l o v) ↔ OnlyChanges B s t := by
  refine frame_of h ?_
  unfold State.clearLink
  split <;> simp +decide

@[simp] theorem onlyChanges_clearBits {off : Nat} {v : Word} (h : partsSend ++ [.ports, .vio, .ctxs, .cores, .gales,
      .draughts, .chainSeen, .chainBank, .stacks, .stashes, .foehn, .slip, .rst, .hlt] ⊆ B) :
    OnlyChanges B s (t.clearBits off v) ↔ OnlyChanges B s t :=
  frame_of h (by simp +decide [State.clearBits])

@[simp] theorem onlyChanges_perfCores (h : [.ctxs, .cores, .gales, .chainBank, .chain] ⊆ B) :
    OnlyChanges B s t.perfCores ↔ OnlyChanges B s t :=
  frame_of h fun p hp => by
    cases p <;> simp [Part.same, State.perfCores, State.core, State.stack, State.stc, Core.clearPerf] at hp ⊢

@[simp] theorem onlyChanges_perfDraught (h : [.draughts] ⊆ B) : OnlyChanges B s t.perfDraught ↔ OnlyChanges B s t :=
  frame_of h (by simp +decide [State.perfDraught])

@[simp] theorem onlyChanges_perfMemory (h : [.stacks, .foehn] ⊆ B) : OnlyChanges B s t.perfMemory ↔ OnlyChanges B s t :=
  frame_of h fun p hp => by
    cases p <;> simp [Part.same, State.perfMemory, State.core, State.ctx, State.stack, State.stc, LineMem.clearHigh,
      LineMem.bytes] at hp ⊢

@[simp] theorem onlyChanges_perfStash (h : [.stashes] ⊆ B) : OnlyChanges B s t.perfStash ↔ OnlyChanges B s t :=
  frame_of h fun p hp => by
    cases p <;> simp [Part.same, State.perfStash, State.core, State.ctx, State.stack, State.stc, LineMem.clearHigh,
      LineMem.bytes] at hp ⊢

@[simp] theorem onlyChanges_perfLinks (h : [.links, .chain] ⊆ B) : OnlyChanges B s t.perfLinks ↔ OnlyChanges B s t :=
  frame_of h fun p hp => by
    cases p <;> simp [Part.same, State.perfLinks, State.core, State.ctx, State.stack, State.stc] at hp ⊢

@[simp] theorem onlyChanges_perfSlip (h : [.slip] ⊆ B) : OnlyChanges B s t.perfSlip ↔ OnlyChanges B s t :=
  frame_of h (by simp +decide [State.perfSlip])

@[simp] theorem onlyChanges_perfVio (h : [.vio] ⊆ B) : OnlyChanges B s t.perfVio ↔ OnlyChanges B s t :=
  frame_of h (by simp +decide [State.perfVio])

@[simp] theorem onlyChanges_perfClear {v : Word} (h : [.vio, .ctxs, .cores, .gales, .draughts, .chainBank, .stacks,
      .stashes, .foehn, .slip, .links, .chain] ⊆ B) :
    OnlyChanges B s (t.perfClear v) ↔ OnlyChanges B s t :=
  frame_of h (by simp +decide [State.perfClear])

@[simp] theorem onlyChanges_store {p : Path} {off : Nat} {v : Word} (h : partsSend ++ [.dev, .ports, .vio, .ctxs,
      .cores, .gales, .draughts, .chainSeen, .frozen, .chainBank, .stacks, .stashes, .foehn, .slip, .rst, .hlt] ⊆ B) :
    OnlyChanges B s (t.store p off v) ↔ OnlyChanges B s t := by
  refine frame_of h ?_
  unfold State.store
  repeat' split
  all_goals simp +decide

@[simp] theorem onlyChanges_setCursor {p : Path} {seq : Nat} (h : [.ports] ⊆ B) :
    OnlyChanges B s (t.setCursor p seq) ↔ OnlyChanges B s t :=
  frame_of h (by simp +decide [State.setCursor])

@[simp] theorem onlyChanges_storeHalf {p : Path} {off : Nat} {v : Word} (h : [.ports] ⊆ B) :
    OnlyChanges B s (t.storeHalf p off v) ↔ OnlyChanges B s t :=
  frame_of h (by simp +decide [State.storeHalf])

@[simp] theorem onlyChanges_respond {p : Path} {r : Resp} {data : List Byte} (h : [.ports] ⊆ B) :
    OnlyChanges B s (t.respond p r data) ↔ OnlyChanges B s t :=
  frame_of h (by simp +decide [State.respond])

@[simp] theorem onlyChanges_regVio {p : Path} {dev off : Nat} (h : [.vio] ⊆ B) :
    OnlyChanges B s (t.regVio p dev off) ↔ OnlyChanges B s t :=
  frame_of h (by simp +decide [State.regVio])

@[simp] theorem onlyChanges_readEffect {p : Path} {off : Nat} {r : Reg} (h : [.ports] ⊆ B) :
    OnlyChanges B s (t.readEffect p off r) ↔ OnlyChanges B s t :=
  frame_of h (by simp +decide [State.readEffect])

@[simp] theorem onlyChanges_readAt {p : Path} {dev off : Nat} (h : [.ports, .vio, .sec] ⊆ B) :
    OnlyChanges B s (t.readAt p dev off).1 ↔ OnlyChanges B s t := by
  refine frame_of h ?_
  unfold State.readAt
  split
  · simp
  · split <;> simp

@[simp] theorem onlyChanges_chainAnswer {p : Path} {tag : Nat} {a : Answer} {busy : Bool} (h : [.chain] ⊆ B) :
    OnlyChanges B s (t.chainAnswer p tag a busy) ↔ OnlyChanges B s t :=
  frame_of h (by simp +decide [State.chainAnswer])

@[simp] theorem onlyChanges_chainCommand {off kind : Nat} {p : Path} {tag : Nat} {ok : Bool} {role : Role} (h :
      partsSend ⊆ B) :
    OnlyChanges B s (t.chainCommand off kind p tag ok role) ↔ OnlyChanges B s t :=
  frame_of h (by simp +decide [State.chainCommand])

@[simp] theorem onlyChanges_writeRstCmd {p : Path} {v : Word} (h : [.sec, .rst] ⊆ B) :
    OnlyChanges B s (t.writeRstCmd p v) ↔ OnlyChanges B s t := by
  refine frame_of h ?_
  unfold State.writeRstCmd
  split <;> simp +decide

@[simp] theorem onlyChanges_writeSecCmd {p : Path} {v : Word} (h : partsSend ++ [.dev, .ctxs, .frozen, .slip, .rst] ⊆ B) :
    OnlyChanges B s (t.writeSecCmd p v) ↔ OnlyChanges B s t := by
  refine frame_of h ?_
  unfold State.writeSecCmd
  dsimp only
  split
  · simp
  · split
    case h_11 => exact secCommand_onlyChanges (by simp +decide) fun i => by simp +decide
    all_goals simp +decide

@[simp] theorem onlyChanges_writeIngestCmd {p : Path} {v : Word} (h : [.sec] ⊆ B) :
    OnlyChanges B s (t.writeIngestCmd p v) ↔ OnlyChanges B s t :=
  frame_of h (by simp +decide [State.writeIngestCmd])

@[simp] theorem onlyChanges_writeChainCmd {p : Path} {off : Nat} {v : Word} (h : partsSend ⊆ B) :
    OnlyChanges B s (t.writeChainCmd p off v) ↔ OnlyChanges B s t := by
  refine frame_of h ?_
  unfold State.writeChainCmd
  split <;> simp +decide

@[simp] theorem onlyChanges_writeAt {p : Path} {dev off : Nat} {v : Word} (h : partsSend ++ [.dev, .ports, .vio,
      .ctxs, .cores, .gales, .draughts, .chainSeen, .frozen, .chainBank, .stacks, .stashes, .foehn, .slip, .rst, .hlt]
      ⊆ B) :
    OnlyChanges B s (t.writeAt p dev off v) ↔ OnlyChanges B s t := by
  refine frame_of h ?_
  unfold State.writeAt
  repeat' split
  all_goals simp +decide

@[simp] theorem onlyChanges_transfer {p : Path} {written : Option Resp} (h : [.ports] ⊆ B) :
    OnlyChanges B s (t.transfer p written) ↔ OnlyChanges B s t :=
  frame_of h (by simp +decide [State.transfer])

theorem commandWrite_onlyChanges {A : List Part} {p : Path} {off : Nat} {act : State → State} (h : [.ports] ⊆ A)
    (ha : ∀ u, OnlyChanges A u (act u)) : OnlyChanges A t (t.commandWrite p off act) :=
  (onlyChanges_transfer h).2 (OnlyChanges.trans (by simp [h]) (ha _))

@[simp] theorem onlyChanges_silentWrite {p : Path} (h : [.ports] ⊆ B) :
    OnlyChanges B s (t.silentWrite p) ↔ OnlyChanges B s t :=
  frame_of h (by simp +decide [State.silentWrite])

@[simp] theorem onlyChanges_peerRead {l : Fin 36} {p : Packet} (h : partsSend ++ [.ports, .vio] ⊆ B) :
    OnlyChanges B s (t.peerRead l p) ↔ OnlyChanges B s t := by
  refine frame_of h ?_
  unfold State.peerRead
  split
  · simp +decide
  · split
    next u w hu =>
      have hr : OnlyChanges (partsSend ++ [.ports, .vio]) t (t.readAt (.peer l) p.src p.addr).1 := by simp +decide
      rw [hu] at hr
      simp [hr]

@[simp] theorem onlyChanges_peerWrite {l : Fin 36} {p : Packet} (h : partsSend ++ [.dev, .ports, .vio, .ctxs, .cores,
      .gales, .draughts, .chainSeen, .frozen, .chainBank, .stacks, .stashes, .foehn, .slip, .rst, .hlt] ⊆ B) :
    OnlyChanges B s (t.peerWrite l p) ↔ OnlyChanges B s t :=
  frame_of h (by simp +decide [State.peerWrite])

@[simp] theorem onlyChanges_barDenied {fn : Fin 2} {a : Nat} (h : [.ports, .sec] ⊆ B) :
    OnlyChanges B s (t.barDenied fn a) ↔ OnlyChanges B s t :=
  frame_of h (by simp +decide [State.barDenied])

@[simp] theorem onlyChanges_barReadDenied {fn : Fin 2} {a n : Nat} (h : [.ports, .sec, .answer] ⊆ B) :
    OnlyChanges B s (t.barReadDenied fn a n) ↔ OnlyChanges B s t :=
  frame_of h (by simp +decide [State.barReadDenied])

@[simp] theorem onlyChanges_barViolate {fn : Fin 2} {kind a : Nat} (h : [.ports, .vio] ⊆ B) :
    OnlyChanges B s (t.barViolate fn kind a) ↔ OnlyChanges B s t :=
  frame_of h (by simp +decide [State.barViolate])

@[simp] theorem onlyChanges_stageLength {fn : Fin 2} {len : Nat} (h : [.ports, .sec, .rst] ⊆ B) :
    OnlyChanges B s (t.stageLength fn len) ↔ OnlyChanges B s t :=
  frame_of h (by simp +decide [State.stageLength])

@[simp] theorem onlyChanges_stageWrite {fn : Fin 2} {off : Nat} {data : List Byte} (h : partsStore ++ [.ports, .sec,
      .rst] ⊆ B) :
    OnlyChanges B s (t.stageWrite fn off data) ↔ OnlyChanges B s t :=
  frame_of h (by simp +decide [State.stageWrite])

@[simp] theorem onlyChanges_driveLands {code : Nat} (h : [.ports] ⊆ B) :
    OnlyChanges B s (t.driveLands code) ↔ OnlyChanges B s t :=
  frame_of h (by simp +decide [State.driveLands])

@[simp] theorem onlyChanges_loadTap {code : Nat} {out : Word} (h : [.ports] ⊆ B) :
    OnlyChanges B s (t.loadTap code out) ↔ OnlyChanges B s t :=
  frame_of h (by simp +decide [State.loadTap])

@[simp] theorem onlyChanges_portDown (h : [.ports, .sec] ⊆ B) : OnlyChanges B s t.portDown ↔ OnlyChanges B s t :=
  frame_of h (by simp +decide [State.portDown])

@[simp] theorem onlyChanges_linkLost (h : [.ports, .sec] ⊆ B) : OnlyChanges B s t.linkLost ↔ OnlyChanges B s t :=
  frame_of h (by simp +decide [State.linkLost])

@[simp] theorem onlyChanges_retrainDie {east : Bool} (h : [.stacks, .stashes] ⊆ B) :
    OnlyChanges B s (t.retrainDie east) ↔ OnlyChanges B s t := by
  refine frame_of h (OnlyChanges.trans (onlyChanges_foldl (fun u n => ?_) (dieStacks east) t) (onlyChanges_foldl (fun u n => ?_) _ _))
  · exact (onlyChanges_modStack (by simp) (.inr rfl)).2 (onlyChanges_refl _ u)
  · exact (onlyChanges_modStc (by simp) (.inr rfl)).2 (onlyChanges_refl _ u)

@[simp] theorem onlyChanges_tickFoehn {n : Fin 12} (h : [.foehn] ⊆ B) :
    OnlyChanges B s (t.tickFoehn n) ↔ OnlyChanges B s t :=
  frame_of h (by simp +decide [State.tickFoehn])

@[simp] theorem onlyChanges_tickFuse (h : [.sec, .rst] ⊆ B) : OnlyChanges B s t.tickFuse ↔ OnlyChanges B s t := by
  refine frame_of h ?_
  unfold State.tickFuse
  split <;> simp +decide

@[simp] theorem onlyChanges_tick (h : [.dev, .foehn, .slip, .sec, .rst, .hlt] ⊆ B) :
    OnlyChanges B s (tick t) ↔ OnlyChanges B s t :=
  frame_of h (by simp +decide [tick])

end
end Sys2Proof.Machine
end

section
/-! SUPPORT. Frames of the packets of a link: a packet changes the parts of its lane, and so do those that it sets free. -/

namespace Sys2Proof.Machine

/-- The parts that a packet of a lane may change when its turn comes. -/
def laneParts : Nat → List Part
  | 0 => partsFence
  | 1 | 2 => partsStore ++ partsWake ++ [.step, .loads, .loadedChunks]
  | 3 => partsSend ++ partsStore ++ [.vio]
  | 4 => partsRead ++ partsSend ++ [.vio]
  | 5 => partsSend ++ partsStore ++ [.cores, .draughts, .mxScales, .fresh]
  | _ => partsReg

section
variable {A : List Part} {s t : State} {p : Packet}

/-- A packet on its lane is of a type of that lane, and WRITE goes on lane 7 too (R313). -/
theorem lane_of_pktOk (h : pktOk p = true) : typeLane p.type = some (orderLane p.vl) := by
  simp only [pktOk, Bool.or_eq_true, beq_iff_eq, Bool.and_eq_true] at h
  rcases h with h | ⟨h1, h7⟩
  · rw [h]
    unfold typeLane at h
    split at h <;> simp_all <;> simp [orderLane, ← h]
  · simp [h1, h7, orderLane, typeLane]

theorem actOf_onlyChanges {l : Fin 36} {proof : Option ChunkProof} (h : pktOk p = true) :
    OnlyChanges (laneParts (orderLane p.vl)) t (t.actOf l p proof) := by
  have hl := lane_of_pktOk h
  generalize orderLane p.vl = v at hl ⊢
  unfold State.actOf
  split
  all_goals
    rename_i ht
    first
    | rw [ht] at hl
      obtain rfl := Option.some.inj hl
      simp +decide [laneParts]
    | simp

/-- The link lane is there to answer, whatever the lane is. -/
theorem chain_mem_laneParts (v : Nat) : [.chain] ⊆ laneParts v := by
  unfold laneParts
  split <;> decide

theorem links_chain_laneParts (v : Nat) : partsSend ⊆ laneParts v := by
  unfold laneParts
  split <;> decide

theorem actOn_onlyChanges {x : HeldPkt} (h : pktOk x.pkt = true) :
    OnlyChanges (laneParts (orderLane x.pkt.vl)) t (t.actOn x) :=
  OnlyChanges.trans ((onlyChanges_tookPacket (chain_mem_laneParts _)).2 (onlyChanges_refl _ t)) (actOf_onlyChanges h)

/-- What was held and is now due is on the lane that it waited for. -/
theorem dueHeld_lane {src vl : Nat} {x : HeldPkt} (h : t.dueHeld src vl = some x) :
    pktOk x.pkt = true ∧ orderLane x.pkt.vl = orderLane vl := by
  have hx := List.find?_some h
  simp only [HeldPkt.follows, Bool.and_eq_true, beq_iff_eq] at hx
  exact ⟨hx.1.2, hx.1.1.2⟩

theorem release_onlyChanges (src vl fuel : Nat) : ∀ t : State, OnlyChanges (laneParts (orderLane vl)) t (t.release src vl fuel) := by
  induction fuel with
  | zero => exact fun t => onlyChanges_refl _ t
  | succ n ih =>
    intro t
    unfold State.release
    split
    · next x hx =>
      obtain ⟨hok, hv⟩ := dueHeld_lane hx
      exact OnlyChanges.trans (hv ▸ actOn_onlyChanges hok) (ih _)
    · exact onlyChanges_refl _ t

theorem inOrder_onlyChanges {l : Fin 36} {proof : Option ChunkProof} (h : pktOk p = true) :
    OnlyChanges (laneParts (orderLane p.vl)) t (t.inOrder l p proof) := by
  have hs := links_chain_laneParts (orderLane p.vl)
  have hlc : [.links, .chain] ⊆ laneParts (orderLane p.vl) := List.Subset.trans (by decide) hs
  have hl : [.links] ⊆ laneParts (orderLane p.vl) := List.Subset.trans (by decide) hs
  unfold State.inOrder
  dsimp only
  split
  · exact OnlyChanges.trans (actOn_onlyChanges (x := ⟨l, p, proof⟩) h) (release_onlyChanges _ _ _ _)
  · split
    · simp [hlc]
    · split <;> simp [hs, hl]

theorem deliverPkt_onlyChanges {l : Fin 36} {proof : Option ChunkProof} (h : [.links] ⊆ A)
    (hA : pktOk p = true → laneParts (orderLane p.vl) ⊆ A) : OnlyChanges A t (t.deliverPkt l p proof) := by
  unfold State.deliverPkt
  dsimp only
  split
  · simp [h]
  · split
    · simp [h]
    · next hk =>
      simp only [Bool.or_eq_true, Bool.not_eq_true', not_or, Bool.not_eq_false] at hk
      exact OnlyChanges.trans ((onlyChanges_collected h).2 (onlyChanges_refl A t)) ((inOrder_onlyChanges hk.1).mono (hA hk.1))

/-- A packet behind which none is held changes what it does at its turn, and no more. -/
theorem deliverPkt_alone {l : Fin 36} {proof : Option ChunkProof} (h : partsSend ⊆ A) (h0 : t.chain.heldPkts = [])
    (ha : ∀ u, OnlyChanges A u (u.actOf l p proof)) : OnlyChanges A t (t.deliverPkt l p proof) := by
  have hc : [.chain] ⊆ A := List.Subset.trans (by decide) h
  have hlc : [.links, .chain] ⊆ A := List.Subset.trans (by decide) h
  have hl : [.links] ⊆ A := List.Subset.trans (by decide) h
  have h1 : OnlyChanges A t (t.collected l p) := (onlyChanges_collected hl).2 (onlyChanges_refl A t)
  have h2 : (t.collected l p).chain.heldPkts = [] := h0
  unfold State.deliverPkt
  dsimp only
  split
  · exact h1
  · split
    · exact (onlyChanges_discarded hl).2 h1
    · refine h1.trans ?_
      generalize t.collected l p = u at h2
      unfold State.inOrder
      dsimp only
      split
      · rw [h2]
        exact ((onlyChanges_tookPacket hc).2 (onlyChanges_refl A u)).trans (ha _)
      · split
        · simp [hlc]
        · split <;> simp [h, hl]

end
end Sys2Proof.Machine
end

section
/-! SUPPORT. Frames of the shared forms of a row: an answer stays within some parts where the state that it gives does. -/

namespace Sys2Proof.Machine

/-- The next state that an answer gives differs from the state it was given in those parts alone. -/
def StaysWithin (A : List Part) (s : State) (o : Out) : Prop := ∀ t, o = .next t → OnlyChanges A s t

section
variable {A B : List Part} {s t : State} {o a b : Out}

@[simp] theorem staysWithin_done : StaysWithin A s (done t) ↔ OnlyChanges A s t := by
  constructor
  · intro h
    exact onlyChanges_close.1 (h _ rfl)
  · intro h u hu
    have he : close t = u := Host.Outcome.next.inj hu
    rw [← he]
    exact onlyChanges_close.2 h

@[simp] theorem staysWithin_stay : StaysWithin A s (stay t) ↔ OnlyChanges A s t := by
  constructor
  · exact fun h => h _ rfl
  · intro h u hu
    have he : t = u := Host.Outcome.next.inj hu
    rwa [← he]

@[simp] theorem staysWithin_refused (r : Refusal) : StaysWithin A s (.refused r) := by
  intro t h
  cases h

@[simp] theorem staysWithin_ite {c : Prop} [Decidable c] :
    StaysWithin A s (if c then a else b) ↔ (c → StaysWithin A s a) ∧ (¬c → StaysWithin A s b) := by
  split <;> simp_all

theorem StaysWithin.of_state (h : OnlyChanges A s t) (k : StaysWithin A t o) : StaysWithin A s o := fun u hu => h.trans (k u hu)

theorem StaysWithin.mono (h : StaysWithin A s o) (k : A ⊆ B) : StaysWithin B s o := fun u hu => (h u hu).mono k

/-! Operations and descriptors. -/

theorem staysWithin_issue {c : Fin 4} {k : Fin 8} {code : Nat} {f : BitVec 128 → State → State} (h : [.ctxs, .cores] ⊆ A)
    (hf : ∀ op, OnlyChanges A s (f op s)) : StaysWithin A s (issue c k code s f) := by
  unfold issue
  split
  · exact staysWithin_done.2 (hf _)
  · simp [h]

theorem staysWithin_vec1 {c : Fin 4} {k : Fin 8} {code : Nat} {f : BitVec 128 → Word → Word} :
    StaysWithin partsOp s (vec1 c k code s f) := staysWithin_issue (by decide) fun _ => by simp

theorem staysWithin_vec2 {c : Fin 4} {k : Fin 8} {code : Nat} {f : Word → Word → Word} :
    StaysWithin partsOp s (vec2 c k code s f) := staysWithin_issue (by decide) fun _ => by simp

theorem staysWithin_vecCompare {c : Fin 4} {k : Fin 8} {code : Nat} {f : Word → Word → Word} :
    StaysWithin partsOp s (vecCompare c k code s f) := staysWithin_issue (by decide) fun _ => by simp

theorem staysWithin_fetchStep {c : Fin 4} {k : Fin 8} : StaysWithin partsFetch s (fetchStep c k s) := by
  unfold fetchStep
  split
  · simp
  · split
    · next u hu =>
      have h := tryFetch_onlyChanges hu
      simp +decide [h, Core.rest]
    · simp
    · simp +decide [Core.rest]

theorem staysWithin_startItem {e : Fin 8} {i : Fin 4} {kind : Nat} :
    StaysWithin (partsSend ++ partsStore ++ [.vio, .cores, .draughts, .mxScales, .fresh]) s (startItem e i kind s) := by
  unfold startItem
  split
  · simp
  · split
    · simp
    · split
      · simp +decide
      · dsimp only
        split <;> simp +decide

/-! Packets. -/

theorem staysWithin_takes {l : Fin 36} {p : Packet} {type : Nat} (h : [.links] ⊆ A)
    (hA : p.type = type → pktOk p = true → laneParts (orderLane p.vl) ⊆ A) : StaysWithin A s (s.takes l p type) := by
  unfold State.takes
  split
  · next hc =>
    simp only [State.comes, Bool.and_eq_true, beq_iff_eq] at hc
    exact staysWithin_done.2 (deliverPkt_onlyChanges h (hA hc.1.2))
  · simp

/-- Of a packet's type its lane is known, and with it what the packet may change. -/
theorem staysWithin_takes_of_lane {l : Fin 36} {p : Packet} {type v : Nat} (h : [.links] ⊆ laneParts v)
    (hv : typeLane type = some v) : StaysWithin (laneParts v) s (s.takes l p type) :=
  staysWithin_takes h fun ht hp => by
    have hl := lane_of_pktOk hp
    rw [ht, hv] at hl
    exact (Option.some.inj hl) ▸ List.Subset.refl _

theorem staysWithin_takesFence {l : Fin 36} {p : Packet} {type : Nat} (hv : typeLane type = some 0) :
    StaysWithin partsFence s (s.takesFence l p type) := by
  unfold State.takesFence
  split
  · next hc =>
    simp only [State.comes, Bool.and_eq_true, beq_iff_eq] at hc
    refine staysWithin_done.2 ((onlyChanges_rootJudge (by decide)).2 (deliverPkt_onlyChanges (by decide) fun hp => ?_))
    have hl := lane_of_pktOk hp
    rw [hc.1.2, hv] at hl
    exact (Option.some.inj hl) ▸ List.Subset.refl _
  · simp

theorem staysWithin_takesAll {xs : List (Fin 36 × Packet)} (hx : ∀ x ∈ xs, typeLane x.2.type = some 0) :
    StaysWithin partsFence s (s.takesAll xs) := by
  refine staysWithin_done.2 ((onlyChanges_rootJudge (by decide)).2 ?_)
  induction xs generalizing s with
  | nil => exact onlyChanges_refl _ s
  | cons x xs ih =>
    refine OnlyChanges.trans (deliverPkt_onlyChanges (by decide) fun hp => ?_) (ih fun y hy => hx y (List.mem_cons_of_mem _ hy))
    have hl := lane_of_pktOk hp
    rw [hx x (List.mem_cons_self ..)] at hl
    exact (Option.some.inj hl) ▸ List.Subset.refl _

theorem staysWithin_takesFrame {l : Fin 36} {p : Packet} {f : Frame} {ok : Nat → Bool} :
    StaysWithin (partsStore ++ partsWake ++ [.step, .loads, .loadedChunks]) s (s.takesFrame l p f ok) := by
  unfold State.takesFrame
  split
  · exact staysWithin_takes_of_lane (v := 2) (by decide) rfl
  · simp

theorem staysWithin_takePair {l : Fin 36} {p : Packet} {kind : Nat} {act : State → State} (h : [.links, .chain] ⊆ A)
    (ha : ∀ u, OnlyChanges A u (act u)) : StaysWithin A s (s.takePair l p kind act) := by
  have hl : [.links] ⊆ A := List.Subset.trans (by decide) h
  have hc : [.chain] ⊆ A := List.Subset.trans (by decide) h
  unfold State.takePair
  dsimp only
  split
  · simp
  · split
    · simp [hl]
    · refine staysWithin_done.2 (OnlyChanges.trans ?_ (ha _))
      split <;> simp [hl, hc]

/-! Register accesses. -/

theorem commands_onlyChanges {off : Nat} {act : Rival → State → State} (h : [.ports] ⊆ A)
    (ha : ∀ r u, OnlyChanges A u (act r u)) (rivals : List Rival) :
    OnlyChanges A s (rivals.foldl (fun s r => s.commandWrite r.path off (act r)) s) :=
  onlyChanges_foldl (fun _ r => commandWrite_onlyChanges h (ha r)) rivals s

theorem staysWithin_commandRow {p : Path} {off : Nat} {rivals : List Rival} {act : State → State} {refuse : Rival → State → State}
    (h : [.ports] ⊆ A) (ha : ∀ u, OnlyChanges A u (act u)) (hr : ∀ r u, OnlyChanges A u (refuse r u)) :
    StaysWithin A s (s.commandRow p off rivals act refuse) := by
  unfold State.commandRow
  split
  · simp
  · split
    · refine staysWithin_done.2 (OnlyChanges.trans (by simp [h]) (onlyChanges_foldl (fun _ r => by simp [h]) rivals _))
    · exact staysWithin_done.2 ((commandWrite_onlyChanges h ha).trans (commands_onlyChanges h hr rivals))

theorem staysWithin_secRow {p : Path} {rivals : List Rival} {act : State → State} (h : [.ports, .sec] ⊆ A)
    (ha : ∀ u, OnlyChanges A u (act u)) : StaysWithin A s (s.secRow p rivals act) :=
  staysWithin_commandRow (List.Subset.trans (by decide) h) ha fun _ _ =>
    (onlyChanges_secConflict (List.Subset.trans (by decide) h)).2 (onlyChanges_refl _ _)

theorem staysWithin_pathRead {p : Path} {off : Nat} : StaysWithin [.ports, .vio, .sec] s (s.pathRead p off) := by
  unfold State.pathRead
  split
  · simp
  · split
    · simp
    · dsimp only
      simp

theorem staysWithin_pathWrite {p : Path} {off : Nat} {v : Word} : StaysWithin partsReg s (s.pathWrite p off v) := by
  unfold State.pathWrite
  dsimp only
  split
  · simp
  · split
    · simp +decide
    · simp +decide

theorem staysWithin_badForm {p : Path} {off n : Nat} : StaysWithin [.ports, .vio] s (s.badForm p off n) := by
  unfold State.badForm
  split <;> simp

end
end Sys2Proof.Machine
end

section
/-! SUPPORT. Frames of the commands of the streams, the units, the arrays and the Draught engines. -/

namespace Sys2Proof.Machine

section
variable {s : State}

theorem execFetchOperation_within {c : Fin 4} {k : Fin 8} : StaysWithin partsFetch s (execFetchOperation c k s) :=
  staysWithin_fetchStep

theorem execNop_within {c : Fin 4} {k : Fin 8} : StaysWithin [.ctxs, .cores] s (execNop c k s) := by
  unfold execNop
  exact staysWithin_issue (by decide) fun op => by simp +decide

theorem execEndOp_within {c : Fin 4} {k : Fin 8} : StaysWithin [.ctxs, .cores] s (execEndOp c k s) := by
  unfold execEndOp
  exact staysWithin_issue (by decide) fun op => by simp +decide

theorem execEndComplete_within {c : Fin 4} {k : Fin 8} : StaysWithin [.ctxs] s (execEndComplete c k s) := by
  unfold execEndComplete
  simp +decide

theorem execTile_within {c : Fin 4} {k : Fin 8} : StaysWithin [.vio, .ctxs, .cores, .gales] s (execTile c k s) := by
  unfold execTile
  exact staysWithin_issue (by decide) fun op => by simp +decide

theorem execFillRow_within {c : Fin 4} {k : Fin 8} : StaysWithin partsFetch s (execFillRow c k s) := by
  unfold execFillRow
  simp [staysWithin_fetchStep]

theorem execFillCol_within {c : Fin 4} {k : Fin 8} : StaysWithin partsFetch s (execFillCol c k s) := by
  unfold execFillCol
  simp [staysWithin_fetchStep]

theorem execGather_within {c : Fin 4} {k : Fin 8} : StaysWithin (partsOp) s (execGather c k s) := by
  unfold execGather
  exact staysWithin_issue (by decide) fun op => by simp +decide

theorem execScatter_within {c : Fin 4} {k : Fin 8} : StaysWithin (partsOp) s (execScatter c k s) := by
  unfold execScatter
  exact staysWithin_issue (by decide) fun op => by simp +decide

theorem execMerge_within {c : Fin 4} {k : Fin 8} : StaysWithin (partsOp) s (execMerge c k s) := by
  unfold execMerge
  exact staysWithin_issue (by decide) fun op => by simp +decide

theorem execCompact_within {c : Fin 4} {k : Fin 8} : StaysWithin (partsOp ++ [.gales]) s (execCompact c k s) := by
  unfold execCompact
  exact staysWithin_issue (by decide) fun op => by simp +decide

theorem execExpand_within {c : Fin 4} {k : Fin 8} : StaysWithin (partsOp) s (execExpand c k s) := by
  unfold execExpand
  exact staysWithin_issue (by decide) fun op => by simp +decide

theorem execEddyTile_within {c : Fin 4} {k : Fin 8} : StaysWithin (partsOp) s (execEddyTile c k s) := by
  unfold execEddyTile
  exact staysWithin_issue (by decide) fun op => by simp +decide

theorem execPredict_within {c : Fin 4} {k : Fin 8} : StaysWithin (partsOp) s (execPredict c k s) := by
  unfold execPredict
  exact staysWithin_issue (by decide) fun op => by simp +decide

theorem execPredictComplete_within {c : Fin 4} :
    StaysWithin (partsStore ++ partsWake ++ [.mxScales]) s (execPredictComplete c s) := by
  unfold execPredictComplete
  dsimp only
  repeat' split
  all_goals simp +decide

theorem execVerify_within {c : Fin 4} {k : Fin 8} : StaysWithin (partsOp) s (execVerify c k s) := by
  unfold execVerify
  exact staysWithin_issue (by decide) fun op => by simp +decide

theorem execTcopy_within {c : Fin 4} {k : Fin 8} : StaysWithin (partsOp) s (execTcopy c k s) := by
  unfold execTcopy
  exact staysWithin_issue (by decide) fun op => by simp +decide

theorem execPcopy_within {c : Fin 4} {k : Fin 8} : StaysWithin (partsOp) s (execPcopy c k s) := by
  unfold execPcopy
  exact staysWithin_issue (by decide) fun op => by simp +decide

theorem execCopy_within {c : Fin 4} {k : Fin 8} : StaysWithin (partsOp) s (execCopy c k s) := by
  unfold execCopy
  exact staysWithin_issue (by decide) fun op => by simp +decide

theorem execConvert_within {c : Fin 4} {k : Fin 8} : StaysWithin partsOp s (execConvert c k s) := staysWithin_vec1

theorem execVecAdd_within {c : Fin 4} {k : Fin 8} : StaysWithin partsOp s (execVecAdd c k s) := staysWithin_vec2

theorem execVecSub_within {c : Fin 4} {k : Fin 8} : StaysWithin partsOp s (execVecSub c k s) := staysWithin_vec2

theorem execVecMul_within {c : Fin 4} {k : Fin 8} : StaysWithin partsOp s (execVecMul c k s) := staysWithin_vec2

theorem execVecFma_within {c : Fin 4} {k : Fin 8} : StaysWithin (partsOp) s (execVecFma c k s) := by
  unfold execVecFma
  exact staysWithin_issue (by decide) fun op => by simp +decide

theorem execVecFunc_within {c : Fin 4} {k : Fin 8} : StaysWithin partsOp s (execVecFunc c k s) := staysWithin_vec1

theorem execVecMax_within {c : Fin 4} {k : Fin 8} : StaysWithin partsOp s (execVecMax c k s) := staysWithin_vecCompare

theorem execVecMin_within {c : Fin 4} {k : Fin 8} : StaysWithin partsOp s (execVecMin c k s) := staysWithin_vecCompare

theorem execVecSum_within {c : Fin 4} {k : Fin 8} : StaysWithin (partsOp) s (execVecSum c k s) := by
  unfold execVecSum
  exact staysWithin_issue (by decide) fun op => by simp +decide

theorem execVecDot_within {c : Fin 4} {k : Fin 8} : StaysWithin (partsOp) s (execVecDot c k s) := by
  unfold execVecDot
  exact staysWithin_issue (by decide) fun op => by simp +decide

theorem execVecSelect_within {c : Fin 4} {k : Fin 8} : StaysWithin (partsOp) s (execVecSelect c k s) := by
  unfold execVecSelect
  exact staysWithin_issue (by decide) fun op => by simp +decide

theorem execVecDropout_within {c : Fin 4} {k : Fin 8} : StaysWithin (partsOp) s (execVecDropout c k s) := by
  unfold execVecDropout
  exact staysWithin_issue (by decide) fun op => by simp +decide

theorem execVectorOperationComplete_within {c : Fin 4} :
    StaysWithin (partsStore ++ [.cores, .mxScales]) s (execVectorOperationComplete c s) := by
  unfold execVectorOperationComplete
  split <;> simp +decide

theorem execRoute_within {c : Fin 4} {k : Fin 8} : StaysWithin (partsOp) s (execRoute c k s) := by
  unfold execRoute
  exact staysWithin_issue (by decide) fun op => by simp +decide

theorem execDispatchPair_within {s : State} {c : Fin 4} : StaysWithin (partsStore ++ [.cores]) s (execDispatchPair c s) := by
  unfold execDispatchPair
  split
  · simp
  · split
    · refine staysWithin_done.2 ((onlyChanges_modVeer (by decide)).2 ?_)
      simp
    · simp

theorem execRouteComplete_within {c : Fin 4} : StaysWithin (partsStore ++ partsWake) s (execRouteComplete c s) := by
  unfold execRouteComplete
  dsimp only
  repeat' split
  all_goals simp +decide

theorem execVaneSignal_within {c : Fin 4} {k : Fin 8} : StaysWithin (partsWake) s (execVaneSignal c k s) := by
  unfold execVaneSignal
  exact staysWithin_issue (by decide) fun op => by simp +decide

theorem execVaneSignalTakesEffect_within {v : VaneId} : StaysWithin (partsWake) s (execVaneSignalTakesEffect v s) := by
  unfold execVaneSignalTakesEffect
  dsimp only
  repeat' split
  all_goals simp +decide

theorem execVaneWait_within {c : Fin 4} {k : Fin 8} : StaysWithin (partsRead ++ partsRetry) s (execVaneWait c k s) := by
  unfold execVaneWait
  exact staysWithin_issue (by decide) fun op => by simp +decide

theorem execVaneTest_within {c : Fin 4} {k : Fin 8} : StaysWithin [.ctxs, .cores] s (execVaneTest c k s) := by
  unfold execVaneTest
  exact staysWithin_issue (by decide) fun op => by simp +decide

theorem execWaitBoundExpiry_within {c : Fin 4} {k : Fin 8} :
    StaysWithin (partsSend ++ [.dev, .ctxs, .cores, .chainVanes, .frozen, .slip]) s (execWaitBoundExpiry c k s) := by
  unfold execWaitBoundExpiry
  split <;> simp +decide

theorem execDraught_within {c : Fin 4} {k : Fin 8} : StaysWithin partsFetch s (execDraught c k s) := by
  unfold execDraught
  simp [staysWithin_fetchStep]

theorem execLoopSet_within {c : Fin 4} {k : Fin 8} : StaysWithin [.ctxs, .cores] s (execLoopSet c k s) := by
  unfold execLoopSet
  exact staysWithin_issue (by decide) fun op => by simp +decide

theorem execLoopNext_within {c : Fin 4} {k : Fin 8} : StaysWithin [.ctxs, .cores] s (execLoopNext c k s) := by
  unfold execLoopNext
  exact staysWithin_issue (by decide) fun op => by simp +decide

theorem execBranchVane_within {c : Fin 4} {k : Fin 8} : StaysWithin [.ctxs, .cores] s (execBranchVane c k s) := by
  unfold execBranchVane
  exact staysWithin_issue (by decide) fun op => by simp +decide

theorem execJump_within {c : Fin 4} {k : Fin 8} : StaysWithin [.ctxs, .cores] s (execJump c k s) := by
  unfold execJump
  exact staysWithin_issue (by decide) fun op => by simp +decide

theorem execGaleBroadcast_within {g : Fin 8} : StaysWithin [.cores, .gales, .hlt] s (execGaleBroadcast g s) := by
  unfold execGaleBroadcast
  dsimp only
  repeat' split
  all_goals simp +decide

theorem execGaleStall_within {g : Fin 8} : StaysWithin [.gales, .hlt] s (execGaleStall g s) := by
  unfold execGaleStall
  dsimp only
  repeat' split
  all_goals simp +decide

theorem execGroupEntersReducer_within {g : Fin 8} : StaysWithin [.gales] s (execGroupEntersReducer g s) := by
  unfold execGroupEntersReducer
  dsimp only
  repeat' split
  all_goals simp +decide

theorem execGroupSumAdd_within {g : Fin 8} : StaysWithin [.gales] s (execGroupSumAdd g s) := by
  unfold execGroupSumAdd
  dsimp only
  repeat' split
  all_goals simp +decide

theorem execDrainRowRead_within {g : Fin 8} : StaysWithin [.vio, .cores, .gales] s (execDrainRowRead g s) := by
  unfold execDrainRowRead
  dsimp only
  repeat' split
  all_goals simp +decide

theorem execDrainRowWrite_within {g : Fin 8} : StaysWithin (partsStore ++ [.cores, .gales]) s (execDrainRowWrite g s) := by
  unfold execDrainRowWrite
  dsimp only
  repeat' split
  all_goals simp +decide

theorem execAccLoadRow_within {g : Fin 8} : StaysWithin (partsRead ++ [.cores, .gales, .fresh]) s (execAccLoadRow g s) := by
  unfold execAccLoadRow
  dsimp only
  repeat' split
  all_goals simp +decide

theorem execBayFillComplete_within {g : Fin 8} {col : Bool} : StaysWithin [.cores, .gales] s (execBayFillComplete g col s) := by
  unfold execBayFillComplete
  dsimp only
  repeat' split
  all_goals simp +decide

theorem execXchkIssue_within {g : Fin 8} : StaysWithin [.cores, .gales] s (execXchkIssue g s) := by
  unfold execXchkIssue
  dsimp only
  repeat' split
  all_goals simp +decide

theorem execXchkRowCompare_within {w : Fin 8} : StaysWithin (partsRetry) s (execXchkRowCompare w s) := by
  unfold execXchkRowCompare
  dsimp only
  repeat' split
  all_goals simp +decide

theorem execMove_within {e : Fin 8} {i : Fin 4} :
    StaysWithin (partsSend ++ partsStore ++ [.vio, .cores, .draughts, .mxScales, .fresh]) s (execMove e i s) := staysWithin_startItem

theorem execMxStore_within {e : Fin 8} {i : Fin 4} :
    StaysWithin (partsSend ++ partsStore ++ [.vio, .cores, .draughts, .mxScales, .fresh]) s (execMxStore e i s) := staysWithin_startItem

theorem execCompress_within {e : Fin 8} {i : Fin 4} :
    StaysWithin (partsSend ++ partsStore ++ [.vio, .cores, .draughts, .mxScales, .fresh]) s (execCompress e i s) := staysWithin_startItem

theorem execDraughtDescComplete_within {e : Fin 8} : StaysWithin (partsWake) s (execDraughtDescComplete e s) := by
  unfold execDraughtDescComplete
  split <;> simp +decide

theorem execEddyOperationComplete_within {c : Fin 4} :
    StaysWithin (partsStore ++ [.cores, .gales, .mxScales, .fresh]) s (execEddyOperationComplete c s) := by
  unfold execEddyOperationComplete
  dsimp only
  repeat' split
  all_goals simp +decide

theorem execCopyOperationComplete_within {c : Fin 4} :
    StaysWithin (partsStore ++ [.cores, .mxScales]) s (execCopyOperationComplete c s) := by
  unfold execCopyOperationComplete
  split <;> simp +decide

end
end Sys2Proof.Machine
end

section
/-! SUPPORT. Frames of the commands of the fence, the slipstream, the memory controllers, the links and the chain. -/

namespace Sys2Proof.Machine

section
variable {s : State}

theorem execLocalFence_within : StaysWithin (partsFence) s (execLocalFence s) := by
  unfold execLocalFence
  simp +decide

theorem execCommit_within : StaysWithin (partsFence) s (execCommit s) := by
  unfold execCommit
  simp +decide

theorem execFenceBoundExpiry_within : StaysWithin (partsRetry) s (execFenceBoundExpiry s) := by
  unfold execFenceBoundExpiry
  simp +decide

theorem execLoadComplete_within : StaysWithin (partsWake ++ [.begun]) s (execLoadComplete s) := by
  unfold execLoadComplete
  extract_lets u
  have hu : OnlyChanges (partsWake ++ [.begun]) s u :=
    (onlyChanges_foehn (t := { s with begun := true }) (by decide)).2 (by simp)
  clear_value u
  simp +decide [hu]

theorem execGroupUpdateComplete_within {n : Fin 12} {group : Fin 256} :
    StaysWithin (partsStore ++ partsWake) s (execGroupUpdateComplete n group s) := by
  unfold execGroupUpdateComplete
  split
  · split
    · simp
    · extract_lets s1
      have h1 : OnlyChanges (partsStore ++ partsWake) s s1 := by simp +decide [s1]
      clear_value s1
      split
      · simp +decide [h1]
      · split
        · simp [h1]
        · simp +decide [h1]
  · simp

theorem execChunkSend_within {n : Fin 12} {group : Fin 256} {kind : Fin 3} {chunk : Nat} :
    StaysWithin (partsRetry ++ partsStore) s (execChunkSend n group kind chunk s) := by
  unfold execChunkSend
  dsimp only
  repeat' split
  all_goals simp +decide

theorem execDataFrame_within {l : Fin 36} {p : Packet} {f : Frame} :
    StaysWithin (partsStore ++ partsWake ++ [.step, .loads, .loadedChunks]) s (execDataFrame l p f s) := staysWithin_takesFrame

theorem execChunkEnd_within {l : Fin 36} {p : Packet} {f : Frame} :
    StaysWithin (partsStore ++ partsWake ++ [.step, .loads, .loadedChunks]) s (execChunkEnd l p f s) := staysWithin_takesFrame

theorem execChunkAck_within {l : Fin 36} {p : Packet} {f : Frame} :
    StaysWithin (partsStore ++ partsWake ++ [.step, .loads, .loadedChunks]) s (execChunkAck l p f s) := staysWithin_takesFrame

theorem execChunkNak_within {l : Fin 36} {p : Packet} {f : Frame} :
    StaysWithin (partsStore ++ partsWake ++ [.step, .loads, .loadedChunks]) s (execChunkNak l p f s) := staysWithin_takesFrame

theorem execStepEndSend_within : StaysWithin (partsSend ++ [.slip]) s (execStepEndSend s) := by
  unfold execStepEndSend
  simp +decide

theorem execStepEnd_within {l : Fin 36} {p : Packet} {f : Frame} :
    StaysWithin (partsStore ++ partsWake ++ [.step, .loads, .loadedChunks]) s (execStepEnd l p f s) := staysWithin_takesFrame

theorem execStepAck_within {l : Fin 36} {p : Packet} {f : Frame} :
    StaysWithin (partsStore ++ partsWake ++ [.step, .loads, .loadedChunks]) s (execStepAck l p f s) := staysWithin_takesFrame

theorem execAbortFrame_within {l : Fin 36} {p : Packet} {f : Frame} :
    StaysWithin (partsStore ++ partsWake ++ [.step, .loads, .loadedChunks]) s (execAbortFrame l p f s) := staysWithin_takesFrame

theorem execHbmRead_within {addr : Nat} {upset : List Byte} {flags : BitVec 16} :
    StaysWithin (partsRead ++ [.stackBytes, .answer]) s (execHbmRead addr upset flags s) := by
  unfold execHbmRead
  split <;> simp +decide

theorem execHbmWrite_within {addr : Nat} {data : List Byte} {poison : Bool} :
    StaysWithin (partsStore) s (execHbmWrite addr data poison s) := by
  unfold execHbmWrite
  split <;> simp +decide

theorem execCorrectionWriteBack_within {n : Fin 12} {line : Nat} :
    StaysWithin [.stacks, .stackBytes] s (execCorrectionWriteBack n line s) := by
  unfold execCorrectionWriteBack
  split <;> simp +decide

theorem execWcEntryFinish_within {unit : Fin 20} {line : Nat} :
    StaysWithin (partsRead ++ [.stackBytes]) s (execWcEntryFinish unit line s) := by
  unfold execWcEntryFinish
  split
  · simp
  · split
    · simp
    · split <;> simp +decide

theorem unitLines_inl {unit : Fin 20} {n : Fin 12} (h : unitOf unit = .inl n) : s.unitLines unit = (s.stack n).arr := by
  unfold State.unitLines
  rw [h]

theorem unitLines_inr {unit : Fin 20} {n : Fin 8} (h : unitOf unit = .inr n) : s.unitLines unit = (s.stc n).arr := by
  unfold State.unitLines
  rw [h]

theorem execCheckLineEvict_within {unit : Fin 20} {group : Nat} :
    StaysWithin [.stacks, .stashes] s (execCheckLineEvict unit group s) := by
  unfold execCheckLineEvict
  have hk := (LineMem.evict_keeps (s.unitLines unit) group).bytes
  dsimp only
  split
  · simp
  · split
    · next n hn =>
      rw [unitLines_inl hn] at hk
      simp [hk, unitLines_inl hn]
    · next n hn =>
      rw [unitLines_inr hn] at hk
      simp [hk, unitLines_inr hn]

theorem execRefresh_within {n : Fin 12} {channel : Fin 32} {hot : Bool} :
    StaysWithin [.stacks] s (execRefresh n channel hot s) := by
  unfold execRefresh
  simp +decide

theorem execStackFault_within {what : ServiceFault} :
    StaysWithin (partsSend ++ [.dev, .ctxs, .cores, .frozen, .stacks, .stashes, .slip]) s (execStackFault what s) := by
  unfold execStackFault
  split
  · simp
  · split <;> simp +decide [Core.halt, LineMem.bytes]

theorem execStashRead_within {addr : Nat} {upset : List Byte} {crcFails : Fin 5} :
    StaysWithin (partsRead ++ [.stackBytes, .answer]) s (execStashRead addr upset crcFails s) := by
  unfold execStashRead
  split <;> simp +decide

theorem execStashWrite_within {addr : Nat} {data : List Byte} {poison : Bool} {crcFails : Fin 5} :
    StaysWithin (partsStore) s (execStashWrite addr data poison crcFails s) := by
  unfold execStashWrite
  split <;> simp +decide

theorem execLaneSpare_within {l : Fin 36} {lane : Fin 8} : StaysWithin (partsRetry) s (execLaneSpare l lane s) := by
  unfold execLaneSpare
  simp +decide

theorem execFlitReceive_within {l : Fin 36} {wire : List Byte} : StaysWithin (partsRetry) s (execFlitReceive l wire s) := by
  unfold execFlitReceive
  dsimp only
  repeat' split
  all_goals simp +decide

theorem execNak_within {l : Fin 36} {ack : BitVec 24} : StaysWithin (partsRetry) s (execNak l ack s) := by
  unfold execNak
  simp +decide

theorem execAckTimeout_within {l : Fin 36} : StaysWithin (partsRetry) s (execAckTimeout l s) := by
  unfold execAckTimeout
  simp +decide

theorem execRetrainComplete_within {l : Fin 36} : StaysWithin (partsSend) s (execRetrainComplete l s) := by
  unfold execRetrainComplete
  simp +decide

theorem execPacketForward_within {l : Fin 36} {pkt : Packet} : StaysWithin [.links, .sec] s (execPacketForward l pkt s) := by
  unfold execPacketForward
  dsimp only
  repeat' split
  all_goals simp +decide

theorem execWritePacket_within {l : Fin 36} {p : Packet} :
    StaysWithin (partsSend ++ partsStore ++ [.vio]) s (execWritePacket l p s) :=
  staysWithin_takes_of_lane (v := 3) (by decide) rfl

theorem execWriteAck_within {l : Fin 36} {p : Packet} :
    StaysWithin (partsSend ++ partsStore ++ [.cores, .draughts, .mxScales, .fresh]) s (execWriteAck l p s) :=
  staysWithin_takes_of_lane (v := 5) (by decide) rfl

theorem execReadReq_within {l : Fin 36} {p : Packet} :
    StaysWithin (partsRead ++ partsSend ++ [.vio]) s (execReadReq l p s) :=
  staysWithin_takes_of_lane (v := 4) (by decide) rfl

theorem execReadData_within {l : Fin 36} {p : Packet} :
    StaysWithin (partsSend ++ partsStore ++ [.cores, .draughts, .mxScales, .fresh]) s (execReadData l p s) :=
  staysWithin_takes_of_lane (v := 5) (by decide) rfl

theorem execSignalPacket_within {l : Fin 36} {p : Packet} :
    StaysWithin partsFence s (execSignalPacket l p s) := staysWithin_takesFence rfl

theorem execErrorPacket_within {l : Fin 36} {p : Packet} :
    StaysWithin (partsSend ++ partsStore ++ [.cores, .draughts, .mxScales, .fresh]) s (execErrorPacket l p s) :=
  staysWithin_takes_of_lane (v := 5) (by decide) rfl

theorem execRegResp_within {l : Fin 36} {p : Packet} :
    StaysWithin (partsSend ++ partsStore ++ [.cores, .draughts, .mxScales, .fresh]) s (execRegResp l p s) :=
  staysWithin_takes_of_lane (v := 5) (by decide) rfl

theorem execFenceReport_within {l : Fin 36} {p : Packet} :
    StaysWithin partsFence s (execFenceReport l p s) := staysWithin_takesFence rfl

theorem execFenceClose_within {l : Fin 36} {p : Packet} : StaysWithin partsFence s (execFenceClose l p s) := staysWithin_takesFence rfl

theorem execReport_within {first : Fin 36 × Packet} {more : List (Fin 36 × Packet)} :
    StaysWithin partsFence s (execReport first more s) :=
  staysWithin_takesAll fun x hx => by
    have hc := (List.mem_filter.1 hx).2
    simp only [State.comes, Bool.and_eq_true, beq_iff_eq] at hc
    rw [hc.1.1.2]
    rfl

theorem execReportResend_within : StaysWithin (partsRetry) s (execReportResend s) := by
  unfold execReportResend
  simp +decide

theorem execSettleWindowClose_within :
    StaysWithin (partsSend ++ [.dev, .ports, .ctxs, .cores, .gales, .draughts, .chainVanes, .signals, .foehn, .slip, .rst, .withheld]) s (execSettleWindowClose s) := by
  unfold execSettleWindowClose
  split <;> simp +decide

theorem execRetryOrder_within {l : Fin 36} {p : Packet} : StaysWithin partsFence s (execRetryOrder l p s) := by
  unfold execRetryOrder
  simp [staysWithin_takesFence (type := 0x22) rfl]

theorem execRetryDone_within {l : Fin 36} {p : Packet} : StaysWithin partsFence s (execRetryDone l p s) := by
  unfold execRetryDone
  simp [staysWithin_takesFence (type := 0x22) rfl]

theorem execHaltOrder_within {l : Fin 36} {p : Packet} : StaysWithin partsFence s (execHaltOrder l p s) := by
  unfold execHaltOrder
  simp [staysWithin_takesFence (type := 0x22) rfl]

/-- What is put in the order of the device identifiers is what was there. -/
theorem mem_insRequest {x y : Fin 36 × Packet} (xs : List (Fin 36 × Packet)) (h : y ∈ insRequest x xs) : y = x ∨ y ∈ xs := by
  induction xs with
  | nil => simpa [insRequest] using h
  | cons z xs ih =>
    unfold insRequest at h
    split at h
    · simpa using h
    · rcases List.mem_cons.1 h with h | h
      · exact .inr (h ▸ List.mem_cons_self ..)
      · exact (ih h).imp_right (List.mem_cons_of_mem _)

theorem mem_foldl_insRequest {y : Fin 36 × Packet} (xs : List (Fin 36 × Packet)) : ∀ acc : List (Fin 36 × Packet),
    y ∈ xs.foldl (fun acc x => insRequest x acc) acc → y ∈ acc ∨ y ∈ xs := by
  induction xs with
  | nil => exact fun acc h => .inl h
  | cons x xs ih =>
    intro acc h
    rcases ih _ h with h | h
    · rcases mem_insRequest acc h with h | h
      · exact .inr (h ▸ List.mem_cons_self ..)
      · exact .inl h
    · exact .inr (List.mem_cons_of_mem _ h)

/-- The requests of a handshake are membership requests for this device. -/
theorem requestsOf_type {kind : Nat} {xs : List (Fin 36 × Packet)} {x : Fin 36 × Packet} (h : x ∈ s.requestsOf kind xs) :
    x.2.type = 0x23 := by
  rcases mem_foldl_insRequest _ _ h with h | h
  · cases h
  · have hc := (List.mem_filter.1 h).2
    simp only [State.comes, Bool.and_eq_true, beq_iff_eq] at hc
    exact hc.1.1.2

theorem staysWithin_requests {kind : Nat} {xs : List (Fin 36 × Packet)} :
    StaysWithin partsFence s (s.takesAll (s.requestsOf kind xs)) :=
  staysWithin_takesAll fun _ hx => by rw [requestsOf_type hx]; rfl

theorem execMemberReqAttach_within {first : Fin 36 × Packet} {more : List (Fin 36 × Packet)} :
    StaysWithin partsFence s (execMemberReqAttach first more s) := staysWithin_requests

theorem execMemberReqDetach_within {first : Fin 36 × Packet} {more : List (Fin 36 × Packet)} :
    StaysWithin partsFence s (execMemberReqDetach first more s) := staysWithin_requests

theorem execMemberReqTakeover_within {first : Fin 36 × Packet} {more : List (Fin 36 × Packet)} :
    StaysWithin partsFence s (execMemberReqTakeover first more s) := staysWithin_requests

theorem execMemberGrant_within {l : Fin 36} {p : Packet} :
    StaysWithin partsFence s (execMemberGrant l p s) := staysWithin_takesFence rfl

theorem execMemberDeny_within {l : Fin 36} {p : Packet} : StaysWithin partsFence s (execMemberDeny l p s) := staysWithin_takesFence rfl

theorem execHeartbeatSend_within : StaysWithin (partsSend) s (execHeartbeatSend s) := by
  unfold execHeartbeatSend
  simp +decide

theorem execHeartbeat_within {l : Fin 36} {p : Packet} :
    StaysWithin (partsStore ++ partsWake ++ [.step, .loads, .loadedChunks]) s (execHeartbeat l p s) :=
  staysWithin_takes_of_lane (v := 1) (by decide) rfl

theorem execTwinSilent_within : StaysWithin (partsRetry) s (execTwinSilent s) := by
  unfold execTwinSilent
  simp +decide

theorem execHello_within {l : Fin 36} {p : Packet} : StaysWithin partsRetry s (execHello l p s) :=
  staysWithin_takePair (by decide) fun _ => by simp

theorem execReply_within {l : Fin 36} {p : Packet} : StaysWithin partsRetry s (execReply l p s) :=
  staysWithin_takePair (by decide) fun _ => by simp

theorem execConfirm_within {l : Fin 36} {p : Packet} : StaysWithin partsRetry s (execConfirm l p s) :=
  staysWithin_takePair (by decide) fun _ => by simp

theorem execFinish_within {l : Fin 36} {p : Packet} : StaysWithin partsRetry s (execFinish l p s) :=
  staysWithin_takePair (by decide) fun _ => by simp

theorem execPairBoundExpiry_within : StaysWithin (partsSend ++ [.dev, .rst]) s (execPairBoundExpiry s) := by
  unfold execPairBoundExpiry
  simp +decide

theorem execLinkRetrainFailure_within {l : Fin 36} : StaysWithin (partsRetry) s (execLinkRetrainFailure l s) := by
  unfold execLinkRetrainFailure
  simp +decide

end
end Sys2Proof.Machine
end

section
/-! SUPPORT. Frames of register accesses and of the commands of the ports, secrecy, restores, resets, bring-up and health. -/

namespace Sys2Proof.Machine

section
variable {s : State}

/-- The comparison of the handshake, and what the write then keeps of an older mismatch (R95). -/
theorem staysWithin_compareMet {u : State} {w : Fin 8} : StaysWithin partsRetry u (s.compareMet u w) := by
  have hc : StaysWithin partsRetry u (execXchkRowCompare w u) := execXchkRowCompare_within
  unfold State.compareMet
  split
  · next v r hv _ =>
    have hx : OnlyChanges partsRetry u v := hc v hv
    dsimp only
    split
    · exact staysWithin_done.2 ((onlyChanges_modGale (by decide)).2 hx)
    · exact staysWithin_done.2 hx
  · exact hc

theorem staysWithin_formWrite {p : Path} {off : Nat} {v : Word} {f : Form} :
    StaysWithin (partsReg ++ partsRetry) s (s.formWrite p off v f) := by
  have ho : StaysWithin (partsReg ++ partsRetry) s (if f.whole || p = .mb then s.pathWrite p off v else s.badForm p off 0) := by
    split
    · exact staysWithin_pathWrite.mono (by decide)
    · exact staysWithin_badForm.mono (by decide)
  unfold State.formWrite
  dsimp only
  split
  · next w t ht _ =>
    exact StaysWithin.of_state (ho t ‹_›) (staysWithin_compareMet.mono (by decide))
  · exact ho

theorem execRegisterWrite_within {p : Path} {off : Nat} {v : Word} {f : Form} :
    StaysWithin (partsReg ++ partsRetry) s (execRegisterWrite p off v f s) := staysWithin_formWrite

theorem staysWithin_read {p : Path} {a : Access} :
    StaysWithin [.ports, .vio, .sec] s (if a.width = 4 || p = .mb then s.pathRead p a.off else s.badForm p a.off a.width) := by
  split
  · exact staysWithin_pathRead
  · exact staysWithin_badForm.mono (by decide)

theorem execLoRead_within {p : Path} {a : Access} : StaysWithin [.ports, .vio, .sec] s (execLoRead p a s) := staysWithin_read

theorem execHiRead_within {p : Path} {a : Access} : StaysWithin [.ports, .vio, .sec] s (execHiRead p a s) := staysWithin_read

theorem execLoWrite_within {p : Path} {off : Nat} {w : Put} : StaysWithin (partsReg ++ partsRetry) s (execLoWrite p off w s) :=
  staysWithin_formWrite

theorem execHiWrite_within {p : Path} {off : Nat} {w : Put} : StaysWithin (partsReg ++ partsRetry) s (execHiWrite p off w s) :=
  staysWithin_formWrite

theorem execVioStatusClear_within {p : Path} {v : Word} : StaysWithin partsReg s (execVioStatusClear p v s) := staysWithin_pathWrite

theorem execHpApertureWrite_within {p : Path} {fn : Fin 2} {v : Word} :
    StaysWithin partsReg s (execHpApertureWrite p fn v s) := staysWithin_pathWrite

theorem execBar2Read_within {fn : Fin 2} {off len : Nat} :
    StaysWithin (partsRead ++ [.ports, .vio, .sec, .answer]) s (execBar2Read fn off len s) := by
  unfold execBar2Read
  refine staysWithin_ite.2 ⟨fun _ => ?_, fun _ => ?_⟩
  · exact staysWithin_stay.2 (onlyChanges_refl _ s)
  refine staysWithin_ite.2 ⟨fun _ => ?_, fun _ => ?_⟩
  · exact staysWithin_done.2 ((onlyChanges_barReadDenied (by decide)).2 (onlyChanges_refl _ s))
  split
  · exact staysWithin_done.2 ((onlyChanges_barViolate (by decide)).2 ((onlyChanges_answer (by decide)).2 (onlyChanges_refl _ s)))
  refine staysWithin_ite.2 ⟨fun _ => ?_, fun _ => ?_⟩
  · exact staysWithin_done.2 ((onlyChanges_respond (by decide)).2 ((onlyChanges_answer (by decide)).2
      ((onlyChanges_touch (by decide)).2 (onlyChanges_refl _ s))))
  · exact staysWithin_done.2 ((onlyChanges_barReadDenied (by decide)).2 (onlyChanges_refl _ s))

theorem execBar2Write_within {fn : Fin 2} {off : Nat} {data : List Byte} :
    StaysWithin (partsStore ++ [.ports, .vio, .sec, .rst]) s (execBar2Write fn off data s) := by
  unfold execBar2Write
  dsimp only
  split
  · simp
  · split
    · simp +decide
    · split
      · simp
      · split <;> simp +decide

theorem execStagingLengthWrite_within {fn : Fin 2} {len : Word} :
    StaysWithin (partsStore ++ [.ports, .vio, .sec, .rst]) s (execStagingLengthWrite fn len s) := execBar2Write_within

theorem execMbRegRead_within {off : Nat} : StaysWithin [.ports, .vio, .sec] s (execMbRegRead off s) := staysWithin_pathRead

theorem execMbRegWrite_within {off : Nat} {v : Word} : StaysWithin partsReg s (execMbRegWrite off v s) := staysWithin_pathWrite

theorem execMbLastStatus_within : StaysWithin [.ports] s (execMbLastStatus s) := by
  unfold execMbLastStatus
  simp +decide

theorem execMbBadCommand_within {code : Byte} : StaysWithin [.ports] s (execMbBadCommand code s) := by
  unfold execMbBadCommand
  simp +decide

theorem execMbPecError_within : StaysWithin [.ports] s (execMbPecError s) := by
  unfold execMbPecError
  simp +decide

theorem execClockLowTimeout_within : StaysWithin [.ports] s (execClockLowTimeout s) := by
  unfold execClockLowTimeout
  simp +decide

theorem execAlertResponse_within : StaysWithin [.ports] s (execAlertResponse s) := by
  unfold execAlertResponse
  simp +decide

theorem execPerfClearCores_within {p : Path} : StaysWithin partsReg s (execPerfClearCores p s) := staysWithin_pathWrite

theorem execPerfClearDraught_within {p : Path} : StaysWithin partsReg s (execPerfClearDraught p s) := staysWithin_pathWrite

theorem execPerfClearMemory_within {p : Path} : StaysWithin partsReg s (execPerfClearMemory p s) := staysWithin_pathWrite

theorem execPerfClearStash_within {p : Path} : StaysWithin partsReg s (execPerfClearStash p s) := staysWithin_pathWrite

theorem execPerfClearLinks_within {p : Path} : StaysWithin partsReg s (execPerfClearLinks p s) := staysWithin_pathWrite

theorem execPerfClearSlipstream_within {p : Path} : StaysWithin partsReg s (execPerfClearSlipstream p s) := staysWithin_pathWrite

theorem execPerfClearViolations_within {p : Path} : StaysWithin partsReg s (execPerfClearViolations p s) := staysWithin_pathWrite

theorem execVeerHistSelWrite_within {p : Path} {c : Fin 4} {v : Word} :
    StaysWithin partsReg s (execVeerHistSelWrite p c v s) := staysWithin_pathWrite

theorem execPeerRegRead_within {l : Fin 36} {p : Packet} :
    StaysWithin partsReg s (execPeerRegRead l p s) :=
  staysWithin_takes_of_lane (v := 6) (by decide) rfl

theorem execPeerRegWrite_within {l : Fin 36} {p : Packet} :
    StaysWithin partsReg s (execPeerRegWrite l p s) :=
  staysWithin_takes_of_lane (v := 6) (by decide) rfl

theorem execAttach_within {p : Path} {call : Call} : StaysWithin (partsSend ++ [.ports]) s (execAttach p call s) :=
  staysWithin_commandRow (by decide) (fun _ => by simp) fun _ _ => by simp +decide

theorem execDetach_within {p : Path} {call : Call} : StaysWithin (partsSend ++ [.ports]) s (execDetach p call s) :=
  staysWithin_commandRow (by decide) (fun _ => by simp) fun _ _ => by simp +decide

theorem execShard_within {l : Fin 36} {p : Packet} {proof : Option ChunkProof} :
    StaysWithin (partsStore ++ partsWake ++ [.step, .loads, .loadedChunks]) s (execShard l p proof s) := by
  unfold execShard
  split
  · next hc =>
    simp only [State.comes, Bool.and_eq_true, beq_iff_eq] at hc
    refine staysWithin_done.2 (deliverPkt_onlyChanges (by decide) fun hp => ?_)
    have hl := lane_of_pktOk hp
    rw [hc.1.2] at hl
    rw [← Option.some.inj hl]
    exact List.Subset.refl _
  · simp

theorem execRestoreChunk_within {proof : ChunkProof} {src : ChunkSource} :
    StaysWithin (partsRetry ++ partsStore ++ [.loads, .loadedChunks]) s (execRestoreChunk proof src s) := by
  unfold execRestoreChunk
  simp +decide

theorem execNonce_within {p : Path} {call : Call} : StaysWithin [.ports, .sec] s (execNonce p call s) :=
  staysWithin_secRow (by decide) fun _ => by simp

theorem execSession_within {p : Path} {call : Call} : StaysWithin [.ports, .sec] s (execSession p call s) :=
  staysWithin_secRow (by decide) fun _ => by simp

theorem execEndSession_within {p : Path} {call : Call} : StaysWithin [.ports, .sec] s (execEndSession p call s) :=
  staysWithin_secRow (by decide) fun _ => by simp

theorem execSessionExpiry_within {p : Path} : StaysWithin [.sec] s (execSessionExpiry p s) := by
  unfold execSessionExpiry
  split
  · split
    · split <;> simp
    · simp
  · simp

theorem execShip_within {p : Path} {call : FuseCall} : StaysWithin [.ports, .sec, .rst] s (execShip p call s) :=
  staysWithin_secRow (by decide) fun _ => by simp

theorem execFuseOwner_within {p : Path} {call : FuseCall} : StaysWithin [.ports, .sec, .rst] s (execFuseOwner p call s) :=
  staysWithin_secRow (by decide) fun _ => by simp

theorem execKeyLoad_within {p : Path} {call : Call} : StaysWithin [.ports, .sec] s (execKeyLoad p call s) :=
  staysWithin_secRow (by decide) fun _ => by simp

theorem execKeyDelete_within {p : Path} {call : Call} : StaysWithin [.ports, .sec] s (execKeyDelete p call s) :=
  staysWithin_secRow (by decide) fun _ => by simp

theorem execPolicy_within {p : Path} {call : Call} : StaysWithin [.ports, .sec] s (execPolicy p call s) :=
  staysWithin_secRow (by decide) fun _ => by simp

theorem execEndorse_within {p : Path} {call : Call} : StaysWithin [.ports, .sec] s (execEndorse p call s) :=
  staysWithin_secRow (by decide) fun _ => by simp

theorem execDebugUnlock_within {p : Path} {call : Call} :
    StaysWithin (partsSend ++ [.dev, .ports, .ctxs, .frozen, .slip]) s (execDebugUnlock p call s) :=
  staysWithin_secRow (by decide) fun _ => by simp +decide

theorem execUnlockComplete_within :
    StaysWithin (partsStore ++ [.ctxs, .cores, .gales, .draughts, .chainVanes, .sec, .plan, .loaded, .loads, .hostLeaves, .loadedChunks]) s (execUnlockComplete s) := by
  unfold execUnlockComplete
  dsimp only
  repeat' split
  all_goals simp +decide

theorem execSubmit_within {p : Path} {chan : Fin 8} {call : Call} : StaysWithin [.ports, .sec] s (execSubmit p chan call s) :=
  staysWithin_commandRow (by decide) (fun _ => by simp) fun _ _ => by simp

theorem execIngestBufferReady_within :
    StaysWithin (partsStore ++ partsWake ++ [.loads, .hostLeaves, .fresh]) s (execIngestBufferReady s) := by
  unfold execIngestBufferReady
  dsimp only
  repeat' split
  all_goals simp +decide

theorem execEntropyFail_within : StaysWithin [.sec] s (execEntropyFail s) := by
  unfold execEntropyFail
  simp +decide

theorem execExtest_within : StaysWithin [.ports] s (execExtest s) := by
  unfold execExtest
  simp +decide

theorem execClamp_within : StaysWithin [.ports] s (execClamp s) := by
  unfold execClamp
  simp +decide

theorem execHighz_within : StaysWithin [.ports] s (execHighz s) := by
  unfold execHighz
  simp +decide

theorem execExtestPulse_within : StaysWithin [.ports] s (execExtestPulse s) := by
  unfold execExtestPulse
  simp +decide

theorem execExtestTrain_within : StaysWithin [.ports] s (execExtestTrain s) := by
  unfold execExtestTrain
  simp +decide

theorem execSamplePreload_within : StaysWithin [.ports, .fresh] s (execSamplePreload s) := by
  unfold execSamplePreload
  simp +decide

theorem execIdcode_within : StaysWithin [.ports] s (execIdcode s) := by
  unfold execIdcode
  simp +decide

theorem execBypass_within : StaysWithin [.ports] s (execBypass s) := by
  unfold execBypass
  simp +decide

theorem execPrivateTestInstruction_within {op : TestOp} : StaysWithin [] s (execPrivateTestInstruction op s) := by
  unfold execPrivateTestInstruction
  split
  · simp
  · split <;> simp

theorem execPowerOnReset_within : StaysWithin [.rst] s (execPowerOnReset s) := by
  unfold execPowerOnReset
  simp +decide

theorem execPinReset_within : StaysWithin [.ports] s (execPinReset s) := by
  unfold execPinReset
  simp +decide

theorem execResetRelease_within {twin : Bool} : StaysWithin [.ports, .rst] s (execResetRelease twin s) := by
  unfold execResetRelease
  simp +decide

theorem execColdReset_within {p : Path} {call : Call} : StaysWithin [.ports, .sec, .rst] s (execColdReset p call s) :=
  staysWithin_commandRow (by decide) (fun _ => by simp) fun _ _ => by simp

theorem execWarmReset_within {p : Path} {call : Call} : StaysWithin [.ports, .sec, .rst] s (execWarmReset p call s) :=
  staysWithin_commandRow (by decide) (fun _ => by simp) fun _ _ => by simp

theorem execCoreReset_within {p : Path} {call : Call} : StaysWithin [.ports, .sec, .rst] s (execCoreReset p call s) :=
  staysWithin_commandRow (by decide) (fun _ => by simp) fun _ _ => by simp

theorem execTwinReset_within : StaysWithin [.ports] s (execTwinReset s) := by
  unfold execTwinReset
  simp +decide

theorem execWatchdogExpiry_within : StaysWithin [] s (execWatchdogExpiry s) := by
  unfold execWatchdogExpiry
  simp +decide

theorem execThermalTrip_within {sensor : Fin 12} {temp : Int} : StaysWithin [.rst, .hlt] s (execThermalTrip sensor temp s) := by
  unfold execThermalTrip
  dsimp only
  repeat' split
  all_goals simp +decide

theorem execThermalTripRelease_within {temps : Vector Int 12} : StaysWithin [.rst, .hlt] s (execThermalTripRelease temps s) := by
  unfold execThermalTripRelease
  simp +decide

theorem execSupplyMonitorReset_within : StaysWithin [.rst] s (execSupplyMonitorReset s) := by
  unfold execSupplyMonitorReset
  simp +decide

theorem execResetTake_within : StaysWithin (Part.all) s (execResetTake s) := by
  unfold execResetTake
  split <;> simp +decide

theorem execPhase1_within {env : Phase1Env} : StaysWithin (partsSend ++ [.dev, .rst, .hlt]) s (execPhase1 env s) := by
  unfold execPhase1
  split <;> simp +decide

theorem execPhase2_within {env : Phase2Env} : StaysWithin (partsSend ++ [.dev, .rst, .hlt]) s (execPhase2 env s) := by
  unfold execPhase2
  simp +decide

theorem execPhase3_within {straps : Straps} : StaysWithin (partsSend ++ [.dev, .rst]) s (execPhase3 straps s) := by
  unfold execPhase3
  simp +decide

theorem execPhase4_within {env : Phase4Env} : StaysWithin (partsSend ++ [.dev, .rst, .plan, .loaded]) s (execPhase4 env s) := by
  unfold execPhase4
  dsimp only
  repeat' split
  all_goals simp +decide

theorem execPhase5_within {env : Phase5Env} :
    StaysWithin (partsSend ++ partsStore ++ [.dev, .ctxs, .cores, .gales, .draughts, .chainVanes, .rst, .plan, .loaded, .loads, .hostLeaves, .loadedChunks]) s (execPhase5 env s) := by
  unfold execPhase5
  simp +decide

theorem execPhase6_within {env : Phase6Env} : StaysWithin (partsRetry) s (execPhase6 env s) := by
  unfold execPhase6
  simp +decide

theorem execPhase7_within {env : Phase7Env} : StaysWithin [.dev, .cores, .gales, .rst, .hlt, .fresh] s (execPhase7 env s) := by
  unfold execPhase7
  split
  · simp
  · extract_lets u v
    have hu : OnlyChanges [.dev, .cores, .gales, .rst, .hlt, .fresh] s u := by
      intro p hp
      cases p <;> simp [Part.same, State.core, State.ctx, State.stack, State.stc, u] at hp ⊢
    have hv : OnlyChanges [.dev, .cores, .gales, .rst, .hlt, .fresh] u v := by simp [v]
    simp [hu.trans hv]

theorem execPhase8_within : StaysWithin (partsSend ++ [.dev, .rst, .fit]) s (execPhase8 s) := by
  unfold execPhase8
  split
  · simp
  · split
    · exact staysWithin_done.2 ((onlyChanges_failBringUp (by decide)).2 ((onlyChanges_fit (by decide)).2 (by simp)))
    · exact staysWithin_done.2 ((onlyChanges_enterPhase (by decide)).2 ((onlyChanges_fit (by decide)).2 (by simp)))

theorem execPhase9_within : StaysWithin (partsWake ++ [.stackBytes, .step, .loads, .begun, .loadedChunks]) s (execPhase9 s) := by
  unfold execPhase9
  simp +decide

theorem execPhaseBoundExpiry_within : StaysWithin (partsSend ++ [.dev, .rst, .hlt]) s (execPhaseBoundExpiry s) := by
  unfold execPhaseBoundExpiry
  split
  · split
    · simp
    · split
      · simp +decide
      · split <;> simp +decide
  · simp

theorem execFailedBringUpWaitExpiry_within : StaysWithin [] s (execFailedBringUpWaitExpiry s) := by
  unfold execFailedBringUpWaitExpiry
  split <;> simp +decide

theorem execHpPerst_within : StaysWithin [.ports, .sec] s (execHpPerst s) := by
  unfold execHpPerst
  simp +decide

theorem execFunctionLevelReset_within {fn : Fin 2} : StaysWithin [.ports, .sec] s (execFunctionLevelReset fn s) := by
  unfold execFunctionLevelReset
  simp +decide

theorem execPwrFail_within : StaysWithin [.ports, .keepHeld] s (execPwrFail s) := by
  unfold execPwrFail
  split
  · simp
  · exact staysWithin_done.2 (onlyChanges_modEvr.2 (onlyChanges_ask.2 ((onlyChanges_keepHeld (by simp)).2 (by simp))))

theorem execPwrFailRise_within : StaysWithin [.ports] s (execPwrFailRise s) := by
  unfold execPwrFailRise
  simp +decide

theorem execFaultFlushEnd_within : StaysWithin [.sec, .keepHeld] s (execFaultFlushEnd s) := by
  unfold execFaultFlushEnd
  simp +decide

theorem execRoutineFlush_within : StaysWithin [] s (execRoutineFlush s) := by
  unfold execRoutineFlush
  split <;> simp +decide

theorem execSeqMarkWriteEnd_within : StaysWithin [] s (execSeqMarkWriteEnd s) := by
  unfold execSeqMarkWriteEnd
  split <;> simp +decide

theorem execRecordAllowanceRise_within : StaysWithin [] s (execRecordAllowanceRise s) := by
  unfold execRecordAllowanceRise
  simp +decide

theorem execEvrCursorWrite_within {p : Path} {lo hi : Word} : StaysWithin partsReg s (execEvrCursorWrite p lo hi s) := by
  have hl : StaysWithin partsReg s (s.pathWrite p cursorLo lo) := staysWithin_pathWrite
  unfold execEvrCursorWrite
  split
  · next t ht => exact StaysWithin.of_state (hl t ht) staysWithin_pathWrite
  · exact hl

theorem execRstHistSelWrite_within {p : Path} {v : Word} : StaysWithin partsReg s (execRstHistSelWrite p v s) := staysWithin_pathWrite

theorem execHltCanarySelWrite_within {p : Path} {v : Word} :
    StaysWithin partsReg s (execHltCanarySelWrite p v s) := staysWithin_pathWrite

theorem execMeasurementStart_within : StaysWithin [.hlt] s (execMeasurementStart s) := by
  unfold execMeasurementStart
  simp +decide

theorem execMeasurementComplete_within {m : Measurement} :
    StaysWithin (partsSend ++ [.dev, .ctxs, .frozen, .slip, .hlt]) s (execMeasurementComplete m s) := by
  unfold execMeasurementComplete
  dsimp only
  repeat' split
  all_goals simp +decide

theorem execAvsSettled_within {vread : Nat} : StaysWithin [.hlt] s (execAvsSettled vread s) := by
  unfold execAvsSettled
  split <;> simp +decide

theorem execAvsSettleTimeout_within {vread : Nat} : StaysWithin [.hlt] s (execAvsSettleTimeout vread s) := by
  unfold execAvsSettleTimeout
  split <;> simp +decide

theorem execTempWarn_within {sensor : Fin 12} {temp : Int} : StaysWithin [.hlt] s (execTempWarn sensor temp s) := by
  unfold execTempWarn
  simp +decide

theorem execReferenceClockLoss_within {clock : RefClock} :
    StaysWithin (partsRetry ++ [.stacks, .stashes]) s (execReferenceClockLoss clock s) := by
  unfold execReferenceClockLoss
  split
  · exact staysWithin_done.2 (onlyChanges_foldl (fun u l => by split <;> simp +decide) _ s)
  · exact staysWithin_done.2 (by simp +decide)
  · exact staysWithin_done.2 (by simp +decide)

theorem execPcieLinkLoss_within : StaysWithin [.ports, .sec] s (execPcieLinkLoss s) := by
  unfold execPcieLinkLoss
  simp +decide

theorem execHpPerstRelease_within : StaysWithin [.ports] s (execHpPerstRelease s) := by
  unfold execHpPerstRelease
  simp +decide

theorem execTwinRstOutRelease_within : StaysWithin [.ports] s (execTwinRstOutRelease s) := by
  unfold execTwinRstOutRelease
  simp +decide

theorem execTempWarnRearm_within {sensor : Fin 12} {temp : Int} : StaysWithin [.hlt] s (execTempWarnRearm sensor temp s) := by
  unfold execTempWarnRearm
  simp +decide

end
end Sys2Proof.Machine
end

section
/-! SUPPORT. A device that halts freezes its vanes: the state that a takeover request at a root halts. -/

namespace Sys2Proof.Machine

/-- A root that runs, whose last RETRY was in vain, with a link over which it hears the devices below it. -/
def retriedRoot : State :=
  ((State.reset.modDev (fun d => { d with st := .run })).modChain (fun c => { c with isRoot := true, retried := true })).modLink 0
    (fun x => { x with st := .up, session := true })

/-- Device 5 asks to take its twin's place. -/
def takeoverOf5 : Packet := memberReq 3 5

theorem retriedRoot_requests : retriedRoot.requestsOf 3 [(0, takeoverOf5)] = [(0, takeoverOf5)] := rfl

theorem fatalStop_frozen (s : State) (cause : Nat) : (s.fatalStop cause).frozen = true := by
  have hf : ∀ (xs : List (Nat × List Byte)) (u : State), (xs.foldl (fun s r => s.askBare r.1 r.2) u).frozen = u.frozen := by
    intro xs
    induction xs with
    | nil => exact fun u => rfl
    | cons x xs ih => exact fun u => ih _
  unfold State.fatalStop
  dsimp only
  rw [State.modEvr_frozen, State.askBare_frozen, hf]

theorem orderHalt_frozen (s : State) (cause origin : Nat) : (s.orderHalt cause origin).frozen = true := by
  unfold State.orderHalt State.obeyHalt
  extract_lets u v
  have hv : v.frozen = true := fatalStop_frozen _ _
  have hs : OnlyChanges [.dev, .links, .chain, .rst] v
      (((v.stopLinks false).modDev (fun d => { d with st := .halted })).modRst (fun r => { r with wdtSince := v.now })) := by
    simp
  exact (hs .frozen (by decide)).trans hv

/-- A root whose last RETRY was in vain orders HALT on the next report, and a device that halts freezes its vanes (R338, R342). -/
theorem rootAct_frozen {s : State} (r : Heard) (h : s.chain.retried = true) : (s.rootAct r).frozen = true := by
  have ha : (s.modChain (fun c => { c with lastCause := r.1, lastOrigin := r.2.1 })).heardAction r = 3 := if_pos h
  unfold State.rootAct
  rw [if_pos ha]
  exact orderHalt_frozen _ _ _

theorem rootJudge_frozen {s : State} {r : Heard} (hrun : s.running = true) (hbox : s.chain.inbox = [r])
    (ha : s.chain.attempt ≤ r.2.2) (hr : s.chain.retried = true) : s.rootJudge.frozen = true := by
  have hrun' : (s.modChain fun c => { c with inbox := [] }).running = true := hrun
  unfold State.rootJudge
  simp only [hbox, hrun', State.modChain_chain]
  simp [ha, Nat.not_lt.2 ha, rootAct_frozen, hr]

/-- Refutes O12: a TAKEOVER request at a root whose last RETRY was in vain is heard with cause 8, and the root answers it with HALT:
the device stops its contexts and freezes its vanes, though nothing was held and no report had been heard before. -/
theorem not_chainFrame : ¬Obligations.ChainFrame := by
  unfold Obligations.ChainFrame
  intro h
  have ht : exec (.memberReqTakeover (0, takeoverOf5) []) retriedRoot =
      .next (close (retriedRoot.deliverPkt 0 takeoverOf5 none).rootJudge) := by
    show execMemberReqTakeover (0, takeoverOf5) [] retriedRoot = _
    unfold execMemberReqTakeover State.takesAll
    rw [retriedRoot_requests]
    rfl
  obtain ⟨-, halone⟩ := h _ _ _ (.inr (.inl rfl)) ht
  have hsame := halone rfl rfl .frozen (by decide)
  have hfrozen : (close (retriedRoot.deliverPkt 0 takeoverOf5 none).rootJudge).frozen = true := by
    rw [close_frozen]
    exact rootJudge_frozen rfl rfl (by decide) rfl
  rw [show (close (retriedRoot.deliverPkt 0 takeoverOf5 none).rootJudge).frozen = retriedRoot.frozen from hsame] at hfrozen
  exact absurd hfrozen (by decide)

end Sys2Proof.Machine
end

section
/-! SUPPORT. Every command leaves the parts that `writes` does not name. -/

namespace Sys2Proof.Machine

/-- The frame of every command, as `writes` names it: one case per command, by the frame of its meaning. -/
theorem exec_staysWithin (i : Instr) (s : State) : StaysWithin (writes i) s (exec i s) := by
  cases i
  all_goals unfold exec
  case registerWrite => exact execRegisterWrite_within
  case loRead => exact execLoRead_within
  case hiRead => exact execHiRead_within
  case loWrite => exact execLoWrite_within
  case hiWrite => exact execHiWrite_within
  case vioStatusClear => exact execVioStatusClear_within
  case hpApertureWrite => exact execHpApertureWrite_within
  case bar2Read => exact execBar2Read_within
  case bar2Write => exact execBar2Write_within
  case stagingLengthWrite => exact execStagingLengthWrite_within
  case mbRegRead => exact execMbRegRead_within
  case mbRegWrite => exact execMbRegWrite_within
  case mbLastStatus => exact execMbLastStatus_within
  case mbBadCommand => exact execMbBadCommand_within
  case mbPecError => exact execMbPecError_within
  case clockLowTimeout => exact execClockLowTimeout_within
  case alertResponse => exact execAlertResponse_within
  case perfClearCores => exact execPerfClearCores_within
  case perfClearDraught => exact execPerfClearDraught_within
  case perfClearMemory => exact execPerfClearMemory_within
  case perfClearStash => exact execPerfClearStash_within
  case perfClearLinks => exact execPerfClearLinks_within
  case perfClearSlipstream => exact execPerfClearSlipstream_within
  case perfClearViolations => exact execPerfClearViolations_within
  case fetchOperation => exact execFetchOperation_within
  case nop => exact execNop_within
  case endOp => exact execEndOp_within
  case endComplete => exact execEndComplete_within
  case tile => exact execTile_within
  case fillRow => exact execFillRow_within
  case fillCol => exact execFillCol_within
  case gather => exact execGather_within
  case scatter => exact execScatter_within
  case merge => exact execMerge_within
  case compact => exact execCompact_within
  case expand => exact execExpand_within
  case eddyTile => exact execEddyTile_within
  case predict => exact execPredict_within
  case predictComplete => exact execPredictComplete_within
  case verify => exact execVerify_within
  case tcopy => exact execTcopy_within
  case pcopy => exact execPcopy_within
  case copy => exact execCopy_within
  case convert => exact execConvert_within
  case vecAdd => exact execVecAdd_within
  case vecSub => exact execVecSub_within
  case vecMul => exact execVecMul_within
  case vecFma => exact execVecFma_within
  case vecFunc => exact execVecFunc_within
  case vecMax => exact execVecMax_within
  case vecMin => exact execVecMin_within
  case vecSum => exact execVecSum_within
  case vecDot => exact execVecDot_within
  case vecSelect => exact execVecSelect_within
  case vecDropout => exact execVecDropout_within
  case vectorOperationComplete => exact execVectorOperationComplete_within
  case route => exact execRoute_within
  case dispatchPair => exact execDispatchPair_within
  case routeComplete => exact execRouteComplete_within
  case veerHistSelWrite => exact execVeerHistSelWrite_within
  case vaneSignal => exact execVaneSignal_within
  case vaneSignalTakesEffect => exact execVaneSignalTakesEffect_within
  case vaneWait => exact execVaneWait_within
  case vaneTest => exact execVaneTest_within
  case waitBoundExpiry => exact execWaitBoundExpiry_within
  case draught => exact execDraught_within
  case loopSet => exact execLoopSet_within
  case loopNext => exact execLoopNext_within
  case branchVane => exact execBranchVane_within
  case jump => exact execJump_within
  case galeBroadcast => exact execGaleBroadcast_within
  case galeStall => exact execGaleStall_within
  case groupEntersReducer => exact execGroupEntersReducer_within
  case groupSumAdd => exact execGroupSumAdd_within
  case drainRowRead => exact execDrainRowRead_within
  case drainRowWrite => exact execDrainRowWrite_within
  case accLoadRow => exact execAccLoadRow_within
  case bayFillComplete => exact execBayFillComplete_within
  case xchkIssue => exact execXchkIssue_within
  case xchkRowCompare => exact execXchkRowCompare_within
  case move => exact execMove_within
  case mxStore => exact execMxStore_within
  case compress => exact execCompress_within
  case draughtDescComplete => exact execDraughtDescComplete_within
  case localFence => exact execLocalFence_within
  case commit => exact execCommit_within
  case fenceBoundExpiry => exact execFenceBoundExpiry_within
  case loadComplete => exact execLoadComplete_within
  case groupUpdateComplete => exact execGroupUpdateComplete_within
  case chunkSend => exact execChunkSend_within
  case dataFrame => exact execDataFrame_within
  case chunkEnd => exact execChunkEnd_within
  case chunkAck => exact execChunkAck_within
  case chunkNak => exact execChunkNak_within
  case stepEndSend => exact execStepEndSend_within
  case stepEnd => exact execStepEnd_within
  case stepAck => exact execStepAck_within
  case abortFrame => exact execAbortFrame_within
  case hbmRead => exact execHbmRead_within
  case hbmWrite => exact execHbmWrite_within
  case correctionWriteBack => exact execCorrectionWriteBack_within
  case wcEntryFinish => exact execWcEntryFinish_within
  case checkLineEvict => exact execCheckLineEvict_within
  case refresh => exact execRefresh_within
  case stackFault => exact execStackFault_within
  case stashRead => exact execStashRead_within
  case stashWrite => exact execStashWrite_within
  case laneSpare => exact execLaneSpare_within
  case flitReceive => exact execFlitReceive_within
  case nak => exact execNak_within
  case ackTimeout => exact execAckTimeout_within
  case retrainComplete => exact execRetrainComplete_within
  case packetForward => exact execPacketForward_within
  case writePacket => exact execWritePacket_within
  case writeAck => exact execWriteAck_within
  case readReq => exact execReadReq_within
  case readData => exact execReadData_within
  case signalPacket => exact execSignalPacket_within
  case errorPacket => exact execErrorPacket_within
  case peerRegRead => exact execPeerRegRead_within
  case peerRegWrite => exact execPeerRegWrite_within
  case regResp => exact execRegResp_within
  case fenceReport => exact execFenceReport_within
  case fenceClose => exact execFenceClose_within
  case report => exact execReport_within
  case reportResend => exact execReportResend_within
  case settleWindowClose => exact execSettleWindowClose_within
  case retryOrder => exact execRetryOrder_within
  case retryDone => exact execRetryDone_within
  case haltOrder => exact execHaltOrder_within
  case memberReqAttach => exact execMemberReqAttach_within
  case memberReqDetach => exact execMemberReqDetach_within
  case memberReqTakeover => exact execMemberReqTakeover_within
  case memberGrant => exact execMemberGrant_within
  case memberDeny => exact execMemberDeny_within
  case attach => exact execAttach_within
  case detach => exact execDetach_within
  case heartbeatSend => exact execHeartbeatSend_within
  case heartbeat => exact execHeartbeat_within
  case twinSilent => exact execTwinSilent_within
  case hello => exact execHello_within
  case reply => exact execReply_within
  case confirm => exact execConfirm_within
  case finish => exact execFinish_within
  case pairBoundExpiry => exact execPairBoundExpiry_within
  case shard => exact execShard_within
  case restoreChunk => exact execRestoreChunk_within
  case nonce => exact execNonce_within
  case session => exact execSession_within
  case endSession => exact execEndSession_within
  case sessionExpiry => exact execSessionExpiry_within
  case ship => exact execShip_within
  case fuseOwner => exact execFuseOwner_within
  case keyLoad => exact execKeyLoad_within
  case keyDelete => exact execKeyDelete_within
  case policy => exact execPolicy_within
  case endorse => exact execEndorse_within
  case debugUnlock => exact execDebugUnlock_within
  case unlockComplete => exact execUnlockComplete_within
  case submit => exact execSubmit_within
  case ingestBufferReady => exact execIngestBufferReady_within
  case entropyFail => exact execEntropyFail_within
  case extest => exact execExtest_within
  case clamp => exact execClamp_within
  case highz => exact execHighz_within
  case extestPulse => exact execExtestPulse_within
  case extestTrain => exact execExtestTrain_within
  case samplePreload => exact execSamplePreload_within
  case idcode => exact execIdcode_within
  case bypass => exact execBypass_within
  case privateTestInstruction => exact execPrivateTestInstruction_within
  case powerOnReset => exact execPowerOnReset_within
  case pinReset => exact execPinReset_within
  case resetRelease => exact execResetRelease_within
  case coldReset => exact execColdReset_within
  case warmReset => exact execWarmReset_within
  case coreReset => exact execCoreReset_within
  case twinReset => exact execTwinReset_within
  case watchdogExpiry => exact execWatchdogExpiry_within
  case thermalTrip => exact execThermalTrip_within
  case thermalTripRelease => exact execThermalTripRelease_within
  case supplyMonitorReset => exact execSupplyMonitorReset_within
  case resetTake => exact execResetTake_within
  case phase1 => exact execPhase1_within
  case phase2 => exact execPhase2_within
  case phase3 => exact execPhase3_within
  case phase4 => exact execPhase4_within
  case phase5 => exact execPhase5_within
  case phase6 => exact execPhase6_within
  case phase7 => exact execPhase7_within
  case phase8 => exact execPhase8_within
  case phase9 => exact execPhase9_within
  case phaseBoundExpiry => exact execPhaseBoundExpiry_within
  case failedBringUpWaitExpiry => exact execFailedBringUpWaitExpiry_within
  case hpPerst => exact execHpPerst_within
  case functionLevelReset => exact execFunctionLevelReset_within
  case pwrFail => exact execPwrFail_within
  case pwrFailRise => exact execPwrFailRise_within
  case faultFlushEnd => exact execFaultFlushEnd_within
  case routineFlush => exact execRoutineFlush_within
  case seqMarkWriteEnd => exact execSeqMarkWriteEnd_within
  case recordAllowanceRise => exact execRecordAllowanceRise_within
  case evrCursorWrite => exact execEvrCursorWrite_within
  case rstHistSelWrite => exact execRstHistSelWrite_within
  case hltCanarySelWrite => exact execHltCanarySelWrite_within
  case measurementStart => exact execMeasurementStart_within
  case measurementComplete => exact execMeasurementComplete_within
  case avsSettled => exact execAvsSettled_within
  case avsSettleTimeout => exact execAvsSettleTimeout_within
  case tempWarn => exact execTempWarn_within
  case eddyOperationComplete => exact execEddyOperationComplete_within
  case copyOperationComplete => exact execCopyOperationComplete_within
  case linkRetrainFailure => exact execLinkRetrainFailure_within
  case referenceClockLoss => exact execReferenceClockLoss_within
  case pcieLinkLoss => exact execPcieLinkLoss_within
  case hpPerstRelease => exact execHpPerstRelease_within
  case twinRstOutRelease => exact execTwinRstOutRelease_within
  case tempWarnRearm => exact execTempWarnRearm_within

/-- What a command leaves, in the state that it answers with. -/
theorem exec_onlyChanges {i : Instr} {s t : State} (h : exec i s = .next t) : OnlyChanges (writes i) s t :=
  exec_staysWithin i s t h

/-- A peer's register read behind which no packet is held. -/
theorem execPeerRegRead_alone {l : Fin 36} {p : Packet} {s : State} (h0 : s.chain.heldPkts = []) :
    StaysWithin (partsSend ++ [.ports, .vio]) s (execPeerRegRead l p s) := by
  unfold execPeerRegRead State.takes
  split
  · next hc =>
    simp only [State.comes, Bool.and_eq_true, beq_iff_eq] at hc
    refine staysWithin_done.2 (deliverPkt_alone (by decide) h0 fun u => ?_)
    unfold State.actOf
    rw [hc.1.2]
    simp
  · simp

/-- Settles O7: every command of the family stays within `writes`, and `writesAlone` says less of a peer's register read alone. -/
theorem accessFrame : Obligations.AccessFrame := by
  unfold Obligations.AccessFrame
  intro i s t hf ht
  refine ⟨exec_onlyChanges ht, fun h0 _ => ?_⟩
  have hw := exec_onlyChanges ht
  cases i
  case peerRegRead => exact execPeerRegRead_alone h0 t ht
  case signalPacket | regResp | report | retryOrder | retryDone | haltOrder | memberReqAttach | memberReqDetach |
      memberReqTakeover | memberGrant | memberDeny | heartbeat =>
    simp [family] at hf
  all_goals exact hw

/-- Settles O8, by the frame of every command. -/
theorem streamFrame : Obligations.StreamFrame := by
  unfold Obligations.StreamFrame
  exact fun _ _ _ _ ht => exec_onlyChanges ht

/-- Settles O9, by the frame of every command. -/
theorem unitFrame : Obligations.UnitFrame := by
  unfold Obligations.UnitFrame
  exact fun _ _ _ _ ht => exec_onlyChanges ht

/-- Settles O10, by the frame of every command. -/
theorem fenceFrame : Obligations.FenceFrame := by
  unfold Obligations.FenceFrame
  exact fun _ _ _ _ ht => exec_onlyChanges ht

/-- Settles O11, by the frame of every command. -/
theorem memoryFrame : Obligations.MemoryFrame := by
  unfold Obligations.MemoryFrame
  exact fun _ _ _ _ ht => exec_onlyChanges ht

/-- Settles O13, by the frame of every command. -/
theorem secrecyFrame : Obligations.SecrecyFrame := by
  unfold Obligations.SecrecyFrame
  exact fun _ _ _ _ ht => exec_onlyChanges ht

/-- Settles O14, by the frame of every command. -/
theorem resetFrame : Obligations.ResetFrame := by
  unfold Obligations.ResetFrame
  exact fun _ _ _ _ ht => exec_onlyChanges ht

end Sys2Proof.Machine
end

section
/-! SUPPORT. What a command gives, and what the end of its handshake leaves of the reset controller. -/

namespace Sys2Proof.Machine

/-- A command that has had its effect gives what holds at the end of its handshake. -/
theorem gives_done {i : Instr} {s x : State} {P : State → Prop} (h : exec i s = done x) (hp : P (close x)) : Gives i s P :=
  ⟨close x, h, hp⟩

/-- A command that gives something keeps within its frame as well. -/
theorem Gives.and_onlyChanges {i : Instr} {s : State} {P : State → Prop} (h : Gives i s P) :
    Gives i s (fun t => P t ∧ OnlyChanges (writes i) s t) := by
  obtain ⟨t, ht, hp⟩ := h
  exact ⟨t, ht, hp, exec_onlyChanges ht⟩

theorem Gives.imp {i : Instr} {s : State} {P Q : State → Prop} (h : Gives i s P) (hpq : ∀ t, P t → Q t) : Gives i s Q := by
  obtain ⟨t, ht, hp⟩ := h
  exact ⟨t, ht, hpq t hp⟩

section
variable (s : State)

/-- The end of a handshake changes nothing of the reset controller but the reset being taken. -/
theorem close_rst_but_taking : ∃ k, (close s).rst = { s.rst with taking := k } := by
  rcases close_rst s with h | h
  · exact ⟨s.rst.taking, h⟩
  · obtain ⟨k, hk⟩ := recognise_rst s 8 .warm
    exact ⟨some k, h.trans hk⟩

theorem close_rst_field {α : Type} (f : Rst → α) (hf : ∀ r k, f { r with taking := k } = f r) : f (close s).rst = f s.rst := by
  obtain ⟨k, hk⟩ := close_rst_but_taking s
  rw [hk, hf]

@[simp] theorem close_cmd : (close s).rst.cmd = s.rst.cmd := close_rst_field s _ fun _ _ => rfl
@[simp] theorem close_count : (close s).rst.count = s.rst.count := close_rst_field s _ fun _ _ => rfl
@[simp] theorem close_lastSource : (close s).rst.lastSource = s.rst.lastSource := close_rst_field s _ fun _ _ => rfl
@[simp] theorem close_cause : (close s).rst.cause = s.rst.cause := close_rst_field s _ fun _ _ => rfl
@[simp] theorem close_straps : (close s).rst.straps = s.rst.straps := close_rst_field s _ fun _ _ => rfl
@[simp] theorem close_strapsLatched : (close s).rst.strapsLatched = s.rst.strapsLatched := close_rst_field s _ fun _ _ => rfl
@[simp] theorem close_fails : (close s).rst.fails = s.rst.fails := close_rst_field s _ fun _ _ => rfl
@[simp] theorem close_failPhase : (close s).rst.failPhase = s.rst.failPhase := close_rst_field s _ fun _ _ => rfl
@[simp] theorem close_failCode : (close s).rst.failCode = s.rst.failCode := close_rst_field s _ fun _ _ => rfl
@[simp] theorem close_heldThermal : (close s).rst.heldThermal = s.rst.heldThermal := close_rst_field s _ fun _ _ => rfl
@[simp] theorem close_held : (close s).rst.held = s.rst.held := close_rst_field s _ fun _ _ => rfl
@[simp] theorem close_cur : (close s).rst.cur = s.rst.cur := close_rst_field s _ fun _ _ => rfl
@[simp] theorem close_phaseSince : (close s).rst.phaseSince = s.rst.phaseSince := close_rst_field s _ fun _ _ => rfl
@[simp] theorem close_failedWait : (close s).rst.failedWait = s.rst.failedWait := close_rst_field s _ fun _ _ => rfl
@[simp] theorem close_linksBegun : (close s).rst.linksBegun = s.rst.linksBegun := close_rst_field s _ fun _ _ => rfl
@[simp] theorem close_safe : (close s).rst.safe = s.rst.safe := close_rst_field s _ fun _ _ => rfl
@[simp] theorem close_staging : (close s).rst.staging = s.rst.staging := close_rst_field s _ fun _ _ => rfl
@[simp] theorem close_fusing : (close s).rst.fusing = s.rst.fusing := close_rst_field s _ fun _ _ => rfl
@[simp] theorem close_session (i : Fin 2) : (close s).session i = s.session i := by simp [State.session]

/-! A reset that is recognised. -/

theorem scopeRank_wider_left (a b : Scope) : scopeRank a ≤ scopeRank (wider a b) := by
  unfold wider; split <;> omega

theorem scopeRank_wider_right (a b : Scope) : scopeRank b ≤ scopeRank (wider a b) := by
  unfold wider; split <;> omega

theorem getLsbD_sourceBit {src : Nat} (h : src < 32) : (BitVec.ofNat 32 (1 <<< src)).getLsbD src = true := by
  rw [BitVec.getLsbD_ofNat]
  simp [h, Nat.one_shiftLeft, Nat.testBit_two_pow_self]

variable {s}

/-- A reset that comes while one is recognised joins it (R395). -/
theorem recognise_taking_of_some {k : Taking} (src : Nat) (scope : Scope) (h : s.rst.taking = some k) :
    (s.recognise src scope).rst.taking = some (k.merge src scope) := by
  simp [State.recognise, State.modRst, h]

/-- A reset that comes alone: during a bring-up it is at least as wide as the one that started that (R396). -/
theorem recognise_taking_of_none (src : Nat) (scope : Scope) (h : s.rst.taking = none) :
    (s.recognise src scope).rst.taking = some ⟨BitVec.ofNat 32 (1 <<< src),
      if s.dev.st = .bringUp then wider scope s.rst.cur.scope else scope, src, src == 0 || src == 7, s.now, s.step, false⟩ := by
  simp [State.recognise, State.modRst, h]

variable (s) in
/-- A reset that comes is recognised in its scope (R389, R395, R396). -/
theorem recognised_recognise {src : Nat} (scope : Scope) (h : src < 32) : (s.recognise src scope).Recognised src scope := by
  cases ht : s.rst.taking with
  | some t =>
    exact ⟨_, recognise_taking_of_some src scope ht, by simp [Taking.merge, getLsbD_sourceBit h], scopeRank_wider_right _ _⟩
  | none =>
    refine ⟨_, recognise_taking_of_none src scope ht, getLsbD_sourceBit h, ?_⟩
    dsimp only
    split
    · exact scopeRank_wider_left _ _
    · exact Nat.le_refl _

/-- A reset that comes while one is recognised joins it: what was recognised stays (R395). -/
theorem State.Recognised.recognise {src : Nat} {scope : Scope} (h : s.Recognised src scope) (src' : Nat) (scope' : Scope) :
    (s.recognise src' scope').Recognised src scope := by
  obtain ⟨k, hk, hsrc, hsc⟩ := h
  exact ⟨_, recognise_taking_of_some src' scope' hk, by simp [Taking.merge, hsrc], hsc.trans (scopeRank_wider_left _ _)⟩

/-- What is recognised stays so at the end of the handshake. -/
theorem State.Recognised.close {src : Nat} {scope : Scope} (h : s.Recognised src scope) : (close s).Recognised src scope := by
  rcases close_rst s with e | e
  · unfold State.Recognised
    rw [e]
    exact h
  · have he : s.escalate.Recognised src scope := h.recognise 8 .warm
    unfold State.Recognised
    rw [e]
    exact he

/-- A reset recognised in this handshake is recognised at its end. -/
theorem recognised_close_recognise {src : Nat} (scope : Scope) (h : src < 32) :
    (Sys2Proof.Machine.close (s.recognise src scope)).Recognised src scope :=
  (recognised_recognise s scope h).close

@[simp] theorem recognise_held (src : Nat) (scope : Scope) : (s.recognise src scope).rst.held = s.rst.held := by
  obtain ⟨k, hk⟩ := recognise_rst s src scope
  rw [hk]

@[simp] theorem recognise_heldThermal (src : Nat) (scope : Scope) :
    (s.recognise src scope).rst.heldThermal = s.rst.heldThermal := by
  obtain ⟨k, hk⟩ := recognise_rst s src scope
  rw [hk]

/-- A hold that is let go changes nothing of the ports (R389). -/
@[simp] theorem holdReleased_ports : s.holdReleased.ports = s.ports := by
  unfold State.holdReleased; split <;> rfl

@[simp] theorem holdReleased_heldThermal : s.holdReleased.rst.heldThermal = s.rst.heldThermal := by
  unfold State.holdReleased; split <;> rfl

/-- A running device that halts as a lost device is halted, and a fatal error escalates (R342, R389). -/
theorem haltLost_of_running {cause : Nat} (h : s.running = true) :
    (s.haltLost cause).dev.st = .halted ∧ (s.haltLost cause).Recognised 8 .warm := by
  unfold State.haltLost
  rw [if_pos h]
  refine ⟨?_, recognised_recognise _ _ (by decide)⟩
  unfold State.escalate State.haltSteps
  rw [if_pos h, State.recognise_dev]
  rfl

end

/-- Settles O48, source by source. -/
theorem resetSourcesAreRecognised : Obligations.ResetSourcesAreRecognised := by
  unfold Obligations.ResetSourcesAreRecognised
  intro s
  refine ⟨?powerOn, ?pin, ?twin, ?watchdog, ?thermal, ?supply, ?test, ?failed, ?twinRelease, ?pinRelease, ?thermalRelease⟩
  case powerOn => exact gives_done rfl (recognised_close_recognise _ (by decide))
  case pin =>
    intro h
    exact gives_done (if_neg (by simp [h])) ⟨by simp [State.modPorts], recognised_close_recognise _ (by decide)⟩
  case twin =>
    intro h
    exact gives_done (if_neg (by simp [h])) ⟨by simp [State.modPorts], recognised_close_recognise _ (by decide)⟩
  case watchdog =>
    intro hrun hwdt hsince
    exact gives_done (if_pos (by simp [hrun, hwdt, hsince])) (recognised_close_recognise _ (by decide))
  case thermal =>
    intro sensor temp htemp hheld
    refine gives_done (x := ((s.modHlt (fun h => h.reads sensor temp)).modRst
      (fun r => { r with heldThermal := true })).recognise 6 .cold) ?_
      ⟨by simp [State.modRst], recognised_close_recognise _ (by decide)⟩
    show execThermalTrip sensor temp s = _
    unfold execThermalTrip
    rw [if_neg (by omega)]
    exact if_neg (by simp [State.modHlt, hheld])
  case supply => exact gives_done rfl ⟨by simp [State.modRst], recognised_close_recognise _ (by decide)⟩
  case test =>
    intro scope h
    refine gives_done (if_neg (by simp [h])) (recognised_close_recognise _ (by decide))
  case failed =>
    intro t0 hwait htaking hnow
    refine gives_done (x := s.recognise 8 s.rst.cur.scope) ?_ (recognised_close_recognise _ (by decide))
    show execFailedBringUpWaitExpiry s = _
    unfold execFailedBringUpWaitExpiry
    rw [hwait]
    exact if_pos (by simpa [htaking] using hnow)
  case twinRelease =>
    intro h
    refine gives_done (x := (s.modPorts (fun p => { p with twinInLow := false })).holdReleased) ?_ (by simp [State.modPorts])
    show execResetRelease true s = _
    unfold execResetRelease
    rw [if_pos rfl, if_pos h]
  case pinRelease =>
    intro h
    refine gives_done (x := (s.modPorts (fun p => { p with resetLow := false, boundaryOut := false })).holdReleased) ?_
      (by simp [State.modPorts])
    show execResetRelease false s = _
    unfold execResetRelease
    rw [if_neg Bool.false_ne_true, if_pos h]
  case thermalRelease =>
    intro temps hheld htemps
    exact gives_done (if_pos (by simp [hheld, htemps])) (by simp [State.modRst])

end Sys2Proof.Machine
end

section
/-! SUPPORT. The test port, the host link's events and the health block's commands. -/

namespace Sys2Proof.Machine

/-- An instruction that would drive the lands drives them while RESET_N is low alone (R443). -/
theorem gives_driveLands {i : Instr} {s : State} {code : Nat} (h : exec i s = done (s.driveLands code))
    (hw : writes i = [.ports]) : Gives i s (fun t =>
      (s.ports.resetLow = true → t.ports.tap = code ∧ t.ports.boundaryOut = true) ∧
        (s.ports.resetLow = false → t.ports.tap = 7 ∧ t.ports.boundaryOut = false) ∧ OnlyChanges [.ports] s t) := by
  refine gives_done h ⟨fun hlow => ?_, fun hhigh => ?_, hw ▸ exec_onlyChanges h⟩
  · simp [State.driveLands, State.modPorts, hlow]
  · simp [State.driveLands, State.modPorts, hhigh]

/-- Settles O59, instruction by instruction. -/
theorem testPortAnswers : Obligations.TestPortAnswers := by
  unfold Obligations.TestPortAnswers
  refine ⟨fun s => ⟨?_, ?_, ?_, ?_, ?_, ?sample, ?idcode, ?bypass⟩, fun s op h => ?_⟩
  case sample =>
    exact (gives_done rfl ⟨by simp [State.loadTap, State.modPorts], by simp [State.loadTap, State.modPorts]⟩ :
      Gives .samplePreload s (fun t => t.ports.tap = 5 ∧ t.ports.boundaryOut = false)).and_onlyChanges.imp
        fun t ⟨⟨htap, hout⟩, hw⟩ => ⟨htap, hout, hw⟩
  case idcode => exact gives_done rfl (by simp [State.loadTap, State.modPorts])
  case bypass => exact gives_done rfl (by simp [State.loadTap, State.modPorts])
  · exact gives_driveLands rfl rfl
  · exact gives_driveLands rfl rfl
  · exact gives_driveLands rfl rfl
  · exact gives_driveLands rfl rfl
  · exact gives_driveLands rfl rfl
  · exact if_pos (by simp [h])

section
variable {s : State}

/-- A host link that goes down ends the session of function 1 (R439). -/
@[simp] theorem session_dropSession (i j : Fin 2) : (s.dropSession i).session j = if i = j then none else s.session j := by
  simp [State.dropSession, State.session, State.modSec, Vector.get_eq_getElem, Vector.getElem_set, Fin.ext_iff]

/-- Stacks that are updated one after another, each at most once: each is updated by itself. -/
theorem stack_foldl_modStack (f : Stack → Stack) (xs : List (Fin 12)) (hx : xs.Nodup) (n : Fin 12) :
    (xs.foldl (fun s m => s.modStack m f) s).stack n = if n ∈ xs then f (s.stack n) else s.stack n := by
  induction xs generalizing s with
  | nil => simp
  | cons m xs ih =>
    obtain ⟨hm, hx⟩ := List.nodup_cons.1 hx
    rw [List.foldl_cons, ih hx, State.stack_modStack]
    by_cases h : n = m
    · subst h; simp [hm]
    · simp [h]

theorem stc_foldl_modStc (f : Stash → Stash) (xs : List (Fin 8)) (hx : xs.Nodup) (n : Fin 8) :
    (xs.foldl (fun s m => s.modStc m f) s).stc n = if n ∈ xs then f (s.stc n) else s.stc n := by
  induction xs generalizing s with
  | nil => simp
  | cons m xs ih =>
    obtain ⟨hm, hx⟩ := List.nodup_cons.1 hx
    rw [List.foldl_cons, ih hx, State.stc_modStc]
    by_cases h : n = m
    · subst h; simp [hm]
    · simp [h]

theorem dieStacks_nodup (east : Bool) : (dieStacks east).Nodup := by cases east <;> decide

theorem dieStash_nodup (east : Bool) : (dieStash east).Nodup := by cases east <;> decide

/-- The stacks of a die whose memory clock was lost stand untrained, and no other (R439). -/
theorem retrainDie_stack (east : Bool) (n : Fin 12) : (s.retrainDie east).stack n =
    if n ∈ dieStacks east then { s.stack n with trained := false } else s.stack n := by
  have hkeep : ∀ u : State, ((dieStash east).foldl
      (fun s n => s.modStc n (fun x => { x with trained0 := false, trained1 := false })) u).stack n = u.stack n := by
    intro u
    exact List.foldlRecOn (motive := fun v : State => v.stack n = u.stack n) _ _ rfl (fun _ hv _ _ => hv)
  unfold State.retrainDie
  rw [hkeep, stack_foldl_modStack _ _ (dieStacks_nodup east)]

theorem retrainDie_stc (east : Bool) (n : Fin 8) : (s.retrainDie east).stc n =
    if n ∈ dieStash east then { s.stc n with trained0 := false, trained1 := false } else s.stc n := by
  unfold State.retrainDie
  rw [stc_foldl_modStc _ _ (dieStash_nodup east)]
  have hkeep : ∀ xs : List (Fin 12), (xs.foldl (fun s n => s.modStack n (fun x => { x with trained := false })) s).stc n
      = s.stc n :=
    fun xs => List.foldlRecOn (motive := fun v : State => v.stc n = s.stc n) xs _ rfl (fun _ hv _ _ => hv)
  rw [hkeep]

/-- A fatal error is recognised as a reset (R389). -/
theorem fatal_recognised : s.fatal.Recognised 8 .warm := by
  unfold State.fatal
  split
  · next h => exact (haltLost_of_running h).2
  · exact recognised_recognise _ _ (by decide)

theorem fatal_hlt : s.fatal.hlt = s.hlt :=
  ((onlyChanges_fatal (List.Subset.refl _)).2 (onlyChanges_refl _ s)) .hlt (by decide)

end

/-- Settles O60, event by event. -/
theorem hostLinkEvents : Obligations.HostLinkEvents := by
  unfold Obligations.HostLinkEvents
  intro s
  refine ⟨?perst, ?perstRelease, ?levelReset, ?loss, ?hostClock, ?linkClock, ?memoryClock, ?twin⟩
  case perst =>
    refine gives_done rfl ?_
    simp only [close_ports, close_session]
    refine ⟨rfl, rfl, session_dropSession 0 0, fun fn => ?_⟩
    simp [State.modPorts, State.portDown, State.dropSession, State.modSec, Vector.get_eq_getElem]
  case perstRelease => exact gives_done rfl (by simp [State.modPorts])
  case levelReset =>
    intro fn hlink hperst
    refine gives_done (i := .functionLevelReset fn) (if_neg (by simp [hlink, hperst])) ⟨?_, fun hfn => ?_⟩
    · rw [close_ports]
      split <;> simp [State.dropSession, State.modSec, State.modPorts, Vector.get_eq_getElem]
    · rw [close_session, if_pos hfn]
      exact session_dropSession 0 0
  case loss => exact gives_done rfl ⟨by simp [State.linkLost, State.dropSession, State.modSec, State.modPorts], by simp [State.linkLost]⟩
  case hostClock => exact gives_done rfl (by simp [State.linkLost, State.dropSession, State.modSec, State.modPorts])
  case linkClock =>
    intro l hl
    refine ⟨_, rfl, ?_⟩
    rw [List.foldl_cons, List.foldl_nil, if_pos hl]
  case memoryClock =>
    intro east
    refine gives_done rfl ⟨fun n hn => ?_, fun n hn => ?_, fun n hn => ?_, fun n hn => ?_, ?_⟩
    · simp [retrainDie_stack, hn]
    · simp [retrainDie_stc, hn]
    · simp [retrainDie_stack, hn]
    · simp [retrainDie_stc, hn]
    · rw [close_dev]
      exact ((onlyChanges_retrainDie (List.Subset.refl _)).2 (onlyChanges_refl _ s)) .dev (by decide)
  case twin => exact gives_done rfl (by simp [State.modPorts])

/-- Settles O53, command by command. -/
theorem healthCommandsRun : Obligations.HealthCommandsRun := by
  unfold Obligations.HealthCommandsRun
  intro s
  refine ⟨?start, ?complete, ?late, ?settled, ?timeout, ?warn, ?warned, ?rearm⟩
  case start =>
    intro hwrap hm
    exact gives_done (if_pos (by simp [hm]; simpa using hwrap)) (by simp [State.modHlt])
  case complete =>
    intro m hm hlate
    exact gives_done ((if_pos hm).trans (if_neg (by simp [State.modHlt, hlate]))) (by simp [State.modHlt])
  case late =>
    intro m hm hlate
    refine gives_done ((if_pos hm).trans (if_pos (by simp [State.modHlt, hlate]))) ⟨fatal_recognised.close, ?_⟩
    rw [close_hlt, fatal_hlt]
    rfl
  case settled =>
    intro vread target since ht h1 h2
    refine gives_done (i := .avsSettled vread) (x := s.modHlt (fun h =>
      { h with vset := target, vread := vread % 1024, avs := none, histVset := target })) ?_ (by simp [State.modHlt])
    show execAvsSettled vread s = _
    unfold execAvsSettled
    rw [ht]
    exact if_pos (by simp [h1, h2])
  case timeout =>
    intro vread target since ht h1
    refine gives_done (i := .avsSettleTimeout vread) (x := (s.modHlt (fun h =>
      { h with vread := vread % 1024, avs := none, avsFailSeen := true, bank := h.bank.add 3 1 })).ask 0x50
        (s.unit 0xC 0x03 0) []) ?_ (by simp [State.modHlt])
    show execAvsSettleTimeout vread s = _
    unfold execAvsSettleTimeout
    rw [ht]
    exact if_pos h1
  case warn =>
    intro sensor temp hl hw ht
    exact gives_done (if_pos (by simp [hl, hw, ht])) (by simp [State.modHlt, Vector.get_eq_getElem])
  case warned =>
    intro sensor temp hw
    exact if_neg (by simp [hw])
  case rearm =>
    intro sensor temp hw ht
    exact gives_done (if_pos (by simp [hw, ht])) (by simp [State.modHlt, Vector.get_eq_getElem])

end Sys2Proof.Machine
end

section
/-! SUPPORT. Register accesses: what an access does to the ports, and its answer case by case. -/

namespace Sys2Proof.Machine

section
variable {s : State} {p : Path} {off : Nat}

theorem assoc_cons {α β : Type} [DecidableEq α] (a : α) (b : β) (l : List (α × β)) : assoc ((a, b) :: l) a = some b := by
  simp [assoc]

@[simp] theorem assoc_assocSet {α β : Type} [DecidableEq α] (l : List (α × β)) (a : α) (b : β) :
    assoc (assocSet l a b) a = some b := assoc_cons a b _

/-! What leaves the ports as they are. -/

@[simp] theorem regVio_ports (dev : Nat) : (s.regVio p dev off).ports = s.ports := rfl
@[simp] theorem denyReg_ports : (s.denyReg p off).ports = s.ports := rfl
@[simp] theorem denyReg_vio : (s.denyReg p off).vio = s.vio := rfl
@[simp] theorem denyReg_deniedSeen : (s.denyReg p off).sec.deniedSeen = true := rfl
@[simp] theorem denyReg_bank : (s.denyReg p off).sec.bank = s.sec.bank.add 2 1 := rfl
@[simp] theorem respond_sec (r : Resp) (d : List Byte) : (s.respond p r d).sec = s.sec := rfl
@[simp] theorem respond_vio (r : Resp) (d : List Byte) : (s.respond p r d).vio = s.vio := rfl
@[simp] theorem respond_mbBank (r : Resp) (d : List Byte) : (s.respond p r d).ports.mbBank = s.ports.mbBank := rfl
@[simp] theorem respond_mbLast (r : Resp) (d : List Byte) : (s.respond p r d).ports.mbLast = s.ports.mbLast := rfl
@[simp] theorem respond_latch (r : Resp) (d : List Byte) : (s.respond p r d).ports.latch = s.ports.latch := rfl

@[simp] theorem transfer_vio (w : Option Resp) : (s.transfer p w).vio = s.vio := by unfold State.transfer; split <;> rfl
@[simp] theorem transfer_sec (w : Option Resp) : (s.transfer p w).sec = s.sec := by unfold State.transfer; split <;> rfl
@[simp] theorem transfer_dev (w : Option Resp) : (s.transfer p w).dev = s.dev := by unfold State.transfer; split <;> rfl
@[simp] theorem transfer_self (w : Option Resp) : (s.transfer p w).self = s.self := by unfold State.transfer; split <;> rfl
@[simp] theorem transfer_resp (w : Option Resp) : (s.transfer p w).ports.resp = s.ports.resp := by
  unfold State.transfer; split <;> rfl
@[simp] theorem transfer_latch (w : Option Resp) : (s.transfer p w).ports.latch = s.ports.latch := by
  unfold State.transfer; split <;> rfl

/-- Each transfer of the management port counts, and no other path's access does. -/
theorem transfer_mbBank (w : Option Resp) :
    (s.transfer p w).ports.mbBank = if p = .mb then s.ports.mbBank.add 0 1 else s.ports.mbBank := by
  unfold State.transfer; split <;> rfl

@[simp] theorem readEffect_mbBank (r : Reg) : (s.readEffect p off r).ports.mbBank = s.ports.mbBank := by
  unfold State.readEffect
  dsimp only
  split <;> split <;> rfl

/-- A low half that is read latches the high half for its path (R21). -/
theorem readEffect_latch (r : Reg) (h : r.half = .lo) :
    assoc (s.readEffect p off r).ports.latch (p, off) = some (BitVec.ofNat 32 (r.val / 2 ^ 32)) := by
  unfold State.readEffect
  rw [if_pos h]
  dsimp only
  split <;> exact assoc_assocSet _ _ _

/-! A violation (R28): counted, and captured where none was. -/

variable (s) in
theorem violate_count (v : Vio) : (s.violate v).vio.count = s.vio.count + 1 := by
  have h : (addWrap s.vio.count 1).1 = s.vio.count + 1 := by
    simp [addWrap, BitVec.ofNat_add]
  unfold State.violate
  simp only [State.ask_vio]
  split <;> exact h

variable (s) in
theorem violate_valid (v : Vio) : (s.violate v).vio.valid = true := by
  unfold State.violate
  simp only [State.ask_vio]
  split
  · assumption
  · rfl

theorem violate_captured (v : Vio) (h : s.vio.valid = false) :
    (s.violate v).vio.kind = v.kind ∧ (s.violate v).vio.addr = v.addr ∧ (s.violate v).vio.dev = v.dev := by
  simp [State.violate, h]

theorem violate_lost (v : Vio) (h : s.vio.valid = true) :
    (s.violate v).vio.addr = s.vio.addr ∧ (s.violate v).vio.lost = true := by
  simp [State.violate, h]

/-- What a violation of kind REG_FORM at an offset leaves in the log (R27). -/
def FormVio (s : State) (off : Nat) (t : State) : Prop :=
  t.vio.count = s.vio.count + 1 ∧ t.vio.valid = true ∧
    (s.vio.valid = false → t.vio.kind = 0x07 ∧ t.vio.addr = ctlBase + off ∧ t.vio.dev = s.self)

theorem formVio_regVio (dev : Nat) : FormVio s off (s.regVio p dev off) :=
  ⟨violate_count s _, violate_valid s _, fun h => violate_captured _ h⟩

theorem FormVio.of_eq {u t x : State} (h : FormVio u off x) (hu : u.vio = s.vio) (hself : u.self = s.self) (ht : t.vio = x.vio) :
    FormVio s off t := by
  unfold FormVio at h ⊢
  rw [← hu, ← hself, ht]
  exact h

/-! Reads. -/

/-- A path's read, once it reaches the device and is not shut. -/
theorem pathRead_eq (hr : s.portReaches p = true) (hs : s.shut p off = false) :
    s.pathRead p off = done (((s.transfer p none).readAt p s.self off).1.respond p ((s.transfer p none).verdict p off false)
      (leBytes 4 ((s.transfer p none).readAt p s.self off).2)) := by
  unfold State.pathRead
  rw [if_neg (by simp [hr]), if_neg (by simp [hs])]

theorem pathRead_shut (hr : s.portReaches p = true) (hs : s.shut p off = true) :
    s.pathRead p off = done ((s.transfer p none).respond p .violation (zeros 4)) := by
  unfold State.pathRead
  rw [if_neg (by simp [hr]), if_pos hs]

theorem badForm_eq (hr : s.portReaches p = true) (n : Nat) :
    s.badForm p off n = done ((s.respond p .violation (zeros n)).regVio p s.self off) := by
  unfold State.badForm
  rw [if_neg (by simp [hr])]

/-- The rows of a register read: what the path's read gives, they give. -/
theorem reads_of_pathRead {P : State → Prop} {n : Nat} {x : State} (h : s.pathRead p off = done x) (hP : P (close x)) :
    (n = 4 ∨ p = .mb → Gives (.loRead p ⟨off, n⟩) s P ∧ Gives (.hiRead p ⟨off, n⟩) s P) ∧
      (p = .mb → Gives (.mbRegRead off) s P) := by
  refine ⟨fun h4 => ⟨gives_done (x := x) ?_ hP, gives_done (x := x) ?_ hP⟩, fun hp => gives_done (x := x) (by subst hp; exact h) hP⟩
  · exact (if_pos (by simpa using h4)).trans h
  · exact (if_pos (by simpa using h4)).trans h

end

/-- Settles O55, case by case: the register may be read, it may not, there is none, the width is wrong, the block is silent. -/
theorem registerReadsAnswer : Obligations.RegisterReadsAnswer := by
  unfold Obligations.RegisterReadsAnswer
  intro s p off n hr
  dsimp only
  refine ⟨fun r hs hreg hmay => ⟨reads_of_pathRead (pathRead_eq hr hs) ?_, ?_, ?_⟩,
    fun r hs hreg hmay => reads_of_pathRead (pathRead_eq hr hs) ?_,
    fun hs hreg => reads_of_pathRead (pathRead_eq hr hs) ?_, fun hn hp => ?_,
    fun hs => reads_of_pathRead (pathRead_shut hr hs) ?_⟩
  · simp only [State.readAt, State.verdict, hreg, hmay, Bool.false_eq_true, if_true, if_false]
    refine ⟨⟨by simp, ?_⟩, by simp +decide, fun hlo => ?_⟩
    · rw [close_ports, respond_mbBank, readEffect_mbBank, transfer_mbBank]
    · rw [close_ports, respond_latch]
      exact readEffect_latch r hlo
  · intro hhi
    unfold State.readWord
    split
    · rfl
    · rfl
    · contradiction
  · intro hhi h hlatch
    simp only [State.readWord, hhi, transfer_latch, hlatch]
  · simp only [State.readAt, State.verdict, hreg, hmay, Bool.false_eq_true, if_false]
    refine ⟨⟨by simp [zeros, leBytes], ?_⟩, by simp, by simp, by simp, by simp +decide⟩
    rw [close_ports, respond_mbBank, denyReg_ports, transfer_mbBank]
  · simp only [State.readAt, State.verdict, hreg]
    have hv : FormVio s off _ := (formVio_regVio (s := s.transfer p none) (p := p) s.self).of_eq
      (t := close (((s.transfer p none).regVio p s.self off).respond p .violation (leBytes 4 0))) (by simp) (by simp) (by simp)
    obtain ⟨hcount, hvalid, hcap⟩ := hv
    refine ⟨⟨by simp [zeros, leBytes], ?_⟩, hcount, hvalid, hcap, by simp +decide⟩
    rw [close_ports, respond_mbBank, regVio_ports, transfer_mbBank]
  · have hv : FormVio s off _ := (formVio_regVio (s := s.respond p .violation (zeros n)) (p := p) s.self).of_eq
      (t := close ((s.respond p .violation (zeros n)).regVio p s.self off)) rfl rfl (by simp)
    obtain ⟨hcount, hvalid, hcap⟩ := hv
    have hform : ¬(decide (n = 4) || decide (p = .mb)) = true := by simp [hn, hp]
    refine ⟨gives_done ((if_neg hform).trans (badForm_eq hr n)) ?_, gives_done ((if_neg hform).trans (badForm_eq hr n)) ?_⟩ <;>
      exact ⟨⟨by simp, by simp [hp]⟩, hcount, hvalid, hcap, by simp +decide⟩
  · refine ⟨⟨by simp, ?_⟩, by simp +decide⟩
    rw [close_ports, respond_mbBank, transfer_mbBank]

end Sys2Proof.Machine
end

section
/-! SUPPORT. Register writes by a path: which of them reach the counters of the management port, and its transfers. -/

namespace Sys2Proof.Machine

section
variable {s : State} {p : Path} {off : Nat} {v : Word}

/-- A path's write, once it reaches the device and is not shut. -/
theorem pathWrite_eq (hr : s.portReaches p = true) (hs : s.shut p off = false) :
    s.pathWrite p off v = done (((s.respond p (s.verdict p off true) []).writeAt p s.self off v).transfer p
      (some (s.verdict p off true))) := by
  unfold State.pathWrite
  rw [if_neg (by simp [hr]), if_neg (by simp [hs])]

theorem pathWrite_shut (hr : s.portReaches p = true) (hs : s.shut p off = true) :
    s.pathWrite p off v = done ((s.transfer p (some .violation)).respond p .violation []) := by
  unfold State.pathWrite
  rw [if_neg (by simp [hr]), if_pos hs]

theorem transfer_mbLast (r : Resp) : (s.transfer .mb (some r)).ports.mbLast = r.status := rfl

/-- An update that leaves the ports. -/
theorem ports_of_onlyChanges {A : List Part} {t : State} (h : OnlyChanges A s t) (hA : Part.ports ∉ A) : t.ports = s.ports :=
  h .ports hA

/-- The bits that a write of one clears stand in the ports at MB_STATUS and MB_OVF alone. -/
theorem clearBits_ports (h : off ≠ 0x600100) (h' : off ≠ 0x600104) : (s.clearBits off v).ports = s.ports := by
  unfold State.clearBits
  dsimp only
  split
  · unfold State.clearCommon
    split
    case h_10 | h_11 => contradiction
    all_goals rfl
  · refine ports_of_onlyChanges (A := partsSend ++ [.vio, .ctxs, .cores, .gales, .draughts,
      .chainSeen, .chainBank, .stacks, .stashes, .foehn, .slip, .rst, .hlt]) ?_ (by decide)
    split
    · simp +decide
    · split
      · simp +decide
      · split
        · split <;> simp +decide
        · split <;> simp +decide

theorem clearBits_mbBank (h : off ≠ 0x600104) : (s.clearBits off v).ports.mbBank = s.ports.mbBank := by
  by_cases h' : off = 0x600100
  · subst h'
    rfl
  · rw [clearBits_ports h' h]

theorem clearBits_resp : (s.clearBits off v).ports.resp = s.ports.resp := by
  by_cases h : off = 0x600100
  · subst h
    rfl
  · by_cases h' : off = 0x600104
    · subst h'
      rfl
    · rw [clearBits_ports h h']

theorem store_mbBank (h : off ≠ 0x600104) : (s.store p off v).ports.mbBank = s.ports.mbBank := by
  unfold State.store
  split
  · exact congrArg Ports.mbBank (ports_of_onlyChanges ((onlyChanges_perfClear (List.Subset.refl _)).2 (onlyChanges_refl _ s)) (by decide))
  · rfl
  · rfl
  · rfl
  · rfl
  · rfl
  · split
    · rfl
    · split
      · split <;> rfl
      · exact clearBits_mbBank h

/-- A register write changes the management port's counters at MB_OVF alone. -/
theorem writeAt_mbBank (dev : Nat) (h : off ≠ 0x600104) : (s.writeAt p dev off v).ports.mbBank = s.ports.mbBank := by
  have hcmd : ∀ t : State, OnlyChanges (partsSend ++ [.dev, .ctxs, .frozen, .slip, .rst]) s t → t.ports.mbBank = s.ports.mbBank :=
    fun t ht => congrArg Ports.mbBank (ports_of_onlyChanges ht (by decide))
  unfold State.writeAt
  split
  · rfl
  · split
    · exact hcmd _ (by simp +decide)
    · exact hcmd _ (by simp +decide)
    · exact hcmd _ (by simp +decide)
    · exact hcmd _ (by simp +decide)
    · split
      · rfl
      · split
        · exact store_mbBank h
        · unfold State.storeHalf State.setCursor
          split
          · rfl
          · split <;> rfl

/-- MB_OVF, as a register. -/
theorem register_mbOvf : s.register p 0x600104 = some ⟨.health, .word, s.ports.mbBank.ovf.toNat⟩ := rfl

/-- A write to MB_OVF that its path may make clears the bits that it writes as one. -/
theorem writeAt_mbOvf (dev : Nat) (h : s.mayWrite p .health = true) :
    (s.writeAt p dev 0x600104 v).ports.mbBank = s.ports.mbBank.w1c v := by
  unfold State.writeAt
  rw [register_mbOvf]
  simp only [h, Bool.not_true, Bool.false_eq_true, if_false, if_true]
  rfl

/-- SCRATCH, as a register. -/
theorem register_scratch : s.register p 0x00002C = some ⟨.scratch, .word, s.dev.scratch.toNat⟩ := rfl

/-- A class of registers that no command is written to. -/
def RegClass.plain (c : RegClass) : Prop := c ≠ .rstCmd ∧ c ≠ .secCmd ∧ c ≠ .ingestCmd ∧ c ≠ .chainCmd

/-- A write that its path may make changes its register. -/
theorem writeAt_lands (dev : Nat) {r : Reg} (hreg : s.register p off = some r) (h : s.mayWrite p r.cls = true)
    (hc : r.cls.plain) :
    s.writeAt p dev off v = if r.half = .word then s.store p off v else s.storeHalf p off v := by
  obtain ⟨h1, h2, h3, h4⟩ := hc
  unfold State.writeAt
  rw [hreg]
  dsimp only
  split
  · contradiction
  · contradiction
  · contradiction
  · contradiction
  · rw [if_neg (by simp [h])]

/-- A write that its path may not make changes no register, and shows as denied. -/
theorem writeAt_denied (dev : Nat) {r : Reg} (hreg : s.register p off = some r) (h : s.mayWrite p r.cls = false)
    (hc : r.cls.plain) : s.writeAt p dev off v = s.denyReg p off := by
  obtain ⟨h1, h2, h3, h4⟩ := hc
  unfold State.writeAt
  rw [hreg]
  dsimp only
  split
  · contradiction
  · contradiction
  · contradiction
  · contradiction
  · rw [if_pos (by simp [h])]

theorem transfer_mbBank_mb (w : Option Resp) : (s.transfer .mb w).ports.mbBank = s.ports.mbBank.add 0 1 := rfl

end

/-- Settles O58, transfer by transfer. -/
theorem managementPortCounts : Obligations.ManagementPortCounts := by
  unfold Obligations.ManagementPortCounts
  intro s hr
  dsimp only
  refine ⟨?read, ?shut, ?write, ?ovf, ?scratch, ?last, ?alert, ?silent, ?pec, ?timeout, ?bad⟩
  case read =>
    intro off
    cases hs : s.shut .mb off with
    | true =>
      refine gives_done (pathRead_shut hr hs) ⟨?_, .violation, zeros 4, by simp, rfl⟩
      rw [close_ports, respond_mbBank, transfer_mbBank_mb]
    | false =>
      refine gives_done (pathRead_eq hr hs) ⟨?_, _, _, by rw [close_ports, State.respond_resp], ?_⟩
      · rw [close_ports, respond_mbBank]
        unfold State.readAt
        split
        · rfl
        · split
          · rw [readEffect_mbBank, transfer_mbBank_mb]
          · rfl
      · simp [leBytes]
  case shut =>
    intro off v hs
    refine gives_done (pathWrite_shut hr hs) ⟨?_, ?_, by simp +decide⟩
    · rw [close_ports, respond_mbBank, transfer_mbBank_mb]
    · rw [close_ports, respond_mbLast, transfer_mbLast]
      rfl
  case write =>
    intro off v hs hoff
    refine gives_done (pathWrite_eq hr hs) ⟨?_, ?_⟩
    · rw [close_ports, transfer_mbBank_mb, writeAt_mbBank _ hoff, respond_mbBank]
    · rw [close_ports, transfer_mbLast]
  case ovf =>
    intro v r hs hreg
    have hcls : r.cls = .health := by rw [← Option.some.inj (register_mbOvf.symm.trans hreg)]
    refine ⟨fun hmay => gives_done (pathWrite_eq hr hs) ⟨?_, ?_⟩, fun hmay => gives_done (pathWrite_eq hr hs) ⟨?_, ?_⟩⟩
    · rw [close_ports, transfer_mbBank_mb, writeAt_mbOvf _ (by simpa [hcls] using hmay), respond_mbBank]
    · rw [close_ports, transfer_mbLast]
      simp [State.verdict, hreg, hmay, Resp.status]
    · rw [close_ports, transfer_mbBank_mb, writeAt_denied _ (r := r) (by simpa using hreg) (by simpa using hmay)
        (by simp [hcls, RegClass.plain]), denyReg_ports, respond_mbBank]
    · rw [close_ports, transfer_mbLast]
      simp [State.verdict, hreg, hmay, Resp.status]
  case scratch =>
    intro off v r hs hreg hmay hoff
    subst hoff
    refine gives_done (pathWrite_eq hr hs) ⟨?_, ?_, ?_⟩
    · rw [close_ports, transfer_mbBank_mb, writeAt_mbBank _ (by decide), respond_mbBank]
    · rw [close_ports, transfer_mbLast]
      simp [State.verdict, hreg, hmay, Resp.status]
    · have he := Option.some.inj ((register_scratch (s := s) (p := .mb)).symm.trans hreg)
      have hcls : r.cls = .scratch := by rw [← he]
      have hhalf : r.half = .word := by rw [← he]
      rw [close_dev, transfer_dev, writeAt_lands _ (r := r) (by simpa using hreg) (by simpa using hmay)
        (by simp [hcls, RegClass.plain]), if_pos hhalf]
      rfl
  case last =>
    exact gives_done (if_neg (by simp [hr])) ⟨by simp [transfer_mbBank_mb], by simp, by simp +decide⟩
  case alert =>
    intro ha
    exact gives_done (if_pos (by simp [hr, ha])) ⟨by simp [transfer_mbBank_mb], by simp [State.mbAddress], by simp +decide⟩
  case silent => exact fun ha => if_neg (by simp [ha])
  case pec => exact gives_done (if_neg (by simp [hr])) ⟨by simp [State.modPorts], by simp [State.modPorts], by simp +decide⟩
  case timeout => exact gives_done (if_neg (by simp [hr])) ⟨by simp [State.modPorts], by simp [State.modPorts], by simp +decide⟩
  case bad =>
    intro code hcode
    refine gives_done (if_neg ?_) ⟨by simp [State.modPorts], by simp [State.modPorts], by simp +decide⟩
    simp only [hr, Bool.not_true, Bool.false_or, Bool.and_eq_true, decide_eq_true_eq]
    omega

end Sys2Proof.Machine
end

section
/-! SUPPORT. BAR2: its accesses case by case. -/

namespace Sys2Proof.Machine

/-- A word written out and read back (R19). -/
theorem ofLe_leBytes_word (v : Word) : ofLe (leBytes 4 v.toNat) = v.toNat := by
  have h := v.isLt
  simp [leBytes, ofLe]
  omega

section
variable {s : State} {fn : Fin 2} {a len : Nat}

/-- A BAR2 access that is denied shows so, answers as it does and changes nothing but that (R23). -/
theorem barDenied_denies :
    let t := close (s.barDenied fn a)
    assoc t.ports.resp (fnPath fn) = some (.denied, []) ∧ t.vio = s.vio ∧ t.sec.bank = s.sec.bank.add 2 1 ∧
      OnlyChanges [.ports, .sec, .answer] s t := by
  refine ⟨?_, ?_, ?_, by simp +decide⟩
  · rw [close_ports]
    exact State.respond_resp s (fnPath fn) .denied []
  · rw [close_vio]
    rfl
  · rw [close_sec]
    rfl

theorem barReadDenied_denies :
    let t := close (s.barReadDenied fn a len)
    (assoc t.ports.resp (fnPath fn) = some (.denied, zeros len) ∧ t.vio = s.vio ∧ t.sec.bank = s.sec.bank.add 2 1 ∧
      OnlyChanges [.ports, .sec, .answer] s t) ∧ t.answer = some (zeros len, false) := by
  refine ⟨⟨?_, ?_, ?_, by simp +decide⟩, ?_⟩
  · rw [close_ports]
    exact State.respond_resp _ (fnPath fn) .denied (zeros len)
  · rw [close_vio]
    rfl
  · rw [close_sec]
    rfl
  · rw [close_answer]
    rfl

/-- A BAR2 access that is a violation is counted, captured where none was, and changes nothing else (R28). -/
theorem barViolate_violates {kind : Nat} :
    let t := close (s.barViolate fn kind a)
    assoc t.ports.resp (fnPath fn) = some (.violation, []) ∧ t.vio.count = s.vio.count + 1 ∧
      (s.vio.valid = false → t.vio.kind = kind ∧ t.vio.addr = a) ∧ OnlyChanges [.ports, .vio, .answer] s t := by
  refine ⟨?_, ?_, fun h => ?_, by simp +decide⟩
  · rw [close_ports]
    exact State.respond_resp s (fnPath fn) .violation []
  · rw [close_vio]
    exact violate_count (s.respond (fnPath fn) .violation []) _
  · rw [close_vio]
    obtain ⟨hk, ha, -⟩ := violate_captured (s := s.respond (fnPath fn) .violation [])
      ⟨kind, srcWord s.self (pathKind (fnPath fn)) (pathUnit (fnPath fn)) 0, a, s.self⟩ h
    exact ⟨hk, ha⟩

/-- A write that lands answers so. -/
theorem respond_writeBytes_resp {p : Path} {data : List Byte} :
    assoc (close ((s.respond p .ok []).writeBytes a data false)).ports.resp p = some (.ok, []) := by
  have h : ((s.respond p .ok []).writeBytes a data false).ports = (s.respond p .ok []).ports :=
    ports_of_onlyChanges ((onlyChanges_writeBytes (List.Subset.refl _)).2 (onlyChanges_refl _ _)) (by decide)
  rw [close_ports, h, State.respond_resp]

theorem barViolation_control {w : Bool} (h : hitsControl a len = true) : s.barViolation w a len = some 0x08 := if_pos h

theorem barViolation_read (h : hitsControl a len = false) : s.barViolation false a len =
    if ∀ x ∈ lineAddrs a len, (s.place x).isMemory = true then none else some 0x05 := by
  simp [State.barViolation, h]

theorem barViolation_write (h : hitsControl a len = false) : s.barViolation true a len =
    if ∀ x ∈ lineAddrs a len, (s.place x).isMemory = true ∧ s.inParameter x = false then none else some 0x05 := by
  simp [State.barViolation, State.writable, h]

/-! The answers outside phase 4's staging. -/

section
variable {off k : Nat} {data : List Byte}

theorem execBar2Read_violation (hr : s.portReaches (fnPath fn) = true) (hs : s.stagingOpen = false)
    (h : s.barViolation false (s.barAddress fn off) len = some k) :
    execBar2Read fn off len s = done ({ s with answer := none }.barViolate fn k (s.barAddress fn off)) := by
  unfold execBar2Read
  rw [if_neg (by simp [hr]), if_neg (by simp [hs]), h]

theorem execBar2Read_window (hr : s.portReaches (fnPath fn) = true) (hs : s.stagingOpen = false)
    (h : s.barViolation false (s.barAddress fn off) len = none) (hw : s.windowed fn.val (s.barAddress fn off) len = true) :
    execBar2Read fn off len s = done ({ s.touch [(s.barAddress fn off, len)] with
      answer := some (s.peek (s.barAddress fn off) len, s.peekPoison (s.barAddress fn off) len) }.respond (fnPath fn) .ok
        (s.peek (s.barAddress fn off) len)) := by
  unfold execBar2Read
  rw [if_neg (by simp [hr]), if_neg (by simp [hs]), h]
  exact if_pos hw

theorem execBar2Read_denied (hr : s.portReaches (fnPath fn) = true) (hs : s.stagingOpen = false)
    (h : s.barViolation false (s.barAddress fn off) len = none) (hw : s.windowed fn.val (s.barAddress fn off) len = false) :
    execBar2Read fn off len s = done (s.barReadDenied fn (s.barAddress fn off) len) := by
  unfold execBar2Read
  rw [if_neg (by simp [hr]), if_neg (by simp [hs]), h]
  exact if_neg (by simp [hw])

theorem execBar2Write_violation (hr : s.portReaches (fnPath fn) = true) (hs : s.stagingOpen = false)
    (h : s.barViolation true (s.barAddress fn off) data.length = some k) :
    execBar2Write fn off data s = done (s.barViolate fn k (s.barAddress fn off)) := by
  unfold execBar2Write
  rw [if_neg (by simp [hr]), if_neg (by simp [hs]), h]

theorem execBar2Write_lands (hr : s.portReaches (fnPath fn) = true) (hs : s.stagingOpen = false)
    (h : s.barViolation true (s.barAddress fn off) data.length = none)
    (hf : s.inFreeBuffer (s.barAddress fn off) data.length = true) :
    execBar2Write fn off data s = done ((s.respond (fnPath fn) .ok []).writeBytes (s.barAddress fn off) data false) := by
  unfold execBar2Write
  rw [if_neg (by simp [hr]), if_neg (by simp [hs]), h]
  exact if_pos hf

theorem execBar2Write_denied (hr : s.portReaches (fnPath fn) = true) (hs : s.stagingOpen = false)
    (h : s.barViolation true (s.barAddress fn off) data.length = none)
    (hf : s.inFreeBuffer (s.barAddress fn off) data.length = false) :
    execBar2Write fn off data s = done (s.barDenied fn (s.barAddress fn off)) := by
  unfold execBar2Write
  rw [if_neg (by simp [hr]), if_neg (by simp [hs]), h]
  exact if_neg (by simp [hf])

theorem gives_bar2Write_violation (hr : s.portReaches (fnPath fn) = true) (hs : s.stagingOpen = false)
    (h : s.barViolation true (s.barAddress fn off) data.length = some k) :
    Gives (.bar2Write fn off data) s (fun t => assoc t.ports.resp (fnPath fn) = some (.violation, []) ∧
      t.vio.count = s.vio.count + 1 ∧ (s.vio.valid = false → t.vio.kind = k ∧ t.vio.addr = s.barAddress fn off) ∧
      OnlyChanges [.ports, .vio, .answer] s t) :=
  gives_done (execBar2Write_violation hr hs h) barViolate_violates

theorem gives_bar2Read_violation (hr : s.portReaches (fnPath fn) = true) (hs : s.stagingOpen = false)
    (h : s.barViolation false (s.barAddress fn off) len = some k) :
    Gives (.bar2Read fn off len) s (fun t => (assoc t.ports.resp (fnPath fn) = some (.violation, []) ∧
      t.vio.count = s.vio.count + 1 ∧ (s.vio.valid = false → t.vio.kind = k ∧ t.vio.addr = s.barAddress fn off) ∧
      OnlyChanges [.ports, .vio, .answer] s t) ∧ t.answer = none) := by
  obtain ⟨hresp, hcount, hcap, hw⟩ := barViolate_violates (s := { s with answer := none }) (fn := fn)
    (a := s.barAddress fn off) (kind := k)
  refine gives_done (execBar2Read_violation hr hs h) ⟨⟨hresp, hcount, hcap, ?_⟩, ?_⟩
  · simp +decide
  · rw [close_answer]
    rfl

end

theorem execBar2Write_staging {off : Nat} {data : List Byte} (hr : s.portReaches (fnPath fn) = true)
    (hs : s.stagingOpen = true) : execBar2Write fn off data s = done (s.stageWrite fn off data) := by
  unfold execBar2Write
  rw [if_neg (by simp [hr]), if_pos hs]

/-- The image length is written with a word at its offset, which lies behind the staging area (R401). -/
theorem stageWrite_length (v : Word) : s.stageWrite fn lengthOffset (leBytes 4 v.toNat) = s.stageLength fn v.toNat := by
  unfold State.stageWrite
  rw [if_neg (by simp [leBytes, lengthOffset, storeSize]), if_pos (by simp [leBytes]), ofLe_leBytes_word]

theorem execStagingLengthWrite_staging {x : State} {v : Word} (hr : s.portReaches (fnPath fn) = true)
    (hs : s.stagingOpen = true) (h : s.stageLength fn v.toNat = x) : execStagingLengthWrite fn v s = done x := by
  unfold execStagingLengthWrite
  rw [execBar2Write_staging hr hs, stageWrite_length, h]

end

/-- Settles O57, access by access. -/
theorem bar2Accesses : Obligations.Bar2Accesses := by
  unfold Obligations.Bar2Accesses
  intro s fn off
  dsimp only
  intro hr
  have denies := barDenied_denies (s := s) (fn := fn) (a := s.barAddress fn off)
  have readViolates := fun len hs k => gives_bar2Read_violation (s := s) (fn := fn) (off := off) (len := len) (k := k) hr hs
  have writeViolates := fun data hs k => gives_bar2Write_violation (s := s) (fn := fn) (off := off) (data := data) (k := k) hr hs
  refine ⟨?read, ?readElse, ?readControl, ?readHole, ?readStaging, ?write, ?writeElse, ?writeControl, ?writeHole, ?stage,
    ?stageElse, ?length, ?second, ?outside⟩
  case read =>
    intro len hs ⟨hc, hm⟩ hw
    refine gives_done (execBar2Read_window hr hs ((barViolation_read hc).trans (if_pos hm)) hw) ⟨?_, ?_⟩
    · rw [close_answer]
      rfl
    · rw [close_ports, State.respond_resp]
  case readElse =>
    intro len hs ⟨hc, hm⟩ hw
    exact gives_done (execBar2Read_denied hr hs ((barViolation_read hc).trans (if_pos hm)) hw) barReadDenied_denies
  case readControl => exact fun len hs hc => readViolates len hs 0x08 (barViolation_control hc)
  case readHole =>
    intro len hs hc hm
    exact readViolates len hs 0x05 ((barViolation_read hc).trans (if_neg fun h => hm ⟨hc, h⟩))
  case readStaging =>
    intro len hs
    refine gives_done (i := .bar2Read fn off len) (x := s.barReadDenied fn (s.barAddress fn off) len) ?_ barReadDenied_denies
    show execBar2Read fn off len s = _
    unfold execBar2Read
    rw [if_neg (by simp [hr]), if_pos hs]
  case write =>
    intro data hs ⟨hc, hm⟩ hf
    exact ⟨_, execBar2Write_lands hr hs ((barViolation_write hc).trans (if_pos hm)) hf, rfl, respond_writeBytes_resp⟩
  case writeElse =>
    intro data hs ⟨hc, hm⟩ hf
    exact gives_done (execBar2Write_denied hr hs ((barViolation_write hc).trans (if_pos hm)) hf) denies
  case writeControl => exact fun data hs hc => writeViolates data hs 0x08 (barViolation_control hc)
  case writeHole =>
    intro data hs hc hm
    exact writeViolates data hs 0x05 ((barViolation_write hc).trans (if_neg fun h => hm ⟨hc, h⟩))
  case stage =>
    intro data hs hlen
    refine ⟨_, (execBar2Write_staging hr hs).trans ?_, rfl, respond_writeBytes_resp⟩
    rw [State.stageWrite, if_pos hlen]
    rfl
  case stageElse =>
    intro data hs hlen hoff
    refine gives_done (x := s.barDenied fn (s.barAddress fn off)) ((execBar2Write_staging hr hs).trans ?_) denies
    rw [State.stageWrite, if_neg (by omega), if_neg (by simpa using hoff)]
  case length =>
    intro len hs hstage
    refine gives_done (x := (s.respond (fnPath fn) .ok []).modRst (fun r => { r with staging := some len.toNat }))
      (execStagingLengthWrite_staging hr hs (if_neg (by simp [hstage]))) ⟨?_, ?_, by simp +decide⟩
    · rw [close_staging]
      rfl
    · rw [close_ports, State.modRst_ports, State.respond_resp]
  case second =>
    intro len hs hstage
    obtain ⟨hresp, -, -, -⟩ := barDenied_denies (s := s) (fn := fn) (a := s.barAddress fn lengthOffset)
    refine gives_done (x := s.barDenied fn (s.barAddress fn lengthOffset))
      (execStagingLengthWrite_staging hr hs (if_pos hstage)) ⟨?_, hresp, by simp +decide⟩
    · rw [close_staging]
      rfl
  case outside => exact fun len hs => rfl

end Sys2Proof.Machine
end

section
/-! SUPPORT. Register writes, row by row: how each answers, and what it stores. -/

namespace Sys2Proof.Machine

section
variable {s : State} {p : Path} {off : Nat} {v : Word}

/-! A store leaves what each path was last answered. -/

theorem store_resp : (s.store p off v).ports.resp = s.ports.resp := by
  unfold State.store
  split
  · exact congrArg Ports.resp (ports_of_onlyChanges ((onlyChanges_perfClear (List.Subset.refl _)).2 (onlyChanges_refl _ s)) (by decide))
  · rfl
  · rfl
  · rfl
  · rfl
  · rfl
  · split
    · rfl
    · split
      · split <;> rfl
      · exact clearBits_resp

theorem storeHalf_resp : (s.storeHalf p off v).ports.resp = s.ports.resp := by
  unfold State.storeHalf State.setCursor
  split
  · rfl
  · split <;> rfl

theorem transfer_last (r : Resp) (h : p = .mb) : (s.transfer p (some r)).ports.mbLast = r.status := by
  subst h
  rfl

/-- A write of one whole register, and REG_WRITE of the management port, give what the path's write gives. -/
theorem forms_of_pathWrite {P : State → Prop} {x : State} (h : s.pathWrite p off v = done x) (hP : P (close x)) :
    (∀ f : Form, f.whole = true ∨ p = .mb → f.met = none →
        Gives (.registerWrite p off v f) s P ∧ Gives (.loWrite p off ⟨v, f⟩) s P ∧ Gives (.hiWrite p off ⟨v, f⟩) s P) ∧
      (p = .mb → Gives (.mbRegWrite off v) s P) := by
  refine ⟨fun f hf hmet => ?_, fun hp => ?_⟩
  · have hform : s.formWrite p off v f = done x := by
      unfold State.formWrite
      dsimp only
      rw [hmet, if_pos (by simpa using hf)]
      exact h
    exact ⟨gives_done hform hP, gives_done hform hP, gives_done hform hP⟩
  · subst hp
    exact gives_done h hP

/-- The rows of a register write: what the path's write gives, they give, each at its own offset. -/
theorem rows_of_pathWrite {P : Word → State → Prop} (h : ∀ w, ∃ x, s.pathWrite p off w = done x ∧ P w (close x)) :
    ((∀ f : Form, f.whole = true ∨ p = .mb → f.met = none →
        Gives (.registerWrite p off v f) s (P v) ∧ Gives (.loWrite p off ⟨v, f⟩) s (P v) ∧ Gives (.hiWrite p off ⟨v, f⟩) s (P v)) ∧
      (p = .mb → Gives (.mbRegWrite off v) s (P v))) ∧
    (off = 0x050010 → Gives (.vioStatusClear p v) s (P v)) ∧
    (∀ fn : Fin 2, off = 0x600000 + 4 * fn.val → Gives (.hpApertureWrite p fn v) s (P v)) ∧
    (∀ c : Fin 4, off = 0x107010 + 0x10000 * c.val → Gives (.veerHistSelWrite p c v) s (P v)) ∧
    (off = 0x010020 → Gives (.rstHistSelWrite p v) s (P v)) ∧
    (off = 0x030014 → Gives (.hltCanarySelWrite p v) s (P v)) ∧
    (off = 0x000028 →
      Gives (.perfClearCores p) s (P 0x01) ∧ Gives (.perfClearDraught p) s (P 0x02) ∧ Gives (.perfClearMemory p) s (P 0x04) ∧
      Gives (.perfClearStash p) s (P 0x08) ∧ Gives (.perfClearLinks p) s (P 0x10) ∧ Gives (.perfClearSlipstream p) s (P 0x20) ∧
      Gives (.perfClearViolations p) s (P 0x40)) := by
  have hg : ∀ (i : Instr) (w : Word), exec i s = s.pathWrite p off w → Gives i s (P w) := fun i w hi => by
    obtain ⟨x, hx, hP⟩ := h w
    exact gives_done (hi.trans hx) hP
  obtain ⟨x, hx, hP⟩ := h v
  refine ⟨forms_of_pathWrite hx hP,
    fun ho => ?_, fun fn ho => ?_, fun c ho => ?_, fun ho => ?_, fun ho => ?_, fun ho => ?_⟩
  · subst ho
    exact hg _ _ rfl
  · subst ho
    exact hg _ _ rfl
  · subst ho
    exact hg _ _ rfl
  · subst ho
    exact hg _ _ rfl
  · subst ho
    exact hg _ _ rfl
  · subst ho
    exact ⟨hg _ _ rfl, hg _ _ rfl, hg _ _ rfl, hg _ _ rfl, hg _ _ rfl, hg _ _ rfl, hg _ _ rfl⟩

/-! What each path's write leaves, case by case. -/

/-- A path that may write its register: the write is answered and the register changes. -/
theorem pathWrite_lands (hr : s.portReaches p = true) (hs : s.shut p off = false) {r : Reg} (hreg : s.register p off = some r)
    (hmay : s.mayWrite p r.cls = true) (hc : r.cls.plain) : s.pathWrite p off v =
      done ((if r.half = .word then (s.respond p .ok []).store p off v else (s.respond p .ok []).storeHalf p off v).transfer p
        (some .ok)) := by
  have hv : s.verdict p off true = .ok := by simp [State.verdict, hreg, hmay]
  rw [pathWrite_eq hr hs, hv, writeAt_lands _ (r := r) (by simpa using hreg) (by simpa using hmay) hc]

theorem pathWrite_denied (hr : s.portReaches p = true) (hs : s.shut p off = false) {r : Reg} (hreg : s.register p off = some r)
    (hmay : s.mayWrite p r.cls = false) (hc : r.cls.plain) : s.pathWrite p off v =
      done (((s.respond p .denied []).denyReg p off).transfer p (some .denied)) := by
  have hv : s.verdict p off true = .denied := by simp [State.verdict, hreg, hmay]
  rw [pathWrite_eq hr hs, hv, writeAt_denied _ (r := r) (by simpa using hreg) (by simpa using hmay) hc]

theorem pathWrite_unmapped (hr : s.portReaches p = true) (hs : s.shut p off = false) (hreg : s.register p off = none) :
    s.pathWrite p off v = done (((s.respond p .violation []).regVio p s.self off).transfer p (some .violation)) := by
  have hv : s.verdict p off true = .violation := by simp [State.verdict, hreg]
  rw [pathWrite_eq hr hs, hv]
  unfold State.writeAt
  rw [State.register_respond, hreg]

/-- A command register: its row's effect, by the opcode and the TAG of the word. -/
theorem pathWrite_command (hr : s.portReaches p = true) (hs : s.shut p off = false) {r : Reg} (hreg : s.register p off = some r) :
    (r.cls = .rstCmd → s.pathWrite p off v = done (((s.respond p (s.verdict p off true) []).writeRstCmd p v).transfer p
      (some (s.verdict p off true)))) ∧
    (r.cls = .secCmd → s.pathWrite p off v = done (((s.respond p (s.verdict p off true) []).writeSecCmd p v).transfer p
      (some (s.verdict p off true)))) ∧
    (r.cls = .ingestCmd → s.pathWrite p off v = done (((s.respond p (s.verdict p off true) []).writeIngestCmd p v).transfer p
      (some (s.verdict p off true)))) ∧
    (r.cls = .chainCmd → s.pathWrite p off v = done (((s.respond p (s.verdict p off true) []).writeChainCmd p off v).transfer p
      (some (s.verdict p off true)))) := by
  rw [pathWrite_eq hr hs]
  unfold State.writeAt
  rw [State.register_respond, hreg]
  exact ⟨fun h => by simp only [h], fun h => by simp only [h], fun h => by simp only [h], fun h => by simp only [h]⟩

/-! The pair of EVR_CURSOR. -/

theorem register_cursorLo : s.register p cursorLo = some ⟨.event, .lo, validPair (assoc s.ports.cursor p)⟩ := rfl
theorem register_cursorHi : s.register p (cursorLo + 4) = some ⟨.event, .hi, validPair (assoc s.ports.cursor p)⟩ := rfl

/-- The end of a handshake stops no path from reaching the device: an escalation starts no reset that is applied already. -/
theorem inReset_close (h : s.inReset = false) : (close s).inReset = false := by
  rcases close_rst s with e | e
  · unfold State.inReset
    rw [e]
    exact h
  · unfold State.inReset at h ⊢
    rw [e]
    unfold State.escalate
    cases ht : s.rst.taking with
    | none => rw [recognise_taking_of_none 8 .warm ht]
    | some k =>
      rw [ht] at h
      rw [recognise_taking_of_some 8 .warm ht]
      simp only [Taking.merge, h, Bool.false_and]

theorem portReaches_close (h : s.portReaches p = true) : (close s).portReaches p = true := by
  simp only [State.portReaches, Bool.and_eq_true, Bool.not_eq_true'] at h ⊢
  exact ⟨inReset_close h.1, by rw [close_ports, close_dev]; exact h.2⟩

theorem party_close : (close s).party p = s.party p := by
  unfold State.party
  cases p <;> simp only [State.sessionParty, State.session, State.now, close_sec, close_dev] <;> rfl

@[simp] theorem party_transfer (w : Option Resp) : (s.transfer p w).party p = s.party p := by
  unfold State.transfer
  split <;> rfl

/-- A half of a pair of the recorder that its path writes. -/
theorem pathWrite_half {r : Reg} (hr : s.portReaches p = true) (hp : (s.party p).privileged = true) (hoff : off < 0x030000)
    (hreg : s.register p off = some r) (hcls : r.cls = .event) (hhalf : r.half ≠ .word) :
    s.pathWrite p off v = done (((s.respond p .ok []).storeHalf p off v).transfer p (some .ok)) := by
  have hs : s.shut p off = false := by simp [State.shut, State.silent, hoff]
  rw [pathWrite_lands hr hs hreg (by rw [hcls]; exact hp) (by simp [RegClass.plain, hcls]), if_neg hhalf]

theorem pathWrite_cursorLo (hr : s.portReaches p = true) (hp : (s.party p).privileged = true) :
    s.pathWrite p cursorLo v = done (((s.respond p .ok []).storeHalf p cursorLo v).transfer p (some .ok)) :=
  pathWrite_half hr hp (by decide) register_cursorLo rfl (by simp)

theorem pathWrite_cursorHi (hr : s.portReaches p = true) (hp : (s.party p).privileged = true) :
    s.pathWrite p (cursorLo + 4) v = done (((s.respond p .ok []).storeHalf p (cursorLo + 4) v).transfer p (some .ok)) :=
  pathWrite_half hr hp (by decide) register_cursorHi rfl (by simp)

/-- What a write's answer shows: the path's status, and at the management port the status byte. -/
def WriteAnswered (p : Path) (r : Resp) (t : State) : Prop :=
  assoc t.ports.resp p = some (r, []) ∧ (p = .mb → t.ports.mbLast = r.status)

theorem writeAnswered_transfer {r : Resp} (h : assoc s.ports.resp p = some (r, [])) :
    WriteAnswered p r (close (s.transfer p (some r))) := by
  refine ⟨?_, fun hp => ?_⟩
  · rw [close_ports, transfer_resp, h]
  · rw [close_ports, transfer_last _ hp]

@[simp] theorem transfer_held (w : Option Resp) : (s.transfer p w).ports.held = s.ports.held := by
  unfold State.transfer
  split <;> rfl

@[simp] theorem transfer_cursor (w : Option Resp) : (s.transfer p w).ports.cursor = s.ports.cursor := by
  unfold State.transfer
  split <;> rfl

@[simp] theorem respond_held (r : Resp) (d : List Byte) : (s.respond p r d).ports.held = s.ports.held := rfl

/-- The high half of EVR_CURSOR takes the low half that its path wrote before (R424). -/
theorem storeHalf_cursorHi {lo hi : Word} (h : assoc s.ports.held (p, cursorLo) = some lo) :
    assoc (s.storeHalf p (cursorLo + 4) hi).ports.cursor p = some ((lo.toNat + hi.toNat * 2 ^ 32) % 2 ^ 48) := by
  unfold State.storeHalf
  rw [if_neg (by decide), if_pos rfl, h]
  show assoc (assocSet _ p ((lo.toNat + put 32 hi.toNat) % 2 ^ 48)) p = _
  rw [assoc_assocSet, put, Nat.shiftLeft_eq]

theorem portReaches_transfer (w : Option Resp) : (s.transfer p w).portReaches p = s.portReaches p := by
  unfold State.transfer
  split <;> rfl

end

/-! What the registers store that later statements read. -/

section
variable {s : State} {p : Path} {off : Nat} {v : Word}

theorem store_histSel {c : Fin 4} (h : histSelCore off = some c) : s.store p off v =
    s.modPorts (fun x => { x with veerSel := assocSet x.veerSel (p, c.val) (v &&& 0x03FF03FF#32) }) := by
  have hoff : 0x100000 ≤ off ∧ off < 0x140000 := by
    unfold histSelCore at h
    split at h
    · next hc => simp at hc; omega
    · cases h
  unfold State.store
  split
  case h_7 => rw [h]
  all_goals omega

/-! Each bit of PERF_CLEAR clears its own banks (R35). -/

theorem perfClear_cores : s.perfClear 0x01 = s.perfCores := rfl
theorem perfClear_draught : s.perfClear 0x02 = s.perfDraught := rfl
theorem perfClear_memory : s.perfClear 0x04 = s.perfMemory := rfl
theorem perfClear_stash : s.perfClear 0x08 = s.perfStash := rfl
theorem perfClear_links : s.perfClear 0x10 = s.perfLinks := rfl

theorem perfCores_core (c : Fin 4) : s.perfCores.core c = (s.core c).clearPerf := by
  simp [State.core, State.perfCores, Vector.get_eq_getElem]

end

/-! A write in whose handshake a row comparison falls (R98). -/

section
variable {s u x : State} {p : Path} {off : Nat} {v : Word} {w : Fin 8}

theorem formWrite_met {f : Form} (h : s.formWrite p off v { f with met := none } = .next u) :
    s.formWrite p off v { f with met := some w } = s.compareMet u w := by
  have ho : (if f.whole || p = .mb then s.pathWrite p off v else s.badForm p off 0) = .next u := h
  unfold State.formWrite
  dsimp only
  by_cases hc : (f.whole || p = .mb) = true
  · rw [if_pos hc] at ho
    rw [if_pos (show (({ f with met := some w } : Form).whole || p = .mb) = true from hc), ho]
  · rw [if_neg hc] at ho
    rw [if_neg (show ¬(({ f with met := some w } : Form).whole || p = .mb) = true from hc), ho]

theorem compareMet_none (h : (u.gale w).check = none) : s.compareMet u w = .next u := by
  have hx : execXchkRowCompare w u = .next u := by
    unfold execXchkRowCompare
    rw [h]
    rfl
  unfold State.compareMet
  rw [hx, h]

theorem compareMet_some {r : XchkRun} (h : (u.gale w).check = some r) (hx : execXchkRowCompare w u = .next x) :
    s.compareMet u w =
      if (s.gale r.owner).mismatch && (x.gale r.owner).mismatch then
        done (x.modGale r.owner (fun y =>
          { y with mmAddr := (s.gale r.owner).mmAddr, mmRow := (s.gale r.owner).mmRow, mmCol := (s.gale r.owner).mmCol,
                   mmValid := (s.gale r.owner).mmValid }))
      else done x := by
  unfold State.compareMet
  rw [hx, h]

/-- The rows of a register write in whose handshake a comparison falls give what the comparison after it gives. -/
theorem gives_of_compareMet {f : Form} {P : State → Prop} {y : State}
    (hu : exec (.registerWrite p off v { f with met := none }) s = .next u)
    (h : s.compareMet u w = .next y) (hP : P y) :
    Gives (.registerWrite p off v { f with met := some w }) s P ∧ Gives (.loWrite p off ⟨v, { f with met := some w }⟩) s P ∧
      Gives (.hiWrite p off ⟨v, { f with met := some w }⟩) s P := by
  have hw : s.formWrite p off v { f with met := some w } = .next y := (formWrite_met hu).trans h
  exact ⟨⟨y, hw, hP⟩, ⟨y, hw, hP⟩, ⟨y, hw, hP⟩⟩

end

/-- What a misformed write leaves: the violation, and nothing else. -/
def FormWrite (s : State) (off : Nat) (t : State) : Prop :=
  t.vio.count = s.vio.count + 1 ∧ t.vio.valid = true ∧
    (s.vio.valid = false → t.vio.kind = 0x07 ∧ t.vio.addr = ctlBase + off ∧ t.vio.dev = s.self) ∧ OnlyChanges [.ports, .vio] s t

theorem formWrite_of {s u x t : State} {off : Nat} (h : FormVio u off x) (hu : u.vio = s.vio) (hself : u.self = s.self)
    (ht : t.vio = x.vio) (hw : OnlyChanges [.ports, .vio] s t) : FormWrite s off t := by
  obtain ⟨hcount, hvalid, hcap⟩ := h.of_eq (t := t) hu hself ht
  exact ⟨hcount, hvalid, hcap, hw⟩

/-- EVR_CURSOR, low then high, takes both halves at once (R424). -/
theorem gives_evrCursorWrite {s : State} {p : Path} {lo hi : Word} (hr : s.portReaches p = true)
    (hp : (s.party p).privileged = true) : Gives (.evrCursorWrite p lo hi) s (fun t =>
      assoc t.ports.cursor p = some ((lo.toNat + hi.toNat * 2 ^ 32) % 2 ^ 48) ∧ OnlyChanges [.ports] s t) := by
  let u := close (((s.respond p .ok []).storeHalf p cursorLo lo).transfer p (some .ok))
  have h1 : s.pathWrite p cursorLo lo = .next u := pathWrite_cursorLo hr hp
  have hu : u.ports.held = assocSet s.ports.held (p, cursorLo) lo := by
    show (close (((s.respond p .ok []).storeHalf p cursorLo lo).transfer p (some .ok))).ports.held = _
    rw [close_ports, transfer_held]
    rfl
  have hru : u.portReaches p = true := portReaches_close ((portReaches_transfer _).trans hr)
  have hpu : (u.party p).privileged = true := by
    show ((close (((s.respond p .ok []).storeHalf p cursorLo lo).transfer p (some .ok))).party p).privileged = true
    rw [party_close, party_transfer]
    exact hp
  have h2 : u.pathWrite p (cursorLo + 4) hi =
      done (((u.respond p .ok []).storeHalf p (cursorLo + 4) hi).transfer p (some .ok)) :=
    pathWrite_cursorHi hru hpu
  refine gives_done (x := ((u.respond p .ok []).storeHalf p (cursorLo + 4) hi).transfer p (some .ok)) ?_ ⟨?_, ?_⟩
  · show execEvrCursorWrite p lo hi s = _
    unfold execEvrCursorWrite
    rw [h1]
    exact h2
  · rw [close_ports, transfer_cursor, storeHalf_cursorHi (lo := lo)]
    show assoc (u.respond p .ok []).ports.held (p, cursorLo) = some lo
    rw [respond_held, hu, assoc_assocSet]
  · have hu1 : OnlyChanges [.ports] s u := by simp +decide [u]
    exact hu1.trans (by simp +decide)

/-- Settles O56: what each path's write leaves, row by row, and what each register stores. -/
theorem registerWritesLand : Obligations.RegisterWritesLand := by
  unfold Obligations.RegisterWritesLand
  refine ⟨fun s p off v hr => ?_, fun s p lo hi hr hp => gives_evrCursorWrite hr hp, fun s p v => ?_⟩
  · dsimp only
    refine ⟨?lands, ?denied, ?command, ?unmapped, ?form, ?shut, ?met⟩
    case lands =>
      intro r hs hreg hmay h1 h2 h3 h4
      refine rows_of_pathWrite (P := fun w t => WriteAnswered p .ok t ∧ t = close ((if r.half = .word then
        (s.respond p .ok []).store p off w else (s.respond p .ok []).storeHalf p off w).transfer p (some .ok)))
        fun w => ⟨_, pathWrite_lands hr hs hreg hmay ⟨h1, h2, h3, h4⟩, writeAnswered_transfer ?_, rfl⟩
      split
      · rw [store_resp, State.respond_resp]
      · rw [storeHalf_resp, State.respond_resp]
    case denied =>
      intro r hs hreg hmay h1 h2 h3 h4
      exact rows_of_pathWrite (P := fun _ t => WriteAnswered p .denied t ∧ t.vio = s.vio ∧ t.sec.deniedSeen = true ∧
        OnlyChanges [.ports, .sec] s t) fun w => ⟨_, pathWrite_denied hr hs hreg hmay ⟨h1, h2, h3, h4⟩,
          writeAnswered_transfer (by rw [denyReg_ports, State.respond_resp]), by simp, by simp, by simp +decide⟩
    case command =>
      intro r hs hreg
      obtain ⟨h1, h2, h3, h4⟩ := pathWrite_command (v := v) hr hs hreg
      exact ⟨fun hc => forms_of_pathWrite (h1 hc) rfl, fun hc => forms_of_pathWrite (h2 hc) rfl,
        fun hc => forms_of_pathWrite (h3 hc) rfl, fun hc => forms_of_pathWrite (h4 hc) rfl⟩
    case unmapped =>
      intro hs hreg
      refine rows_of_pathWrite (P := fun _ t => WriteAnswered p .violation t ∧ FormWrite s off t) fun w =>
        ⟨_, pathWrite_unmapped hr hs hreg, writeAnswered_transfer (by rw [regVio_ports, State.respond_resp]), ?_⟩
      exact formWrite_of (formVio_regVio (s := s.respond p .violation []) (p := p) s.self) rfl rfl (by simp) (by simp +decide)
    case form =>
      intro f hf hp hmet
      have hbad : s.formWrite p off v f = done ((s.respond p .violation (zeros 0)).regVio p s.self off) := by
        unfold State.formWrite
        dsimp only
        rw [hmet, if_neg (by simp [hf, hp]), badForm_eq hr]
      have hP : assoc (close ((s.respond p .violation (zeros 0)).regVio p s.self off)).ports.resp p = some (.violation, []) ∧
          FormWrite s off (close ((s.respond p .violation (zeros 0)).regVio p s.self off)) :=
        ⟨by rw [close_ports, regVio_ports, State.respond_resp]; rfl,
          formWrite_of (formVio_regVio (s := s.respond p .violation (zeros 0)) (p := p) s.self) rfl rfl (by simp) (by simp +decide)⟩
      exact ⟨gives_done hbad hP, gives_done hbad hP, gives_done hbad hP⟩
    case shut =>
      intro hs
      refine rows_of_pathWrite (P := fun _ t => WriteAnswered p .violation t ∧ OnlyChanges [.ports] s t) fun w =>
        ⟨_, pathWrite_shut hr hs, ⟨?_, fun hp => ?_⟩, by simp +decide⟩
      · rw [close_ports, State.respond_resp]
      · rw [close_ports, respond_mbLast, transfer_last _ hp]
    case met =>
      intro f w u hu
      refine ⟨fun hcheck => gives_of_compareMet hu (compareMet_none hcheck) rfl, fun x r hcheck hx => ⟨fun h1 h2 => ?_, fun h => ?_⟩⟩
      · have hc := (compareMet_some (s := s) hcheck hx).trans (if_pos (by simp [h1, h2]))
        exact gives_of_compareMet hu hc (by simp [h2])
      · have hc := (compareMet_some (s := s) hcheck hx).trans (if_neg (by rcases h with h | h <;> simp [h]))
        exact gives_of_compareMet hu hc rfl
  · refine ⟨rfl, assoc_assocSet _ _ _, assoc_assocSet _ _ _, fun c => ?_, ?_, ?_, rfl, rfl, fun c => ?_, fun g => ?_, fun e => ?_,
      fun n => ⟨?_, ?_⟩, fun n => ?_, fun l => ?_, rfl, rfl, rfl⟩
    · have hc : histSelCore (0x107010 + 0x10000 * c.val) = some c := by revert c; decide
      rw [store_histSel hc]
      exact assoc_assocSet _ _ _
    · simp [State.store, State.modPorts, Vector.get_eq_getElem]
    · simp [State.store, State.modPorts, Vector.get_eq_getElem]
    · rw [show s.store p 0x28 0x01 = s.perfCores from perfClear_cores]
      refine ⟨by rw [perfCores_core]; rfl, by rw [perfCores_core]; rfl, by rw [perfCores_core]; rfl, by rw [perfCores_core]; rfl,
        fun k => ?_⟩
      show ((s.perfCores.core c).ctxs.get k).bank = _
      rw [perfCores_core]
      simp [Core.clearPerf, Ctx.clearPerf, Vector.get_eq_getElem]
    · rw [show s.store p 0x28 0x01 = s.perfCores from perfClear_cores]
      simp [State.gale, State.perfCores, Vector.get_eq_getElem]
    · rw [show s.store p 0x28 0x02 = s.perfDraught from perfClear_draught]
      simp [State.drt, State.perfDraught, Vector.get_eq_getElem]
    · rw [show s.store p 0x28 0x04 = s.perfMemory from perfClear_memory]
      simp [State.stack, State.perfMemory, Vector.get_eq_getElem]
    · rw [show s.store p 0x28 0x04 = s.perfMemory from perfClear_memory]
      simp [State.fhn, State.perfMemory, Vector.get_eq_getElem]
    · rw [show s.store p 0x28 0x08 = s.perfStash from perfClear_stash]
      simp [State.stc, State.perfStash, Vector.get_eq_getElem]
    · rw [show s.store p 0x28 0x10 = s.perfLinks from perfClear_links]
      simp [State.link, State.perfLinks, Vector.get_eq_getElem]

end Sys2Proof.Machine
end

section
/-! SUPPORT. Issue: what an operation that may issue gives, and what issuing leaves of its core. -/

namespace Sys2Proof.Machine

section
variable {s t u : State} {c : Fin 4} {k : Fin 8} {code : Nat} {op : BitVec 128}

/-- An operation that arbitration chooses has its effect (R100). -/
theorem issue_eq (h : s.mayIssue c k code = some op) (f : BitVec 128 → State → State) : issue c k code s f = done (f op s) := by
  unfold issue
  rw [h]

/-- An operation that may issue gives what holds once it has had its effect. -/
theorem gives_issue {i : Instr} {f : BitVec 128 → State → State} {P : State → Prop} (h : s.mayIssue c k code = some op)
    (hi : exec i s = issue c k code s f) (hP : P (close (f op s))) : Gives i s P :=
  gives_done (hi.trans (issue_eq h f)) hP

theorem Issued.close (h : Issued c k s t) : Issued c k s (close t) := by
  obtain ⟨hlast, hbank, hctx⟩ := h
  exact ⟨by rw [core_close, hlast], by rw [core_close, hbank], fun d j hd => by rw [ctx_close, hctx d j hd]⟩

/-- Issuing from a state that differs in the context alone. -/
theorem issued_issuedTo (hb : (u.core c).bank = (s.core c).bank) (hc : ∀ d j, (d, j) ≠ (c, k) → u.ctx d j = s.ctx d j)
    (next : Nat) : Issued c k s (u.issuedTo c k next) := by
  obtain ⟨hlast, hbank⟩ := State.core_issuedTo u c k next
  refine ⟨hlast, hbank.trans (by rw [hb]), fun d j hd => ?_⟩
  rw [State.ctx_issuedTo, if_neg (by simpa using hd), hc d j hd]

/-- A context's own update moves no other. -/
theorem Issued.modCtx (h : Issued c k s t) (f : Ctx → Ctx) : Issued c k s (t.modCtx c k f) := by
  obtain ⟨hlast, hbank, hctx⟩ := h
  refine ⟨by simpa using hlast, by simpa using hbank, fun d j hd => ?_⟩
  rw [State.ctx_modCtx, if_neg (by simpa using hd), hctx d j hd]

variable (s c k) in
theorem issued_issued : Issued c k s (s.issued c k) := by
  rw [State.issued_eq]
  exact issued_issuedTo rfl (fun _ _ _ => rfl) _

theorem ctx_issued : (s.issued c k).ctx c k = ((s.ctx c k).retire ((s.ctx c k).execPos + 1)).settle := by
  rw [State.issued_eq, State.ctx_issuedTo, if_pos ⟨rfl, rfl⟩]

theorem ctx_issuedTo_self (next : Nat) : (s.issuedTo c k next).ctx c k = ((s.ctx c k).retire next).settle := by
  rw [State.ctx_issuedTo, if_pos ⟨rfl, rfl⟩]

/-! A loop counter is set, and its operation issues. -/

theorem ctx_setLoop (l : Fin 8) (v : Word) :
    (s.setLoop c k l v).ctx c k = { s.ctx c k with lcX := (s.ctx c k).lcX.set l v } := by
  simp [State.setLoop]

theorem issued_setLoop_issuedTo (l : Fin 8) (v : Word) (next : Nat) : Issued c k s ((s.setLoop c k l v).issuedTo c k next) := by
  refine issued_issuedTo ?_ (fun d j hd => ?_) next
  · simp [State.setLoop]
  · rw [State.setLoop, State.ctx_modCtx, if_neg (by simpa using hd)]

theorem issued_setLoop_issued (l : Fin 8) (v : Word) : Issued c k s ((s.setLoop c k l v).issued c k) := by
  rw [State.issued_eq]
  exact issued_setLoop_issuedTo l v _

end

/-- Settles O15, operation by operation. -/
theorem controlOperationsIssue : Obligations.ControlOperationsIssue := by
  unfold Obligations.ControlOperationsIssue
  intro s c k op
  dsimp only
  refine ⟨?nop, ?endOp, ?loopSet, ?loopGoes, ?loopEnds, ?jump, ?vaneTest, ?branchVane⟩
  case nop => exact fun h => gives_issue h (show execNop c k s = _ from rfl) ⟨by rw [ctx_close, ctx_issued], (issued_issued s c k).close⟩
  case endOp =>
    intro h
    refine gives_issue h (show execEndOp c k s = _ from rfl) ⟨?_, ((issued_issued s c k).modCtx _).close⟩
    rw [ctx_close, State.ctx_modCtx_self, ctx_issued]
  case loopSet =>
    intro h
    refine gives_issue h (show execLoopSet c k s = _ from rfl) ⟨?_, (issued_setLoop_issued _ _).close⟩
    rw [ctx_close, ctx_issued, ctx_setLoop]
  case loopGoes =>
    intro h hv
    refine gives_issue h (show execLoopNext c k s = _ from rfl) ?_
    dsimp only
    rw [if_pos hv]
    refine ⟨?_, (issued_setLoop_issuedTo _ _ _).close⟩
    rw [ctx_close, ctx_issuedTo_self, ctx_setLoop]
  case loopEnds =>
    intro h hv
    refine gives_issue h (show execLoopNext c k s = _ from rfl) ?_
    dsimp only
    rw [if_neg (by omega)]
    refine ⟨?_, (issued_setLoop_issued _ _).close⟩
    rw [ctx_close, ctx_issued, ctx_setLoop]
  case jump =>
    intro h
    refine gives_issue h (show execJump c k s = _ from rfl) ⟨by rw [ctx_close, ctx_issuedTo_self], ?_⟩
    exact (issued_issuedTo rfl (fun _ _ _ => rfl) _).close
  case vaneTest =>
    intro h
    refine gives_issue h (show execVaneTest c k s = _ from rfl) ⟨?_, (issued_setLoop_issued _ _).close⟩
    rw [ctx_close, ctx_issued, ctx_setLoop]
  case branchVane =>
    intro h
    refine gives_issue h (show execBranchVane c k s = _ from rfl) ⟨?_, ((issued_issuedTo rfl (fun _ _ _ => rfl) _).modCtx _).close⟩
    rw [ctx_close, State.ctx_modCtx_self, ctx_issuedTo_self]
    rfl

end Sys2Proof.Machine
end

section
/-! SUPPORT. Vanes: what a vane reads after an update of one, and how signals, waits and their bounds take effect. -/

namespace Sys2Proof.Machine

section
variable {s : State} {c : Fin 4} {k : Fin 8}

/-- A context that fetched its END fetches nothing any more: the attempt changes nothing (R107). -/
theorem fetchStep_ended (hend : (s.ctx c k).endFetched = true) (hroute : (s.ctx c k).routeTodo = []) : fetchStep c k s = stay s := by
  have htry : s.tryFetch c k = .error (0, false) := by
    unfold State.tryFetch
    dsimp only
    rw [hroute]
    simp only [hend, if_true, ite_self]
  unfold fetchStep
  rw [htry]
  exact ite_self _

end

/-- Settles O16: what `endComplete` waits for, and a context that fetched its END. -/
theorem endCompletes : Obligations.EndCompletes := by
  unfold Obligations.EndCompletes
  intro s c k
  refine ⟨fun hend hst => ⟨fun hall => ?_, fun hall => ?_⟩, fun hend hroute => ?_⟩
  · refine gives_done (i := .endComplete c k) (if_pos (by simp [hend, hst, hall])) ?_
    rw [ctx_close, State.ctx_modCtx_self]
  · exact if_neg (by simp [hall])
  · have hsame : ∀ i, exec i s = .next s → Gives i s (fun t =>
        (t.ctx c k).queue = (s.ctx c k).queue ∧ (t.ctx c k).fetchPos = (s.ctx c k).fetchPos) := fun i h => ⟨s, h, rfl, rfl⟩
    have hstay : fetchStep c k s = .next s := fetchStep_ended hend hroute
    have hif : ∀ code, (if s.nextFetch c k = some code then fetchStep c k s else stay s) = .next s := fun code => by
      rw [hstay]
      exact ite_self _
    simp only [List.forall_mem_cons]
    exact ⟨hsame _ hstay, hsame _ (hif 0x14), hsame _ (hif 0x15), hsame _ (hif 0x70), by simp⟩

section
variable (s : State)

/-- A vane after the update of one. -/
theorem vane_modVane (v w : VaneId) (f : Vane → Vane) : (s.modVane v f).vane w = if w = v then f (s.vane v) else s.vane w := by
  cases v with
  | core c i =>
    cases w with
    | core d j =>
      simp only [State.modVane, State.vane, State.core_modCore, VaneId.core.injEq]
      by_cases hd : d = c
      · subst hd
        simp [upd_get]
      · simp [hd]
    | chain j => simp [State.modVane, State.vane]
  | chain i =>
    cases w with
    | core d j => simp [State.modVane, State.vane]; rfl
    | chain j => simp [State.modVane, State.vane, upd_get]

@[simp] theorem vane_modVane_self (v : VaneId) (f : Vane → Vane) : (s.modVane v f).vane v = f (s.vane v) := by
  rw [vane_modVane, if_pos rfl]

/-- An update of a core that leaves its vanes leaves every vane. -/
theorem vane_modCore_of (c : Fin 4) (f : Core → Core) (h : (f (s.core c)).vanes = (s.core c).vanes) (v : VaneId) :
    (s.modCore c f).vane v = s.vane v := by
  cases v with
  | core d j =>
    simp only [State.vane, State.core_modCore]
    split
    · next hd => rw [hd, h]
    · rfl
  | chain j => rfl

@[simp] theorem vane_countVane (c : Fin 4) (i : Nat) (v : VaneId) : (s.countVane c i).vane v = s.vane v :=
  vane_modCore_of s c _ rfl v

@[simp] theorem vane_modCtx (c : Fin 4) (k : Fin 8) (f : Ctx → Ctx) (v : VaneId) : (s.modCtx c k f).vane v = s.vane v :=
  vane_modCore_of s c _ rfl v

@[simp] theorem vane_countChain (i : Nat) (v : VaneId) : (s.countChain i).vane v = s.vane v := by cases v <;> rfl

end

/-- Settles O19: a signal adds, overflows, or finds the vanes frozen. -/
theorem signalsAddToVanes : Obligations.SignalsAddToVanes := by
  unfold Obligations.SignalsAddToVanes
  intro s v n src far
  refine ⟨fun hf hn => ?_, fun hf hn => ?_, fun hf w => ?_, fun hf j hj => ?_⟩
  · have hfit : ¬0xFFFF < (s.vane v).count + n := by omega
    cases v with
    | core c i =>
      simp only [State.applySignal, hf, Bool.false_eq_true, if_false, if_neg hfit]
      exact ⟨by split <;> simp, trivial⟩
    | chain i =>
      simp only [State.applySignal, hf, Bool.false_eq_true, if_false, if_neg hfit]
      exact ⟨by split <;> simp, trivial⟩
  · cases v with
    | core c i =>
      simp only [State.applySignal, hf, Bool.false_eq_true, if_false, if_pos hn]
      exact ⟨fun w => by rw [vane_countVane, vane_modCore_of _ _ _ rfl], rfl⟩
    | chain i =>
      simp only [State.applySignal, hf, Bool.false_eq_true, if_false, if_pos hn]
      exact ⟨fun w => by rw [vane_countChain]; cases w <;> rfl, rfl⟩
  · cases v with
    | core c i => simp only [State.applySignal, hf, if_true]
    | chain i =>
      simp only [State.applySignal, hf, if_true, vane_countChain]
      cases w <;> rfl
  · subst hj
    simp only [State.applySignal, hf, if_true]
    exact ⟨rfl, rfl⟩

end Sys2Proof.Machine
end

section
/-! SUPPORT. Waits: a wait that must be served, one that is served at once, and one whose bound expires. -/

namespace Sys2Proof.Machine

section
variable {s : State} {c : Fin 4} {k : Fin 8}

/-- Where no group is due no Foehn unit starts one. -/
theorem startDue_of_none (h : ∀ n, (s.fhn n).due = []) : s.startDue = s := by
  have hunits : (allFin 12).foldl (fun s n => s.startUnit n (s.fhn n).due.length) s = s := by
    refine List.foldlRecOn (motive := fun v : State => v = s) _ _ rfl fun v hv n _ => ?_
    rw [hv, h n]
    rfl
  unfold State.startDue
  rw [hunits]
  simp [State.reportPoison]

theorem ctx_retire_st (x : Ctx) (next : Nat) : ((x.retire next).settle).st = x.st ∧ ((x.retire next).settle).wait = x.wait := by
  have hn : ∀ n (y : Ctx), (y.settleN n).st = y.st ∧ (y.settleN n).wait = y.wait := by
    intro n
    induction n with
    | zero => exact fun y => ⟨rfl, rfl⟩
    | succ n ih =>
      intro y
      unfold Ctx.settleN
      split
      · split
        · exact ih _
        · exact ⟨rfl, rfl⟩
      · exact ⟨rfl, rfl⟩
  exact hn _ _

/-- What is pending to recompute is a matter of the core's own list and its program (R225). -/
theorem recompute_congr {u : State} (idx : Nat) (hp : (u.core c).pendingRec = (s.core c).pendingRec) (hplan : u.prog c = s.prog c) :
    u.recompute c k idx = s.recompute c k idx := by
  unfold State.recompute
  rw [hp, hplan]

/-- A context that is served and has nothing to recompute is READY, waits no more, and retires its wait (R285, R295). -/
theorem waitDone_none (h : s.recompute c k (s.ctx c k).execPos = none) :
    (((s.waitDone c k).ctx c k).st = .ready ∧ ((s.waitDone c k).ctx c k).wait = none) ∧
      (∀ v, (s.waitDone c k).vane v = s.vane v) ∧ ∀ n, (s.waitDone c k).fhn n = s.fhn n := by
  unfold State.waitDone
  extract_lets x idx u
  have hrec : u.recompute c k idx = none := by
    have hpend : (u.core c).pendingRec = (s.core c).pendingRec := by
      show (((s.modCtx c k _).core c)).pendingRec = _
      rw [State.core_modCtx, if_pos rfl]
    rw [recompute_congr idx hpend rfl, h]
  rw [hrec]
  refine ⟨?_, fun v => ?_, fun n => rfl⟩
  · have hst : (u.ctx c k).st = .ready ∧ (u.ctx c k).wait = none := by
      show ((s.modCtx c k _).ctx c k).st = .ready ∧ ((s.modCtx c k _).ctx c k).wait = none
      rw [State.ctx_modCtx_self]
      dsimp only
      split <;> exact ⟨rfl, rfl⟩
    obtain ⟨h1, h2⟩ := ctx_retire_st (u.ctx c k) ((u.ctx c k).execPos + 1)
    show ((u.retireTo c k _).ctx c k).st = .ready ∧ ((u.retireTo c k _).ctx c k).wait = none
    rw [State.retireTo, State.ctx_modCtx_self, h1, h2]
    exact hst
  · show ((s.modCtx c k _).modCtx c k _).vane v = _
    rw [vane_modCtx, vane_modCtx]

@[simp] theorem ctx_modVane (v : VaneId) (f : Vane → Vane) (d : Fin 4) (j : Fin 8) : (s.modVane v f).ctx d j = s.ctx d j := by
  cases v with
  | core e i => exact State.ctx_modCore_of s e d j _ rfl
  | chain i => rfl

@[simp] theorem modVane_frozen (v : VaneId) (f : Vane → Vane) : (s.modVane v f).frozen = s.frozen := by cases v <;> rfl

/-! A wait enlists its context and the vane serves (R288). -/

/-- The state of VANE_WAIT once its context waits in the vane's line. -/
def State.waiting (s : State) (c : Fin 4) (k : Fin 8) (op : BitVec 128) : State :=
  ((s.modCore c (fun x => { x with lastIssued := k, bank := x.bank.add 0 1 })).modCtx c k (fun x =>
    { x with st := .waiting, wait := some ⟨bitAt op 12, field op 32 8, opCount op, s.waitBound c op, s.now⟩ })).enlist
      (opVane c op) (.ctx c k) (opCount op)

theorem execVaneWait_eq {op : BitVec 128} (h : s.mayIssue c k 0x61 = some op) : exec (.vaneWait c k) s =
    done (let t := ((s.waiting c k op).serve (opVane c op)).startDue
      if (t.ctx c k).st = .waiting then t.countVane c 3 else t) := by
  show execVaneWait c k s = _
  unfold execVaneWait
  rw [issue_eq h]
  rfl

section
variable {op : BitVec 128} (hf : s.frozen = false) (hw : (s.vane (opVane c op)).waiters = [])
include hf

theorem waiting_frozen : (s.waiting c k op).frozen = false := by
  unfold State.waiting State.enlist
  rw [if_neg (by simp [hf]), modVane_frozen]
  exact hf

theorem waiting_vane : (s.waiting c k op).vane (opVane c op) =
    { s.vane (opVane c op) with waiters := (s.vane (opVane c op)).waiters ++ [(.ctx c k, opCount op)] } := by
  unfold State.waiting State.enlist
  rw [if_neg (by simp [hf]), vane_modVane_self, vane_modCtx, vane_modCore_of _ _ _ rfl]

theorem waiting_ctx : (s.waiting c k op).ctx c k = { s.ctx c k with
    st := .waiting, wait := some ⟨bitAt op 12, field op 32 8, opCount op, s.waitBound c op, s.now⟩ } := by
  unfold State.waiting State.enlist
  rw [if_neg (by simp [hf]), ctx_modVane, State.ctx_modCtx_self, State.ctx_modCore_of _ _ _ _ _ rfl]

include hw

/-- A vane whose one waiter has not reached its count keeps it waiting. -/
theorem serve_waiting (hn : (s.vane (opVane c op)).count < opCount op) :
    (s.waiting c k op).serve (opVane c op) = s.waiting c k op := by
  unfold State.serve
  rw [if_neg (by simp [waiting_frozen hf]), waiting_vane hf, hw]
  simp only [List.nil_append, List.foldl_cons, List.foldl_nil, State.serveOne]
  exact if_neg (by rw [waiting_vane hf]; exact Nat.not_le.2 hn)

end

theorem waiting_frame (op : BitVec 128) : OnlyChanges [.ctxs, .cores, .chainVanes] s (s.waiting c k op) := by
  simp +decide [State.waiting]

theorem waiting_due {op : BitVec 128} (n : Fin 12) : (s.waiting c k op).fhn n = s.fhn n :=
  congrArg (Vector.get · n) (waiting_frame op .foehn (by decide))

/-- A wait whose count is not reached waits (R285, R288). -/
theorem vaneWait_waits {op : BitVec 128} (h : s.mayIssue c k 0x61 = some op) (hf : s.frozen = false)
    (hdue : ∀ n, (s.fhn n).due = []) (hw : (s.vane (opVane c op)).waiters = [])
    (hn : (s.vane (opVane c op)).count < opCount op) :
    exec (.vaneWait c k) s = done ((s.waiting c k op).countVane c 3) := by
  rw [execVaneWait_eq h, serve_waiting hf hw hn, startDue_of_none fun n => by rw [waiting_due, hdue n]]
  exact congrArg done (if_pos (by rw [waiting_ctx hf]))

/-- A vane whose first waiter takes its count, before that waiter is woken (R285, R288). -/
def State.consumed (s : State) (v : VaneId) (w : Waiter × Nat) : State :=
  let t := s.modVane v (fun x => { x with count := x.count - w.2, waiters := x.waiters.filter (· != w) })
  match v with
  | .core c _ => t.countVane c 2
  | .chain _ => t

theorem serveOne_reached {v : VaneId} {w : Waiter × Nat} (h : w.2 ≤ (s.vane v).count) :
    s.serveOne v w = (s.consumed v w).wake w.1 := by
  unfold State.serveOne State.consumed
  cases v <;> exact if_pos h

theorem consumed_frame (v : VaneId) (w : Waiter × Nat) : OnlyChanges [.ctxs, .cores, .chainVanes] s (s.consumed v w) := by
  unfold State.consumed
  cases v <;> simp +decide

theorem consumed_vane (v : VaneId) (w : Waiter × Nat) : (s.consumed v w).vane v =
    { s.vane v with count := (s.vane v).count - w.2, waiters := (s.vane v).waiters.filter (· != w) } := by
  unfold State.consumed
  cases v with
  | core d i =>
    dsimp only
    rw [vane_countVane, vane_modVane_self]
  | chain i =>
    dsimp only
    rw [vane_modVane_self]

theorem consumed_ctx (v : VaneId) (w : Waiter × Nat) (d : Fin 4) (j : Fin 8) : (s.consumed v w).ctx d j = s.ctx d j := by
  unfold State.consumed
  cases v with
  | core e i =>
    dsimp only
    rw [State.countVane, State.ctx_modCore_of _ _ _ _ _ rfl, ctx_modVane]
  | chain i =>
    dsimp only
    rw [ctx_modVane]

theorem consumed_pendingRec (v : VaneId) (w : Waiter × Nat) (d : Fin 4) :
    ((s.consumed v w).core d).pendingRec = (s.core d).pendingRec := by
  unfold State.consumed
  cases v with
  | core e i =>
    simp only [State.countVane, State.modVane, State.core_modCore]
    split <;> simp_all
  | chain i => rfl

theorem waiting_pendingRec (op : BitVec 128) (d : Fin 4) : ((s.waiting c k op).core d).pendingRec = (s.core d).pendingRec := by
  unfold State.waiting State.enlist
  split
  · simp only [State.core_modCtx, State.core_modCore]
    split <;> simp_all
  · cases opVane c op with
    | core e i =>
      simp only [State.modVane, State.core_modCtx, State.core_modCore]
      repeat' split
      all_goals simp_all
    | chain i =>
      show (((s.modCore c _).modCtx c k _).core d).pendingRec = _
      simp only [State.core_modCtx, State.core_modCore]
      split <;> simp_all

/-- A wait whose count is reached has consumed it when its handshake ends (R285). -/
theorem vaneWait_consumes {op : BitVec 128} (h : s.mayIssue c k 0x61 = some op) (hf : s.frozen = false)
    (hdue : ∀ n, (s.fhn n).due = []) (hw : (s.vane (opVane c op)).waiters = [])
    (hn : opCount op ≤ (s.vane (opVane c op)).count) (hrec : s.recompute c k (s.ctx c k).execPos = none) :
    Gives (.vaneWait c k) s (fun t => (t.ctx c k).st = .ready ∧ (t.ctx c k).wait = none ∧ (t.vane (opVane c op)).waiters = [] ∧
      (t.vane (opVane c op)).count = (s.vane (opVane c op)).count - opCount op) := by
  let w : Waiter × Nat := (.ctx c k, opCount op)
  let u := (s.waiting c k op).consumed (opVane c op) w
  have hline : (s.waiting c k op).vane (opVane c op) = { s.vane (opVane c op) with waiters := [w] } := by
    rw [waiting_vane hf, hw]
    rfl
  have hserve : (s.waiting c k op).serve (opVane c op) = u.waitDone c k := by
    unfold State.serve
    rw [if_neg (by simp [waiting_frozen hf]), hline]
    simp only [List.foldl_cons, List.foldl_nil]
    exact serveOne_reached (by rw [hline]; exact hn)
  have huctx : u.ctx c k = (s.waiting c k op).ctx c k := consumed_ctx _ _ _ _
  have hframe : OnlyChanges [.ctxs, .cores, .chainVanes] s u := (waiting_frame op).trans (consumed_frame _ _)
  have hplan : u.prog c = s.prog c := congrArg (fun p : Plan => p.cores.get c) (hframe .plan (by decide))
  have hurec : u.recompute c k (u.ctx c k).execPos = none := by
    rw [recompute_congr (s := s) _ ((consumed_pendingRec _ _ _).trans (waiting_pendingRec _ _)) hplan, huctx, waiting_ctx hf, hrec]
  obtain ⟨⟨hst, hwait⟩, hvane, hfhn⟩ := waitDone_none hurec
  have hstart : (u.waitDone c k).startDue = u.waitDone c k := startDue_of_none fun n => by
    rw [hfhn n]
    have hfoehn : u.foehn = s.foehn := hframe .foehn (by decide)
    show (u.foehn.get n).due = []
    rw [hfoehn]
    exact hdue n
  refine gives_done (x := u.waitDone c k) ?_ ?_
  · rw [execVaneWait_eq h, hserve, hstart]
    exact congrArg done (if_neg (by rw [hst]; decide))
  · rw [ctx_close, vane_close, hvane, consumed_vane, hline]
    exact ⟨hst, hwait, by simp, rfl⟩

/-! A device that halts stops every context that had not stopped (R342). -/

theorem fatalStop_ctx (cause : Nat) : (s.fatalStop cause).ctx c k = (s.ctx c k).halt 2 := by
  have hframe : OnlyChanges [] ({ s with cores := s.cores.map (·.halt 2), frozen := true } : State) (s.fatalStop cause) := by
    unfold State.fatalStop
    dsimp only
    simp [State.askBare]
  have h := hframe .ctxs (by simp) c k
  rw [h]
  simp [State.ctx, Core.halt, Vector.get_eq_getElem]

theorem haltLost_ctx {cause : Nat} (h : s.running = true) : (s.haltLost cause).ctx c k = (s.ctx c k).halt 2 := by
  unfold State.haltLost State.haltSteps
  rw [if_pos h, if_pos h]
  extract_lets v w
  have hv : OnlyChanges (partsSend ++ [.slip]) s v := by simp +decide [v]
  have hw : OnlyChanges (partsSend ++ [.dev]) w
      ((w.stopLinks (w.chain.twin == .paired)).modDev (fun d => { d with st := .halted })).escalate := by simp +decide
  rw [hw .ctxs (by decide) c k]
  show ((v.recoveryRecord 0 cause _ _).fatalStop cause).ctx c k = _
  rw [fatalStop_ctx]
  exact congrArg (Ctx.halt · 2) (hv .ctxs (by decide) c k)

end

/-- A context whose wait bound has expired, before its device halts (R299). -/
def State.expired (s : State) (c : Fin 4) (k : Fin 8) (w : Wait) : State :=
  let s := s.modVane (waitVane c w) (·.leave (.ctx c k))
  let s := s.modCtx c k (fun x => { x with st := .stopped, stopCause := 1, wait := none })
  let s := (s.modCore c (fun x => { x with boundExpiredSeen := true })).countVane c 5
  s.ask 0x35 (s.unit 0 c k) (leBytes 1 c ++ leBytes 1 k ++ leBytes 1 w.vane ++ leBytes 1 (b2n w.chain) ++
    leBytes 2 (s.vane (waitVane c w)).count)

section
variable {s : State} {c : Fin 4} {k : Fin 8} {w : Wait}

theorem expired_running : (s.expired c k w).running = s.running := by
  have h : OnlyChanges [.ctxs, .cores, .chainVanes] s (s.expired c k w) := by simp +decide [State.expired]
  unfold State.running
  rw [show (s.expired c k w).dev = s.dev from h .dev (by decide)]

theorem expired_ctx : (s.expired c k w).ctx c k = { s.ctx c k with st := .stopped, stopCause := 1, wait := none } := by
  simp only [State.expired, State.ctx_ask, State.countVane]
  rw [State.ctx_modCore_of _ _ _ _ _ rfl, State.ctx_modCore_of _ _ _ _ _ rfl, State.ctx_modCtx_self, ctx_modVane]

theorem expired_seen : ((s.expired c k w).core c).boundExpiredSeen = true := by
  simp [State.expired, State.countVane]

theorem expired_vane : (s.expired c k w).vane (waitVane c w) = (s.vane (waitVane c w)).leave (.ctx c k) := by
  simp only [State.expired]
  show (((((s.modVane _ _).modCtx c k _).modCore c _).countVane c 5).vane (waitVane c w)) = _
  rw [vane_countVane, vane_modCore_of _ _ _ rfl, vane_modCtx, vane_modVane_self]

/-- What leaves the cores and the chain vanes leaves every vane. -/
theorem vane_of_frame {A : List Part} {t : State} (h : OnlyChanges A s t) (hc : Part.cores ∉ A) (hv : Part.chainVanes ∉ A)
    (v : VaneId) : t.vane v = s.vane v := by
  cases v with
  | core d i =>
    have hrest : (t.core d).rest = (s.core d).rest := h .cores hc d
    have hvanes := congrArg (fun x : Core => x.vanes.get i) hrest
    exact hvanes
  | chain i =>
    have h' : t.chainVanes = s.chainVanes := h .chainVanes hv
    simp only [State.vane, h']

end

/-- Settles O18: signals late and at once, waits that wait, are served and expire. -/
theorem vanesRun : Obligations.VanesRun := by
  unfold Obligations.VanesRun
  intro s c k op
  dsimp only
  refine ⟨?later, ?atOnce, ?due, ?waits, ?consumes, ?expires⟩
  case later =>
    intro h ho
    refine gives_issue h (show execVaneSignal c k s = _ from rfl) ?_
    dsimp only
    rw [if_neg (by simp [ho])]
    exact ⟨by simp [State.signalLater, State.issued, State.retire, State.retireTo, State.modCtx],
      (show Issued c k s ((s.issued c k).signalLater _) from issued_issued s c k).close⟩
  case atOnce =>
    intro h ho
    refine gives_issue h (show execVaneSignal c k s = _ from rfl) ?_
    dsimp only
    rw [if_pos ho]
  case due =>
    intro v hv
    refine ⟨_, ?_, rfl⟩
    show execVaneSignalTakesEffect v s = _
    unfold execVaneSignalTakesEffect
    dsimp only
    split
    · contradiction
    · rfl
  case waits =>
    intro h hf hdue hw hn
    refine gives_done (vaneWait_waits h hf hdue hw hn) ⟨?_, ?_, ?_, ?_⟩
    · rw [ctx_close, State.countVane, State.ctx_modCore_of _ _ _ _ _ rfl, waiting_ctx hf]
    · rw [vane_close, vane_countVane, waiting_vane hf, hw]
      rfl
    · rw [vane_close, vane_countVane, waiting_vane hf]
    · rw [ctx_close, State.countVane, State.ctx_modCore_of _ _ _ _ _ rfl, waiting_ctx hf]
  case consumes => exact fun h hf hdue hw hn hrec => vaneWait_consumes h hf hdue hw hn hrec
  case expires =>
    intro w hrun hst hwait hb hnow
    have hexp : (s.expired c k w).running = true := expired_running.trans hrun
    have hframe : OnlyChanges (partsSend ++ [.dev, .ctxs, .frozen, .slip]) (s.expired c k w) ((s.expired c k w).haltLost 6) :=
      (onlyChanges_haltLost (List.Subset.refl _)).2 (onlyChanges_refl _ _)
    refine gives_done (x := (s.expired c k w).haltLost 6) ?_ ⟨?_, ?_, ?_, ?_, ?_⟩
    · show execWaitBoundExpiry c k s = _
      unfold execWaitBoundExpiry
      rw [hwait]
      exact if_pos (by simp [hrun, hst, hb, hnow])
    · rw [ctx_close, haltLost_ctx hexp, expired_ctx]
      rfl
    · rw [ctx_close, haltLost_ctx hexp, expired_ctx]
      rfl
    · rw [core_close]
      exact (congrArg Core.boundExpiredSeen (hframe .cores (by decide) c)).trans expired_seen
    · rw [vane_close, vane_of_frame hframe (by decide) (by decide), expired_vane]
      rfl
    · exact ⟨by rw [close_dev]; exact (haltLost_of_running hexp).1, (haltLost_of_running hexp).2.close⟩

end Sys2Proof.Machine
end

section
/-! SUPPORT. The fetch engine: what taking up an operation, a fill or a descriptor leaves. -/

namespace Sys2Proof.Machine

/-- Every context but one is as it was. -/
def OthersKept (c : Fin 4) (k : Fin 8) (s t : State) : Prop := ∀ d j, (d, j) ≠ (c, k) → t.ctx d j = s.ctx d j

section
variable {s t u : State} {c : Fin 4} {k : Fin 8} {op : BitVec 128}

theorem OthersKept.refl (c : Fin 4) (k : Fin 8) (s : State) : OthersKept c k s s := fun _ _ _ => rfl

theorem OthersKept.modCtx (h : OthersKept c k s t) (f : Ctx → Ctx) : OthersKept c k s (t.modCtx c k f) := fun d j hd => by
  rw [State.ctx_modCtx, if_neg (by simpa using hd), h d j hd]

theorem OthersKept.trans (h : OthersKept c k s t) (h' : OthersKept c k t u) : OthersKept c k s u :=
  fun d j hd => (h' d j hd).trans (h d j hd)

theorem OthersKept.frame {A : List Part} (h : OthersKept c k s t) (hw : OnlyChanges A t u) (hA : Part.ctxs ∉ A) :
    OthersKept c k s u := fun d j hd => (hw .ctxs hA d j).trans (h d j hd)

/-! Serial numbers of operations (R102). -/

theorem settle_serial (x : Ctx) : x.settle.serial = x.serial := by
  have hn : ∀ n (y : Ctx), (y.settleN n).serial = y.serial := by
    intro n
    induction n with
    | zero => exact fun y => rfl
    | succ n ih =>
      intro y
      unfold Ctx.settleN
      split
      · split
        · exact ih _
        · rfl
      · rfl
  exact hn _ _

theorem addItem_serial (x : Ctx) (i : SpecItem) : (x.addItem i).serial = x.serial := by
  unfold Ctx.addItem
  split <;> rfl

/-! A fill. -/

theorem feeder_modFeeder (y : Gale) (col : Bool) (f : Feeder → Feeder) : (y.modFeeder col f).feeder col = f (y.feeder col) := by
  cases col <;> rfl

theorem feeder_ownFill (y : Gale) (k : Fin 8) (op : BitVec 128) (spec : Bool) (packed : Option (Nat × Nat)) (col : Bool) :
    (y.ownFill k op spec packed).feeder col = y.feeder col := by
  unfold Gale.ownFill
  split <;> rfl

/-- The parts that a fill changes before its context moves on. -/
def partsFill : List Part := [.vio, .cores, .gales, .stacks, .stashes, .stashBytes, .fresh]

/-- A fill claims the next bay of its feeder for its operation, and its context goes on with the next operation (R107). -/
theorem claimFill_claims (s : State) (c : Fin 4) (k : Fin 8) (op : BitVec 128) (o : Opd) (sc : Option Opd) (packed : Option Nat) :
    ∃ (u : State) (f : Ctx → Ctx) (b : Bay), s.claimFill c k op o sc packed = u.modCtx c k f ∧ OnlyChanges partsFill s u ∧
      (∀ x : Ctx, (f x).serial = x.serial + 1) ∧
      (u.gale (arrayOf c (fillSide op))).feeder (opcode op == 0x15) =
        ((s.gale (arrayOf c (fillSide op))).feeder (opcode op == 0x15)).claim b ∧
      b.st = .filling ∧ b.fmt = fillFmt op ∧ b.ctx = k ∧ b.serial = (s.ctx c k).serial := by
  unfold State.claimFill
  extract_lets g col x spec d poison tile bay moves before s1 s2 s3 s4 s5
  have h1 : OnlyChanges [.stacks, .stashes, .stashBytes, .fresh] s s1 := by
    simp +decide [s1]
  have h3 : OnlyChanges [.cores] s2 s3 := by
    simp only [s3]
    clear_value s2 tile
    split
    · split <;> simp
    · simp
  have h4 : OnlyChanges [.cores] s3 s4 := by
    refine (onlyChanges_fly (by simp)).2 (OnlyChanges.trans ?_ (onlyChanges_foldl (fun u o => ?_) _ _))
    all_goals simp
  have h5 : OnlyChanges [.vio] s4 s5 := by
    simp only [s5]
    clear_value s4 d
    split
    · split <;> simp
    · simp
  have h2 : OnlyChanges [.gales] s1 s2 := by simp [s2]
  have hgale : s5.gale g = s2.gale g := by
    have h25 : OnlyChanges [.vio, .cores] s2 s5 := (h3.mono (by simp)).trans ((h4.mono (by simp)).trans (h5.mono (by simp)))
    exact congrArg (Vector.get · g) (h25 .gales (by decide))
  have hgale1 : s1.gale g = s.gale g := congrArg (Vector.get · g) (h1 .gales (by decide))
  refine ⟨s5, _, bay, rfl, ?_, fun y => ?_, ?_, rfl, rfl, rfl, rfl⟩
  · exact (h1.mono (by decide)).trans ((h2.mono (by decide)).trans ((h3.mono (by decide)).trans ((h4.mono (by decide)).trans
      (h5.mono (by decide)))))
  · dsimp only
    rw [settle_serial, addItem_serial]
    rfl
  · rw [hgale]
    show ((s1.modGale g _).gale g).feeder col = _
    rw [State.gale_modGale_self, feeder_ownFill, feeder_modFeeder, hgale1]

/-- The state in which a fill finds its context: as it stood, or with the predication's speculation opened (R123). -/
def Opened (c : Fin 4) (k : Fin 8) (s t : State) : Prop :=
  t = s ∨ ∃ f : Ctx → Ctx, t = s.modCtx c k f ∧ ∀ x, (f x).serial = x.serial ∧ (f x).queue = x.queue ∧ (f x).fetchPos = x.fetchPos

theorem Opened.onlyChanges (h : Opened c k s t) : OnlyChanges [.ctxs] s t := by
  rcases h with rfl | ⟨f, rfl, -⟩
  · exact onlyChanges_refl _ _
  · simp

theorem Opened.others (h : Opened c k s t) : OthersKept c k s t := by
  rcases h with rfl | ⟨f, rfl, -⟩
  · exact .refl _ _ _
  · exact (OthersKept.refl c k s).modCtx f

theorem Opened.same (h : Opened c k s t) : (t.ctx c k).serial = (s.ctx c k).serial ∧ (t.ctx c k).queue = (s.ctx c k).queue ∧
    (t.ctx c k).fetchPos = (s.ctx c k).fetchPos := by
  rcases h with rfl | ⟨f, rfl, hf⟩
  · exact ⟨rfl, rfl, rfl⟩
  · rw [State.ctx_modCtx_self]
    exact hf _

/-- A fill that is taken up. -/
theorem tryFill_ok (h : s.tryFill c k op = .ok u) :
    ∃ s0 o sc packed, s0.claimFill c k op o sc packed = u ∧ Opened c k s s0 := by
  unfold State.tryFill at h
  dsimp only at h
  split at h
  · cases h
  · refine ⟨_, _, _, _, Except.ok.inj (ok_of_ite (ok_of_ite (ok_of_ite h))), ?_⟩
    generalize (if opPred op then s.predGate c k else PredGate.pass) = gate
    cases gate
    case opens groups => exact .inr ⟨_, rfl, fun x => ⟨rfl, rfl, rfl⟩⟩
    all_goals exact .inl rfl

/-! A descriptor. -/

theorem drt_queue_append {v : State} {e : Fin 8} (hv : v.draughts = s.draughts) (y : DrtItem) (f : Flight) :
    (((v.modDrt e (fun x => { x with queue := x.queue ++ [y] })).fly c f).drt e).queue = (s.drt e).queue ++ [y] := by
  show (((v.modDrt e _).drt e)).queue = _
  rw [State.drt_modDrt_self]
  show (v.draughts.get e).queue ++ [y] = _
  rw [hv]
  rfl

/-- A descriptor that is taken up stands last in the queue of its engine (R155). -/
theorem tryDesc_ok {e : Fin 8} {desc : Nat} {ahead : Bool} (h : s.tryDesc c k e desc ahead = .ok u) :
    ∃ y : DrtItem, (u.drt e).queue = (s.drt e).queue ++ [y] ∧ y.desc = desc ∧ y.core = c ∧ y.ctx = k ∧
      y.serial = (s.ctx c k).serial ∧ y.started = false ∧ y.moved = false := by
  unfold State.tryDesc at h
  dsimp only at h
  split at h
  · cases h
  · next d hd =>
    rw [← Except.ok.inj (ok_of_ite (ok_of_ite h))]
    have hrings : OnlyChanges [.cores] s ((s.dscClaims c d).foldl
        (fun t q => t.modRing q.1 q.2.1 (·.claim (s.ctx c k).spec.isSome)) s) := onlyChanges_foldl (fun v q => by simp) _ _
    exact ⟨_, drt_queue_append (hrings .draughts (by decide)) _ _, rfl, rfl, rfl, rfl, rfl, rfl⟩

/-! An operation for the queue. -/

/-- An operation has entered the queue of its context, last (R111). -/
def Queued (c : Fin 4) (k : Fin 8) (s t : State) : Prop :=
  OthersKept c k s t ∧ (t.ctx c k).serial = (s.ctx c k).serial + 1 ∧
    ∃ e : QEntry, (t.ctx c k).queue = (s.ctx c k).queue ++ [e] ∧ e.idx = (s.ctx c k).fetchPos ∧
      e.serial = (s.ctx c k).serial ∧ e.performed = false

theorem Queued.modCtx (h : Queued c k s t) {f : Ctx → Ctx} (hf : ∀ x, (f x).serial = x.serial ∧ (f x).queue = x.queue) :
    Queued c k s (t.modCtx c k f) := by
  obtain ⟨ho, hs, he⟩ := h
  refine ⟨ho.modCtx f, ?_, ?_⟩
  · rw [State.ctx_modCtx_self, (hf _).1, hs]
  · rw [State.ctx_modCtx_self, (hf _).2]
    exact he

theorem Queued.modEddy (h : Queued c k s t) (f : Eddy → Eddy) : Queued c k s (t.modEddy c f) := by
  have hw : OnlyChanges [.cores] t (t.modEddy c f) := by simp
  have hctx := hw .ctxs (by decide) c k
  obtain ⟨ho, hs, he⟩ := h
  exact ⟨ho.frame hw (by decide), by rw [hctx, hs], by rw [hctx]; exact he⟩

theorem queueOp_queued : Queued c k s (s.queueOp c k op) := by
  unfold State.queueOp
  extract_lets x idx lc r dsts reads wild serial s1 base
  have h1 : Queued c k s s1 := by
    refine ⟨(OthersKept.refl c k s).modCtx _, ?_, ?_⟩
    · show ((s.modCtx c k _).ctx c k).serial = _
      rw [State.ctx_modCtx_self]
      rfl
    · show ∃ e, ((s.modCtx c k _).ctx c k).queue = _ ∧ _
      rw [State.ctx_modCtx_self]
      exact ⟨_, rfl, rfl, rfl, rfl⟩
  clear_value s1
  split
  case h_3 =>
    split
    · exact h1.modCtx fun _ => ⟨rfl, rfl⟩
    · exact h1.modCtx fun _ => ⟨rfl, rfl⟩
  case h_6 =>
    refine Queued.modEddy ?_ _
    exact h1.modCtx fun _ => ⟨rfl, rfl⟩
  case h_7 =>
    split
    · exact h1
    · split
      · exact h1
      · split
        · exact h1.modCtx fun _ => ⟨rfl, rfl⟩
        · exact h1.modCtx fun _ => ⟨rfl, rfl⟩
  case h_8 => exact h1
  all_goals exact h1.modCtx fun _ => ⟨rfl, rfl⟩

theorem Opened.queued {s0 : State} (h0 : Opened c k s s0) (h : Queued c k s0 t) : Queued c k s t := by
  obtain ⟨hserial, hqueue, hpos⟩ := h0.same
  obtain ⟨ho, hs, e, he, hidx, hser, hperf⟩ := h
  exact ⟨h0.others.trans ho, by rw [hs, hserial], e, by rw [he, hqueue], by rw [hidx, hpos], by rw [hser, hserial], hperf⟩

/-! The attempt as a whole. -/

/-- A descriptor that is taken up: its engine's queue has it, and its context goes on. -/
def TakesDesc (c : Fin 4) (k : Fin 8) (e : Fin 8) (desc : Nat) (s u : State) : Prop :=
  ∃ ahead v f, s.tryDesc c k e desc ahead = .ok v ∧ v.modCtx c k f = u ∧ ∀ x : Ctx, (f x).serial = x.serial + 1

theorem tryTodo_ok {d : Nat} {rest : List Nat} (h : s.tryTodo c k d rest = .ok u) : TakesDesc c k (engineOf c 0) d s u := by
  unfold State.tryTodo at h
  dsimp only at h
  split at h
  · cases h
  · next v hv =>
    refine ⟨_, v, _, hv, Except.ok.inj h, fun x => ?_⟩
    rw [addItem_serial]

/-- What is taken up by an attempt that succeeds: the next descriptor of a route, a fill, a descriptor of the program, or an
operation for the queue (R107, R111, R118). -/
theorem tryFetch_cases (h : s.tryFetch c k = .ok u) :
    (∃ d rest, (s.ctx c k).routeTodo = d :: rest ∧ TakesDesc c k (engineOf c 0) d s u) ∨
    ((s.ctx c k).routeTodo = [] ∧ ∃ op, s.opAt c (s.ctx c k).fetchPos = some op ∧
      (((opcode op = 0x14 ∨ opcode op = 0x15) ∧ s.tryFill c k op = .ok u) ∨
        (opcode op = 0x70 ∧ TakesDesc c k (engineOf c (field op 12 1)) (field op 16 16) s u) ∨
        (fetchSide (opcode op) = false ∧ ∃ s0, Opened c k s s0 ∧ s0.queueOp c k op = u))) := by
  unfold State.tryFetch at h
  dsimp only at h
  split at h
  · cases h
  · split at h
    · next d rest hr => exact .inl ⟨d, rest, hr, tryTodo_ok h⟩
    · next hr =>
      replace h := ok_of_ite (ok_of_ite (ok_of_ite h))
      split at h
      · cases h
      · next op hop =>
        refine .inr ⟨hr, op, hop, ?_⟩
        split at h
        · next hc => exact .inl ⟨by simpa using hc, h⟩
        · next hfill =>
          split at h
          · next hc =>
            refine .inr (.inl ⟨hc, ?_⟩)
            split at h
            · cases h
            · next v hv =>
              refine ⟨_, v, _, hv, Except.ok.inj h, fun x => ?_⟩
              rw [settle_serial, addItem_serial]
              rfl
          · next hdesc =>
            have hside : fetchSide (opcode op) = false := by
              simp only [Bool.or_eq_true, decide_eq_true_eq, not_or] at hfill
              simp [fetchSide, hfill, hdesc]
            refine .inr (.inr ⟨hside, ?_⟩)
            replace h := ok_of_ite h
            split at h
            · split at h
              · refine ⟨_, ?_, Except.ok.inj h⟩
                exact .inr ⟨_, rfl, fun x => ⟨rfl, rfl, rfl⟩⟩
              · cases h
              · exact ⟨s, .inl rfl, Except.ok.inj h⟩
            · exact ⟨s, .inl rfl, Except.ok.inj h⟩

theorem TakesDesc.onlyContext {e : Fin 8} {d : Nat} (h : TakesDesc c k e d s u) :
    OthersKept c k s u ∧ (u.ctx c k).serial = (s.ctx c k).serial + 1 := by
  obtain ⟨ahead, v, f, hv, rfl, hf⟩ := h
  have hw := tryDesc_onlyChanges hv
  exact ⟨((OthersKept.refl c k s).frame hw (by decide)).modCtx f, by
    rw [State.ctx_modCtx_self, hf, hw .ctxs (by decide) c k]⟩

/-- What a taken-up operation leaves of the contexts: its own has one more serial number behind it, and no other moves. -/
theorem tryFetch_contexts (h : s.tryFetch c k = .ok u) :
    OthersKept c k s u ∧ (u.ctx c k).serial = (s.ctx c k).serial + 1 := by
  rcases tryFetch_cases h with ⟨d, rest, -, hd⟩ | ⟨-, op, -, ⟨-, hf⟩ | ⟨-, hd⟩ | ⟨-, s0, h0, rfl⟩⟩
  · exact hd.onlyContext
  · obtain ⟨s0, o, sc, packed, rfl, h0⟩ := tryFill_ok hf
    obtain ⟨v, f, b, hv, hw, hserial, -⟩ := claimFill_claims s0 c k op o sc packed
    rw [hv]
    refine ⟨(h0.others.frame hw (by decide)).modCtx f, ?_⟩
    rw [State.ctx_modCtx_self, hserial, hw .ctxs (by decide) c k, h0.same.1]
  · exact hd.onlyContext
  · obtain ⟨ho, hs, -⟩ := h0.queued (queueOp_queued (op := op))
    exact ⟨ho, hs⟩

/-- An operation of the execute side that is taken up enters the queue. -/
theorem tryFetch_queued (h : s.tryFetch c k = .ok u) (hroute : (s.ctx c k).routeTodo = [])
    (hop : s.opAt c (s.ctx c k).fetchPos = some op) (hside : fetchSide (opcode op) = false) : Queued c k s u := by
  rcases tryFetch_cases h with ⟨d, rest, hr, -⟩ | ⟨-, op', hop', hcase⟩
  · rw [hroute] at hr
    cases hr
  · obtain rfl : op = op' := Option.some.inj (hop.symm.trans hop')
    rcases hcase with ⟨hc, -⟩ | ⟨hc, -⟩ | ⟨-, s0, h0, rfl⟩
    · rcases hc with hc | hc <;> simp [fetchSide, hc] at hside
    · simp [fetchSide, hc] at hside
    · exact h0.queued queueOp_queued

/-- A fill that is taken up claims its bay. -/
theorem tryFetch_fill (h : s.tryFetch c k = .ok u) (hroute : (s.ctx c k).routeTodo = [])
    (hop : s.opAt c (s.ctx c k).fetchPos = some op) (hcode : opcode op = 0x14 ∨ opcode op = 0x15) :
    ∃ b : Bay, (u.gale (arrayOf c (fillSide op))).feeder (opcode op == 0x15) =
        ((s.gale (arrayOf c (fillSide op))).feeder (opcode op == 0x15)).claim b ∧
      b.st = .filling ∧ b.fmt = fillFmt op ∧ b.ctx = k ∧ b.serial = (s.ctx c k).serial := by
  rcases tryFetch_cases h with ⟨d, rest, hr, -⟩ | ⟨-, op', hop', hcase⟩
  · rw [hroute] at hr
    cases hr
  · obtain rfl : op = op' := Option.some.inj (hop.symm.trans hop')
    rcases hcase with ⟨-, hf⟩ | ⟨hc, -⟩ | ⟨hside, -⟩
    · obtain ⟨s0, o, sc, packed, rfl, h0⟩ := tryFill_ok hf
      obtain ⟨v, f, b, hv, -, -, hfeed, hst, hfmt, hctx, hserial⟩ := claimFill_claims s0 c k op o sc packed
      have hg : s0.gales = s.gales := h0.onlyChanges .gales (by decide)
      refine ⟨b, ?_, hst, hfmt, hctx, hserial.trans h0.same.1⟩
      rw [hv]
      refine hfeed.trans ?_
      simp only [State.gale, hg]
    · rcases hcode with h' | h' <;> simp [hc] at h'
    · rcases hcode with h' | h' <;> simp [fetchSide, h'] at hside

/-- A descriptor that is taken up stands last in its engine's queue. -/
theorem tryFetch_desc {e : Fin 8} {d : Nat} (h : s.tryFetch c k = .ok u) (hd : s.nextDesc c k = some (e, d)) :
    ∃ y : DrtItem, (u.drt e).queue = (s.drt e).queue ++ [y] ∧ y.desc = d ∧ y.core = c ∧ y.ctx = k ∧
      y.serial = (s.ctx c k).serial ∧ y.started = false ∧ y.moved = false := by
  have hplaces : TakesDesc c k e d s u := by
    unfold State.nextDesc at hd
    dsimp only at hd
    rcases tryFetch_cases h with ⟨d', rest, hr, hd'⟩ | ⟨hr, op, hop, hcase⟩
    · rw [hr] at hd
      cases hd
      exact hd'
    · rw [hr] at hd
      simp only [hop] at hd
      rcases hcase with ⟨hc, -⟩ | ⟨hc, hd'⟩ | ⟨hside, -⟩
      · rcases hc with hc | hc <;> simp [hc] at hd
      · rw [if_pos hc] at hd
        cases hd
        exact hd'
      · rw [if_neg (by rintro hc; simp [fetchSide, hc] at hside)] at hd
        cases hd
  obtain ⟨ahead, v, f, hv, rfl, -⟩ := hplaces
  exact tryDesc_ok (u := v) hv

end

section
variable {s u : State} {c : Fin 4} {k : Fin 8}

/-- The step of a fetch engine that takes an operation up (R118). -/
theorem fetchStep_ok (hrun : s.running = true) (h : s.tryFetch c k = .ok u) (hf : s.fetches c k = true) :
    fetchStep c k s = done (u.modCore c (fun x => { x with lastFetched := k })) := by
  unfold fetchStep
  rw [if_neg (by simp [hrun]), h]
  exact if_pos hf

/-- A step of a fetch engine that something holds counts under its cause (R118). -/
theorem fetchStep_held {n : Nat} {own : Bool} (hrun : s.running = true) (h : s.tryFetch c k = .error (n + 1, own)) :
    ∃ v, fetchStep c k s = done v ∧ v.ctx c k =
      { s.ctx c k with bank := (s.ctx c k).bank.add (n + 1) 1, ownStalled := (s.ctx c k).ownStalled || own } := by
  unfold fetchStep
  rw [if_neg (by simp [hrun]), h]
  refine ⟨_, rfl, ?_⟩
  have hcount : ∀ (v : State) (f : Ctx → Ctx) (b : Bool), v.ctx c k = s.ctx c k →
      (if b then (v.modCtx c k f).modCore c (fun x => { x with bank := x.bank.add 2 1 }) else v.modCtx c k f).ctx c k =
        f (s.ctx c k) := by
    intro v f b hv
    split
    · rw [State.ctx_modCore_of _ _ _ _ _ rfl, State.ctx_modCtx_self, hv]
    · rw [State.ctx_modCtx_self, hv]
  have hfull : ∀ (b : Bool) (e : Fin 8) (f : Draught → Draught), (if b then s.modDrt e f else s).ctx c k = s.ctx c k := by
    intro b e f
    split <;> rfl
  exact hcount _ _ _ (hfull _ _ _)

/-- The bay that a fill of either feeder claims. -/
theorem fetched_fills {code : Nat} (h : s.tryFetch c k = .ok u) (hn : s.nextFetch c k = some code)
    (hcode : code = 0x14 ∨ code = 0x15) (op : BitVec 128) (hop : s.opAt c (s.ctx c k).fetchPos = some op) :
    ∃ b : Bay, ((close (u.modCore c (fun x => { x with lastFetched := k }))).gale (arrayOf c (fillSide op))).feeder (code == 0x15) =
        ((s.gale (arrayOf c (fillSide op))).feeder (code == 0x15)).claim b ∧
      b.st = .filling ∧ b.fmt = fillFmt op ∧ b.ctx = k ∧ b.serial = (s.ctx c k).serial := by
  unfold State.nextFetch at hn
  dsimp only at hn
  split at hn
  · cases hn
    rcases hcode with hc | hc <;> cases hc
  · next hr =>
    rw [hop] at hn
    have hop' : opcode op = code := Option.some.inj hn
    have hroute : (s.ctx c k).routeTodo = [] := by simpa using hr
    rw [gale_close, ← hop']
    exact tryFetch_fill (u := u) h hroute hop (by rw [hop']; exact hcode)

/-- What the statement says of every operation that is taken up. -/
def Fetched (c : Fin 4) (k : Fin 8) (s u t : State) : Prop :=
  (t.core c).lastFetched = k ∧ t.ctx c k = u.ctx c k ∧ (t.ctx c k).serial = (s.ctx c k).serial + 1 ∧ t.gales = u.gales ∧
    t.draughts = u.draughts ∧ ∀ d j, (d, j) ≠ (c, k) → t.ctx d j = s.ctx d j

theorem fetched_close (h : s.tryFetch c k = .ok u) :
    Fetched c k s u (close (u.modCore c (fun x => { x with lastFetched := k }))) := by
  obtain ⟨ho, hs⟩ := tryFetch_contexts h
  have hctx : ∀ d j, (u.modCore c (fun x => { x with lastFetched := k })).ctx d j = u.ctx d j :=
    fun d j => State.ctx_modCore_of _ _ _ _ _ rfl
  refine ⟨by simp, ?_, ?_, by simp, by simp, fun d j hd => ?_⟩
  · rw [ctx_close, hctx]
  · rw [ctx_close, hctx, hs]
  · rw [ctx_close, hctx, ho d j hd]

end

/-- Settles O17: what each kind of operation that is taken up leaves, and an attempt that something holds. -/
theorem fetchTakesOperations : Obligations.FetchTakesOperations := by
  unfold Obligations.FetchTakesOperations
  intro s c k hrun
  refine ⟨fun u hu hf => ?_, fun n own herr => ?_⟩
  · have hafter := fetched_close hu
    have hgives : ∀ (i : Instr) (P : State → Prop), exec i s = fetchStep c k s →
        P (close (u.modCore c (fun x => { x with lastFetched := k }))) → Gives i s (fun t => Fetched c k s u t ∧ P t) :=
      fun i P hi hP => gives_done (hi.trans (fetchStep_ok hrun hu hf)) ⟨hafter, hP⟩
    have hif : ∀ code, s.nextFetch c k = some code →
        (if s.nextFetch c k = some code then fetchStep c k s else stay s) = fetchStep c k s := fun code h => if_pos h
    refine ⟨fun op hr hop hside => ?_, fun hn => ?_, fun hn => ?_, fun hn => ?_⟩
    · obtain ⟨-, -, e, he⟩ := tryFetch_queued hu hr hop hside
      exact hgives _ _ rfl ⟨e, by rw [hafter.2.1]; exact he⟩
    · have hfills := fetched_fills hu hn (.inl rfl)
      exact ⟨hgives _ _ rfl hfills, hgives _ _ (hif _ hn) hfills⟩
    · have hfills := fetched_fills hu hn (.inr rfl)
      exact ⟨hgives _ _ rfl hfills, hgives _ _ (hif _ hn) hfills⟩
    · have hplaces : ∀ e d, s.nextDesc c k = some (e, d) → ∃ y : DrtItem,
          ((close (u.modCore c (fun x => { x with lastFetched := k }))).drt e).queue = (s.drt e).queue ++ [y] ∧ y.desc = d ∧
            y.core = c ∧ y.ctx = k ∧ y.serial = (s.ctx c k).serial ∧ y.started = false ∧ y.moved = false := fun e d hd => by
        rw [drt_close]
        exact tryFetch_desc (u := u) hu hd
      exact ⟨hgives _ _ rfl hplaces, hgives _ _ (hif _ hn) hplaces⟩
  · obtain ⟨v, hv, hctx⟩ := fetchStep_held hrun herr
    refine gives_done hv ?_
    rw [ctx_close, hctx]
    exact ⟨rfl, rfl, rfl⟩

end Sys2Proof.Machine
end

section
/-! SUPPORT. The start of an operation of a unit: its run, the issue of its context, and what it violates. -/

namespace Sys2Proof.Machine

/-! What the start of an operation leaves of each core. -/

/-- A core without its contexts, its store, its slot rings and its operations in flight. -/
def Core.frame (x : Core) : Core := { x.rest with rings := [], flights := [] }

/-- Every core but its contexts, store, slot rings and operations in flight is as it was. -/
def CoresFramed (s t : State) : Prop := ∀ d, (t.core d).frame = (s.core d).frame

section
variable {s t u : State} {c : Fin 4} {k : Fin 8} {op : BitVec 128} {dst : Option Opd} {srcs : List Opd} {e : Effect}

theorem CoresFramed.refl (s : State) : CoresFramed s s := fun _ => rfl

theorem CoresFramed.trans (h : CoresFramed s t) (h' : CoresFramed t u) : CoresFramed s u := fun d => (h' d).trans (h d)

theorem OnlyChanges.coresFramed {A : List Part} (h : OnlyChanges A s t) (hA : Part.cores ∉ A) : CoresFramed s t := fun d =>
  congrArg (fun x : Core => { x with rings := [], flights := [] }) (h .cores hA d)

theorem coresFramed_modCore (s : State) (c : Fin 4) (f : Core → Core) (hf : ∀ x, (f x).frame = x.frame) :
    CoresFramed s (s.modCore c f) := fun d => by
  rw [State.core_modCore]
  split
  next h => rw [h, hf]
  next => rfl

theorem coresFramed_modRing (s : State) (c : Fin 4) (i : Nat) (f : Ring → Ring) : CoresFramed s (s.modRing c i f) := by
  unfold State.modRing
  split
  · exact coresFramed_modCore s c _ (fun _ => rfl)
  · exact .refl s

theorem coresFramed_releaseSrc (s : State) (o : Opd) : CoresFramed s (s.releaseSrc o) := by
  unfold State.releaseSrc
  split
  · split
    · exact coresFramed_modRing _ _ _ _
    · exact .refl s
  · exact .refl s

theorem coresFramed_claimDst (s : State) (o : Opd) (spec : Bool) : CoresFramed s (s.claimDst o spec) := by
  unfold State.claimDst
  split
  · exact coresFramed_modRing _ _ _ _
  · exact .refl s

/-- The bank of counters and the Eddy engine of a core belong to its frame. -/
theorem CoresFramed.bank (h : CoresFramed s t) (d : Fin 4) : (t.core d).bank = (s.core d).bank :=
  (congrArg Core.bank (h d) :)

theorem CoresFramed.eddy (h : CoresFramed s t) (d : Fin 4) : (t.core d).eddy = (s.core d).eddy :=
  (congrArg Core.eddy (h d) :)

theorem CoresFramed.veer (h : CoresFramed s t) (d : Fin 4) : (t.core d).veer = (s.core d).veer :=
  (congrArg Core.veer (h d) :)

/-! The state of an operation that starts, before its violations and its issue. -/

/-- The sources of an operation are read and released, and its destination is claimed. -/
def State.claimed (s : State) (c : Fin 4) (k : Fin 8) (dst : Option Opd) (srcs : List Opd) (e : Effect) : State :=
  let s1 : State := if !e.vios.isEmpty && (s.unmappedOpd dst srcs).isSome then s else s.touch (srcs.flatMap (·.ranges))
  let s2 : State := srcs.foldl State.releaseSrc s1
  let s3 : State := match dst with | some o => s2.claimDst o false | none => s2
  (s3.fly c ⟨k, s.headSerial c k, srcs.flatMap (·.ranges), match dst with | some o => o.ranges | none => []⟩).spent
    (e.frees + srcs.foldl (fun a o => a + o.freeUse) 0)

/-- The run of an operation as it starts. -/
def State.startedRun (s : State) (c : Fin 4) (k : Fin 8) (op : BitVec 128) (dst : Option Opd) (e : Effect) : RunOp :=
  { ctx := k, serial := s.headSerial c k, op := op, dst := dst, writes := e.writes, scales := [], fills := claimOf dst
    poison := e.poison, compact := none, predict := none, pred := none, counts := [] }

theorem begin_eq (s : State) (c : Fin 4) (k : Fin 8) (op : BitVec 128) (dst : Option Opd) (srcs : List Opd) (e : Effect) :
    s.begin c k op dst srcs e =
      (((s.claimed c k dst srcs e).violateAll (e.vios.map (fun v => s.ctxVio c k v.1 v.2))).issued c k,
        s.startedRun c k op dst e) := rfl

variable (s c k dst srcs e) in
theorem claimed_onlyChanges : OnlyChanges [.cores, .stacks, .stashes, .stashBytes, .fresh] s (s.claimed c k dst srcs e) := by
  unfold State.claimed
  extract_lets s1 s2 s3
  have h1 : OnlyChanges [.cores, .stacks, .stashes, .stashBytes, .fresh] s s1 := by
    simp only [s1]
    split <;> simp +decide
  have h2 : OnlyChanges [.cores, .stacks, .stashes, .stashBytes, .fresh] s1 s2 :=
    onlyChanges_foldl (fun u o => by simp +decide) _ _
  have h3 : OnlyChanges [.cores, .stacks, .stashes, .stashBytes, .fresh] s2 s3 := by
    simp only [s3]
    split <;> simp +decide
  exact (onlyChanges_spent (by decide)).2 ((onlyChanges_fly (by decide)).2 ((h1.trans h2).trans h3))

theorem coresFramed_releaseAll (l : List Opd) (s : State) : CoresFramed s (l.foldl State.releaseSrc s) := by
  induction l generalizing s with
  | nil => exact .refl s
  | cons o l ih => exact (coresFramed_releaseSrc s o).trans (ih _)

variable (s c k dst srcs e) in
theorem claimed_framed : CoresFramed s (s.claimed c k dst srcs e) := by
  unfold State.claimed
  extract_lets s1 s2 s3
  have h1 : CoresFramed s s1 := by
    refine OnlyChanges.coresFramed (A := partsRead) ?_ (by decide)
    simp only [s1]
    split <;> simp +decide
  have h3 : CoresFramed s2 s3 := by
    simp only [s3]
    split
    · exact coresFramed_claimDst _ _ _
    · exact .refl _
  exact ((h1.trans (coresFramed_releaseAll _ _)).trans h3).trans (coresFramed_modCore _ _ _ (fun _ => rfl))

/-- The state of an operation that starts, before it issues. -/
def State.violated (s : State) (c : Fin 4) (k : Fin 8) (dst : Option Opd) (srcs : List Opd) (e : Effect) : State :=
  (s.claimed c k dst srcs e).violateAll (e.vios.map (fun v => s.ctxVio c k v.1 v.2))

variable (s c k dst srcs e) in
theorem violated_onlyChanges : OnlyChanges [.vio, .cores, .stacks, .stashes, .stashBytes, .fresh] s (s.violated c k dst srcs e) :=
  (onlyChanges_violateAll (by decide)).2 ((claimed_onlyChanges s c k dst srcs e).mono (by decide))

variable (s c k dst srcs e) in
theorem violated_framed : CoresFramed s (s.violated c k dst srcs e) :=
  (claimed_framed s c k dst srcs e).trans
    (((onlyChanges_violateAll (B := [.vio]) (by decide)).2 (onlyChanges_refl _ _)).coresFramed (by decide))

variable (s c k dst srcs e op) in
/-- An operation that starts issues. -/
theorem issued_begin : Issued c k s (s.begin c k op dst srcs e).1 := by
  show Issued c k s ((s.violated c k dst srcs e).issued c k)
  rw [State.issued_eq]
  refine issued_issuedTo ((violated_framed s c k dst srcs e).bank c) (fun d j _ => ?_) _
  exact violated_onlyChanges s c k dst srcs e .ctxs (by decide) d j

theorem issued_vio : (s.issued c k).vio = s.vio :=
  ((onlyChanges_issued (B := [.ctxs, .cores]) (by decide)).2 (onlyChanges_refl _ s)) .vio (by decide)

/-- An operation that starts without a violation raises none. -/
theorem vio_begin_of_nil (he : e.vios = []) : (s.begin c k op dst srcs e).1.vio = s.vio := by
  show ((s.violated c k dst srcs e).issued c k).vio = s.vio
  rw [issued_vio, State.violated, he]
  exact claimed_onlyChanges s c k dst srcs e .vio (by decide)

/-- One violation of a kind at an address has been raised (R27). -/
def OneVio (s t : State) (kind adr : Nat) : Prop :=
  t.vio.count = s.vio.count + 1 ∧ t.vio.valid = true ∧ (s.vio.valid = false → t.vio.kind = kind ∧ t.vio.addr = adr) ∧
    (s.vio.valid = true → t.vio.addr = s.vio.addr ∧ t.vio.lost = true)

theorem oneVio_violate (v : Vio) : OneVio s (s.violate v) v.kind v.addr := by
  refine ⟨violate_count _ _, violate_valid _ _, fun h => ?_, fun h => ?_⟩
  · obtain ⟨hk, ha, -⟩ := violate_captured v h
    exact ⟨hk, ha⟩
  · exact violate_lost v h

/-- An operation that starts with one violation raises it. -/
theorem oneVio_begin {kind adr : Nat} (he : e.vios = [(kind, adr)]) : OneVio s (s.begin c k op dst srcs e).1 kind adr := by
  have hv : (s.begin c k op dst srcs e).1.vio = ((s.claimed c k dst srcs e).violate (s.ctxVio c k kind adr)).vio := by
    show ((s.violated c k dst srcs e).issued c k).vio = _
    rw [issued_vio, State.violated, he]
    rfl
  have hs : (s.claimed c k dst srcs e).vio = s.vio := claimed_onlyChanges s c k dst srcs e .vio (by decide)
  have h := oneVio_violate (s := s.claimed c k dst srcs e) (s.ctxVio c k kind adr)
  unfold OneVio at h ⊢
  rw [hv, ← hs]
  exact h


/-- A unit takes up what runs on it: the issue stands. -/
theorem Issued.modCore (h : Issued c k s t) (f : Core → Core) (hl : ∀ x, (f x).lastIssued = x.lastIssued)
    (hb : ∀ x, (f x).bank = x.bank) (hx : ∀ x, (f x).ctxs = x.ctxs) : Issued c k s (t.modCore c f) := by
  obtain ⟨hlast, hbank, hctx⟩ := h
  refine ⟨?_, ?_, fun d j hd => ?_⟩
  · rw [State.core_modCore_self, hl, hlast]
  · rw [State.core_modCore_self, hb, hbank]
  · rw [State.ctx_modCore_of _ _ _ _ _ (hx _), hctx d j hd]

end

/-! Operands in a range of R137. -/

section
variable {s : State} {dst : Option Opd} {srcs : List Opd}

theorem effect_unmapped {adr : Nat} (h : s.unmappedOpd dst srcs = some adr) (f : Bool → Effect) :
    s.effect dst srcs f = Effect.bad dst 5 adr := by
  unfold State.effect
  rw [h]

theorem effect_mapped (h : s.unmappedOpd dst srcs = none) (f : Bool → Effect) :
    s.effect dst srcs f = f (srcs.any s.srcPoison) := by
  unfold State.effect
  rw [h]

end

end Sys2Proof.Machine
end

section
/-! SUPPORT. The vector unit: what its operations start. -/

namespace Sys2Proof.Machine

section
variable {s : State} {c : Fin 4} {k : Fin 8} {op : BitVec 128} {o : Opd} {value : List Opd → Nat → Nat → Nat → Nat → Word}
  {v : Nat → Nat → Nat → Nat → Word}

/-- A run of the vector unit has started that will write `v` to the destination `o`. -/
def VecStarts (s : State) (c : Fin 4) (k : Fin 8) (op : BitVec 128) (o : Opd) (v : Nat → Nat → Nat → Nat → Word) (t : State) : Prop :=
  let poison := (s.opSrcs c (s.ctx c k).lcX op).any s.srcPoison
  Issued c k s t ∧ ∃ r, (t.core c).vec = some r ∧ r.ctx = k ∧ r.op = op ∧ r.serial = s.headSerial c k ∧ r.poison = poison ∧
    r.writes = o.writesOf (s.vecGust c k op) poison v ∧ r.scales = o.scalesOf (s.vecGust c k op) v

/-- What a unit holds once an operation has started on it: `put` places its run in the core. -/
theorem begin_put (put : RunOp → Core → Core) (hl : ∀ r x, (put r x).lastIssued = x.lastIssued)
    (hb : ∀ r x, (put r x).bank = x.bank) (hx : ∀ r x, (put r x).ctxs = x.ctxs) (dst : Option Opd) (srcs : List Opd)
    (e : Effect) (r : RunOp) :
    Issued c k s (close ((s.begin c k op dst srcs e).1.modCore c (put r))) ∧
      (close ((s.begin c k op dst srcs e).1.modCore c (put r))).core c = put r ((s.begin c k op dst srcs e).1.core c) ∧
      (close ((s.begin c k op dst srcs e).1.modCore c (put r))).vio = (s.begin c k op dst srcs e).1.vio := by
  generalize ht : (s.begin c k op dst srcs e).1 = t
  have hi : Issued c k s t := ht ▸ issued_begin s c k op dst srcs e
  exact ⟨(hi.modCore _ (hl r) (hb r) (hx r)).close, by rw [core_close, State.core_modCore_self], by rw [close_vio]; rfl⟩

/-- A run placed on the vector unit. -/
def putVec (r : RunOp) (x : Core) : Core := { x with vec := some r }

theorem vecIssue_eq {e : Effect} {srcs : List Opd} {dst : Option Opd} (hd : s.opDst c (s.ctx c k).lcX op = dst)
    (hs : s.opSrcs c (s.ctx c k).lcX op = srcs)
    (he : s.effect dst srcs (fun poison => ⟨(dst.map (fun o => o.writesOf (s.vecGust c k op) poison (value srcs))).getD [],
      poison, [], 0⟩) = e) :
    vecIssue c k op s value = (s.begin c k op dst srcs e).1.modCore c (putVec { s.startedRun c k op dst e with
      scales := if e.vios.isEmpty then (dst.map (fun o => o.scalesOf (s.vecGust c k op) (value srcs))).getD [] else [] }) := by
  subst hd hs he
  rfl

/-- With its operands mapped an operation of the vector unit starts (R447, R448). -/
theorem vecIssue_starts (hd : s.opDst c (s.ctx c k).lcX op = some o)
    (hm : s.unmappedOpd (some o) (s.opSrcs c (s.ctx c k).lcX op) = none) (hv : value (s.opSrcs c (s.ctx c k).lcX op) = v) :
    VecStarts s c k op o v (close (vecIssue c k op s value)) := by
  rw [vecIssue_eq hd rfl (effect_mapped hm _)]
  obtain ⟨hi, hc, -⟩ := begin_put (s := s) (c := c) (k := k) (op := op) putVec (fun _ _ => rfl) (fun _ _ => rfl) (fun _ _ => rfl)
    (some o) _ _ _
  exact ⟨hi, _, congrArg Core.vec hc, rfl, rfl, rfl, rfl, by rw [← hv]; rfl, by rw [← hv]; rfl⟩

/-- A unit holds a run that writes no data but the poison of its destination, for one violation of kind 0x05. -/
def StartsPoisoned (s : State) (dst : Option Opd) (adr : Nat) (run : State → Option RunOp) (t : State) : Prop :=
  ∃ r, run t = some r ∧ r.writes = (dst.map Opd.poisonWrites).getD [] ∧ r.poison = true ∧ OneVio s t 5 adr

theorem OneVio.of_vio {t u : State} {kind adr : Nat} (h : OneVio s t kind adr) (hu : u.vio = t.vio) : OneVio s u kind adr := by
  unfold OneVio at h ⊢
  rwa [hu]

/-- With an operand in no range an operation of the vector unit poisons its destination (R27, R137). -/
theorem vecIssue_unmapped {adr : Nat}
    (hm : s.unmappedOpd (s.opDst c (s.ctx c k).lcX op) (s.opSrcs c (s.ctx c k).lcX op) = some adr) :
    StartsPoisoned s (s.opDst c (s.ctx c k).lcX op) adr (fun t => (t.core c).vec) (close (vecIssue c k op s value)) := by
  rw [vecIssue_eq rfl rfl (effect_unmapped hm _)]
  obtain ⟨-, hc, hv⟩ := begin_put (s := s) (c := c) (k := k) (op := op) putVec (fun _ _ => rfl) (fun _ _ => rfl) (fun _ _ => rfl)
    (s.opDst c (s.ctx c k).lcX op) (s.opSrcs c (s.ctx c k).lcX op) (Effect.bad (s.opDst c (s.ctx c k).lcX op) 5 adr) _
  exact ⟨_, congrArg Core.vec hc, rfl, rfl, (oneVio_begin rfl).of_vio hv⟩

/-- An operation of the vector unit that may issue, with its operands mapped, starts. -/
theorem gives_vecIssue {i : Instr} {code : Nat} {value : BitVec 128 → State → List Opd → Nat → Nat → Nat → Nat → Word}
    (hi : exec i s = issue c k code s (fun op s => vecIssue c k op s (value op s)))
    (hv : value op s (s.opSrcs c (s.ctx c k).lcX op) = v) (h : s.mayIssue c k code = some op)
    (hd : s.opDst c (s.ctx c k).lcX op = some o) (hm : s.unmappedOpd (some o) (s.opSrcs c (s.ctx c k).lcX op) = none) :
    Gives i s (VecStarts s c k op o v) :=
  gives_issue h hi (vecIssue_starts hd hm hv)

/-- An operation of one source that may issue, with its operands mapped, starts. -/
theorem gives_vec1 {i : Instr} {code : Nat} {f : BitVec 128 → Word → Word} (hi : exec i s = vec1 c k code s f)
    (h : s.mayIssue c k code = some op)
    (hd : s.opDst c (s.ctx c k).lcX op = some o) (hm : s.unmappedOpd (some o) (s.opSrcs c (s.ctx c k).lcX op) = none) :
    Gives i s (VecStarts s c k op o (fun w x y z => f op (s.srcAt (s.opSrcs c (s.ctx c k).lcX op) 0 w x y z))) :=
  gives_issue h hi (vecIssue_starts hd hm rfl)

/-- An operation of two sources that may issue, with its operands mapped, starts. -/
theorem gives_vec2 {i : Instr} {code : Nat} {f : Word → Word → Word} (hi : exec i s = vec2 c k code s f)
    (h : s.mayIssue c k code = some op)
    (hd : s.opDst c (s.ctx c k).lcX op = some o) (hm : s.unmappedOpd (some o) (s.opSrcs c (s.ctx c k).lcX op) = none) :
    Gives i s (VecStarts s c k op o (fun w x y z => f (s.srcAt (s.opSrcs c (s.ctx c k).lcX op) 0 w x y z)
      (s.srcAt (s.opSrcs c (s.ctx c k).lcX op) 1 w x y z))) :=
  gives_issue h hi (vecIssue_starts hd hm rfl)

/-- A comparison that may issue, with its operands mapped, starts. -/
theorem gives_vecCompare {i : Instr} {code : Nat} {f : Word → Word → Word} (hi : exec i s = vecCompare c k code s f)
    (hv : (fun x0 x1 x2 x3 =>
      if (s.opSrcs c (s.ctx c k).lcX op).length = 1 then
        match s.along (s.opSrcs c (s.ctx c k).lcX op) 0 x1 x2 x3 with
        | [] => 0
        | w :: ws => ws.foldl f (if isNaN w then f32NaN else w)
      else f (s.srcAt (s.opSrcs c (s.ctx c k).lcX op) 0 x0 x1 x2 x3) (s.srcAt (s.opSrcs c (s.ctx c k).lcX op) 1 x0 x1 x2 x3)) = v)
    (h : s.mayIssue c k code = some op)
    (hd : s.opDst c (s.ctx c k).lcX op = some o) (hm : s.unmappedOpd (some o) (s.opSrcs c (s.ctx c k).lcX op) = none) :
    Gives i s (VecStarts s c k op o v) :=
  gives_issue h hi (vecIssue_starts hd hm hv)

end

/-- Settles O20, operation by operation. -/
theorem vectorElementwise : Obligations.VectorElementwise := by
  unfold Obligations.VectorElementwise
  intro s c k op o srcs a b d starts
  refine ⟨?convert, ?add, ?sub, ?mul, ?fma, ?func, ?max, ?min, ?select⟩
  case convert => exact gives_vec1 (f := fun _ a => a) (show execConvert c k s = _ from rfl)
  case add => exact gives_vec2 (show execVecAdd c k s = _ from rfl)
  case sub => exact gives_vec2 (show execVecSub c k s = _ from rfl)
  case mul => exact gives_vec2 (show execVecMul c k s = _ from rfl)
  case fma => exact fun h hd hm => gives_issue h (show execVecFma c k s = _ from rfl) (vecIssue_starts hd hm rfl)
  case func => exact gives_vec1 (f := fun op a => (s.funcTab c (vecTable op)).eval a) (show execVecFunc c k s = _ from rfl)
  case max => exact fun hn => gives_vecCompare (show execVecMax c k s = _ from rfl) (by funext w x y z; exact if_neg hn)
  case min => exact fun hn => gives_vecCompare (show execVecMin c k s = _ from rfl) (by funext w x y z; exact if_neg hn)
  case select => exact fun h hd hm => gives_issue h (show execVecSelect c k s = _ from rfl) (vecIssue_starts hd hm rfl)

/-- Settles O21, operation by operation. -/
theorem vectorReductions : Obligations.VectorReductions := by
  unfold Obligations.VectorReductions
  intro s c k op o srcs starts fold
  refine ⟨?max, ?min, ?sum, ?dot, ?dropout⟩
  case max => exact fun hn => gives_vecCompare (show execVecMax c k s = _ from rfl) (by funext w x y z; exact if_pos hn)
  case min => exact fun hn => gives_vecCompare (show execVecMin c k s = _ from rfl) (by funext w x y z; exact if_pos hn)
  case sum => exact fun h hd hm => gives_issue h (show execVecSum c k s = _ from rfl) (vecIssue_starts hd hm rfl)
  case dot => exact fun h hd hm => gives_issue h (show execVecDot c k s = _ from rfl) (vecIssue_starts hd hm rfl)
  case dropout =>
    intro a rest hsrcs h hd hm
    refine gives_issue h (show execVecDropout c k s = _ from rfl) (vecIssue_starts hd hm ?_)
    funext w x y z
    rw [show s.opSrcs c (s.ctx c k).lcX op = a :: rest from hsrcs]
    rfl

end Sys2Proof.Machine
end

section
/-! SUPPORT. The copy path, GATHER, SCATTER, MERGE and EDDY_TILE: what they start, with mapped operands and without. -/

namespace Sys2Proof.Machine

section
variable {s : State} {c : Fin 4} {k : Fin 8} {op : BitVec 128} {code : Nat} {adr : Nat}

/-- A run placed on the copy path. -/
def putCopy (r : RunOp) (x : Core) : Core := { x with copy := some r }

/-- A run placed on the Eddy engine. -/
def putEddy (r : RunOp) (x : Core) : Core :=
  { x with eddy := { x.eddy with run := some r, lastOp := opcode r.op, lastCtx := r.ctx } }

/-! Each unit's start as the start of an operation whose run is placed there. -/

/-- The effect of a copy (R147 to R149). -/
def State.copyEffect (s : State) (vio : Option Opd → List Opd → Option (Nat × Nat)) (perm : List Opd → List Nat)
    (dst : Option Opd) (srcs : List Opd) (poison : Bool) : Effect :=
  match vio dst srcs, dst, srcs with
  | some v, _, _ => Effect.bad dst v.1 v.2
  | none, some o, a :: _ =>
    ⟨o.copyWrites poison (fun y => s.codeList a ((List.range 4).map (fun d => y.getD ((perm srcs).findIdx (· == d)) 0))),
      poison, [], 0⟩
  | none, _, _ => ⟨[], poison, [], 0⟩

theorem copyIssue_eq (vio : Option Opd → List Opd → Option (Nat × Nat)) (perm : List Opd → List Nat) :
    let dst := s.opDst c (s.ctx c k).lcX op
    let srcs := s.opSrcs c (s.ctx c k).lcX op
    let e := s.effect dst srcs (s.copyEffect vio perm dst srcs)
    ∃ scales, copyIssue c k op s vio perm =
      (s.begin c k op dst srcs e).1.modCore c (putCopy { s.startedRun c k op dst e with scales := scales }) :=
  ⟨_, by
    unfold copyIssue State.copyEffect
    rfl⟩

/-- The effect of a GATHER (R150 to R152). -/
def State.gatherEffect (s : State) (op : BitVec 128) (dst : Option Opd) (srcs : List Opd) (poison : Bool) : Effect :=
  match dst, srcs with
  | some o, a :: b :: _ =>
    match rangeVio (s.indices b) (a.d.extent (opDim op)) b.base with
    | some v => Effect.bad dst v.1 v.2
    | none =>
      let poison := s.srcPoison b || s.readPoison a (gatherReads o a (opDim op) (s.indices b))
      ⟨o.copyWrites poison (fun y => s.codeList a (setAt y (opDim op) ((s.indices b).getD (y.getD (opDim op) 0) 0))), poison, [], 0⟩
  | _, _ => ⟨[], poison, [], 0⟩

theorem gatherIssue_eq :
    let dst := s.opDst c (s.ctx c k).lcX op
    let srcs := s.opSrcs c (s.ctx c k).lcX op
    let e := s.effect dst srcs (s.gatherEffect op dst srcs)
    ∃ scales, gatherIssue c k op s =
      (s.begin c k op dst srcs e).1.modCore c (putEddy { s.startedRun c k op dst e with scales := scales }) :=
  ⟨_, by
    unfold gatherIssue State.gatherEffect
    rfl⟩

/-- The indices of a SCATTER or a MERGE. -/
def State.mergeIdx (s : State) (srcs : List Opd) : List Nat := match srcs with | _ :: b :: _ => s.indices b | _ => []

/-- The effect of a SCATTER or a MERGE (R150 to R154). -/
def State.mergeEffect (s : State) (code : Nat) (op : BitVec 128) (dst : Option Opd) (srcs : List Opd) (poison : Bool) : Effect :=
  match dst, srcs with
  | some o, a :: b :: _ =>
    let rows := o.d.outer.map (fun x => (x, s.mergedRow code (opDim op) o a (s.mergeIdx srcs) x))
    match rangeVio (s.mergeIdx srcs) (o.d.extent (opDim op)) b.base with
    | some v =>
      ⟨rows.flatMap (fun r => (o.partWrites r.1 r.2 true).map (fun w => { w with data := [] })), true, [v], 0⟩
    | none =>
      let writes := rows.flatMap (fun r => o.partWrites r.1 r.2 false)
      let poison := poison || (code != 3 && s.anyPoison (writes.map (fun w => (w.addr, w.len))))
      ⟨writes.map (fun w => { w with poison := poison }), poison, [], o.freeUse⟩
  | _, _ => ⟨[], poison, [], 0⟩

theorem mergeIssue_eq :
    let dst := s.opDst c (s.ctx c k).lcX op
    let srcs := s.opSrcs c (s.ctx c k).lcX op
    let e := s.effect dst srcs (s.mergeEffect code op dst srcs)
    mergeIssue c k code op s =
      (s.begin c k op dst srcs e).1.modCore c
        (putEddy { s.startedRun c k op dst e with counts := [(2, repeatsOf (s.mergeIdx srcs))] }) := by
  unfold mergeIssue State.mergeEffect State.mergeIdx
  rfl

/-- The effect of an EDDY_TILE (R177). -/
def State.tileEffect (s : State) (c : Fin 4) (k : Fin 8) (op : BitVec 128) (dst : Option Opd) (srcs : List Opd)
    (poison : Bool) : Effect :=
  match dst, srcs with
  | some o, a :: b :: _ =>
    ⟨(List.range (edtM op)).flatMap (fun i => o.putRow i
      (mergeCodes (edtMode op) (edtFmt op) (s.mergeGust c k op (edtRound op)) (fun j => o.d.flat j i 0 0)
        (mergeRow (edtMode op) (edtK op) (edtN op) (fun q => s.cf a q i) (fun q j => s.cf b q j)
          (fun j => s.mergeInit (edtMode op) srcs i j))) poison), poison, [], 0⟩
  | _, _ => ⟨[], poison, [], 0⟩

theorem eddyTileIssue_eq :
    let dst := s.opDst c (s.ctx c k).lcX op
    let srcs := s.opSrcs c (s.ctx c k).lcX op
    let e := s.effect dst srcs (s.tileEffect c k op dst srcs)
    eddyTileIssue c k op s =
      (s.begin c k op dst srcs e).1.modCore c
        (putEddy { s.startedRun c k op dst e with counts := [(6, edtK op + edtM op + 4)] }) := by
  unfold eddyTileIssue State.tileEffect
  rfl

/-! Operands in no range. -/

/-- A run of an operation with an operand in no range, placed on its unit. -/
theorem startsPoisoned_put (put : RunOp → Core → Core) (get : Core → Option RunOp) (hg : ∀ r x, get (put r x) = some r)
    (hl : ∀ r x, (put r x).lastIssued = x.lastIssued) (hb : ∀ r x, (put r x).bank = x.bank)
    (hx : ∀ r x, (put r x).ctxs = x.ctxs) {dst : Option Opd} {srcs : List Opd} {r : RunOp}
    (hw : r.writes = (dst.map Opd.poisonWrites).getD []) (hp : r.poison = true) :
    StartsPoisoned s dst adr (fun t => get (t.core c))
      (close ((s.begin c k op dst srcs (Effect.bad dst 5 adr)).1.modCore c (put r))) := by
  obtain ⟨-, hc, hv⟩ := begin_put (s := s) (c := c) (k := k) (op := op) put hl hb hx dst srcs (Effect.bad dst 5 adr) r
  exact ⟨r, (congrArg get hc).trans (hg r _), hw, hp, (oneVio_begin rfl).of_vio hv⟩

theorem copyIssue_unmapped (vio : Option Opd → List Opd → Option (Nat × Nat)) (perm : List Opd → List Nat)
    (hm : s.unmappedOpd (s.opDst c (s.ctx c k).lcX op) (s.opSrcs c (s.ctx c k).lcX op) = some adr) :
    StartsPoisoned s (s.opDst c (s.ctx c k).lcX op) adr (fun t => (t.core c).copy) (close (copyIssue c k op s vio perm)) := by
  obtain ⟨scales, heq⟩ := copyIssue_eq (s := s) (c := c) (k := k) (op := op) vio perm
  rw [heq, effect_unmapped hm]
  exact startsPoisoned_put putCopy Core.copy (fun _ _ => rfl) (fun _ _ => rfl) (fun _ _ => rfl) (fun _ _ => rfl) rfl rfl

theorem gatherIssue_unmapped
    (hm : s.unmappedOpd (s.opDst c (s.ctx c k).lcX op) (s.opSrcs c (s.ctx c k).lcX op) = some adr) :
    StartsPoisoned s (s.opDst c (s.ctx c k).lcX op) adr (fun t => (t.core c).eddy.run) (close (gatherIssue c k op s)) := by
  obtain ⟨scales, heq⟩ := gatherIssue_eq (s := s) (c := c) (k := k) (op := op)
  rw [heq, effect_unmapped hm]
  exact startsPoisoned_put putEddy (·.eddy.run) (fun _ _ => rfl) (fun _ _ => rfl) (fun _ _ => rfl) (fun _ _ => rfl) rfl rfl

theorem mergeIssue_unmapped
    (hm : s.unmappedOpd (s.opDst c (s.ctx c k).lcX op) (s.opSrcs c (s.ctx c k).lcX op) = some adr) :
    StartsPoisoned s (s.opDst c (s.ctx c k).lcX op) adr (fun t => (t.core c).eddy.run) (close (mergeIssue c k code op s)) := by
  rw [mergeIssue_eq, effect_unmapped hm]
  exact startsPoisoned_put putEddy (·.eddy.run) (fun _ _ => rfl) (fun _ _ => rfl) (fun _ _ => rfl) (fun _ _ => rfl) rfl rfl

theorem eddyTileIssue_unmapped
    (hm : s.unmappedOpd (s.opDst c (s.ctx c k).lcX op) (s.opSrcs c (s.ctx c k).lcX op) = some adr) :
    StartsPoisoned s (s.opDst c (s.ctx c k).lcX op) adr (fun t => (t.core c).eddy.run) (close (eddyTileIssue c k op s)) := by
  rw [eddyTileIssue_eq, effect_unmapped hm]
  exact startsPoisoned_put putEddy (·.eddy.run) (fun _ _ => rfl) (fun _ _ => rfl) (fun _ _ => rfl) (fun _ _ => rfl) rfl rfl

/-! An operation that may issue with an operand in no range, by the shape of its execution. -/

section
variable {i : Instr}

theorem gives_vec1_unmapped {f : BitVec 128 → Word → Word} (hi : exec i s = vec1 c k code s f)
    (hm : s.unmappedOpd (s.opDst c (s.ctx c k).lcX op) (s.opSrcs c (s.ctx c k).lcX op) = some adr)
    (h : s.mayIssue c k code = some op) :
    Gives i s (StartsPoisoned s (s.opDst c (s.ctx c k).lcX op) adr (fun t => (t.core c).vec)) :=
  gives_issue h hi (vecIssue_unmapped hm)

theorem gives_vec2_unmapped {f : Word → Word → Word} (hi : exec i s = vec2 c k code s f)
    (hm : s.unmappedOpd (s.opDst c (s.ctx c k).lcX op) (s.opSrcs c (s.ctx c k).lcX op) = some adr)
    (h : s.mayIssue c k code = some op) :
    Gives i s (StartsPoisoned s (s.opDst c (s.ctx c k).lcX op) adr (fun t => (t.core c).vec)) :=
  gives_issue h hi (vecIssue_unmapped hm)

theorem gives_vecCompare_unmapped {f : Word → Word → Word} (hi : exec i s = vecCompare c k code s f)
    (hm : s.unmappedOpd (s.opDst c (s.ctx c k).lcX op) (s.opSrcs c (s.ctx c k).lcX op) = some adr)
    (h : s.mayIssue c k code = some op) :
    Gives i s (StartsPoisoned s (s.opDst c (s.ctx c k).lcX op) adr (fun t => (t.core c).vec)) :=
  gives_issue h hi (vecIssue_unmapped hm)

theorem gives_copy_unmapped {vio : BitVec 128 → State → Option Opd → List Opd → Option (Nat × Nat)}
    {perm : BitVec 128 → State → List Opd → List Nat}
    (hi : exec i s = issue c k code s (fun op s => copyIssue c k op s (vio op s) (perm op s)))
    (hm : s.unmappedOpd (s.opDst c (s.ctx c k).lcX op) (s.opSrcs c (s.ctx c k).lcX op) = some adr)
    (h : s.mayIssue c k code = some op) :
    Gives i s (StartsPoisoned s (s.opDst c (s.ctx c k).lcX op) adr (fun t => (t.core c).copy)) :=
  gives_issue h hi (copyIssue_unmapped _ _ hm)

end

end

/-- Settles O22, unit by unit. -/
theorem unmappedOperandPoisons : Obligations.UnmappedOperandPoisons := by
  unfold Obligations.UnmappedOperandPoisons
  intro s c k op adr dst hm bad vec copies eddy
  refine ⟨?convert, ?add, ?sub, ?mul, ?fma, ?func, ?max, ?min, ?sum, ?dot, ?select, ?dropout, ?tcopy, ?pcopy, ?copy, ?gather,
    ?scatter, ?merge, ?tile⟩
  case convert => exact gives_vec1_unmapped (show execConvert c k s = _ from rfl) hm
  case add => exact gives_vec2_unmapped (show execVecAdd c k s = _ from rfl) hm
  case sub => exact gives_vec2_unmapped (show execVecSub c k s = _ from rfl) hm
  case mul => exact gives_vec2_unmapped (show execVecMul c k s = _ from rfl) hm
  case fma => exact fun h => gives_issue h (show execVecFma c k s = _ from rfl) (vecIssue_unmapped hm)
  case func => exact gives_vec1_unmapped (show execVecFunc c k s = _ from rfl) hm
  case max => exact gives_vecCompare_unmapped (show execVecMax c k s = _ from rfl) hm
  case min => exact gives_vecCompare_unmapped (show execVecMin c k s = _ from rfl) hm
  case sum => exact fun h => gives_issue h (show execVecSum c k s = _ from rfl) (vecIssue_unmapped hm)
  case dot => exact fun h => gives_issue h (show execVecDot c k s = _ from rfl) (vecIssue_unmapped hm)
  case select => exact fun h => gives_issue h (show execVecSelect c k s = _ from rfl) (vecIssue_unmapped hm)
  case dropout => exact fun h => gives_issue h (show execVecDropout c k s = _ from rfl) (vecIssue_unmapped hm)
  case tcopy => exact gives_copy_unmapped (show execTcopy c k s = _ from rfl) hm
  case pcopy => exact gives_copy_unmapped (show execPcopy c k s = _ from rfl) hm
  case copy => exact gives_copy_unmapped (show execCopy c k s = _ from rfl) hm
  case gather => exact fun h => gives_issue h (show execGather c k s = _ from rfl) (gatherIssue_unmapped hm)
  case scatter => exact fun h => gives_issue h (show execScatter c k s = _ from rfl) (mergeIssue_unmapped hm)
  case merge => exact fun h => gives_issue h (show execMerge c k s = _ from rfl) (mergeIssue_unmapped hm)
  case tile => exact fun h => gives_issue h (show execEddyTile c k s = _ from rfl) (eddyTileIssue_unmapped hm)

end Sys2Proof.Machine
end

section
/-! SUPPORT. Copies with mapped operands. -/

namespace Sys2Proof.Machine

section
variable {s : State} {c : Fin 4} {k : Fin 8} {op : BitVec 128} {o a : Opd} {rest : List Opd}
  {vio : Option Opd → List Opd → Option (Nat × Nat)} {perm : List Opd → List Nat}

/-- A copy has started that will write to `o` the element of `a` at the index that the permutation `p` gives. -/
def CopyStarts (s : State) (c : Fin 4) (k : Fin 8) (op : BitVec 128) (o a : Opd) (p : List Nat) (t : State) : Prop :=
  let poison := (s.opSrcs c (s.ctx c k).lcX op).any s.srcPoison
  Issued c k s t ∧ t.vio = s.vio ∧ ∃ r, (t.core c).copy = some r ∧ r.ctx = k ∧ r.op = op ∧ r.serial = s.headSerial c k ∧
    r.poison = poison ∧
    r.writes = o.copyWrites poison (fun y => s.codeList a ((List.range 4).map (fun d => y.getD (p.findIdx (· == d)) 0)))

/-- A copy has started that poisons its destination, for one violation. -/
def CopyViolates (s : State) (c : Fin 4) (k : Fin 8) (op : BitVec 128) (o : Opd) (kind adr : Nat) (t : State) : Prop :=
  Issued c k s t ∧ t.vio.count = s.vio.count + 1 ∧ (s.vio.valid = false → t.vio.kind = kind ∧ t.vio.addr = adr) ∧
    ∃ r, (t.core c).copy = some r ∧ r.ctx = k ∧ r.op = op ∧ r.poison = true ∧ r.writes = o.poisonWrites

theorem copyEffect_starts {poison : Bool} (hv : vio (some o) (a :: rest) = none) :
    s.copyEffect vio perm (some o) (a :: rest) poison =
      ⟨o.copyWrites poison (fun y =>
        s.codeList a ((List.range 4).map (fun d => y.getD ((perm (a :: rest)).findIdx (· == d)) 0))), poison, [], 0⟩ := by
  unfold State.copyEffect
  rw [hv]

theorem copyEffect_violates {dst : Option Opd} {srcs : List Opd} {poison : Bool} {v : Nat × Nat} (hv : vio dst srcs = some v) :
    s.copyEffect vio perm dst srcs poison = Effect.bad dst v.1 v.2 := by
  unfold State.copyEffect
  rw [hv]

/-- A copy that violates nothing starts (R147). -/
theorem copyIssue_starts (hd : s.opDst c (s.ctx c k).lcX op = some o) (hs : s.opSrcs c (s.ctx c k).lcX op = a :: rest)
    (hm : s.unmappedOpd (some o) (a :: rest) = none) (hv : vio (some o) (a :: rest) = none) :
    CopyStarts s c k op o a (perm (a :: rest)) (close (copyIssue c k op s vio perm)) := by
  obtain ⟨scales, heq⟩ := copyIssue_eq (s := s) (c := c) (k := k) (op := op) vio perm
  rw [heq, hd, hs, effect_mapped hm, copyEffect_starts hv]
  obtain ⟨hi, hc, hvio⟩ := begin_put (s := s) (c := c) (k := k) (op := op) putCopy (fun _ _ => rfl) (fun _ _ => rfl)
    (fun _ _ => rfl) (some o) (a :: rest) _ _
  unfold CopyStarts
  rw [hs]
  exact ⟨hi, hvio.trans (vio_begin_of_nil rfl), _, congrArg Core.copy hc, rfl, rfl, rfl, rfl, rfl⟩

/-- A copy with a violation of its own poisons its destination (R27, R149). -/
theorem copyIssue_violates {kind adr : Nat} (hd : s.opDst c (s.ctx c k).lcX op = some o)
    (hs : s.opSrcs c (s.ctx c k).lcX op = a :: rest) (hm : s.unmappedOpd (some o) (a :: rest) = none)
    (hv : vio (some o) (a :: rest) = some (kind, adr)) :
    CopyViolates s c k op o kind adr (close (copyIssue c k op s vio perm)) := by
  obtain ⟨scales, heq⟩ := copyIssue_eq (s := s) (c := c) (k := k) (op := op) vio perm
  rw [heq, hd, hs, effect_mapped hm, copyEffect_violates hv]
  obtain ⟨hi, hc, hvio⟩ := begin_put (s := s) (c := c) (k := k) (op := op) putCopy (fun _ _ => rfl) (fun _ _ => rfl)
    (fun _ _ => rfl) (some o) (a :: rest) (Effect.bad (some o) kind adr) _
  obtain ⟨hcount, -, hcap, -⟩ := (oneVio_begin (c := c) (k := k) (op := op) (dst := some o) (srcs := a :: rest) rfl).of_vio hvio
  exact ⟨hi, hcount, hcap, _, congrArg Core.copy hc, rfl, rfl, rfl, rfl⟩

/-! What TCOPY and PCOPY violate (R149). -/

theorem copyOverlap_of_false (h : overlap o.ranges a.ranges = false) : copyOverlap (some o) (a :: rest) = none := by
  simp [copyOverlap, h]

theorem copyOverlap_of_true (h : overlap o.ranges a.ranges = true) : copyOverlap (some o) (a :: rest) = some (3, o.base) := by
  simp [copyOverlap, h]

theorem pcopyVio_of_perm (h : overlap o.ranges a.ranges = false) (hp : permBad (s.permOf (a :: rest)) = none) :
    s.pcopyVio (some o) (a :: rest) = none := by
  unfold State.pcopyVio
  rw [copyOverlap_of_false h, hp]

theorem pcopyVio_of_overlap (h : overlap o.ranges a.ranges = true) : s.pcopyVio (some o) (a :: rest) = some (3, o.base) := by
  unfold State.pcopyVio
  rw [copyOverlap_of_true h]

theorem pcopyVio_of_bad {b : Opd} {more : List Opd} {n : Nat} (h : overlap o.ranges a.ranges = false)
    (hp : permBad (s.permOf (a :: b :: more)) = some n) : s.pcopyVio (some o) (a :: b :: more) = some (1, b.base + n) := by
  unfold State.pcopyVio
  rw [copyOverlap_of_false h, hp]

end

/-- Settles O23, operation by operation. -/
theorem copiesPermute : Obligations.CopiesPermute := by
  unfold Obligations.CopiesPermute
  intro s c k op o a rest srcs hd hs hm starts violates
  have hm' : s.unmappedOpd (some o) (a :: rest) = none := hs ▸ hm
  refine ⟨?copy, ?tcopy, ?tcopyOverlap, ?pcopy, ?pcopyOverlap, ?pcopyBad⟩
  case copy => exact fun h => gives_issue h (show execCopy c k s = _ from rfl) (copyIssue_starts hd hs hm' rfl)
  case tcopy =>
    exact fun h ho => gives_issue h (show execTcopy c k s = _ from rfl) (copyIssue_starts hd hs hm' (copyOverlap_of_false ho))
  case tcopyOverlap =>
    exact fun h ho => gives_issue h (show execTcopy c k s = _ from rfl) (copyIssue_violates hd hs hm' (copyOverlap_of_true ho))
  case pcopy =>
    intro h ho hp
    rw [hs] at hp ⊢
    exact gives_issue h (show execPcopy c k s = _ from rfl) (copyIssue_starts hd hs hm' (pcopyVio_of_perm ho hp))
  case pcopyOverlap =>
    exact fun h ho => gives_issue h (show execPcopy c k s = _ from rfl) (copyIssue_violates hd hs hm' (pcopyVio_of_overlap ho))
  case pcopyBad =>
    intro b more n h ho hr hp
    subst hr
    rw [hs] at hp
    exact gives_issue h (show execPcopy c k s = _ from rfl) (copyIssue_violates hd hs hm' (pcopyVio_of_bad ho hp))

end Sys2Proof.Machine
end

section
/-! SUPPORT. The Eddy engine: what its operations start. -/

namespace Sys2Proof.Machine

section
variable {s t u : State} {c : Fin 4} {k : Fin 8} {op : BitVec 128} {code : Nat} {r : RunOp}

/-- The Eddy engine holds a run of the operation that has issued. -/
def EddyHolds (s : State) (c : Fin 4) (k : Fin 8) (op : BitVec 128) (t : State) (r : RunOp) : Prop :=
  Issued c k s t ∧ (t.core c).eddy.run = some r ∧ r.ctx = k ∧ r.op = op ∧ r.serial = s.headSerial c k ∧
    (t.core c).eddy.lastOp = opcode op ∧ (t.core c).eddy.lastCtx = k

theorem Issued.frame {A : List Part} (h : Issued c k s t) (hw : OnlyChanges A t u) (hc : Part.cores ∉ A) (hx : Part.ctxs ∉ A) :
    Issued c k s u := by
  obtain ⟨hlast, hbank, hctx⟩ := h
  have hl : (u.core c).lastIssued = (t.core c).lastIssued := (congrArg Core.lastIssued (hw .cores hc c) :)
  have hb : (u.core c).bank = (t.core c).bank := (congrArg Core.bank (hw .cores hc c) :)
  exact ⟨hl.trans hlast, hb.trans hbank, fun d j hd => (hw .ctxs hx d j).trans (hctx d j hd)⟩

theorem Issued.modEddy (h : Issued c k s t) (f : Eddy → Eddy) : Issued c k s (t.modEddy c f) :=
  h.modCore _ (fun _ => rfl) (fun _ => rfl) (fun _ => rfl)

theorem eddy_modEddy (f : Eddy → Eddy) : ((t.modEddy c f).core c).eddy = f (t.core c).eddy :=
  (congrArg Core.eddy (State.core_modCore_self t c _) :)

/-- A run placed on the engine of an operation that has issued. -/
theorem eddyHolds_takeEddy (h : Issued c k s t) (hc : r.ctx = k) (ho : r.op = op) (hs : r.serial = s.headSerial c k) :
    EddyHolds s c k op (t.takeEddy c r) r := by
  have he : ((t.takeEddy c r).core c).eddy = { (t.core c).eddy with run := some r, lastOp := opcode r.op, lastCtx := r.ctx } :=
    eddy_modEddy _
  exact ⟨h.modEddy _, by rw [he], hc, ho, hs, by rw [he, ← ho], by rw [he, ← hc]⟩

theorem EddyHolds.close (h : EddyHolds s c k op t r) : EddyHolds s c k op (close t) r := by
  obtain ⟨hi, hr, hc, ho, hs, hl, hx⟩ := h
  exact ⟨hi.close, by rw [core_close, hr], hc, ho, hs, by rw [core_close, hl], by rw [core_close, hx]⟩

variable (s c k op r) in
/-- The run of an operation that starts, placed on the engine. -/
theorem eddyHolds_begin (dst : Option Opd) (srcs : List Opd) (e : Effect) (hc : r.ctx = k) (ho : r.op = op)
    (hs : r.serial = s.headSerial c k) :
    EddyHolds s c k op (close ((s.begin c k op dst srcs e).1.modCore c (putEddy r))) r :=
  (eddyHolds_takeEddy (issued_begin s c k op dst srcs e) hc ho hs).close

/-! GATHER. -/

section
variable {o a b : Opd} {rest : List Opd} {poison : Bool}

theorem gatherEffect_inRange (h : rangeVio (s.indices b) (a.d.extent (opDim op)) b.base = none) :
    s.gatherEffect op (some o) (a :: b :: rest) poison =
      ⟨o.copyWrites (s.srcPoison b || s.readPoison a (gatherReads o a (opDim op) (s.indices b)))
          (fun y => s.codeList a (setAt y (opDim op) ((s.indices b).getD (y.getD (opDim op) 0) 0))),
        s.srcPoison b || s.readPoison a (gatherReads o a (opDim op) (s.indices b)), [], 0⟩ := by
  unfold State.gatherEffect
  simp only [h]

theorem gatherEffect_violates {v : Nat × Nat} (h : rangeVio (s.indices b) (a.d.extent (opDim op)) b.base = some v) :
    s.gatherEffect op (some o) (a :: b :: rest) poison = Effect.bad (some o) v.1 v.2 := by
  unfold State.gatherEffect
  simp only [h]

theorem rangeVio_kind {idx : List Nat} {range base : Nat} {v : Nat × Nat} (h : rangeVio idx range base = some v) : v.1 = 1 := by
  unfold rangeVio at h
  obtain ⟨p, -, rfl⟩ := Option.map_eq_some_iff.1 h
  rfl

/-- One violation of kind 0x01 at an address. -/
def RangeViolated (s t : State) (adr : Nat) : Prop :=
  t.vio.count = s.vio.count + 1 ∧ (s.vio.valid = false → t.vio.kind = 1 ∧ t.vio.addr = adr)

theorem OneVio.rangeViolated {adr : Nat} (h : OneVio s t 1 adr) : RangeViolated s t adr := by
  obtain ⟨hcount, -, hcap, -⟩ := h
  exact ⟨hcount, hcap⟩

/-- The violation of an operation that starts on the engine. -/
theorem rangeViolated_begin {dst : Option Opd} {srcs : List Opd} {e : Effect} {v : Nat × Nat} (hv : v.1 = 1) (he : e.vios = [v]) :
    RangeViolated s (close ((s.begin c k op dst srcs e).1.modCore c (putEddy r))) v.2 := by
  have he' : e.vios = [(1, v.2)] := by rw [he, ← hv]
  obtain ⟨-, -, hvio⟩ := begin_put (s := s) (c := c) (k := k) (op := op) putEddy (fun _ _ => rfl) (fun _ _ => rfl)
    (fun _ _ => rfl) dst srcs e r
  exact ((oneVio_begin he').of_vio hvio).rangeViolated

/-! SCATTER and MERGE. -/

theorem rowWrites_poison (x : Nat × Nat × Nat) (codes : List Nat) (w : WBlk) (hw : w ∈ o.rowWrites x codes poison) :
    w.poison = poison := by
  unfold Opd.rowWrites at hw
  dsimp only at hw
  split at hw
  · obtain ⟨g, -, rfl⟩ := List.mem_map.1 hw
    rfl
  · split at hw
    · obtain ⟨g, -, rfl⟩ := List.mem_map.1 hw
      rfl
    · rw [List.mem_singleton.1 hw]

theorem partWrites_poison (x : Nat × Nat × Nat) (codes : List (Option Nat)) (w : WBlk) (hw : w ∈ o.partWrites x codes poison) :
    w.poison = poison := by
  unfold Opd.partWrites at hw
  split at hw
  · exact rowWrites_poison _ _ _ hw
  · obtain ⟨x0, -, hx⟩ := List.mem_flatMap.1 hw
    split at hx
    · rw [List.mem_singleton.1 hx]
    · cases hx

theorem mergeEffect_violates {v : Nat × Nat} (h : rangeVio (s.indices b) (o.d.extent (opDim op)) b.base = some v) :
    s.mergeEffect code op (some o) (a :: b :: rest) poison =
      ⟨(o.d.outer.map (fun x => (x, s.mergedRow code (opDim op) o a (s.indices b) x))).flatMap (fun r =>
        (o.partWrites r.1 r.2 true).map (fun w => { w with data := [] })), true, [v], 0⟩ := by
  unfold State.mergeEffect State.mergeIdx
  simp only [h]

/-- The bytes that a merge writes, without their poison. -/
theorem mergeEffect_inRange (h : rangeVio (s.indices b) (o.d.extent (opDim op)) b.base = none) :
    (s.mergeEffect code op (some o) (a :: b :: rest) poison).writes.map (fun w => (w.addr, w.len, w.data)) =
      (o.d.outer.flatMap (fun x =>
        o.partWrites x (s.mergedRow code (opDim op) o a (s.indices b) x) false)).map (fun w => (w.addr, w.len, w.data)) := by
  unfold State.mergeEffect State.mergeIdx
  simp only [h, List.map_map, List.flatMap_map]
  rfl

end

/-! The operations. -/

/-- The destination, the first two sources and the other ones, where every operand is mapped (R137). -/
def MappedPair (s : State) (c : Fin 4) (k : Fin 8) (op : BitVec 128) (o a b : Opd) (rest : List Opd) : Prop :=
  s.opDst c (s.ctx c k).lcX op = some o ∧ s.opSrcs c (s.ctx c k).lcX op = a :: b :: rest ∧
    s.unmappedOpd (s.opDst c (s.ctx c k).lcX op) (s.opSrcs c (s.ctx c k).lcX op) = none

section
variable {o a b : Opd} {rest : List Opd}

theorem MappedPair.effect (h : MappedPair s c k op o a b rest) (f : Option Opd → List Opd → Bool → Effect) :
    s.effect (s.opDst c (s.ctx c k).lcX op) (s.opSrcs c (s.ctx c k).lcX op)
        (f (s.opDst c (s.ctx c k).lcX op) (s.opSrcs c (s.ctx c k).lcX op)) =
      f (some o) (a :: b :: rest) ((s.opSrcs c (s.ctx c k).lcX op).any s.srcPoison) := by
  obtain ⟨hd, hs, hm⟩ := h
  rw [effect_mapped hm, hd, hs]

/-- What GATHER starts (R150 to R152). -/
theorem gatherIssue_holds : ∃ r, EddyHolds s c k op (Machine.close (gatherIssue c k op s)) r ∧
    ∀ o a b rest, MappedPair s c k op o a b rest →
      (rangeVio (s.indices b) (a.d.extent (opDim op)) b.base = none →
        r.poison = (s.srcPoison b || s.readPoison a (gatherReads o a (opDim op) (s.indices b))) ∧
        r.writes = o.copyWrites r.poison (fun y =>
          s.codeList a (setAt y (opDim op) ((s.indices b).getD (y.getD (opDim op) 0) 0)))) ∧
      (∀ q, rangeVio (s.indices b) (a.d.extent (opDim op)) b.base = some q →
        r.poison = true ∧ r.writes = o.poisonWrites ∧ RangeViolated s (Machine.close (gatherIssue c k op s)) q.2) := by
  obtain ⟨scales, heq⟩ := gatherIssue_eq (s := s) (c := c) (k := k) (op := op)
  rw [heq]
  refine ⟨_, eddyHolds_begin s c k op _ _ _ _ rfl rfl rfl, fun o a b rest h => ⟨fun hr => ?_, fun q hq => ?_⟩⟩
  · rw [h.effect (s.gatherEffect op), gatherEffect_inRange hr]
    exact ⟨rfl, rfl⟩
  · rw [h.effect (s.gatherEffect op), gatherEffect_violates hq]
    exact ⟨rfl, rfl, rangeViolated_begin (rangeVio_kind hq) rfl⟩

/-- What SCATTER and MERGE start (R150 to R154). -/
theorem mergeIssue_holds : ∃ r, EddyHolds s c k op (Machine.close (mergeIssue c k code op s)) r ∧
    ∀ o a b rest, MappedPair s c k op o a b rest →
      r.counts = [(2, repeatsOf (s.indices b))] ∧
      (∀ q, rangeVio (s.indices b) (o.d.extent (opDim op)) b.base = some q →
        r.poison = true ∧ RangeViolated s (Machine.close (mergeIssue c k code op s)) q.2 ∧
          ∀ w ∈ r.writes, w.data = [] ∧ w.poison = true) ∧
      (rangeVio (s.indices b) (o.d.extent (opDim op)) b.base = none →
        r.writes.map (fun w => (w.addr, w.len, w.data)) = (o.d.outer.flatMap (fun x =>
          o.partWrites x (s.mergedRow code (opDim op) o a (s.indices b) x) false)).map (fun w => (w.addr, w.len, w.data))) := by
  rw [mergeIssue_eq]
  refine ⟨_, eddyHolds_begin s c k op _ _ _ _ rfl rfl rfl, fun o a b rest h => ⟨?_, fun q hq => ?_, fun hr => ?_⟩⟩
  · obtain ⟨-, hs, -⟩ := h
    rw [hs]
    rfl
  · rw [h.effect (s.mergeEffect code op), mergeEffect_violates hq]
    refine ⟨rfl, rangeViolated_begin (rangeVio_kind hq) rfl, fun w hw => ?_⟩
    obtain ⟨row, -, hrow⟩ := List.mem_flatMap.1 hw
    obtain ⟨v, hv, rfl⟩ := List.mem_map.1 hrow
    exact ⟨rfl, partWrites_poison _ _ v hv⟩
  · rw [h.effect (s.mergeEffect code op)]
    exact mergeEffect_inRange hr

/-- What EDDY_TILE starts (R177). -/
theorem eddyTileIssue_holds : ∃ r, EddyHolds s c k op (Machine.close (eddyTileIssue c k op s)) r ∧
    r.counts = [(6, edtK op + edtM op + 4)] ∧ ∀ o a b rest, MappedPair s c k op o a b rest →
      r.writes = (List.range (edtM op)).flatMap (fun i => o.putRow i
        (mergeCodes (edtMode op) (edtFmt op) (s.mergeGust c k op (edtRound op)) (fun j => o.d.flat j i 0 0)
          (mergeRow (edtMode op) (edtK op) (edtN op) (fun q => s.cf a q i) (fun q j => s.cf b q j)
            (fun j => s.mergeInit (edtMode op) (s.opSrcs c (s.ctx c k).lcX op) i j)))
        ((s.opSrcs c (s.ctx c k).lcX op).any s.srcPoison)) := by
  rw [eddyTileIssue_eq]
  refine ⟨_, eddyHolds_begin s c k op _ _ _ _ rfl rfl rfl, rfl, fun o a b rest h => ?_⟩
  rw [h.effect (s.tileEffect c k op)]
  obtain ⟨-, hs, -⟩ := h
  rw [hs]
  rfl

/-! COMPACT. -/

/-- A running COMPACT that claims bays stays on its engine. -/
theorem eddyHolds_feedCompact {q : CompactRun} (h : EddyHolds s c k op t r) (hq : r.compact = some q) :
    ∃ r' q', EddyHolds s c k op (t.feedCompact c) r' ∧ r'.compact = some q' ∧ q'.array = q.array ∧ q'.last = q.last ∧
      q'.tag = q.tag := by
  obtain ⟨hi, hr, hc, ho, hs, hl, hx⟩ := h
  unfold State.feedCompact
  rw [hr]
  dsimp only
  rw [hq]
  dsimp only
  refine ⟨_, _, ⟨(hi.frame (A := [.gales]) ?_ (by decide) (by decide)).modEddy _,
    congrArg Eddy.run (eddy_modEddy _), hc, ho, hs, (congrArg Eddy.lastOp (eddy_modEddy _)).trans hl,
    (congrArg Eddy.lastCtx (eddy_modEddy _)).trans hx⟩, rfl, rfl, rfl, rfl⟩
  exact (onlyChanges_modGale (List.Subset.refl _)).2 (onlyChanges_refl _ t)

/-- A COMPACT that takes the engine claims what bays it can. -/
theorem eddyHolds_takeCompact {q : CompactRun} {g : Fin 8} {last : Bool} {tag : Option (Nat × Nat × Nat)} (h : Issued c k s t)
    (hc : r.ctx = k) (ho : r.op = op) (hs : r.serial = s.headSerial c k) (hq : r.compact = some q) (hg : q.array = g)
    (hl : q.last = last) (ht : q.tag = tag) :
    ∃ r' q', EddyHolds s c k op (Machine.close ((t.takeEddy c r).feedCompact c)) r' ∧ r'.compact = some q' ∧
      q'.array = g ∧ q'.last = last ∧ q'.tag = tag := by
  obtain ⟨r', q', hr, hq', hg', hl', ht'⟩ := eddyHolds_feedCompact (eddyHolds_takeEddy h hc ho hs) hq
  exact ⟨r', q', hr.close, hq', hg'.trans hg, hl'.trans hl, ht'.trans ht⟩

theorem issued_formError (h : Issued c k s t) (a : Nat) : Issued c k s (t.formError c a) :=
  (h.modEddy _).frame (A := []) ((onlyChanges_ask).2 (onlyChanges_refl _ _)) (by decide) (by decide)

/-- What COMPACT starts (R170, R172). -/
theorem compactIssue_holds {a b : Opd} {rest : List Opd} (hs : s.opSrcs c (s.ctx c k).lcX op = a :: b :: rest) :
    ∃ r q, EddyHolds s c k op (Machine.close (compactIssue c k op s)) r ∧ r.compact = some q ∧ q.array = arrayOf c (cmpSide op) ∧
      q.last = cmpLast op ∧ q.tag = some (1, binTable op, binIndex op) := by
  unfold compactIssue
  extract_lets lc srcs g unmapped rows reads wild tag
  rw [show srcs = a :: b :: rest from hs]
  dsimp -zeta only
  extract_lets bm w total lost keep form vio poison rowFmt rowGroups colGroups s1 s2 s3
  have hb : Issued c k s (s.begin c k op none (a :: b :: rest) ⟨[], poison, vio.toList, (total + 1) * 512 * 33⟩).1 :=
    issued_begin s c k op _ _ _
  have h1 : Issued c k s s1 := by
    simp only [s1]
    split
    · exact issued_formError hb _
    · exact hb
  have h3 : Issued c k s s3 :=
    (h1.modEddy _).frame (A := [.gales]) ((onlyChanges_modGale (by simp)).2 (onlyChanges_refl _ _)) (by decide) (by decide)
  clear_value s3
  exact eddyHolds_takeCompact h3 rfl rfl rfl rfl rfl rfl rfl

/-! EXPAND. -/

theorem settle_predX (x : Ctx) : x.settle.predX = x.predX := by
  have hn : ∀ n (y : Ctx), (y.settleN n).predX = y.predX := by
    intro n
    induction n with
    | zero => exact fun y => rfl
    | succ n ih =>
      intro y
      unfold Ctx.settleN
      split
      · split
        · exact ih _
        · rfl
      · rfl
  exact hn _ _

theorem begin_predX (dst : Option Opd) (srcs : List Opd) (e : Effect) :
    ((s.begin c k op dst srcs e).1.ctx c k).predX = (s.ctx c k).predX := by
  rw [show (s.begin c k op dst srcs e).1 = (s.violated c k dst srcs e).issued c k from rfl, ctx_issued, settle_predX,
    show (s.violated c k dst srcs e).ctx c k = s.ctx c k from violated_onlyChanges s c k dst srcs e .ctxs (by decide) c k]
  rfl

/-- What EXPAND starts (R174, R178). -/
theorem expandIssue_holds : ∃ r, EddyHolds s c k op (Machine.close (expandIssue c k op s)) r ∧ r.pred = (s.ctx c k).predX ∧
    r.dst = s.opDst c (s.ctx c k).lcX op := by
  let dst := s.opDst c (s.ctx c k).lcX op
  let e := s.effect dst [] (fun poison => ⟨[], poison, [], 0⟩)
  have heq : expandIssue c k op s = (s.begin c k op dst [] e).1.modCore c (putEddy { s.startedRun c k op dst e with
      pred := ((s.begin c k op dst [] e).1.ctx c k).predX }) := rfl
  rw [heq]
  exact ⟨_, eddyHolds_begin s c k op _ _ _ _ rfl rfl rfl, begin_predX _ _ _, rfl⟩

/-! PREDICT. -/

theorem get?_set_self {α : Type} (t : Tbl α) (i : Nat) (v : α) : Tbl.get? (Tbl.set t i v) i = some v := by
  induction t with
  | nil => exact if_pos rfl
  | cons p t ih =>
    unfold Tbl.set
    split
    · exact if_pos rfl
    · split
      · exact if_pos rfl
      next h => exact (if_neg (Ne.symm h)).trans ih

theorem predTile_modPred (e : Eddy) (slot tile : Nat) (f : PredTile → PredTile) :
    (e.modPred slot tile f).predTile slot tile = f (e.predTile slot tile) := by
  unfold Eddy.modPred
  rw [Eddy.predTile, get?_set_self]
  rfl

/-- The mask of a PREDICT (R180, R386). -/
def State.predictMask (s : State) (c : Fin 4) (op : BitVec 128) (srcs : List Opd) : List Bool :=
  let p := s.predSlot c (prdSlot op)
  if ((s.unmappedOpd none srcs).isSome || srcs.any s.srcPoison) || s.padTiming then List.replicate p.groups true
  else match srcs with
    | x :: p1 :: p2 :: _ => s.predMask p x p1 p2
    | _ => List.replicate p.groups true

theorem predictMask_whole {srcs : List Opd}
    (h : s.padTiming = true ∨ srcs.any s.srcPoison = true ∨ (s.unmappedOpd none srcs).isSome = true) :
    s.predictMask c op srcs = List.replicate (s.predSlot c (prdSlot op)).groups true :=
  if_pos (by rcases h with h | h | h <;> simp [h])

theorem predictMask_formed {x p1 p2 : Opd} {rest : List Opd} (hp : s.padTiming = false)
    (hs : (x :: p1 :: p2 :: rest).any s.srcPoison = false) (hm : s.unmappedOpd none (x :: p1 :: p2 :: rest) = none) :
    s.predictMask c op (x :: p1 :: p2 :: rest) = s.predMask (s.predSlot c (prdSlot op)) x p1 p2 :=
  if_neg (by rw [hp, hs, hm]; decide)

theorem eddy_issued (s : State) (c : Fin 4) (k : Fin 8) : ((s.issued c k).core c).eddy = (s.core c).eddy := by
  have h : OnlyChanges [.ctxs] (s.modCore c (fun x => { x with lastIssued := k, bank := x.bank.add 0 1 })) (s.issued c k) :=
    (onlyChanges_retire (List.Subset.refl _)).2 (onlyChanges_refl _ _)
  have hc := h .cores (by decide) c
  rw [State.core_modCore_self] at hc
  exact (congrArg Core.eddy hc :)

theorem eddy_begin (dst : Option Opd) (srcs : List Opd) (e : Effect) :
    ((s.begin c k op dst srcs e).1.core c).eddy = (s.core c).eddy :=
  (eddy_issued (s.violated c k dst srcs e) c k).trans ((violated_framed s c k dst srcs e).eddy c)

/-- The state of a PREDICT that starts, before its run takes the engine: its context knows it, and the tile's mask becomes the
previous one (R180). -/
def State.predicting (s : State) (c : Fin 4) (k : Fin 8) (op : BitVec 128) (e : Effect) : State :=
  let srcs := s.opSrcs c (s.ctx c k).lcX op
  ((s.begin c k op none srcs e).1.modCtx c k (fun x =>
    { x with predX := some (prdSlot op, prdTile op), predXSerial := s.headSerial c k })).modEddy c (fun e =>
      e.modPred (prdSlot op) (prdTile op) (fun t => { t with prev := t.cur, cur := none }))

theorem eddy_modCtx (f : Ctx → Ctx) : ((t.modCtx c k f).core c).eddy = (t.core c).eddy :=
  (congrArg Core.eddy (State.core_modCore_self t c _) :)

variable (s c k op) in
theorem predicting_eddy (e : Effect) : ((s.predicting c k op e).core c).eddy =
    (s.core c).eddy.modPred (prdSlot op) (prdTile op) (fun t => { t with prev := t.cur, cur := none }) := by
  unfold State.predicting
  rw [eddy_modEddy, eddy_modCtx, eddy_begin]

variable (s c k op) in
theorem predicting_issued (e : Effect) : Issued c k s (s.predicting c k op e) :=
  ((issued_begin s c k op _ _ e).modCtx _).modEddy _

theorem ctx_modEddy (f : Eddy → Eddy) : (t.modEddy c f).ctx c k = t.ctx c k := State.ctx_modCore_of _ _ _ _ _ rfl

variable (s c k op) in
theorem predicting_predX (e : Effect) : ((s.predicting c k op e).ctx c k).predX = some (prdSlot op, prdTile op) := by
  unfold State.predicting
  rw [ctx_modEddy, State.ctx_modCtx_self]

/-- What PREDICT starts (R180, R386). -/
theorem predictIssue_holds :
    let srcs := s.opSrcs c (s.ctx c k).lcX op
    let t := Machine.close (predictIssue c k op s)
    ∃ r, EddyHolds s c k op t r ∧ (t.ctx c k).predX = some (prdSlot op, prdTile op) ∧
      r.predict = some (prdSlot op, prdTile op, s.predictMask c op srcs, if prdPackEn op then some (prdVane op) else none) ∧
      ((t.core c).eddy.predTile (prdSlot op) (prdTile op)).cur = none ∧
      ((t.core c).eddy.predTile (prdSlot op) (prdTile op)).prev =
        ((s.core c).eddy.predTile (prdSlot op) (prdTile op)).cur := by
  intro srcs t
  let e := s.effect none srcs (fun b => ⟨[], b, [], 0⟩)
  obtain ⟨r, heq, hc, ho, hs, hr⟩ : ∃ r, predictIssue c k op s = (s.predicting c k op e).takeEddy c r ∧ r.ctx = k ∧ r.op = op ∧
      r.serial = s.headSerial c k ∧
      r.predict = some (prdSlot op, prdTile op, s.predictMask c op srcs, if prdPackEn op then some (prdVane op) else none) :=
    ⟨_, rfl, rfl, rfl, rfl, rfl⟩
  have htile : (((s.predicting c k op e).core c).eddy.predTile (prdSlot op) (prdTile op)) =
      { ((s.core c).eddy.predTile (prdSlot op) (prdTile op)) with
        prev := ((s.core c).eddy.predTile (prdSlot op) (prdTile op)).cur, cur := none } := by
    rw [predicting_eddy, predTile_modPred]
  have hp : ((t.core c).eddy.predTile (prdSlot op) (prdTile op)) =
      (((s.predicting c k op e).core c).eddy.predTile (prdSlot op) (prdTile op)) := by
    simp only [t]
    rw [heq, core_close, State.takeEddy, eddy_modEddy]
    rfl
  rw [hp, htile]
  have hx : (t.ctx c k).predX = some (prdSlot op, prdTile op) := by
    simp only [t]
    rw [heq, ctx_close, State.takeEddy, ctx_modEddy]
    exact predicting_predX s c k op e
  have hh : EddyHolds s c k op t r := by
    simp only [t]
    rw [heq]
    exact (eddyHolds_takeEddy (predicting_issued s c k op e) hc ho hs).close
  exact ⟨r, hh, hx, hr, rfl, rfl⟩

/-! VERIFY. -/

/-- What VERIFY starts (R182, R183). -/
theorem verifyIssue_holds :
    let srcs := s.opSrcs c (s.ctx c k).lcX op
    let dst := s.opDst c (s.ctx c k).lcX op
    ∃ r, EddyHolds s c k op (Machine.close (verifyIssue c k op s)) r ∧
      ∀ o, dst = some o → s.unmappedOpd dst srcs = none →
        let idle := (((s.core c).eddy.predTile (prdSlot op) (prdTile op)).cur.map inactiveGroups).getD []
        let passed := idle.filter (s.certified (s.predSlot c (prdSlot op)) srcs)
        (9, passed.length) ∈ r.counts ∧ (10, idle.length - passed.length) ∈ r.counts ∧
          r.writes = idle.flatMap (fun q => s.verifyRows (s.predSlot c (prdSlot op)) op (s.mergeGust c k op (vfyRound op)) o srcs q
            (passed.contains q)) := by
  intro srcs dst
  let idle := (((s.core c).eddy.predTile (prdSlot op) (prdTile op)).cur.map inactiveGroups).getD []
  let passed := if (s.unmappedOpd dst srcs).isNone then idle.filter (s.certified (s.predSlot c (prdSlot op)) srcs) else []
  let e := s.effect dst srcs (fun _ =>
    match dst with
    | some o =>
      ⟨idle.flatMap (fun q => s.verifyRows (s.predSlot c (prdSlot op)) op (s.mergeGust c k op (vfyRound op)) o srcs q
        (passed.contains q)), !idle.isEmpty && s.verifyPoison srcs, [], 0⟩
    | none => ⟨[], false, [], 0⟩)
  obtain ⟨n6, n11, n12, heq⟩ : ∃ n6 n11 n12, verifyIssue c k op s = (s.begin c k op dst srcs e).1.modCore c
      (putEddy { s.startedRun c k op dst e with
        counts := [(6, n6), (9, passed.length), (10, idle.length - passed.length), (11, n11), (12, n12)] }) := ⟨_, _, _, rfl⟩
  rw [heq]
  refine ⟨_, eddyHolds_begin s c k op _ _ _ _ rfl rfl rfl, fun o hd hm => ?_⟩
  have hp : passed = idle.filter (s.certified (s.predSlot c (prdSlot op)) srcs) := if_pos (by rw [hm]; rfl)
  have hw : e.writes = idle.flatMap (fun q => s.verifyRows (s.predSlot c (prdSlot op)) op (s.mergeGust c k op (vfyRound op)) o srcs
      q (passed.contains q)) := by
    simp only [e]
    rw [effect_mapped hm, hd]
  rw [hp] at hw
  exact ⟨by simp [← hp, idle], by simp [← hp, idle], hw⟩

end

end

/-- Settles O24, operation by operation. -/
theorem eddyOperationsStart : Obligations.EddyOperationsStart := by
  unfold Obligations.EddyOperationsStart
  intro s c k op srcs dst poison holds mapped violates merges
  refine ⟨?gather, ?scatter, ?merge, ?compact, ?expand, ?tile, ?predict, ?verify⟩
  case gather => exact fun h => gives_issue h (show execGather c k s = _ from rfl) gatherIssue_holds
  case scatter => exact fun h => gives_issue h (show execScatter c k s = _ from rfl) mergeIssue_holds
  case merge => exact fun h => gives_issue h (show execMerge c k s = _ from rfl) mergeIssue_holds
  case compact => exact fun h a b rest hs => gives_issue h (show execCompact c k s = _ from rfl) (compactIssue_holds hs)
  case expand => exact fun h => gives_issue h (show execExpand c k s = _ from rfl) expandIssue_holds
  case tile => exact fun h => gives_issue h (show execEddyTile c k s = _ from rfl) eddyTileIssue_holds
  case predict =>
    intro h
    refine gives_issue h (show execPredict c k s = _ from rfl) ?_
    obtain ⟨r, hr, hx, hp, hcur, hprev⟩ := predictIssue_holds (s := s) (c := c) (k := k) (op := op)
    refine ⟨r, _, hr, hx, hp, hcur, hprev, predictMask_whole, fun x p1 p2 rest hpad hpoison hm hs => ?_⟩
    have hs' : s.opSrcs c (s.ctx c k).lcX op = x :: p1 :: p2 :: rest := hs
    rw [hs']
    rw [hs] at hm
    exact predictMask_formed hpad (hs ▸ hpoison) hm
  case verify => exact fun h => gives_issue h (show execVerify c k s = _ from rfl) verifyIssue_holds

end Sys2Proof.Machine
end

section
/-! SUPPORT. What signals, retries and the end of a speculation leave of the Eddy engines and the routers: a free one stays free,
and the masks of predictor tiles and the routing tables stand. -/

namespace Sys2Proof.Machine

/-- A core's Eddy engine keeps the masks of its predictor tiles, its router the routing table, and each is free if it was. -/
structure QuietCore (x y : Core) : Prop where
  masks : ∀ slot tile, (y.eddy.predTile slot tile).cur = (x.eddy.predTile slot tile).cur
  eddy : x.eddy.run = none → y.eddy.run = none
  table : y.veer.table = x.veer.table
  veer : x.veer.run = none → y.veer.run = none

theorem QuietCore.of_units {x y : Core} (heddy : y.eddy = x.eddy) (hveer : y.veer = x.veer) : QuietCore x y := by
  constructor
  · rw [heddy]
    exact fun _ _ => rfl
  · rw [heddy]
    exact id
  · rw [hveer]
  · rw [hveer]
    exact id

/-- Every core's Eddy engine and router are as quiet as they were. -/
def UnitsQuiet (s t : State) : Prop := ∀ d, QuietCore (s.core d) (t.core d)

section
variable {s t u : State} {c : Fin 4} {k : Fin 8}

theorem UnitsQuiet.refl (s : State) : UnitsQuiet s s := fun _ => .of_units rfl rfl

theorem UnitsQuiet.trans (h : UnitsQuiet s t) (h' : UnitsQuiet t u) : UnitsQuiet s u := fun d =>
  { masks := fun i j => ((h' d).masks i j).trans ((h d).masks i j)
    eddy := fun hn => (h' d).eddy ((h d).eddy hn)
    table := (h' d).table.trans (h d).table
    veer := fun hn => (h' d).veer ((h d).veer hn) }

theorem CoresFramed.unitsQuiet (h : CoresFramed s t) : UnitsQuiet s t := fun d => .of_units (h.eddy d) (h.veer d)

theorem OnlyChanges.unitsQuiet {A : List Part} (h : OnlyChanges A s t) (hA : Part.cores ∉ A) : UnitsQuiet s t :=
  (h.coresFramed hA).unitsQuiet

theorem unitsQuiet_modCore (s : State) (c : Fin 4) (f : Core → Core) (hf : ∀ x, (f x).eddy = x.eddy)
    (hv : ∀ x, (f x).veer = x.veer) : UnitsQuiet s (s.modCore c f) := fun d => by
  rw [State.core_modCore]
  split
  next h => rw [h]; exact .of_units (hf _) (hv _)
  next => exact .of_units rfl rfl

theorem unitsQuiet_foldl {α : Type} {f : State → α → State} (h : ∀ u a, UnitsQuiet u (f u a)) (l : List α) (s : State) :
    UnitsQuiet s (l.foldl f s) := by
  induction l generalizing s with
  | nil => exact .refl s
  | cons a l ih => exact (h s a).trans (ih _)

/-! Vanes. -/

theorem unitsQuiet_countVane (s : State) (c : Fin 4) (i : Nat) : UnitsQuiet s (s.countVane c i) :=
  unitsQuiet_modCore s c _ (fun _ => rfl) (fun _ => rfl)

theorem unitsQuiet_modVane (s : State) (v : VaneId) (f : Vane → Vane) : UnitsQuiet s (s.modVane v f) := by
  cases v with
  | core c j => exact unitsQuiet_modCore s c _ (fun _ => rfl) (fun _ => rfl)
  | chain j => exact .refl s

theorem unitsQuiet_waitDone (s : State) (c : Fin 4) (k : Fin 8) : UnitsQuiet s (s.waitDone c k) := by
  unfold State.waitDone
  extract_lets x idx s1
  have h1 : UnitsQuiet s s1 := ((onlyChanges_modCtx (List.Subset.refl _)).2 (onlyChanges_refl _ s)).unitsQuiet (by decide)
  split
  · exact h1.trans (((onlyChanges_retire (List.Subset.refl _)).2 (onlyChanges_refl _ _)).unitsQuiet (by decide))
  · extract_lets s2 s3
    have h2 : UnitsQuiet s1 s2 := unitsQuiet_modCore s1 c _ (fun _ => rfl) (fun _ => rfl)
    have h3 : UnitsQuiet s2 s3 := ((onlyChanges_modCtx (List.Subset.refl _)).2 (onlyChanges_refl _ s2)).unitsQuiet (by decide)
    exact ((h1.trans h2).trans h3).trans (unitsQuiet_modCore s3 c _ (fun _ => rfl) (fun _ => rfl))

theorem unitsQuiet_wake (s : State) (w : Waiter) : UnitsQuiet s (s.wake w) := by
  cases w with
  | ctx c k => exact unitsQuiet_waitDone s c k
  | foehn n g => exact .refl s

theorem unitsQuiet_serveOne (s : State) (v : VaneId) (w : Waiter × Nat) : UnitsQuiet s (s.serveOne v w) := by
  unfold State.serveOne
  split
  · extract_lets s1 s2
    have h2 : UnitsQuiet s1 s2 := by
      simp only [s2]
      split
      · exact unitsQuiet_countVane _ _ _
      · exact .refl _
    exact ((unitsQuiet_modVane s v _).trans h2).trans (unitsQuiet_wake _ _)
  · exact .refl s

theorem unitsQuiet_serve (s : State) (v : VaneId) : UnitsQuiet s (s.serve v) := by
  unfold State.serve
  split
  · exact .refl s
  · exact unitsQuiet_foldl (fun u w => unitsQuiet_serveOne u v w) _ _

theorem unitsQuiet_applySignal (s : State) (v : VaneId) (n src : Nat) (far : Bool) :
    UnitsQuiet s (s.applySignal v n src far).1 := by
  unfold State.applySignal
  split
  · split <;> exact .refl s
  · extract_lets old s1 s2 s3
    split
    · simp only [s1]
      split
      · refine UnitsQuiet.trans ?_ (unitsQuiet_countVane _ _ _)
        exact unitsQuiet_modCore s _ _ (fun _ => rfl) (fun _ => rfl)
      · exact .refl s
    · refine (unitsQuiet_modVane s v _ : UnitsQuiet s s2).trans ?_
      simp only [s3]
      split
      · split
        · exact unitsQuiet_countVane _ _ _
        · exact (unitsQuiet_countVane _ _ _).trans (unitsQuiet_countVane _ _ _)
      · split <;> exact .refl _

theorem unitsQuiet_turnSignal (s : State) (p : PSig) : UnitsQuiet s (s.turnSignal p).1 := by
  unfold State.turnSignal
  split
  · exact unitsQuiet_applySignal s _ _ _ _
  · dsimp only
    split
    · exact unitsQuiet_applySignal s _ _ _ _
    · split
      next u hu =>
        have h := (send?_onlyChanges hu).unitsQuiet (by decide)
        split <;> exact h.trans (unitsQuiet_countVane _ _ _)
      next => exact .refl s

/-! A retry of step s. -/

theorem unitsQuiet_retryStep (s : State) : UnitsQuiet s s.retryStep := by
  unfold State.retryStep
  extract_lets take gone s1 s2 s3
  have h2 : UnitsQuiet s s2 := fun d => by
    have hd : s2.core d = (s.core d).retry (gone d) take := by simp [s2, s1, State.core]
    rw [hd]
    refine ⟨fun _ _ => rfl, fun hn => ?_, rfl, fun hn => ?_⟩
    · show dropRun (s.core d).eddy.run (gone d) = none
      rw [hn]
      rfl
    · show (if ((s.core d).veer.run.map (fun r => gone d r.ctx)).getD false then none else (s.core d).veer.run) = none
      rw [hn]
      rfl
  have h3 : UnitsQuiet s2 s3 := fun d => by
    have hd : s3.core d = (s2.core d).retryVanes gone := by simp [s3, State.core]
    rw [hd]
    exact .of_units rfl rfl
  refine (h2.trans h3).trans (unitsQuiet_foldl (fun u n => unitsQuiet_foldl (fun u g => ?_) _ _) _ _)
  dsimp only
  unfold State.enlist
  split
  · exact .refl u
  · exact unitsQuiet_modVane _ _ _

theorem unitsQuiet_takeEntries (s : State) : UnitsQuiet s s.takeEntries := fun d => by
  refine .of_units ?_ ?_ <;>
    simp [State.takeEntries, State.leaveVanes, State.core, Core.toTakeEntries, Core.vanesWithout]

theorem unitsQuiet_obeyRetry (s : State) (cause origin attempt : Nat) (pairs : List (Nat × Nat)) :
    UnitsQuiet s (s.obeyRetry cause origin attempt pairs) := by
  unfold State.obeyRetry
  extract_lets old s1 s2 s3 s4 s5 s6 s7
  have h3 : UnitsQuiet s s3 :=
    OnlyChanges.unitsQuiet (A := partsSend ++ [.dev, .foehn, .slip]) (by simp +decide [s3, s2, s1]) (by decide)
  have h4 : UnitsQuiet s3 s4 := (unitsQuiet_retryStep s3).trans
    (((onlyChanges_resignalIngest (List.Subset.refl _)).2 (onlyChanges_refl _ _)).unitsQuiet (by decide))
  have h5 : UnitsQuiet s4 s5 := by
    simp only [s5]
    split
    · exact unitsQuiet_takeEntries s4
    · exact .refl s4
  have h6 : UnitsQuiet s5 s6 := by
    refine OnlyChanges.unitsQuiet (A := [.ports]) ?_ (by decide)
    simp only [s6]
    split <;> simp
  refine ((h3.trans h4).trans (h5.trans h6)).trans ?_
  exact OnlyChanges.unitsQuiet (A := partsSend ++ [.rst]) (by simp +decide [s7]) (by decide)

theorem unitsQuiet_orderRetry (s : State) (cause origin : Nat) : UnitsQuiet s (s.orderRetry cause origin) :=
  (((onlyChanges_retryDown (List.Subset.refl _)).2 (onlyChanges_refl _ s)).unitsQuiet (by decide)).trans
    (unitsQuiet_obeyRetry _ _ _ _ _)

theorem unitsQuiet_rootAct (s : State) (r : Heard) : UnitsQuiet s (s.rootAct r) := by
  unfold State.rootAct
  extract_lets s1
  have h1 : UnitsQuiet s s1 := .refl s
  split
  · exact h1.trans (((onlyChanges_orderHalt (List.Subset.refl _)).2 (onlyChanges_refl _ s1)).unitsQuiet (by decide))
  · split
    · exact h1
    · split
      · exact h1
      · exact h1.trans (unitsQuiet_orderRetry _ _ _)

theorem unitsQuiet_rootJudge (s : State) : UnitsQuiet s s.rootJudge := by
  unfold State.rootJudge
  extract_lets box s1 s2
  have h1 : UnitsQuiet s s1 := .refl s
  split
  · exact h1
  · have h2 : UnitsQuiet s1 s2 := OnlyChanges.unitsQuiet (A := [.chain]) (by simp [s2]) (by decide)
    split
    · exact h1.trans h2
    · exact (h1.trans h2).trans (unitsQuiet_rootAct _ _)

theorem unitsQuiet_stepAbandon (s : State) (cause : Nat) : UnitsQuiet s (s.stepAbandon cause) :=
  (((onlyChanges_learn (List.Subset.refl _)).2 (onlyChanges_refl _ s)).unitsQuiet (by decide)).trans (unitsQuiet_rootJudge _)

theorem unitsQuiet_startDue (s : State) : UnitsQuiet s s.startDue := by
  unfold State.startDue
  have h : OnlyChanges (partsRead ++ [.foehn]) s ((allFin 12).foldl (fun s n => s.startUnit n (s.fhn n).due.length) s) :=
    onlyChanges_foldl (fun u n => (onlyChanges_startUnit (List.Subset.refl _)).2 (onlyChanges_refl _ u)) _ _
  refine (h.unitsQuiet (by decide)).trans ?_
  unfold State.reportPoison
  dsimp only
  split
  · exact unitsQuiet_stepAbandon _ _
  · split
    · exact unitsQuiet_stepAbandon _ _
    · exact .refl _

theorem unitsQuiet_signalNow (s : State) (ps : List PSig) : UnitsQuiet s (s.signalNow ps) := by
  unfold State.signalNow
  extract_lets ordered served
  split
  next s1 vios h =>
    have h1 : UnitsQuiet s s1 := by
      have hf : ∀ (l : List PSig) (a : State × List Vio), UnitsQuiet a.1 (l.foldl (fun (a : State × List Vio) p =>
          let (s', v) := a.1.turnSignal p
          (s', a.2 ++ v)) a).1 := by
        intro l
        induction l with
        | nil => exact fun a => .refl a.1
        | cons p l ih =>
          intro a
          have hrest := ih ((a.1.turnSignal p).1, a.2 ++ (a.1.turnSignal p).2)
          exact (unitsQuiet_turnSignal a.1 p).trans hrest
      have hs := hf ordered (s, [])
      rwa [h] at hs
    refine (h1.trans (unitsQuiet_foldl (fun u v => unitsQuiet_serve u v) served s1)).trans (UnitsQuiet.trans ?_ (unitsQuiet_startDue _))
    exact ((onlyChanges_violateAll (List.Subset.refl _)).2 (onlyChanges_refl _ _)).unitsQuiet (by decide)

/-! The end of a speculation (R125). -/

theorem get?_set_ne {α : Type} (t : Tbl α) {i j : Nat} (v : α) (h : j ≠ i) : Tbl.get? (Tbl.set t i v) j = Tbl.get? t j := by
  induction t with
  | nil => exact if_neg (Ne.symm h)
  | cons p t ih =>
    unfold Tbl.set
    split
    · exact if_neg (Ne.symm h)
    · split
      next hi =>
        have hp : ¬ p.1 = j := fun hj => h (hj.symm.trans hi.symm)
        exact (if_neg (Ne.symm h)).trans (if_neg hp).symm
      next =>
        show (if p.1 = j then _ else _) = if p.1 = j then _ else _
        rw [ih]

theorem modPred_cur (e : Eddy) (slot tile : Nat) (f : PredTile → PredTile) (hf : ∀ x, (f x).cur = x.cur) (i j : Nat) :
    ((e.modPred slot tile f).predTile i j).cur = (e.predTile i j).cur := by
  unfold Eddy.modPred
  by_cases h : 8 * i + j = 8 * slot + tile
  · have hi : e.predTile i j = e.predTile slot tile := by
      unfold Eddy.predTile
      rw [h]
    rw [Eddy.predTile, h, get?_set_self, hi]
    exact hf _
  · rw [Eddy.predTile, get?_set_ne _ _ h]
    rfl

theorem unitsQuiet_modEddy (s : State) (c : Fin 4) (f : Eddy → Eddy)
    (hf : ∀ x, (∀ i j, ((f x).predTile i j).cur = (x.predTile i j).cur) ∧ (f x).run = x.run) :
    UnitsQuiet s (s.modEddy c f) := fun d => by
  unfold State.modEddy
  rw [State.core_modCore]
  split
  next h =>
    obtain ⟨hp, hr⟩ := hf (s.core c).eddy
    rw [h]
    exact ⟨hp, fun hn => hr.trans hn, rfl, id⟩
  next => exact .of_units rfl rfl

theorem unitsQuiet_confirmItem (s : State) (c : Fin 4) (k : Fin 8) (i : SpecItem) : UnitsQuiet s (s.confirmItem c k i) := by
  unfold State.confirmItem
  extract_lets s1 s2 s3 s4
  have h1 : UnitsQuiet s s1 := ((onlyChanges_countReads (List.Subset.refl _)).2 (onlyChanges_refl _ s)).unitsQuiet (by decide)
  have h2 : UnitsQuiet s1 s2 := by
    simp only [s2]
    split <;> exact .refl _
  have h3 : UnitsQuiet s2 s3 := unitsQuiet_foldl (fun u q => (coresFramed_modRing u _ _ _).unitsQuiet) _ _
  have h4 : UnitsQuiet s3 s4 := by
    simp only [s4]
    split <;> exact .refl _
  refine ((h1.trans h2).trans (h3.trans h4)).trans ?_
  split
  · exact ((onlyChanges_violate (List.Subset.refl _)).2 (onlyChanges_refl _ s4)).unitsQuiet (by decide)
  · exact .refl _

theorem unitsQuiet_discardItem (s : State) (c : Fin 4) (k : Fin 8) (i : SpecItem) : UnitsQuiet s (s.discardItem c k i) := by
  unfold State.discardItem
  extract_lets s1 s2
  have h1 : UnitsQuiet s s1 := by
    simp only [s1]
    split <;> exact .refl _
  have h2 : UnitsQuiet s1 s2 := unitsQuiet_foldl (fun u q => (coresFramed_modRing u _ _ _).unitsQuiet) _ _
  refine (h1.trans h2).trans ?_
  split <;> exact .refl _

theorem unitsQuiet_modCtx (s : State) (c : Fin 4) (k : Fin 8) (f : Ctx → Ctx) : UnitsQuiet s (s.modCtx c k f) :=
  ((onlyChanges_modCtx (List.Subset.refl _)).2 (onlyChanges_refl _ s)).unitsQuiet (by decide)

theorem unitsQuiet_resolve (s : State) (c : Fin 4) (k : Fin 8) (actual : List Nat) (unit : Nat) :
    UnitsQuiet s (s.resolve c k actual unit) := by
  unfold State.resolve
  split
  · exact .refl s
  · split
    next p hp yes no hy =>
    extract_lets s1 s2 s3 bays slots lastYes cut s4 s5 s6 n s7 s8 s9
    have h2 : UnitsQuiet s s2 := (unitsQuiet_foldl (fun u i => unitsQuiet_discardItem u c k i) _ s).trans
      (unitsQuiet_foldl (fun u i => unitsQuiet_confirmItem u c k i) _ s1)
    have h3 : UnitsQuiet s2 s3 := by
      refine unitsQuiet_foldl (fun u g => ?_) _ s2
      unfold State.confirmOwner
      split <;> exact .refl _
    have h4 : UnitsQuiet s3 s4 := unitsQuiet_modCore s3 c _ (fun _ => rfl) (fun _ => rfl)
    have h6 : UnitsQuiet s4 s6 := (unitsQuiet_modCtx s4 c k _).trans (unitsQuiet_modCtx s5 c k _)
    have h7 : UnitsQuiet s6 s7 := by
      simp only [s7]
      split
      · exact unitsQuiet_modCtx _ _ _ _
      · exact .refl _
    have h8 : UnitsQuiet s7 s8 := by
      simp only [s8]
      split
      · exact unitsQuiet_modEddy _ _ _ (fun x => ⟨modPred_cur x _ _ _ (fun _ => rfl), rfl⟩)
      · exact .refl _
    have h9 : UnitsQuiet s8 s9 := unitsQuiet_modCtx _ _ _ _
    refine (((h2.trans h3).trans (h4.trans h6)).trans ((h7.trans h8).trans h9)).trans ?_
    split <;> exact .refl _

end

end Sys2Proof.Machine
end

section
/-! SUPPORT. Completion: what a unit that completes lands, and what it leaves of its core. -/

namespace Sys2Proof.Machine

/-! Whole controllers, from what a frame says of their bytes and of the rest. -/

theorem LineMem.eq_of_rest {m n : LineMem} (hr : m.rest = n.rest) (hb : m.bytes = n.bytes) : m = n := by
  cases m
  cases n
  simp only [LineMem.rest, LineMem.bytes, LineMem.mk.injEq, Prod.mk.injEq] at hr hb ⊢
  simp only [hr, hb, and_self]

section
variable {s t u : State} {c : Fin 4} {k : Fin 8} {r : RunOp} {A : List Part}

theorem OnlyChanges.stackArr (h : OnlyChanges A s t) (hs : Part.stacks ∉ A) (hb : Part.stackBytes ∉ A) (n : Fin 12) :
    (t.stack n).arr = (s.stack n).arr :=
  LineMem.eq_of_rest (congrArg Stack.arr (h .stacks hs n)) (h .stackBytes hb n)

theorem OnlyChanges.stcArr (h : OnlyChanges A s t) (hs : Part.stashes ∉ A) (hb : Part.stashBytes ∉ A) (n : Fin 8) :
    (t.stc n).arr = (s.stc n).arr :=
  LineMem.eq_of_rest (congrArg Stash.arr (h .stashes hs n)) (h .stashBytes hb n)

/-- A unit's operation has landed: its writes, its scale bytes, and nothing of it is in flight any more (R103). -/
def Landed (s : State) (c : Fin 4) (r : RunOp) (t : State) : Prop :=
  (∀ d, (t.core d).store = ((s.landAll (spread r.writes)).core d).store) ∧
  (∀ n, (t.stack n).arr = ((s.landAll (spread r.writes)).stack n).arr) ∧
  (∀ n, (t.stc n).arr = ((s.landAll (spread r.writes)).stc n).arr) ∧
  t.mxScales = r.scales.foldl (fun m q => Tbl.set m q.1 q.2) s.mxScales ∧
  ∀ f ∈ (t.core c).flights, ¬(f.ctx = r.ctx ∧ f.serial = r.serial)

/-- The state of a unit that completes, before its operation leaves the operations in flight. -/
def State.filled (s : State) (r : RunOp) : State :=
  r.fills.foldl (fun s q => s.modRing q.1 q.2.1 (fun x => x.fill q.2.2 r.poison))
    ((s.landAll (spread r.writes)).keepScales r.scales)

theorem finish_eq (s : State) (c : Fin 4) (r : RunOp) : s.finish c r = (s.filled r).landed c r.ctx r.serial := rfl

theorem filled_scaled (s : State) (r : RunOp) :
    OnlyChanges [.cores] ((s.landAll (spread r.writes)).keepScales r.scales) (s.filled r) :=
  onlyChanges_foldl (fun u _ => (onlyChanges_modRing (List.Subset.refl _)).2 (onlyChanges_refl _ u)) _ _

theorem finish_landAll (s : State) (c : Fin 4) (r : RunOp) :
    OnlyChanges [.cores, .mxScales] (s.landAll (spread r.writes)) (s.finish c r) := by
  rw [finish_eq]
  refine (onlyChanges_landed (by simp)).2 (OnlyChanges.trans ?_ ((filled_scaled s r).mono (by simp)))
  exact (onlyChanges_keepScales (by simp)).2 (onlyChanges_refl _ _)

theorem finish_mxScales (s : State) (c : Fin 4) (r : RunOp) :
    (s.finish c r).mxScales = r.scales.foldl (fun m q => Tbl.set m q.1 q.2) s.mxScales := by
  have hl : (s.landAll (spread r.writes)).mxScales = s.mxScales :=
    ((onlyChanges_landAll (List.Subset.refl _)).2 (onlyChanges_refl _ s)) .mxScales (by decide)
  show (s.filled r).mxScales = _
  rw [show (s.filled r).mxScales = _ from filled_scaled s r .mxScales (by decide), ← hl]
  rfl

theorem finish_flights (s : State) (c : Fin 4) (r : RunOp) :
    ∀ f ∈ ((s.finish c r).core c).flights, ¬(f.ctx = r.ctx ∧ f.serial = r.serial) := by
  intro f hf
  rw [finish_eq, State.landed, State.core_modCore_self] at hf
  obtain ⟨-, hf⟩ := List.mem_filter.1 hf
  exact fun ⟨hc, hs⟩ => by simp [hc, hs] at hf

theorem landed_finish (s : State) (c : Fin 4) (r : RunOp) : Landed s c r (s.finish c r) :=
  ⟨fun d => (finish_landAll s c r .stores (by decide) d).1, (finish_landAll s c r).stackArr (by decide) (by decide),
    (finish_landAll s c r).stcArr (by decide) (by decide), finish_mxScales s c r, finish_flights s c r⟩

/-- What happens on a core after an operation has landed leaves it landed. -/
theorem Landed.modCore (h : Landed s c r t) (f : Core → Core) (hs : ∀ x, (f x).store = x.store)
    (hf : ∀ x, (f x).flights = x.flights) : Landed s c r (t.modCore c f) := by
  obtain ⟨hstore, hstack, hstc, hmx, hfl⟩ := h
  refine ⟨fun d => ?_, hstack, hstc, hmx, ?_⟩
  · rw [State.core_modCore]
    split
    next hd => rw [hs, ← hstore, hd]
    next => exact hstore d
  · rw [State.core_modCore_self, hf]
    exact hfl

theorem Landed.close (h : Landed s c r t) : Landed s c r (close t) := by
  obtain ⟨hstore, hstack, hstc, hmx, hfl⟩ := h
  exact ⟨by simpa using hstore, by simpa using hstack, by simpa using hstc, by simpa using hmx, by simpa using hfl⟩

theorem Landed.modEddy (h : Landed s c r t) (f : Eddy → Eddy) : Landed s c r (t.modEddy c f) :=
  h.modCore _ (fun _ => rfl) (fun _ => rfl)

theorem landed_freeEddy (s : State) (c : Fin 4) (r : RunOp) (poison : Bool) :
    Landed s c r ((s.finish c r).freeEddy c r poison) := (landed_finish s c r).modEddy _

theorem run_freeEddy (s : State) (c : Fin 4) (r : RunOp) (poison : Bool) : ((s.freeEddy c r poison).core c).eddy.run = none :=
  (congrArg Eddy.run (eddy_modEddy _) :)

theorem predTile_freeEddy (s : State) (c : Fin 4) (r : RunOp) (poison : Bool) (i j : Nat) :
    ((s.freeEddy c r poison).core c).eddy.predTile i j = (s.core c).eddy.predTile i j :=
  (congrArg (Eddy.predTile · i j) (eddy_modEddy _) :)

theorem buf_freeEddy (s : State) (c : Fin 4) (r : RunOp) (poison : Bool) (side : Nat) :
    ((s.freeEddy c r poison).core c).eddy.buf side = (s.core c).eddy.buf side :=
  (congrArg (Eddy.buf · side) (eddy_modEddy _) :)

/-- Completion leaves every engine as it was, but for the one that is then freed. -/
theorem finish_framed (s : State) (c : Fin 4) (r : RunOp) : CoresFramed s (s.finish c r) := by
  have hl : CoresFramed s (s.landAll (spread r.writes)) :=
    ((onlyChanges_landAll (List.Subset.refl _)).2 (onlyChanges_refl _ s)).coresFramed (by decide)
  have hk : CoresFramed (s.landAll (spread r.writes)) ((s.landAll (spread r.writes)).keepScales r.scales) := .refl _
  have hf : CoresFramed ((s.landAll (spread r.writes)).keepScales r.scales) (s.filled r) := by
    unfold State.filled
    generalize (s.landAll (spread r.writes)).keepScales r.scales = u
    generalize r.fills = l
    induction l generalizing u with
    | nil => exact .refl u
    | cons q l ih => exact (coresFramed_modRing u _ _ _).trans (ih _)
  exact ((hl.trans hk).trans hf).trans (coresFramed_modCore _ c _ (fun _ => rfl))

/-! EXPAND (R174). -/

theorem buf_modBuf (e : Eddy) (side : Nat) (f : List ExpandChain → List ExpandChain) :
    (e.modBuf side f).buf side = f (e.buf side) := by
  unfold Eddy.modBuf Eddy.buf
  split <;> simp_all

theorem buf_expandDone (s : State) (c : Fin 4) (r : RunOp) (e : ExpandChain) :
    ((s.expandDone c r e).1.core c).eddy.buf (expSide r.op) = ((s.core c).eddy.buf (expSide r.op)).tail := by
  have h0 : ((s.modEddy c (fun y => y.modBuf (expSide r.op) List.tail)).core c).eddy.buf (expSide r.op) =
      ((s.core c).eddy.buf (expSide r.op)).tail := by
    rw [eddy_modEddy, buf_modBuf]
  have hland : ∀ (u : State) (bs : List WBlk), ((u.landAll bs).core c).eddy = (u.core c).eddy := fun u bs =>
    (((onlyChanges_landAll (List.Subset.refl _)).2 (onlyChanges_refl _ u)).coresFramed (by decide)).eddy c
  have hform : ∀ (u : State) (a : Nat), ((u.formError c a).core c).eddy.buf (expSide r.op) = (u.core c).eddy.buf (expSide r.op) :=
    fun u a => (congrArg (fun e : Eddy => e.buf (expSide r.op))
      (eddy_modEddy (t := u) (c := c) (fun e => { e with formErrorSeen := true, bank := e.bank.add 4 1 })) :)
  unfold State.expandDone
  dsimp only
  split
  · exact h0
  · split
    · rw [hland]
      exact h0
    · split
      · rw [hland, hform]
        exact h0
      · show (((State.landAll _ _).core c).eddy).buf _ = _
        rw [hland, hland]
        exact h0

/-! PREDICT (R180). -/

/-- The state of a PREDICT that completes, before its speculation point resolves. -/
def State.predicted (s : State) (c : Fin 4) (r : RunOp) (slot tile : Nat) (mask : List Bool) : State :=
  ((s.finish c r).freeEddy c r r.poison).modEddy c (fun e => e.modPred slot tile (fun t => { t with cur := some mask }))

theorem predicted_eddy (s : State) (c : Fin 4) (r : RunOp) (slot tile : Nat) (mask : List Bool) :
    ((s.predicted c r slot tile mask).core c).eddy.run = none ∧
      (((s.predicted c r slot tile mask).core c).eddy.predTile slot tile).cur = some mask := by
  unfold State.predicted
  rw [eddy_modEddy, predTile_modPred]
  exact ⟨run_freeEddy _ _ _ _, rfl⟩

theorem predicted_landed (s : State) (c : Fin 4) (r : RunOp) (slot tile : Nat) (mask : List Bool) :
    Landed s c r (s.predicted c r slot tile mask) := (landed_freeEddy s c r _).modEddy _

theorem predicted_ctx (s : State) (c : Fin 4) (r : RunOp) (slot tile : Nat) (mask : List Bool) (j : Fin 8) :
    (s.predicted c r slot tile mask).ctx c j = s.ctx c j := by
  have h : OnlyChanges (partsStore ++ [.cores, .mxScales]) s (s.predicted c r slot tile mask) := by
    unfold State.predicted State.freeEddy
    refine (onlyChanges_modEddy (by decide)).2 ((onlyChanges_modEddy (by decide)).2 ?_)
    refine OnlyChanges.trans ?_ ((finish_landAll s c r).mono (by decide))
    exact (onlyChanges_landAll (by decide)).2 (onlyChanges_refl _ s)
  exact h .ctxs (by decide) c j

/-- The state of a PREDICT that completes, with its speculation point resolved where it has one. -/
def State.predictResolved (s : State) (c : Fin 4) (r : RunOp) (slot tile : Nat) (mask : List Bool) : State :=
  let s2 := s.predicted c r slot tile mask
  let mine := match (s2.ctx c r.ctx).spec with | some p => p.pred == some (slot, tile, r.serial) | none => false
  if mine then s2.resolve c r.ctx (activeGroups mask) 16 else s2

theorem predictResolved_quiet (s : State) (c : Fin 4) (r : RunOp) (slot tile : Nat) (mask : List Bool) :
    UnitsQuiet (s.predicted c r slot tile mask) (s.predictResolved c r slot tile mask) := by
  unfold State.predictResolved
  extract_lets s2 mine
  split
  · exact unitsQuiet_resolve _ _ _ _ _
  · exact .refl _

theorem predictResolved_of_other {slot tile : Nat} {mask : List Bool}
    (h : ∀ p, (s.ctx c r.ctx).spec = some p → p.pred ≠ some (slot, tile, r.serial)) :
    s.predictResolved c r slot tile mask = s.predicted c r slot tile mask := by
  unfold State.predictResolved
  dsimp only
  rw [predicted_ctx]
  refine if_neg ?_
  split
  next p hp => simpa using h p hp
  next => decide

theorem UnitsQuiet.free {slot tile : Nat} {mask : List Bool} (h : UnitsQuiet s t)
    (hs : ((s.core c).eddy.run = none ∧ ((s.core c).eddy.predTile slot tile).cur = some mask)) :
    ((close t).core c).eddy.run = none ∧ (((close t).core c).eddy.predTile slot tile).cur = some mask := by
  obtain ⟨hr, hp⟩ := hs
  rw [core_close]
  exact ⟨(h c).eddy hr, ((h c).masks slot tile).trans hp⟩

end

/-- Settles O25, unit by unit. -/
theorem unitsComplete : Obligations.UnitsComplete := by
  unfold Obligations.UnitsComplete
  intro s c r landed
  refine ⟨?vec, ?copy, ?eddy, ?predict⟩
  case vec =>
    intro h
    have hl : Landed s c r ((s.finish c r).modCore c (fun x => { x with vec := none })) :=
      (landed_finish s c r).modCore _ (fun _ => rfl) (fun _ => rfl)
    refine gives_done (x := (s.finish c r).modCore c (fun x => { x with vec := none })) ?_ ?_
    · show execVectorOperationComplete c s = _
      unfold execVectorOperationComplete
      rw [h]
    · refine ⟨?_, hl.close⟩
      rw [core_close, State.core_modCore_self]
  case copy =>
    intro h
    have hl : Landed s c r ((s.finish c r).modCore c (fun x => { x with copy := none })) :=
      (landed_finish s c r).modCore _ (fun _ => rfl) (fun _ => rfl)
    refine gives_done (x := (s.finish c r).modCore c (fun x => { x with copy := none })) ?_ ?_
    · show execCopyOperationComplete c s = _
      unfold execCopyOperationComplete
      rw [h]
    · refine ⟨?_, hl.close⟩
      rw [core_close, State.core_modCore_self]
  case eddy =>
    intro h hp
    have hp' : ¬ r.predict.isSome = true := by rw [hp]; decide
    refine ⟨fun h23 h24 => ?_, fun ch rest h24 hbuf hch => ?_, fun r' q h23 hr' hq => ⟨fun hd => ?_, fun hd => ?_⟩⟩
    · refine gives_done (x := (s.finish c r).freeEddy c r r.poison) ?_ ⟨?_, (landed_freeEddy s c r _).close⟩
      · show execEddyOperationComplete c s = _
        unfold execEddyOperationComplete
        rw [h]
        dsimp only
        rw [if_neg hp', if_neg h23, if_neg h24]
      · rw [core_close, run_freeEddy]
    · refine gives_done (x := ((s.expandDone c r ch).1.finish c { r with poison := (s.expandDone c r ch).2 }).freeEddy c r
        (s.expandDone c r ch).2) ?_ ⟨?_, ?_⟩
      · show execEddyOperationComplete c s = _
        unfold execEddyOperationComplete
        rw [h]
        dsimp only
        rw [if_neg hp', if_neg (by rw [h24]; decide), if_pos h24, hbuf]
        exact if_pos hch
      · rw [core_close, run_freeEddy]
      · rw [core_close, buf_freeEddy, (finish_framed _ c _).eddy c, buf_expandDone, hbuf]
        rfl
    · refine gives_done (x := ((s.feedCompact c).finish c r').freeEddy c r' r'.poison) ?_ ?_
      · show execEddyOperationComplete c s = _
        unfold execEddyOperationComplete
        rw [h]
        dsimp only
        rw [if_neg hp', if_pos h23, hr']
        dsimp only
        rw [hq]
        exact if_pos hd
      · rw [core_close, run_freeEddy]
    · refine gives_done (x := s.feedCompact c) ?_ rfl
      show execEddyOperationComplete c s = _
      unfold execEddyOperationComplete
      rw [h]
      dsimp only
      rw [if_neg hp', if_pos h23, hr']
      dsimp only
      rw [hq]
      exact if_neg (by rw [hd]; decide)
  case predict =>
    intro slot tile mask vane h hp
    have hq := predictResolved_quiet s c r slot tile mask
    cases vane with
    | none =>
      refine gives_done (x := s.predictResolved c r slot tile mask) ?_ ?_
      · show execPredictComplete c s = _
        unfold execPredictComplete
        rw [h]
        dsimp only
        rw [hp]
        rfl
      · obtain ⟨hrun, hcur⟩ := hq.free (predicted_eddy s c r slot tile mask)
        refine ⟨hrun, hcur, fun _ hother => ?_⟩
        rw [predictResolved_of_other hother]
        exact (predicted_landed s c r slot tile mask).close
    | some v =>
      refine gives_done (x := (s.predictResolved c r slot tile mask).signalNow
        [unitSig (.core c v) s.self (max 1 (ceilDiv (activeGroups mask).length 16)) 2 c]) ?_ ?_
      · show execPredictComplete c s = _
        unfold execPredictComplete
        rw [h]
        dsimp only
        rw [hp]
        rfl
      · obtain ⟨hrun, hcur⟩ := (hq.trans (unitsQuiet_signalNow _ _)).free (predicted_eddy s c r slot tile mask)
        exact ⟨hrun, hcur, fun hn => by cases hn⟩

end Sys2Proof.Machine
end

section
/-! SUPPORT. A device tick. -/

namespace Sys2Proof.Machine

section
variable {s t : State}

/-- An answer shows in its status register (R32). -/
theorem shows_answer (x : CmdStatus) (a : Answer) (p : Path) (tag : Nat) (busy : Bool) : (x.answer a p tag busy).Shows a p tag busy :=
  ⟨rfl, rfl, rfl, rfl⟩

theorem tickFoehn_rst (s : State) (n : Fin 12) : (s.tickFoehn n).rst = s.rst := by
  unfold State.tickFoehn
  dsimp only
  split <;> rfl

theorem foldl_tickFoehn_rst (ns : List (Fin 12)) : ∀ s : State, (ns.foldl State.tickFoehn s).rst = s.rst := by
  induction ns with
  | nil => exact fun _ => rfl
  | cons n ns ih => exact fun s => (ih _).trans (tickFoehn_rst s n)

/-- Where no programming of fuses ends, the reset state stands. -/
theorem counted_rst (s : State) : s.counted.rst = s.rst := by
  unfold State.counted
  extract_lets t u
  have ht : t.rst = s.rst := foldl_tickFoehn_rst _ _
  have hu : u.rst = t.rst := by simp only [u, apply_ite State.rst, State.modSlip_rst, ite_self]
  rw [State.modEvr_rst, State.modHlt_rst, hu, ht]

/-- What a tick counts lies in these parts alone (R4). -/
theorem counted_onlyChanges (s : State) :
    OnlyChanges [.foehn, .slip, .hlt] (s.modDev (fun d => { d with tick := d.tick + 1 })) s.counted := by
  unfold State.counted
  simp +decide

theorem counted_dev (s : State) : s.counted.dev = { s.dev with tick := s.dev.tick + 1 } :=
  counted_onlyChanges s .dev (by decide)

theorem counted_frame (s : State) : OnlyChanges [.dev, .foehn, .slip, .hlt] s s.counted :=
  OnlyChanges.trans ((onlyChanges_modDev (by decide)).2 (onlyChanges_refl _ s)) ((counted_onlyChanges s).mono (by decide))

theorem counted_now (s : State) : s.counted.now = (s.dev.tick + 1).toNat := by
  unfold State.now
  rw [counted_dev]

/-- The fuses hold what was programmed, and the command that asked for it is answered (R362, R364). -/
theorem endFusing_sec (s : State) (f : Fusing) : (s.endFusing f).sec = { s.sec.fused f with
    cmd := ({ (s.sec.fused f).cmd with running := none } : CmdStatus).answer
      (if (s.sec.fused f).lifecycle = (if f.op = 4 then 1 else 2) then .done else .failed) f.path f.tag false } := rfl

theorem endFusing_fusing (s : State) (f : Fusing) : (s.endFusing f).rst.fusing = none := rfl

end

/-- Settles O2: with the fuses' programming ending, or not. -/
theorem emptyQueueIsATick : Obligations.EmptyQueueIsATick := by
  unfold Obligations.EmptyQueueIsATick
  intro s hq
  have hstep : step s = .next s.counted.tickFuse := by
    unfold step
    rw [hq]
    rfl
  refine ⟨fun hf => ?_, fun f hf hend => ?_⟩
  · have ht : s.counted.tickFuse = s.counted := by
      unfold State.tickFuse
      rw [counted_rst]
      split
      next f h => exact if_neg (by rw [counted_now]; have := hf f h; omega)
      next => rfl
    rw [ht] at hstep
    exact ⟨_, hstep, counted_dev s, State.counted_evr s, counted_rst s, counted_frame s⟩
  · have ht : s.counted.tickFuse = close (s.counted.endFusing f) := by
      unfold State.tickFuse
      rw [counted_rst, hf]
      exact if_pos (by rw [counted_now]; exact hend)
    have hsec : s.counted.sec = s.sec := counted_frame s .sec (by decide)
    have hdev : (s.counted.endFusing f).dev = s.counted.dev :=
      ((onlyChanges_endFusing (List.Subset.refl _)).2 (onlyChanges_refl _ _)) .dev (by decide)
    rw [ht] at hstep
    refine ⟨_, hstep, ?_, ?_, ?_, ?_, ?_, ?_, ?_, ?_⟩
    · rw [close_dev, hdev, counted_dev]
    · rw [close_fusing, endFusing_fusing]
    · rw [close_sec, endFusing_sec, hsec]
    · rw [close_sec, endFusing_sec, hsec]
    · rw [close_sec, endFusing_sec, hsec]
    · rw [close_sec, endFusing_sec, hsec]
    · rw [close_sec, endFusing_sec]
      exact shows_answer _ _ _ _ _
    · refine onlyChanges_close.2 ((onlyChanges_endFusing (by decide)).2 ((counted_frame s).mono (by decide)))

end Sys2Proof.Machine
end

section
/-! SUPPORT. The row of SEC_CMD: the first command has its effect, and the other commands of the handshake are answered
STATE_CONFLICT behind it (R32). -/

namespace Sys2Proof.Machine

/-! The order of the paths. -/

theorem rivalsFollow_rank {p : Path} {rivals : List Rival} (h : rivalsFollow p rivals = true) :
    ∀ r ∈ rivals, p.rank < r.path.rank := by
  induction rivals generalizing p with
  | nil => exact fun _ h => by cases h
  | cons q rs ih =>
    intro r hr
    obtain ⟨hq, hrs⟩ := Bool.and_eq_true_iff.1 h
    have hq' : p.rank < q.path.rank := of_decide_eq_true hq
    rcases List.mem_cons.1 hr with rfl | hr
    · exact hq'
    · exact hq'.trans (ih hrs r hr)

theorem secPath_inj {p q : Path} {i : Fin 2} (hp : secPath p = some i) (hq : secPath q = some i) : p = q := by
  have h01 : (0 : Fin 2) ≠ 1 := by decide
  cases p <;> cases q <;> simp_all [secPath, eq_comm]

/-- No other command of the handshake comes on the path of the first. -/
theorem rivals_elsewhere {p : Path} {rivals : List Rival} {i : Fin 2} (h : rivalsFollow p rivals = true)
    (hp : secPath p = some i) : ∀ r ∈ rivals, secPath r.path ≠ some i := by
  intro r hr hi
  have hlt := rivalsFollow_rank h r hr
  rw [secPath_inj hp hi] at hlt
  exact lt_irrefl _ hlt

section
variable {s t u : State} {p : Path} {rivals : List Rival} {i : Fin 2}

/-- The security block but for its answer, its nonces and its counters, the reset state and every other part are as they
were. -/
def SecStands (s t : State) : Prop :=
  OnlyChanges [.ports, .sec] s t ∧ t.rst = s.rst ∧
    t.sec = { s.sec with cmd := t.sec.cmd, nonces := t.sec.nonces, bank := t.sec.bank } ∧
    t.sec.cmd.busy = s.sec.cmd.busy ∧ t.sec.cmd.running = s.sec.cmd.running

theorem SecStands.refl (s : State) : SecStands s s := ⟨onlyChanges_refl _ s, rfl, rfl, rfl, rfl⟩

theorem SecStands.trans (h : SecStands s t) (h' : SecStands t u) : SecStands s u := by
  obtain ⟨ho, hr, hs, hb, hn⟩ := h
  obtain ⟨ho', hr', hs', hb', hn'⟩ := h'
  exact ⟨ho.trans ho', hr'.trans hr, by rw [hs', hs], hb'.trans hb, hn'.trans hn⟩

/-! One command behind the first. -/

/-- A command of the handshake behind the first. -/
def State.rivalWrite (s : State) (r : Rival) : State :=
  s.commandWrite r.path 0x040010 (fun s => s.secConflict r.op r.path r.tag.toNat)

theorem rivalWrite_sec (s : State) (r : Rival) : (s.rivalWrite r).sec = (s.secConflict r.op r.path r.tag.toNat).sec := by
  unfold State.rivalWrite State.commandWrite
  rw [transfer_sec]
  unfold State.secConflict
  cases secPath r.path with
  | none => rfl
  | some i =>
    dsimp only
    split <;> rfl

theorem rivalWrite_rst (s : State) (r : Rival) : (s.rivalWrite r).rst = s.rst := by
  unfold State.rivalWrite State.commandWrite State.transfer State.secConflict
  dsimp only
  cases secPath r.path with
  | none => split <;> rfl
  | some i =>
    dsimp only
    split <;> split <;> rfl

theorem rivalWrite_frame (s : State) (r : Rival) : OnlyChanges [.ports, .sec] s (s.rivalWrite r) := by
  unfold State.rivalWrite State.commandWrite
  simp +decide

theorem secStands_rivalWrite (s : State) (r : Rival) : SecStands s (s.rivalWrite r) := by
  refine ⟨rivalWrite_frame s r, rivalWrite_rst s r, ?_⟩
  rw [rivalWrite_sec]
  unfold State.secConflict
  cases secPath r.path with
  | none => exact ⟨rfl, rfl, rfl⟩
  | some i =>
    dsimp only
    split <;> exact ⟨rfl, rfl, rfl⟩

/-- It shows STATE_CONFLICT, and leaves BUSY as it is. -/
theorem rivalWrite_shows (s : State) (r : Rival) :
    (s.rivalWrite r).sec.cmd.Shows .conflict r.path r.tag.toNat s.sec.cmd.busy := by
  rw [rivalWrite_sec]
  unfold State.secConflict
  cases secPath r.path with
  | none => exact shows_answer _ _ _ _ _
  | some i =>
    dsimp only
    split <;> exact shows_answer _ _ _ _ _

/-- It leaves the nonce of every other path. -/
theorem rivalWrite_nonce (s : State) (r : Rival) (h : secPath r.path ≠ some i) :
    (s.rivalWrite r).sec.nonces.get i = s.sec.nonces.get i := by
  rw [rivalWrite_sec]
  unfold State.secConflict
  cases hp : secPath r.path with
  | none => rfl
  | some j =>
    have hj : ¬ j = i := fun hj => h (by rw [hp, hj])
    dsimp only
    split
    · have hv : (j : ℕ) ≠ (i : ℕ) := fun e => hj (Fin.ext e)
      show (s.sec.nonces.set j none).get i = _
      simp [Vector.get_eq_getElem, hv]
    · rfl

/-! All of them. -/

/-- The state after the other commands of a handshake. -/
def State.rivalWrites (s : State) (rivals : List Rival) : State := rivals.foldl State.rivalWrite s

theorem secStands_rivalWrites (s : State) (rivals : List Rival) : SecStands s (s.rivalWrites rivals) := by
  induction rivals generalizing s with
  | nil => exact .refl s
  | cons r rs ih => exact (secStands_rivalWrite s r).trans (ih _)

theorem showsLast_rivalWrites {a : Answer} {tag : Nat} {busy : Bool} (h : s.sec.cmd.Shows a p tag busy) :
    (s.rivalWrites rivals).sec.cmd.ShowsLast rivals a p tag busy := by
  induction rivals generalizing s a p tag with
  | nil => exact h
  | cons r rs ih =>
    obtain ⟨-, -, -, hb⟩ := h
    have hr := rivalWrite_shows s r
    rw [hb] at hr
    have hrs := ih hr
    cases rs with
    | nil => exact hrs
    | cons q qs =>
      unfold CmdStatus.ShowsLast at hrs ⊢
      rw [List.getLast?_cons_cons]
      cases hl : (q :: qs).getLast? with
      | none => simp at hl
      | some x =>
        rw [hl] at hrs
        exact hrs

theorem nonce_rivalWrites (h : ∀ r ∈ rivals, secPath r.path ≠ some i) :
    (s.rivalWrites rivals).sec.nonces.get i = s.sec.nonces.get i := by
  induction rivals generalizing s with
  | nil => rfl
  | cons r rs ih =>
    exact (ih fun q hq => h q (List.mem_cons_of_mem r hq)).trans (rivalWrite_nonce s r (h r List.mem_cons_self))

/-! The row. -/

/-- The state after the first command of a row of SEC_CMD. -/
def State.secWrite (s : State) (p : Path) (act : State → State) : State := s.commandWrite p 0x040010 act

theorem secRow_eq {act : State → State} (hf : rivalsFollow p rivals = true) (hr : s.allReach p rivals = true)
    (hs : s.dev.st ≠ .safe) : s.secRow p rivals act = done ((s.secWrite p act).rivalWrites rivals) := by
  unfold State.secRow State.commandRow
  rw [if_neg (by rw [hf, hr]; decide), if_neg (by simp [State.silent, hs])]
  rfl

theorem gives_secRow {c : Instr} {act : State → State} {P : State → Prop} (hf : rivalsFollow p rivals = true)
    (hr : s.allReach p rivals = true) (hs : s.dev.st ≠ .safe) (hc : exec c s = s.secRow p rivals act)
    (hP : P (close ((s.secWrite p act).rivalWrites rivals))) : Gives c s P :=
  gives_done (hc.trans (secRow_eq hf hr hs)) hP

/-- In the safe state the block does not answer (R405). -/
theorem gives_secRow_safe {c : Instr} {act : State → State} (hf : rivalsFollow p rivals = true)
    (hr : s.allReach p rivals = true) (hs : s.dev.st = .safe) (hc : exec c s = s.secRow p rivals act) :
    Gives c s (OnlyChanges [.ports] s) := by
  refine gives_done (x := rivals.foldl (fun s r => s.silentWrite r.path) (s.silentWrite p)) (hc.trans ?_) ?_
  · unfold State.secRow State.commandRow
    rw [if_neg (by rw [hf, hr]; decide), if_pos (by simp [State.silent, hs])]
  · have h1 : ∀ (u : State) q, OnlyChanges [.ports] u (u.silentWrite q) := fun u q => by
      unfold State.silentWrite
      split <;> simp
    exact onlyChanges_close.2 ((h1 s p).trans (onlyChanges_foldl (fun u (r : Rival) => h1 u r.path) _ _))

theorem secWrite_sec (act : State → State) :
    (s.secWrite p act).sec = (act (s.respond p (s.verdict p 0x040010 true) [])).sec := by
  unfold State.secWrite State.commandWrite
  rw [transfer_sec]

/-- A command that is taken acts (R32). -/
theorem secCommand_takes {op tag : Nat} {act : Fin 2 → State → State} (hi : secPath p = some i) (hb : s.sec.cmd.busy = false) :
    s.secCommand op p tag act = act i s := by
  unfold State.secCommand
  rw [hi]
  exact if_neg (by rw [hb]; decide)

theorem secCommand_busy {op tag : Nat} {act : Fin 2 → State → State} (hi : secPath p = some i) (hb : s.sec.cmd.busy = true) :
    s.secCommand op p tag act = s.secConflict op p tag := by
  unfold State.secCommand
  rw [hi]
  exact if_pos hb

theorem secCommand_denied {op tag : Nat} {act : Fin 2 → State → State} (hi : secPath p = none) :
    s.secCommand op p tag act = (s.denyReg p 0x040010).secAnswer p tag .denied s.sec.cmd.busy := by
  unfold State.secCommand
  rw [hi]

end

end Sys2Proof.Machine
end

section
/-! SUPPORT. Nonces, the end of sessions, and the unlocking of the memories. -/

namespace Sys2Proof.Machine

section
variable {s t u : State} {p : Path} {rivals : List Rival} {i : Fin 2} {tag : Nat}

/-! What the first command of a row leaves of the security block stands behind the other ones. -/

theorem SecStands.session (h : SecStands s t) (i : Fin 2) : t.session i = s.session i := by
  obtain ⟨-, -, hs, -⟩ := h
  unfold State.session
  rw [hs]

theorem session_rivalWrites (s : State) (rivals : List Rival) (i : Fin 2) :
    (close (s.rivalWrites rivals)).session i = s.session i := by
  unfold State.session
  rw [close_sec]
  exact (secStands_rivalWrites s rivals).session i

/-- The answer of the first command shows where no other came behind it (R32). -/
theorem shows_row {x : CmdStatus} {a : Answer} {busy : Bool} (h : u.sec.cmd = x.answer a p tag busy) :
    (close (u.rivalWrites rivals)).sec.cmd.ShowsLast rivals a p tag busy := by
  rw [close_sec]
  refine showsLast_rivalWrites ?_
  rw [h]
  exact shows_answer _ _ _ _ _

/-! NONCE and END_SESSION that are taken. -/

theorem cmdNonce_draws (hi : secPath p = some i) (hb : s.sec.cmd.busy = false) (he : s.sec.entropyFail = false) :
    (State.cmdNonce p tag s).sec = { s.sec with
      draws := s.sec.draws + 1, nonces := s.sec.nonces.set i (some (drawBytes s.sec.draws 32))
      cmd := s.sec.cmd.answer .done p tag false } := by
  unfold State.cmdNonce
  rw [secCommand_takes hi hb, if_neg (by rw [he]; decide)]
  rfl

theorem cmdNonce_fails (hi : secPath p = some i) (hb : s.sec.cmd.busy = false) (he : s.sec.entropyFail = true) :
    (State.cmdNonce p tag s).sec = { s.sec with cmd := s.sec.cmd.answer .failed p tag false } := by
  unfold State.cmdNonce
  rw [secCommand_takes hi hb, if_pos he]
  rfl

theorem cmdEndSession_ends (hi : secPath p = some i) (hb : s.sec.cmd.busy = false) (ho : s.sessionOpen i = true) :
    (State.cmdEndSession p tag s).sec = { s.sec with
      sessions := s.sec.sessions.set i none, cmd := s.sec.cmd.answer .done p tag false } := by
  unfold State.cmdEndSession
  rw [secCommand_takes hi hb, if_pos ho]
  rfl

theorem cmdEndSession_conflict (hi : secPath p = some i) (hb : s.sec.cmd.busy = false) (ho : s.sessionOpen i = false) :
    (State.cmdEndSession p tag s).sec = { s.sec with cmd := s.sec.cmd.answer .conflict p tag false } := by
  unfold State.cmdEndSession
  rw [secCommand_takes hi hb, if_neg (by rw [ho]; decide)]
  rfl

theorem vector_get_set_self {α : Type} {n : Nat} (v : Vector α n) (i : Fin n) (x : α) : (v.set i x).get i = x := by
  simp [Vector.get_eq_getElem]

/-! The unlock. -/

/-- What the zero fill leaves of every memory (R383). -/
theorem zeroFill_zeros (s : State) : s.zeroFill.loaded = false ∧ (∀ n, (s.zeroFill.stack n).arr = LineMem.zero) ∧
    (∀ n, (s.zeroFill.stc n).arr = LineMem.zero ∧ (s.zeroFill.stc n).key = none) ∧ ∀ c, (s.zeroFill.core c).store = [] := by
  refine ⟨rfl, fun n => ?_, fun n => ?_, fun c => ?_⟩
  · simp [State.zeroFill, State.stack]
  · simp [State.zeroFill, State.stc]
  · simp [State.zeroFill, State.core, State.dropTables, Core.wiped]

/-- The state of an unlock that completes, before its answer (R383). -/
def State.unlockedAll (s : State) : State :=
  s.zeroFill.modSec (fun x => { x with zeroising := false, zeroiseFlag := false, debugOpen := true })

/-- What an unlock leaves, where only the security block's answer follows. -/
theorem unlockedAll_leaves (ht : OnlyChanges [.sec] s.unlockedAll t) (hz : t.sec.zeroising = false)
    (hd : t.sec.debugOpen = true) :
    (close t).sec.zeroising = false ∧ (close t).sec.debugOpen = true ∧ (close t).loaded = false ∧
      (∀ n, ((close t).stack n).arr = LineMem.zero) ∧
      (∀ n, ((close t).stc n).arr = LineMem.zero ∧ ((close t).stc n).key = none) ∧ ∀ c, ((close t).core c).store = [] := by
  obtain ⟨hl, hst, hsc, hco⟩ := zeroFill_zeros s
  refine ⟨by rw [close_sec, hz], by rw [close_sec, hd], ?_, fun n => ?_, fun n => ?_, fun c => ?_⟩
  · rw [close_loaded, show t.loaded = s.unlockedAll.loaded from ht .loaded (by decide)]
    exact hl
  · rw [stack_close, ht.stackArr (by decide) (by decide)]
    exact hst n
  · have hk : (t.stc n).key = (s.unlockedAll.stc n).key := (congrArg Stash.key (ht .stashes (by decide) n) :)
    rw [stc_close, ht.stcArr (by decide) (by decide), hk]
    exact hsc n
  · obtain ⟨hstore, -⟩ := ht .stores (by decide) c
    rw [core_close, hstore]
    exact hco c

end

/-- Settles O46. -/
theorem secrecyCommandsTakeEffect : Obligations.SecrecyCommandsTakeEffect := by
  unfold Obligations.SecrecyCommandsTakeEffect
  intro s p tag rivals i
  refine ⟨?safe, ?taken, ?expiry, ?fail, ?unlock⟩
  case safe => exact fun hf hr hs => gives_secRow_safe hf hr hs (show execNonce p ⟨tag, rivals⟩ s = _ from rfl)
  case taken =>
    rintro hf hr ⟨hs, hi, hb⟩
    have helse := rivals_elsewhere hf hi
    refine ⟨fun he => ?_, fun he => ?_, fun ho => ?_, fun ho => ?_⟩
    · refine gives_secRow hf hr hs (show execNonce p ⟨tag, rivals⟩ s = _ from rfl) ?_
      have hsec := (secWrite_sec (s := s) (p := p) (State.cmdNonce p tag.toNat)).trans (cmdNonce_draws hi hb he)
      obtain ⟨-, -, hst, -⟩ := secStands_rivalWrites (s.secWrite p (State.cmdNonce p tag.toNat)) rivals
      refine ⟨?_, ?_, ?_⟩
      · rw [close_sec, nonce_rivalWrites helse, hsec]
        exact vector_get_set_self _ _ _
      · rw [close_sec, hst, hsec]
        rfl
      · exact shows_row (congrArg Sec.cmd hsec)
    · refine gives_secRow hf hr hs (show execNonce p ⟨tag, rivals⟩ s = _ from rfl) ?_
      have hsec := (secWrite_sec (s := s) (p := p) (State.cmdNonce p tag.toNat)).trans (cmdNonce_fails hi hb he)
      refine ⟨?_, ?_⟩
      · rw [close_sec, nonce_rivalWrites helse, hsec]
        rfl
      · exact shows_row (congrArg Sec.cmd hsec)
    · refine gives_secRow hf hr hs (show execEndSession p ⟨tag, rivals⟩ s = _ from rfl) ?_
      have hsec := (secWrite_sec (s := s) (p := p) (State.cmdEndSession p tag.toNat)).trans (cmdEndSession_ends hi hb ho)
      refine ⟨?_, ?_⟩
      · rw [session_rivalWrites, State.session, hsec]
        exact vector_get_set_self _ _ _
      · exact shows_row (congrArg Sec.cmd hsec)
    · refine gives_secRow hf hr hs (show execEndSession p ⟨tag, rivals⟩ s = _ from rfl) ?_
      have hsec := (secWrite_sec (s := s) (p := p) (State.cmdEndSession p tag.toNat)).trans (cmdEndSession_conflict hi hb ho)
      refine ⟨?_, ?_⟩
      · rw [session_rivalWrites, State.session, hsec]
        rfl
      · exact shows_row (congrArg Sec.cmd hsec)
  case expiry =>
    intro x hi hx hle
    refine gives_done (x := s.dropSession i) ?_ ?_
    · show execSessionExpiry p s = _
      unfold execSessionExpiry
      rw [hi]
      dsimp only
      rw [hx]
      exact if_pos hle
    · rw [State.session, close_sec]
      exact (session_dropSession i i).trans (if_pos rfl)
  case fail => exact gives_done rfl (by rw [close_sec]; rfl)
  case unlock =>
    intro hz
    cases hr : s.unlockedAll.sec.cmd.running with
    | none =>
      refine gives_done (x := s.unlockedAll) ?_ (unlockedAll_leaves (onlyChanges_refl _ _) rfl rfl)
      show execUnlockComplete s = _
      unfold execUnlockComplete
      rw [if_neg (by rw [hz]; decide)]
      dsimp only
      rw [show (s.zeroFill.modSec _).sec.cmd.running = none from hr]
      rfl
    | some r =>
      obtain ⟨op, q, n⟩ := r
      refine gives_done (x := (s.unlockedAll.modSec (fun x => { x with cmd := { x.cmd with running := none } })).secAnswer q n
        .done false) ?_ (unlockedAll_leaves (s := s) ?_ rfl rfl)
      · show execUnlockComplete s = _
        unfold execUnlockComplete
        rw [if_neg (by rw [hz]; decide)]
        dsimp only
        rw [show (s.zeroFill.modSec _).sec.cmd.running = some (op, q, n) from hr]
        rfl
      · exact (onlyChanges_secAnswer (by simp)).2 ((onlyChanges_modSec (by simp)).2 (onlyChanges_refl _ _))

end Sys2Proof.Machine
end

section
/-! SUPPORT. Tokens that fail a check, and commands of other paths than the two that may give them. -/

namespace Sys2Proof.Machine

section
variable {s t u : State} {p : Path} {rivals : List Rival} {i : Fin 2} {op tag : Nat} {a : Answer}
  {act : Fin 2 → List Byte → State → State × Answer}

/-- Lifecycle, key slots, the pending policy, sessions and DEBUG_OPEN stand, and so does every part but the ports and the
security block. -/
def SecKept (s t : State) : Prop :=
  t.sec.lifecycle = s.sec.lifecycle ∧ t.sec.slots = s.sec.slots ∧ t.sec.pending = s.sec.pending ∧
    t.sec.sessions = s.sec.sessions ∧ t.sec.debugOpen = s.sec.debugOpen ∧ OnlyChanges [.ports, .sec] s t

theorem SecStands.kept (h : SecStands s t) : SecKept s t := by
  obtain ⟨ho, -, hs, -⟩ := h
  rw [SecKept, hs]
  exact ⟨rfl, rfl, rfl, rfl, rfl, ho⟩

theorem SecKept.trans (h : SecKept s t) (h' : SecKept t u) : SecKept s u := by
  obtain ⟨h1, h2, h3, h4, h5, ho⟩ := h
  obtain ⟨h1', h2', h3', h4', h5', ho'⟩ := h'
  exact ⟨h1'.trans h1, h2'.trans h2, h3'.trans h3, h4'.trans h4, h5'.trans h5, ho.trans ho'⟩

theorem SecKept.close (h : SecKept s t) : SecKept s (close t) := by
  obtain ⟨h1, h2, h3, h4, h5, ho⟩ := h
  refine ⟨?_, ?_, ?_, ?_, ?_, onlyChanges_close.2 ho⟩ <;> rw [close_sec] <;> assumption

/-! A token that is answered without its effect. -/

theorem tokenCommand_refused (hi : secPath p = some i) (hb : s.sec.cmd.busy = false)
    (hc : s.tokenCheck op i (s.token i) = some a) :
    s.tokenCommand op p tag act = s.tokenAnswer op i (s.token i) p tag a false := by
  unfold State.tokenCommand
  rw [secCommand_takes hi hb]
  dsimp only
  rw [hc]

theorem tokenCommand_busy (hi : secPath p = some i) (hb : s.sec.cmd.busy = true) (hn : needsToken op = true) :
    s.tokenCommand op p tag act = s.tokenAnswer op i (s.token i) p tag .conflict true := by
  unfold State.tokenCommand
  rw [secCommand_busy hi hb, State.secConflict, hi]
  dsimp only
  rw [if_pos hn, hb]

/-- The three stages of R359 answer with a refusal. -/
theorem tokenCheck_refusal {tok : List Byte} (hc : s.tokenCheck op i tok = some a) :
    a = .malformed ∨ a = .denied ∨ a = .conflict := by
  unfold State.tokenCheck at hc
  split at hc
  · exact .inl (Option.some.inj hc).symm
  · split at hc
    · exact .inr (.inl (Option.some.inj hc).symm)
    · split at hc
      · exact .inr (.inr (Option.some.inj hc).symm)
      · cases hc

/-- What an answered token leaves of the security block (R359). -/
theorem tokenAnswer_sec {tok : List Byte} {busy : Bool} : (s.tokenAnswer op i tok p tag a busy).sec = { s.sec with
    nonces := s.sec.nonces.set i none, cmd := s.sec.cmd.answer a p tag busy
    bank := match a with
      | .done | .accepted => s.sec.bank.add 0 1
      | .malformed | .denied | .conflict => s.sec.bank.add 1 1
      | .failed => s.sec.bank } := by
  cases a <;> rfl

theorem tokenAnswer_rst {tok : List Byte} {busy : Bool} : (s.tokenAnswer op i tok p tag a busy).rst = s.rst := by
  unfold State.tokenAnswer State.secAnswer State.commandRecord
  simp only [State.ask_rst, State.modSec_rst]

theorem tokenAnswer_stands {tok : List Byte} {busy : Bool} (hb : busy = s.sec.cmd.busy) :
    SecStands s (s.tokenAnswer op i tok p tag a busy) := by
  refine ⟨(onlyChanges_tokenAnswer (by simp)).2 (onlyChanges_refl _ s), tokenAnswer_rst, ?_⟩
  rw [tokenAnswer_sec]
  exact ⟨rfl, hb, rfl⟩

theorem tokenAnswer_refusal_bank {tok : List Byte} {busy : Bool} (ha : a = .malformed ∨ a = .denied ∨ a = .conflict) :
    (s.tokenAnswer op i tok p tag a busy).sec.bank = s.sec.bank.add 1 1 := by
  rw [tokenAnswer_sec]
  rcases ha with rfl | rfl | rfl <;> rfl

theorem tokenAnswer_nonce {tok : List Byte} {busy : Bool} :
    (s.tokenAnswer op i tok p tag a busy).sec.nonces.get i = none := by
  rw [tokenAnswer_sec]
  exact vector_get_set_self _ _ _

theorem secWrite_frame (s : State) (p : Path) (act : State → State) :
    OnlyChanges [.ports] (act (s.respond p (s.verdict p 0x040010 true) [])) (s.secWrite p act) := by
  unfold State.secWrite State.commandWrite
  simp

/-- The response on the path is all that precedes a command. -/
theorem secStands_respond (s : State) (r : Resp) : SecStands s (s.respond p r []) :=
  ⟨(onlyChanges_respond (by simp)).2 (onlyChanges_refl _ s), rfl, rfl, rfl, rfl⟩

theorem secStands_transfer (s : State) (r : Option Resp) : SecStands s (s.transfer p r) := by
  refine ⟨by simp, ?_, ?_⟩
  · unfold State.transfer
    split <;> rfl
  · rw [transfer_sec]
    exact ⟨rfl, rfl, rfl⟩

theorem secStands_secWrite {f : State → State} (h : ∀ u, SecStands u (f u)) : SecStands s (s.secWrite p f) :=
  ((secStands_respond s _).trans (h _)).trans (secStands_transfer _ _)

/-- A command of SEC_CMD that is answered and has no other effect: the nonce of its path is consumed and the failure counted. -/
def TokenRefused (s : State) (p : Path) (rivals : List Rival) (tag : Nat) (i : Fin 2) (a : Answer) (busy : Bool) (t : State) :
    Prop :=
  t.sec.cmd.ShowsLast rivals a p tag busy ∧ t.sec.nonces.get i = none ∧ (rivals = [] → t.sec.bank = s.sec.bank.add 1 1) ∧
    SecKept s t

theorem tokenRefused_of_answer {f : State → State} {busy : Bool} {tok : List Byte} (hf : rivalsFollow p rivals = true)
    (hi : secPath p = some i) (ha : a = .malformed ∨ a = .denied ∨ a = .conflict) (hb : busy = s.sec.cmd.busy)
    (he : ∀ u, u = s.respond p (s.verdict p 0x040010 true) [] → f u = u.tokenAnswer op i tok p tag a busy) :
    TokenRefused s p rivals tag i a busy (close ((s.secWrite p f).rivalWrites rivals)) := by
  have hw : s.secWrite p f = ((s.respond p (s.verdict p 0x040010 true) []).tokenAnswer op i tok p tag a busy).transfer p
      (some (s.verdict p 0x040010 true)) := by
    unfold State.secWrite State.commandWrite
    rw [← he _ rfl]
  have hs : SecStands s (s.secWrite p f) := by
    rw [hw]
    exact ((secStands_respond s _).trans (tokenAnswer_stands hb)).trans (secStands_transfer _ _)
  refine ⟨shows_row (x := s.sec.cmd) ?_, ?_, fun hr => ?_, (hs.trans (secStands_rivalWrites _ _)).kept.close⟩
  · rw [hw, transfer_sec, tokenAnswer_sec]
    rfl
  · rw [close_sec, nonce_rivalWrites (rivals_elsewhere hf hi), hw, transfer_sec]
    exact tokenAnswer_nonce
  · subst hr
    rw [close_sec]
    show (s.secWrite p f).sec.bank = _
    rw [hw, transfer_sec, tokenAnswer_refusal_bank ha]
    rfl

/-- A token command whose token fails a check (R359). -/
theorem gives_tokenRefused {c : Instr} (hf : rivalsFollow p rivals = true) (hr : s.allReach p rivals = true)
    (hc : exec c s = s.secRow p rivals (fun s => s.tokenCommand op p tag act)) (hm : s.MayCommand p i)
    (ha : s.tokenCheck op i (s.token i) = some a) : Gives c s (TokenRefused s p rivals tag i a false) := by
  obtain ⟨hs, hi, hb⟩ := hm
  refine gives_secRow hf hr hs hc (tokenRefused_of_answer (op := op) (tok := s.token i) hf hi (tokenCheck_refusal ha) hb.symm ?_)
  rintro u rfl
  exact tokenCommand_refused hi hb ha

/-- A token command that comes while another one runs (R32). -/
theorem gives_tokenBusy {c : Instr} (hf : rivalsFollow p rivals = true) (hr : s.allReach p rivals = true)
    (hc : exec c s = s.secRow p rivals (fun s => s.tokenCommand op p tag act)) (hn : needsToken op = true)
    (hs : s.dev.st ≠ .safe) (hi : secPath p = some i) (hb : s.sec.cmd.busy = true) :
    Gives c s (TokenRefused s p rivals tag i .conflict true) := by
  refine gives_secRow hf hr hs hc (tokenRefused_of_answer (op := op) (tok := s.token i) hf hi (.inr (.inr rfl)) hb.symm ?_)
  rintro u rfl
  exact tokenCommand_busy hi hb hn

/-- Both ways in which a token is answered without its effect. -/
theorem refusedToken {c : Instr} (hf : rivalsFollow p rivals = true) (hr : s.allReach p rivals = true)
    (hc : exec c s = s.secRow p rivals (fun s => s.tokenCommand op p tag act)) (hn : needsToken op = true) :
    (∀ a, s.MayCommand p i → s.tokenCheck op i (s.token i) = some a → Gives c s (TokenRefused s p rivals tag i a false)) ∧
      (s.dev.st ≠ .safe → secPath p = some i → s.sec.cmd.busy = true → Gives c s (TokenRefused s p rivals tag i .conflict true)) :=
  ⟨fun _ hm ha => gives_tokenRefused hf hr hc hm ha, fun hs hi hb => gives_tokenBusy hf hr hc hn hs hi hb⟩

/-- A command of another path is DENIED (R352, R360). -/
theorem gives_secDenied {c : Instr} {act : Fin 2 → State → State} (hf : rivalsFollow p rivals = true)
    (hr : s.allReach p rivals = true) (hs : s.dev.st ≠ .safe) (hi : secPath p = none)
    (hc : exec c s = s.secRow p rivals (fun s => s.secCommand op p tag act)) :
    Gives c s (fun t => t.sec.cmd.ShowsLast rivals .denied p tag s.sec.cmd.busy ∧ t.sec.deniedSeen = true ∧
      (rivals = [] → t.sec.nonces = s.sec.nonces ∧ t.sec.bank = s.sec.bank.add 2 1) ∧ SecKept s t) := by
  refine gives_secRow hf hr hs hc ?_
  set u := s.secWrite p (fun s => s.secCommand op p tag act) with hu
  have hsec : u.sec = { s.sec with
      deniedSeen := true, bank := s.sec.bank.add 2 1, cmd := s.sec.cmd.answer .denied p tag s.sec.cmd.busy } := by
    rw [hu, secWrite_sec, secCommand_denied hi]
    rfl
  have hk : SecKept s u := by
    rw [SecKept, hsec]
    refine ⟨rfl, rfl, rfl, rfl, rfl, OnlyChanges.trans ?_ ((secWrite_frame s p _).mono (by simp))⟩
    rw [secCommand_denied hi]
    simp
  obtain ⟨-, -, hst, -⟩ := secStands_rivalWrites u rivals
  refine ⟨shows_row (congrArg Sec.cmd hsec), ?_, fun hr => ?_, (hk.trans (secStands_rivalWrites u rivals).kept).close⟩
  · rw [close_sec, hst, hsec]
  · subst hr
    rw [close_sec, State.rivalWrites, List.foldl_nil, hsec]
    exact ⟨rfl, rfl⟩

end

/-- Settles O45. -/
theorem failedTokensChangeNothing : Obligations.FailedTokensChangeNothing := by
  unfold Obligations.FailedTokensChangeNothing
  intro s p tag rivals i hf hr kept unchanged refused
  refine ⟨?denied, ?session, ?ship, ?fuseOwner, ?keyLoad, ?keyDelete, ?policy, ?endorse, ?debugUnlock⟩
  case denied =>
    intro hs hi c hc
    simp only [List.mem_cons, List.not_mem_nil, or_false] at hc
    rcases hc with rfl | rfl | rfl | rfl | rfl | rfl | rfl | rfl | rfl | rfl
    · exact gives_secDenied hf hr hs hi (show execNonce p ⟨tag, rivals⟩ s = _ from rfl)
    · exact gives_secDenied hf hr hs hi (show execSession p ⟨tag, rivals⟩ s = _ from rfl)
    · exact gives_secDenied hf hr hs hi (show execEndSession p ⟨tag, rivals⟩ s = _ from rfl)
    · exact gives_secDenied hf hr hs hi (show execShip p ⟨tag, rivals, []⟩ s = _ from rfl)
    · exact gives_secDenied hf hr hs hi (show execFuseOwner p ⟨tag, rivals, []⟩ s = _ from rfl)
    · exact gives_secDenied hf hr hs hi (show execKeyLoad p ⟨tag, rivals⟩ s = _ from rfl)
    · exact gives_secDenied hf hr hs hi (show execKeyDelete p ⟨tag, rivals⟩ s = _ from rfl)
    · exact gives_secDenied hf hr hs hi (show execPolicy p ⟨tag, rivals⟩ s = _ from rfl)
    · exact gives_secDenied hf hr hs hi (show execEndorse p ⟨tag, rivals⟩ s = _ from rfl)
    · exact gives_secDenied hf hr hs hi (show execDebugUnlock p ⟨tag, rivals⟩ s = _ from rfl)
  case session =>
    exact refusedToken hf hr (show execSession p ⟨tag, rivals⟩ s = _ from rfl) rfl
  case ship =>
    exact fun bad => refusedToken hf hr (show execShip p ⟨tag, rivals, bad⟩ s = _ from rfl) rfl
  case fuseOwner =>
    exact fun bad => refusedToken hf hr (show execFuseOwner p ⟨tag, rivals, bad⟩ s = _ from rfl) rfl
  case keyLoad =>
    exact refusedToken hf hr (show execKeyLoad p ⟨tag, rivals⟩ s = _ from rfl) rfl
  case keyDelete =>
    exact refusedToken hf hr (show execKeyDelete p ⟨tag, rivals⟩ s = _ from rfl) rfl
  case policy =>
    exact refusedToken hf hr (show execPolicy p ⟨tag, rivals⟩ s = _ from rfl) rfl
  case endorse =>
    exact refusedToken hf hr (show execEndorse p ⟨tag, rivals⟩ s = _ from rfl) rfl
  case debugUnlock =>
    exact refusedToken hf hr (show execDebugUnlock p ⟨tag, rivals⟩ s = _ from rfl) rfl

end Sys2Proof.Machine
end

section
/-! SUPPORT. Tokens that pass. -/

namespace Sys2Proof.Machine

section
variable {s u v x : State} {p : Path} {rivals : List Rival} {i : Fin 2} {op tag : Nat} {a : Answer} {tok : List Byte}
  {act : Fin 2 → List Byte → State → State × Answer}

/-! The effect and the answer of a token that passes. -/

/-- A token that passes and writes nothing that a flush holds up. -/
theorem tokenCommand_passes (hi : secPath p = some i) (hb : s.sec.cmd.busy = false) (hc : s.tokenCheck op i (s.token i) = none)
    (ha : act i (tokBody (s.token i)) s = (v, a)) (hk : (decide (a = .done) && keepsState op) = false) :
    s.tokenCommand op p tag act = v.tokenAnswer op i (s.token i) p tag a (a == .accepted) := by
  unfold State.tokenCommand
  rw [secCommand_takes hi hb]
  dsimp only
  rw [hc]
  dsimp only
  rw [ha]
  exact if_neg (by rw [hk]; simp)

/-- The answer of a command that writes the owner security state (R411, R423). -/
def State.keptAnswer (s : State) : Answer := if s.keepHeld.isSome then .accepted else .done

/-- The state that such a command leaves before its answer: it stays BUSY while a flush holds its writes up. -/
def State.keptRunning (s x : State) (op : Nat) (p : Path) (tag : Nat) : State :=
  if s.keepHeld.isSome then x.modSec (fun y => { y with cmd := { y.cmd with running := some (op, p, tag) } }) else x

theorem tokenCommand_keeps (hi : secPath p = some i) (hb : s.sec.cmd.busy = false) (hc : s.tokenCheck op i (s.token i) = none)
    (ha : act i (tokBody (s.token i)) s = (x, .done)) (hk : keepsState op = true) :
    s.tokenCommand op p tag act =
      (s.keptRunning x op p tag).tokenAnswer op i (s.token i) p tag s.keptAnswer (s.keptAnswer == .accepted) := by
  unfold State.tokenCommand
  rw [secCommand_takes hi hb]
  dsimp only
  rw [hc]
  dsimp only
  rw [ha]
  unfold State.keptAnswer State.keptRunning
  dsimp only
  cases hh : s.keepHeld.isSome with
  | true => exact if_pos (by rw [hk]; rfl)
  | false => exact if_neg (by simp)

theorem keptRunning_sec (s x : State) (op : Nat) (p : Path) (tag : Nat) :
    (s.keptRunning x op p tag).sec = { x.sec with cmd := (s.keptRunning x op p tag).sec.cmd } := by
  unfold State.keptRunning
  split <;> rfl

theorem keptAnswer_ends (s : State) : s.keptAnswer = .done ∨ s.keptAnswer = .accepted := by
  unfold State.keptAnswer
  split
  · exact .inr rfl
  · exact .inl rfl

theorem storeKey_use (s : State) (slot use : Nat) (key : List Byte) :
    ((s.storeKey slot use key).sec.slots.get (Fin.ofNat 16 slot)).use = use := by
  show ((s.sec.slots.set (Fin.ofNat 16 slot) ⟨use, _, _⟩).get (Fin.ofNat 16 slot)).use = use
  rw [vector_get_set_self]

/-- What a POLICY whose token passes leaves (R354, R364). -/
def State.policySet (s : State) (pol g : Nat) : State :=
  s.modSec (fun x => { x with pending := pol, minGrant := g, sessions := x.sessions.map (endsService pol g) })

theorem policySet_sec (s : State) (pol g : Nat) : (s.policySet pol g).sec.pending = pol ∧ (s.policySet pol g).sec.minGrant = g ∧
    (s.policySet pol g).sec.policy = s.sec.policy ∧ (s.policySet pol g).sec.bank = s.sec.bank := ⟨rfl, rfl, rfl, rfl⟩

/-! The row of a token that passes. -/

/-- The token of a path has been answered: it shows, its nonce is consumed, and alone in its handshake it is counted. -/
def TokenAnswered (s : State) (p : Path) (rivals : List Rival) (tag : Nat) (i : Fin 2) (a : Answer) (t : State) : Prop :=
  t.sec.cmd.ShowsLast rivals a p tag (a == .accepted) ∧ t.sec.nonces.get i = none ∧
    (rivals = [] → t.sec.bank = s.sec.bank.add 0 1)

/-- The security block is the same but for the answer, the nonces and the counters. -/
def SecEffect (v t : State) : Prop := t.sec = { v.sec with cmd := t.sec.cmd, nonces := t.sec.nonces, bank := t.sec.bank }

theorem SecEffect.field {t : State} {α : Type} (h : SecEffect v t) (f : Sec → α)
    (hf : ∀ y c n b, f { y with cmd := c, nonces := n, bank := b } = f y) : f t.sec = f v.sec := by
  rw [h]
  exact hf _ _ _ _

/-- What the effect left stands. -/
def EffectStands (v t : State) : Prop :=
  SecEffect v t ∧
    t.sec.cmd.running = v.sec.cmd.running ∧ t.rst.fusing = v.rst.fusing

theorem tokenAnswered_row {f : State → State} (hf : rivalsFollow p rivals = true) (hi : secPath p = some i)
    (ha : a = .done ∨ a = .accepted) (hv : v.sec.bank = x.sec.bank)
    (he : f (s.respond p (s.verdict p 0x040010 true) []) = v.tokenAnswer op i tok p tag a (a == .accepted)) :
    TokenAnswered x p rivals tag i a (close ((s.secWrite p f).rivalWrites rivals)) ∧
      EffectStands v (close ((s.secWrite p f).rivalWrites rivals)) := by
  have hsec : (s.secWrite p f).sec = (v.tokenAnswer op i tok p tag a (a == .accepted)).sec := by
    rw [secWrite_sec, he]
  have hfus : (s.secWrite p f).rst = v.rst := by
    unfold State.secWrite State.commandWrite
    obtain ⟨-, hr, -⟩ := secStands_transfer (p := p) (f (s.respond p (s.verdict p 0x040010 true) [])) (some (s.verdict p 0x040010 true))
    rw [hr, he, tokenAnswer_rst]
  have hbank : (s.secWrite p f).sec.bank = v.sec.bank.add 0 1 := by
    rw [hsec, tokenAnswer_sec]
    rcases ha with rfl | rfl <;> rfl
  obtain ⟨-, hr, hst, -, hrun⟩ := secStands_rivalWrites (s.secWrite p f) rivals
  refine ⟨⟨shows_row (x := v.sec.cmd) ?_, ?_, fun hn => ?_⟩, ?_, ?_, ?_⟩
  · rw [hsec, tokenAnswer_sec]
  · rw [close_sec, nonce_rivalWrites (rivals_elsewhere hf hi), hsec]
    exact tokenAnswer_nonce
  · subst hn
    rw [close_sec]
    show (s.secWrite p f).sec.bank = _
    rw [hbank, hv]
  · rw [SecEffect, close_sec, hst, hsec, tokenAnswer_sec]
  · rw [close_sec, hrun, hsec, tokenAnswer_sec]
    rfl
  · rw [close_fusing, hr, hfus]

theorem gives_tokenPasses {c : Instr} {Q : State → Prop} (hf : rivalsFollow p rivals = true) (hr : s.allReach p rivals = true)
    (hc : exec c s = s.secRow p rivals (fun s => s.tokenCommand op p tag act)) (hp : s.TokenPasses op p i)
    (ha : act i (tokBody (s.token i)) (s.respond p (s.verdict p 0x040010 true) []) = (v, a))
    (hk : (decide (a = .done) && keepsState op) = false) (hd : a = .done ∨ a = .accepted) (hv : v.sec.bank = x.sec.bank)
    (hQ : ∀ t, TokenAnswered x p rivals tag i a t → EffectStands v t → Q t) : Gives c s Q := by
  obtain ⟨⟨hs, hi, hb⟩, hpass⟩ := hp
  refine gives_secRow hf hr hs hc ?_
  obtain ⟨ht, hes⟩ := tokenAnswered_row (f := fun s => s.tokenCommand op p tag act) hf hi hd hv
    (tokenCommand_passes (tag := tag) hi hb hpass ha hk)
  exact hQ _ ht hes

theorem gives_tokenKeeps {c : Instr} {Q : State → Prop} (hf : rivalsFollow p rivals = true) (hr : s.allReach p rivals = true)
    (hc : exec c s = s.secRow p rivals (fun s => s.tokenCommand op p tag act)) (hp : s.TokenPasses op p i)
    (ha : act i (tokBody (s.token i)) (s.respond p (s.verdict p 0x040010 true) []) = (v, .done))
    (hk : keepsState op = true) (hv : v.sec.bank = s.sec.bank)
    (hQ : ∀ t, TokenAnswered s p rivals tag i s.keptAnswer t → SecEffect v t → Q t) : Gives c s Q := by
  obtain ⟨⟨hs, hi, hb⟩, hpass⟩ := hp
  refine gives_secRow hf hr hs hc ?_
  set u := s.respond p (s.verdict p 0x040010 true) [] with hu
  obtain ⟨ht, hes, -⟩ := tokenAnswered_row (x := s) (f := fun s => s.tokenCommand op p tag act) hf hi (keptAnswer_ends u)
    (by rw [keptRunning_sec]; exact hv) (tokenCommand_keeps (tag := tag) hi hb hpass ha hk)
  rw [SecEffect, keptRunning_sec] at hes
  exact hQ _ ht hes

end

/-- Settles O44. -/
theorem tokenCommandsTakeEffect : Obligations.TokenCommandsTakeEffect := by
  unfold Obligations.TokenCommandsTakeEffect
  intro s p tag rivals i hf hr tok body kept answered
  refine ⟨?session, fun bad => ⟨?ship, ?fuseOwner⟩, ?keyLoad, ?keyDelete, ?policy, ?endorse, ?debugUnlock⟩
  case session =>
    intro hp
    refine gives_tokenPasses hf hr (show execSession p ⟨tag, rivals⟩ s = _ from rfl) hp rfl rfl (.inl rfl) rfl ?_
    rintro t ht ⟨hst, -⟩
    refine ⟨?_, ht⟩
    rw [State.session, hst.field Sec.sessions fun _ _ _ _ => rfl]
    exact vector_get_set_self _ _ _
  case ship =>
    intro hp he
    refine gives_tokenPasses hf hr (show execShip p ⟨tag, rivals, bad⟩ s = _ from rfl) hp
      (if_neg (by rw [respond_sec, he]; decide)) rfl (.inr rfl) rfl ?_
    rintro t ht ⟨hst, hrun, hfus⟩
    exact ⟨hfus.trans rfl, hst.field Sec.draws fun _ _ _ _ => rfl, hst.field Sec.lifecycle fun _ _ _ _ => rfl, hrun.trans rfl, ht⟩
  case fuseOwner =>
    intro hp
    refine gives_tokenPasses hf hr (show execFuseOwner p ⟨tag, rivals, bad⟩ s = _ from rfl) hp rfl rfl (.inr rfl) rfl ?_
    rintro t ht ⟨hst, hrun, hfus⟩
    exact ⟨hfus.trans rfl, hst.field Sec.ownerHash fun _ _ _ _ => rfl, hst.field Sec.lifecycle fun _ _ _ _ => rfl,
      hrun.trans rfl, ht⟩
  case keyLoad =>
    intro hp key hkey
    refine gives_tokenKeeps hf hr (show execKeyLoad p ⟨tag, rivals⟩ s = _ from rfl) hp (v :=
      (s.respond p (s.verdict p 0x040010 true) []).storeKey (ofLe (body.take 1)) (ofLe (slice body 1 1)) key) ?_ rfl rfl ?_
    · dsimp only
      split
      next k h => rw [Option.some.inj (h.symm.trans hkey)]
      next h => cases h.symm.trans hkey
    · intro t ht hst
      refine ⟨?_, ht⟩
      rw [hst.field Sec.slots fun _ _ _ _ => rfl, storeKey_use]
  case keyDelete =>
    intro hp
    refine gives_tokenKeeps hf hr (show execKeyDelete p ⟨tag, rivals⟩ s = _ from rfl) hp rfl rfl rfl ?_
    intro t ht hst
    obtain ⟨g, hslot⟩ : ∃ g, t.sec.slots.get (Fin.ofNat 16 (ofLe (body.take 1))) = ⟨0, g, []⟩ := by
      rw [hst.field Sec.slots fun _ _ _ _ => rfl]
      exact ⟨_, upd_get_self _ _ _⟩
    rw [hslot]
    exact ⟨rfl, rfl, ht⟩
  case policy =>
    intro hp
    refine gives_tokenKeeps hf hr (show execPolicy p ⟨tag, rivals⟩ s = _ from rfl) hp
      (v := (s.respond p (s.verdict p 0x040010 true) []).policySet (ofLe (body.take 4)) (ofLe (slice body 4 4))) rfl rfl
      (policySet_sec _ _ _).2.2.2 ?_
    intro t ht hst
    obtain ⟨hpend, hmin, hpol, -⟩ :=
      policySet_sec (s.respond p (s.verdict p 0x040010 true) []) (ofLe (body.take 4)) (ofLe (slice body 4 4))
    exact ⟨(hst.field Sec.pending fun _ _ _ _ => rfl).trans hpend, (hst.field Sec.minGrant fun _ _ _ _ => rfl).trans hmin,
      (hst.field Sec.policy fun _ _ _ _ => rfl).trans hpol, ht⟩
  case endorse =>
    intro hp hv
    refine gives_tokenKeeps hf hr (show execEndorse p ⟨tag, rivals⟩ s = _ from rfl) hp (if_pos hv) rfl rfl ?_
    intro t ht hst
    exact ⟨hst.field Sec.endorsement fun _ _ _ _ => rfl, ht⟩
  case debugUnlock =>
    intro hp
    refine gives_tokenPasses hf hr (show execDebugUnlock p ⟨tag, rivals⟩ s = _ from rfl) hp rfl rfl (.inr rfl) rfl ?_
    rintro t ⟨hshow, hnonce, -⟩ ⟨hst, -⟩
    exact ⟨hst.field Sec.zeroising fun _ _ _ _ => rfl, hst.field Sec.signingOff fun _ _ _ _ => rfl,
      hst.field Sec.slots fun _ _ _ _ => rfl, hshow, hnonce⟩

end Sys2Proof.Machine
end

section
/-! SUPPORT. The event recorder at the end of a handshake. -/

namespace Sys2Proof.Machine

section
variable {e : Evr} {rst tick : Nat} {r : RecReq} {s : State}

/-! What the end of a handshake never changes of the recorder. -/

theorem markCheck_flushing (e : Evr) : e.markCheck.flushing = e.flushing := by
  unfold Evr.markCheck
  split <;> rfl

theorem place_flushing (e : Evr) : (e.place rst tick r).flushing = e.flushing := by
  unfold Evr.place
  extract_lets n ring skip e1 e2
  rw [markCheck_flushing]
  simp only [e2]
  split <;> rfl

theorem make_flushing (e : Evr) : (e.make rst tick r).flushing = e.flushing := by
  unfold Evr.make
  split
  · rfl
  · extract_lets e1
    split
    · rfl
    · exact place_flushing e1

theorem request_flushing (e : Evr) : (e.request rst tick r).flushing = e.flushing := by
  unfold Evr.request
  split
  · exact make_flushing e
  · rfl

theorem tellSuppressed_flushing (e : Evr) : (e.tellSuppressed rst tick).flushing = e.flushing := by
  unfold Evr.tellSuppressed
  split
  · exact make_flushing _
  · rfl

/-- No record stops a fault flush or begins one (R423). -/
theorem evrClose_flushing (e : Evr) : (e.close rst tick).flushing = e.flushing := by
  have hf : ∀ (l : List RecReq) (a : Evr), (l.foldl (fun a r => a.request rst tick r) a).flushing = a.flushing := by
    intro l
    induction l with
    | nil => exact fun _ => rfl
    | cons r l ih => exact fun a => (ih _).trans (request_flushing a)
  unfold Evr.close
  exact (hf _ _).trans ((tellSuppressed_flushing _).trans (markCheck_flushing e))

/-! A handshake in which no record is asked for. -/

theorem markCheck_queue (e : Evr) : e.markCheck.queue = e.queue := by
  unfold Evr.markCheck
  split <;> rfl

theorem place_queue (e : Evr) : (e.place rst tick r).queue = e.queue := by
  unfold Evr.place
  extract_lets n ring skip e1 e2
  rw [markCheck_queue]
  simp only [e2]
  split <;> rfl

theorem make_queue (e : Evr) : (e.make rst tick r).queue = e.queue := by
  unfold Evr.make
  split
  · rfl
  · extract_lets e1
    split
    · rfl
    · exact place_queue e1

theorem tellSuppressed_queue (e : Evr) : (e.tellSuppressed rst tick).queue = e.queue := by
  unfold Evr.tellSuppressed
  split
  · exact make_queue _
  · rfl

theorem evrClose_of_queue (h : e.queue = []) : e.close rst tick = e.markCheck.tellSuppressed rst tick := by
  have hq : (e.markCheck.tellSuppressed rst tick).queue = [] := by rw [tellSuppressed_queue, markCheck_queue, h]
  unfold Evr.close
  dsimp only
  rw [hq]
  generalize e.markCheck.tellSuppressed rst tick = a at hq
  cases a
  subst hq
  rfl

/-- The mark's check changes the new mark alone (R421). -/
theorem markCheck_eq (e : Evr) : e.markCheck = { e with newMark := e.markCheck.newMark } := by
  unfold Evr.markCheck
  split <;> rfl

/-- Nothing was suppressed, or the allowance is not above 0: no SUPPRESSED record is made (R420). -/
theorem tellSuppressed_quiet (h : e.suppressed = 0 ∨ e.allowance ≤ 0) : e.tellSuppressed rst tick = e := by
  unfold Evr.tellSuppressed
  refine if_neg fun hc => ?_
  simp only [Bool.and_eq_true, decide_eq_true_eq] at hc
  omega

/-- The SUPPRESSED record (R420). -/
def Evr.suppressedRec (e : Evr) : RecReq :=
  ⟨0x12, none, zeros 4 ++ leBytes 8 e.suppressed ++
    suppressTypes.flatMap (fun k => leBytes 2 (min 0xFFFF ((Tbl.get? e.suppressedBy k).getD 0)))⟩

theorem tellSuppressed_tells (h0 : 0 < e.suppressed) (h1 : 0 < e.allowance) :
    e.tellSuppressed rst tick = ({ e with suppressed := 0, suppressedBy := [] } : Evr).make rst tick e.suppressedRec := by
  unfold Evr.tellSuppressed
  exact if_pos (by simp [h0, h1])

/-! A record that is made. -/

theorem make_waits (hn : e.next ≤ seqMax) (hw : e.mark ≤ e.next ∨ e.waiting ≠ []) :
    e.make rst tick r = { e with allowance := e.allowance - 1, waiting := e.waiting ++ [r] } := by
  unfold Evr.make
  rw [if_neg (by omega)]
  refine if_pos ?_
  rcases hw with h | h
  · simp [h]
  · simp [h]

theorem make_places (hn : e.next ≤ seqMax) (hm : e.next < e.mark) (hw : e.waiting = []) :
    e.make rst tick r = ({ e with allowance := e.allowance - 1 } : Evr).place rst tick r := by
  unfold Evr.make
  rw [if_neg (by omega)]
  exact if_neg (by simp [hm, hw])

/-- What placing a record leaves of the recorder (R418, R421). -/
theorem place_fields (e : Evr) : (e.place rst tick r).next = e.next + 1 ∧ (e.place rst tick r).allowance = e.allowance ∧
    (e.place rst tick r).rose = e.rose ∧ (e.place rst tick r).suppressed = e.suppressed ∧
    (e.place rst tick r).suppressedBy = e.suppressedBy ∧ (e.place rst tick r).waiting = e.waiting ∧
    (e.place rst tick r).mark = e.mark ∧
    (e.place rst tick r).ring = (Tbl.set e.ring e.next (recBytes e.next rst tick r)).filter (fun x => e.next < x.1 + 16384) := by
  unfold Evr.place
  extract_lets n ring skip e1 e2
  rw [markCheck_eq]
  simp only [e2]
  split <;> exact ⟨rfl, rfl, rfl, rfl, rfl, rfl, rfl, rfl⟩

theorem get?_filter {α : Type} (t : Tbl α) (f : Nat → Bool) {i : Nat} (h : f i = true) :
    Tbl.get? (t.filter (fun x => f x.1)) i = Tbl.get? t i := by
  induction t with
  | nil => rfl
  | cons p t ih =>
    by_cases hp : p.1 = i
    · subst hp
      rw [List.filter_cons_of_pos (by exact h)]
      exact (if_pos rfl).trans (if_pos rfl).symm
    · by_cases hf : f p.1 = true
      · rw [List.filter_cons_of_pos (by exact hf)]
        show (if p.1 = i then _ else _) = if p.1 = i then _ else _
        rw [ih]
      · rw [List.filter_cons_of_neg (by exact hf), ih]
        exact (if_neg hp).symm

theorem place_ring (e : Evr) : Tbl.get? (e.place rst tick r).ring e.next = some (recBytes e.next rst tick r) := by
  obtain ⟨-, -, -, -, -, -, -, hring⟩ := place_fields (rst := rst) (tick := tick) (r := r) e
  rw [hring, get?_filter _ (fun i => decide (e.next < i + 16384)) (by simp), get?_set_self]

/-! The state at the end of a handshake. -/

theorem evr_atRecordLimit (s : State) (n : Nat) : (s.atRecordLimit n).evr = s.evr := by
  unfold State.atRecordLimit
  split <;> rfl

theorem evr_close (s : State) : (close s).evr = s.evr.close s.rst.count s.now := by
  unfold close
  rw [evr_atRecordLimit]

theorem evr_close_modEvr (s : State) (f : Evr → Evr) : (close (s.modEvr f)).evr = (f s.evr).close s.rst.count s.now := evr_close _

/-- The allowance has risen (R420). -/
def Evr.risen (e : Evr) : Evr := { e with allowance := min (e.allowance + 1) (2 ^ 24), rose := e.rose + 256 }

/-- A handshake in which the allowance stays at 0 or below, or nothing was suppressed, makes no record. -/
theorem evrClose_quiet (hq : e.queue = []) (h : e.suppressed = 0 ∨ e.allowance ≤ 0) : e.close rst tick = e.markCheck := by
  rw [evrClose_of_queue hq, tellSuppressed_quiet]
  rw [markCheck_eq]
  exact h

/-- The recorder as it makes the SUPPRESSED record. -/
def Evr.telling (e : Evr) : Evr := { e with suppressed := 0, suppressedBy := [], newMark := e.markCheck.newMark }

/-- A handshake that makes the SUPPRESSED record alone. -/
theorem evrClose_tells (hq : e.queue = []) (h0 : 0 < e.suppressed) (h1 : 0 < e.allowance) :
    e.close rst tick = e.telling.make rst tick e.suppressedRec := by
  rw [evrClose_of_queue hq, markCheck_eq]
  exact tellSuppressed_tells h0 h1

theorem takeMark_of_none (h : e.waiting = []) (m : Nat) :
    e.takeMark rst tick m = { e with mark := m, newMark := none, waiting := [] } := by
  unfold Evr.takeMark
  rw [h]
  rfl

/-- Below the mark, with no record that waits, none comes to wait. -/
theorem evrClose_below (hq : e.queue = []) (hn : e.next ≤ seqMax) (hm : e.next < e.mark) (hw : e.waiting = []) :
    (e.close rst tick).mark = e.mark ∧ (e.close rst tick).waiting = [] := by
  by_cases h : e.suppressed = 0 ∨ e.allowance ≤ 0
  · rw [evrClose_quiet hq h, markCheck_eq]
    exact ⟨rfl, hw⟩
  · push Not at h
    obtain ⟨h0, h1⟩ := h
    rw [evrClose_tells hq (by omega) h1, make_places (e := e.telling) hn hm hw]
    obtain ⟨-, -, -, -, -, hw', hm', -⟩ := place_fields (rst := rst) (tick := tick) (r := e.suppressedRec)
      { e.telling with allowance := e.telling.allowance - 1 }
    exact ⟨hm', hw'.trans hw⟩

theorem releaseKeep_flushing (s : State) : s.releaseKeep.evr.flushing = s.evr.flushing ∧ s.releaseKeep.keepHeld = none := by
  unfold State.releaseKeep
  split
  next h => exact ⟨rfl, by simpa using h⟩
  next =>
    dsimp only
    split
    · split <;> exact ⟨rfl, rfl⟩
    · exact ⟨rfl, rfl⟩

end

/-- Settles O54. -/
theorem recorderRuns : Obligations.RecorderRuns := by
  unfold Obligations.RecorderRuns
  intro s hq hn
  refine ⟨?rise, ?told, ?routine, ?fault, ?mark, ?held, ?fails, ?rises⟩
  case rise =>
    intro ht hs
    refine gives_done (x := s.modEvr Evr.risen) (if_pos ht) ?_
    have ha : s.evr.risen.suppressed = 0 ∨ s.evr.risen.allowance ≤ 0 := by
      refine hs.imp id fun h => ?_
      show min (s.evr.allowance + 1) (2 ^ 24) ≤ 0
      omega
    rw [evr_close_modEvr, evrClose_quiet (e := s.evr.risen) hq ha, markCheck_eq]
    exact ⟨rfl, rfl, rfl, rfl⟩
  case told =>
    intro ht h0 h1 r
    refine gives_done (x := s.modEvr Evr.risen) (if_pos ht) ?_
    have ha : 0 < s.evr.risen.allowance := by
      show 0 < min (s.evr.allowance + 1) (2 ^ 24)
      omega
    rw [evr_close_modEvr, evrClose_tells (e := s.evr.risen) hq h0 ha]
    by_cases hw : s.evr.mark ≤ s.evr.next ∨ s.evr.waiting ≠ []
    · rw [make_waits (e := s.evr.risen.telling) hn hw]
      exact ⟨rfl, rfl, rfl, rfl, fun hm hnil => by rcases hw with h | h <;> [omega; exact absurd hnil h], fun _ => ⟨rfl, rfl⟩⟩
    · push Not at hw
      obtain ⟨hm, hnil⟩ := hw
      rw [make_places (e := s.evr.risen.telling) hn hm hnil]
      obtain ⟨hnext, hall, hrose, hsup, hby, -⟩ := place_fields (rst := s.rst.count) (tick := s.now) (r := s.evr.risen.suppressedRec)
        { s.evr.risen.telling with allowance := s.evr.risen.telling.allowance - 1 }
      refine ⟨hall, hrose, hsup, hby, fun _ _ => ⟨hnext, place_ring _⟩, fun h => ?_⟩
      rcases h with h | h <;> [omega; exact absurd hnil h]
  case routine =>
    intro n rest hu hf
    refine gives_done (x := s.modEvr (·.keep n)) ?_ rfl
    show execRoutineFlush s = _
    unfold execRoutineFlush
    rw [hu]
    exact if_neg (by rw [hf]; decide)
  case fault =>
    intro hf
    refine gives_done (if_pos hf) ?_
    obtain ⟨hfl, hk⟩ := releaseKeep_flushing (s.modEvr (fun e => { e.unkept.foldl Evr.keep e with flushing := false }))
    refine ⟨?_, ?_, rfl⟩
    · rw [evr_close, evrClose_flushing, hfl]
      rfl
    · rw [close_keepHeld, hk]
  case mark =>
    intro m hm hk
    refine gives_done (x := (s.modEvr (fun e => e.takeMark s.rst.count s.now m)).atRecordLimit s.evr.next) ?_ ⟨rfl, fun hw hlt => ?_⟩
    · show execSeqMarkWriteEnd s = _
      unfold execSeqMarkWriteEnd
      rw [hm]
      exact if_neg (by rw [hk]; decide)
    · have he : ((s.modEvr (fun e => e.takeMark s.rst.count s.now m)).atRecordLimit s.evr.next).evr =
          { s.evr with mark := m, newMark := none, waiting := [] } := by
        rw [evr_atRecordLimit]
        exact takeMark_of_none hw m
      rw [evr_close, he]
      exact evrClose_below hq hn hlt rfl
  case held =>
    intro hk
    show execSeqMarkWriteEnd s = _
    unfold execSeqMarkWriteEnd
    split
    · rfl
    · exact if_pos hk
  case fails =>
    intro hp
    refine gives_done (if_neg (by rw [hp]; decide)) ⟨?_, ?_, ?_⟩
    · rw [close_ports]
      rfl
    · rw [evr_close, evrClose_flushing]
      show (Evr.flush _).flushing = true
      unfold Evr.flush
      split
      · assumption
      · rfl
    · rw [close_keepHeld]
      rfl
  case rises =>
    intro hp
    refine gives_done (if_pos hp) ?_
    rw [close_ports]
    rfl

end Sys2Proof.Machine
end

section
/-! SUPPORT. A reset that is taken (R390, R393 to R395): the scope that was recognised only widens, and what a scope clears. -/

namespace Sys2Proof.Machine

/-- The reset being taken is at least as wide as a scope. -/
def TakesAtLeast (k : Scope) (s : State) : Prop := ∃ q, s.rst.taking = some q ∧ scopeRank k ≤ scopeRank q.scope

section
variable {k : Scope} {s t : State}

theorem TakesAtLeast.of_rst (h : TakesAtLeast k s) (e : t.rst = s.rst) : TakesAtLeast k t := by
  unfold TakesAtLeast
  rw [e]
  exact h

theorem TakesAtLeast.recognise (h : TakesAtLeast k s) (src : Nat) (scope : Scope) : TakesAtLeast k (s.recognise src scope) := by
  obtain ⟨q, hq, hk⟩ := h
  exact ⟨_, recognise_taking_of_some src scope hq, hk.trans (scopeRank_wider_left _ _)⟩

theorem TakesAtLeast.escalate (h : TakesAtLeast k s) : TakesAtLeast k s.escalate := h.recognise 8 .warm

theorem TakesAtLeast.atRecordLimit (h : TakesAtLeast k s) (n : Nat) : TakesAtLeast k (s.atRecordLimit n) := by
  unfold State.atRecordLimit
  split
  · exact h.escalate
  · exact h

theorem TakesAtLeast.close (h : TakesAtLeast k s) : TakesAtLeast k (Machine.close s) := by
  rcases close_rst s with e | e
  · exact h.of_rst e
  · exact h.escalate.of_rst e

/-! The steps of a halt keep the reset that is being taken. -/

theorem pushOn_rst (s : State) (l : Fin 36) (p : Packet) : (s.pushOn l p).rst = s.rst := by
  unfold State.pushOn State.pumpOn
  dsimp only
  split <;> rfl

theorem tookPseq_rst (s : State) (d vl : Nat) : (s.tookPseq d vl).rst = s.rst := rfl

theorem sendOn_rst (s : State) (l : Fin 36) (p : Packet) : (s.sendOn l p).rst = s.rst := by
  unfold State.sendOn
  dsimp only
  rw [pushOn_rst, tookPseq_rst]

theorem send_rst (s : State) (p : Packet) : (s.send p).rst = s.rst := by
  unfold State.send State.send?
  dsimp only
  split
  · rfl
  · rw [Option.getD_some, pushOn_rst, tookPseq_rst]

theorem toParent_rst (s : State) (p : Packet) : (s.toParent p).rst = s.rst := by
  unfold State.toParent
  split
  · rfl
  · dsimp only
    split
    · exact sendOn_rst _ _ _
    · exact send_rst _ _

theorem sendTwin_rst (s : State) (p : Packet) : (s.sendTwin p).rst = s.rst := by
  unfold State.sendTwin
  dsimp only
  split
  · rfl
  · rw [pushOn_rst, tookPseq_rst]

theorem TakesAtLeast.sendFrame (h : TakesAtLeast k s) (d : Fin 2) (f : Frame) : TakesAtLeast k (s.sendFrame d f) := by
  unfold State.sendFrame State.emitFrame State.atSeqLimit
  split
  · dsimp only
    have hlimit : ∀ n g, TakesAtLeast k ((if n = seqMax then s.escalate else s).modSlip g) := by
      intro n g
      split
      · exact h.escalate
      · exact h
    split
    · exact (hlimit _ _).of_rst (sendTwin_rst _ _)
    · exact (hlimit _ _).of_rst (send_rst _ _)
  · exact h

theorem foldl_askBare_rst (l : List (Nat × List Byte)) : ∀ s : State, (l.foldl (fun s r => s.askBare r.1 r.2) s).rst = s.rst := by
  induction l with
  | nil => exact fun _ => rfl
  | cons a l ih => exact fun s => ih _

theorem fatalStop_rst (s : State) (cause : Nat) : (s.fatalStop cause).rst = s.rst := by
  unfold State.fatalStop
  dsimp only
  rw [State.modEvr_rst, State.askBare_rst, foldl_askBare_rst]

theorem stopLinks_rst (s : State) (atOnce : Bool) : (s.stopLinks atOnce).rst = s.rst := by
  unfold State.stopLinks
  split <;> rfl

theorem TakesAtLeast.slipAbort (h : TakesAtLeast k s) (attempt : Nat) : TakesAtLeast k (s.slipAbort attempt) := by
  unfold State.slipAbort
  dsimp only
  refine TakesAtLeast.of_rst ?_ (State.modSlip_rst _ _)
  exact (h.sendFrame 0 _).sendFrame 1 _

theorem TakesAtLeast.haltSteps (h : TakesAtLeast k s) (cause : Nat) : TakesAtLeast k (s.haltSteps cause) := by
  unfold State.haltSteps
  split
  · dsimp only
    have hparent : TakesAtLeast k (s.toParent (s.abandonPacket 0 cause s.self s.chain.attempt [])) := h.of_rst (toParent_rst _ _)
    refine (hparent.slipAbort s.chain.attempt).of_rst ?_
    rw [State.modDev_rst, stopLinks_rst, fatalStop_rst]
    exact State.ask_rst _ _ _ _
  · exact h

end

/-- What the recorder's flush leaves before a scope is applied (R394 order 2, R431). -/
def State.flushedForReset (s : State) (cut : Bool) : State :=
  if !cut then ((s.modEvr (fun e => e.flushAll s.rst.count s.now)).releaseKeep).atRecordLimit s.evr.next
  else (if s.evr.flushing then s.modEvr (fun e => e.flushCut s.rst.count s.now) else s).loseHeld

section
variable {k : Scope} {s t : State}

theorem releaseKeep_parts (s : State) : ∃ sec evr held, s.releaseKeep = { s with sec := sec, evr := evr, keepHeld := held } := by
  unfold State.releaseKeep
  split
  · exact ⟨_, _, _, rfl⟩
  · dsimp only
    split
    · split
      · exact ⟨_, _, _, rfl⟩
      · exact ⟨_, _, _, rfl⟩
    · exact ⟨_, _, _, rfl⟩

theorem loseHeld_parts (s : State) : ∃ sec fails history hlt held, s.loseHeld =
    { s with sec := sec, rst := { s.rst with fails := fails, history := history }, hlt := hlt, keepHeld := held } := by
  unfold State.loseHeld
  split
  · exact ⟨_, _, _, _, _, rfl⟩
  · exact ⟨_, _, _, _, _, rfl⟩

/-- The flush changes what the keep store and the recorder hold, and nothing that runs. -/
theorem flushedForReset_parts (s : State) (cut : Bool) : ∃ sec rst evr hlt held,
    s.flushedForReset cut = { s with sec := sec, rst := rst, evr := evr, hlt := hlt, keepHeld := held } := by
  unfold State.flushedForReset
  split
  · obtain ⟨sec, evr, held, e⟩ := releaseKeep_parts (s.modEvr (fun e => e.flushAll s.rst.count s.now))
    rw [e]
    unfold State.atRecordLimit
    split <;> exact ⟨_, _, _, _, _, rfl⟩
  · split
    · obtain ⟨sec, fails, history, hlt, held, e⟩ := loseHeld_parts (s.modEvr (fun e => e.flushCut s.rst.count s.now))
      rw [e]
      exact ⟨_, _, _, _, _, rfl⟩
    · obtain ⟨sec, fails, history, hlt, held, e⟩ := loseHeld_parts s
      rw [e]
      exact ⟨_, _, _, _, _, rfl⟩

theorem TakesAtLeast.flushedForReset (h : TakesAtLeast k s) (cut : Bool) : TakesAtLeast k (s.flushedForReset cut) := by
  have hlose : ∀ u : State, TakesAtLeast k u → TakesAtLeast k u.loseHeld := by
    intro u ⟨q, hq, hk⟩
    obtain ⟨sec, fails, history, hlt, held, e⟩ := loseHeld_parts u
    rw [e]
    exact ⟨q, hq, hk⟩
  unfold State.flushedForReset
  split
  · refine TakesAtLeast.atRecordLimit ?_ _
    obtain ⟨sec, evr, held, e⟩ := releaseKeep_parts (s.modEvr (fun e => e.flushAll s.rst.count s.now))
    rw [e]
    exact h
  · refine hlose _ ?_
    split <;> exact h

theorem foldl_rst {α : Type} {f : State → α → State} (hf : ∀ u a, (f u a).rst = u.rst) (l : List α) :
    ∀ s : State, (l.foldl f s).rst = s.rst := by
  induction l with
  | nil => exact fun _ => rfl
  | cons a l ih => exact fun s => (ih _).trans (hf s a)

theorem stackTook_rst (s : State) (n : Fin 12) (m : LineMem) (e : LineEv) (addr line code : Nat) :
    (s.stackTook n m e addr line code).rst = s.rst := by
  unfold State.stackTook
  dsimp only
  split <;> rfl

theorem stashTook_rst (s : State) (n : Fin 8) (m : LineMem) (e : LineEv) (addr line code : Nat) :
    (s.stashTook n m e addr line code).rst = s.rst := by
  unfold State.stashTook
  dsimp only
  split <;> rfl

theorem finishEntries_rst (s : State) : s.finishEntries.rst = s.rst := by
  have hstack : ∀ (u : State) (n : Fin 12) (l : Nat), (u.finishStack n l).rst = u.rst := by
    intro u n l
    unfold State.finishStack
    split
    · rfl
    · exact stackTook_rst _ _ _ _ _ _ _
  have hstash : ∀ (u : State) (n : Fin 8) (l : Nat), (u.finishStash n l).rst = u.rst := by
    intro u n l
    unfold State.finishStash
    split
    · rfl
    · exact stashTook_rst _ _ _ _ _ _ _
  unfold State.finishEntries
  dsimp only
  rw [foldl_rst (fun u n => foldl_rst (fun v l => hstash v n l) _ _), foldl_rst (fun u n => foldl_rst (fun v l => hstack v n l) _ _)]

theorem selfRefresh_rst (s : State) : s.selfRefresh.rst = s.rst := by
  unfold State.selfRefresh
  dsimp only
  exact finishEntries_rst s

end

/-- What every scope clears (R390). -/
structure ScopeCleared (t : State) : Prop where
  ctxs : ∀ c k, (t.ctx c k).st = .idle ∧ (t.ctx c k).defined = false ∧ (t.ctx c k).queue = [] ∧ (t.ctx c k).wait = none
  cores : ∀ c, (t.core c).store = [] ∧ (t.core c).poison = [] ∧ (t.core c).rings = [] ∧ (t.core c).flights = [] ∧
    (t.core c).vec = none ∧ (t.core c).copy = none ∧ (t.core c).eddy.run = none ∧ (t.core c).veer.run = none
  vanes : ∀ v, (t.vane v).count = 0 ∧ (t.vane v).waiters = []
  gales : ∀ g, (t.gale g).run = none ∧ (t.gale g).opened = none ∧ (t.gale g).row = Feeder.none ∧ (t.gale g).col = Feeder.none ∧
    (t.gale g).bank0 = AccBank.none ∧ (t.gale g).bank1 = AccBank.none ∧ (t.gale g).drainOrder = []
  draughts : ∀ e, (t.drt e).queue = []
  foehn : ∀ n, (t.fhn n).running = [] ∧ (t.fhn n).due = []
  chunks : t.slip.chunks = []
  sessions : ∀ i, t.session i = none
  links : ∀ l, (t.link l).session = false
  stash : ∀ n, (t.stc n).arr = LineMem.zero ∧ (t.stc n).key = none

section
variable {s t : State}

theorem ScopeCleared.of_eq (h : ScopeCleared s) (cores : t.cores = s.cores) (chainVanes : t.chainVanes = s.chainVanes)
    (gales : t.gales = s.gales) (draughts : t.draughts = s.draughts) (foehn : t.foehn = s.foehn) (slip : t.slip = s.slip)
    (sec : t.sec = s.sec) (links : t.links = s.links) (stash : t.stash = s.stash) : ScopeCleared t where
  ctxs := by simpa only [State.ctx, cores] using h.ctxs
  cores := by simpa only [State.core, cores] using h.cores
  vanes v := by
    have e : t.vane v = s.vane v := by cases v <;> simp only [State.vane, State.core, cores, chainVanes]
    rw [e]
    exact h.vanes v
  gales := by simpa only [State.gale, gales] using h.gales
  draughts := by simpa only [State.drt, draughts] using h.draughts
  foehn := by simpa only [State.fhn, foehn] using h.foehn
  chunks := by rw [slip]; exact h.chunks
  sessions := by simpa only [State.session, sec] using h.sessions
  links := by simpa only [State.link, links] using h.links
  stash := by simpa only [State.stc, stash] using h.stash

theorem coreScope_core (s : State) (c : Fin 4) : s.coreScope.core c = (s.core c).cleared := by
  simp [State.coreScope, State.core, Vector.get_eq_getElem]

theorem coreScope_ctx (s : State) (c : Fin 4) (k : Fin 8) : s.coreScope.ctx c k = (s.ctx c k).cleared := by
  simp [State.coreScope, State.ctx, Core.cleared, Vector.get_eq_getElem]

theorem scopeCleared_coreScope (s : State) : ScopeCleared s.coreScope where
  ctxs c k := by rw [coreScope_ctx]; exact ⟨rfl, rfl, rfl, rfl⟩
  cores c := by rw [coreScope_core]; exact ⟨rfl, rfl, rfl, rfl, rfl, rfl, rfl, rfl⟩
  vanes v := by
    cases v with
    | core c k =>
      simp only [State.vane, coreScope_core]
      simp [Core.cleared, Core.zero, Vector.get_eq_getElem, Vane.zero]
    | chain k => simp [State.vane, State.coreScope, Vector.get_eq_getElem, Vane.zero]
  gales g := by
    have e : s.coreScope.gale g = (s.gale g).cleared := by simp [State.coreScope, State.gale, Vector.get_eq_getElem]
    rw [e]
    exact ⟨rfl, rfl, rfl, rfl, rfl, rfl, rfl⟩
  draughts e := by simp [State.coreScope, State.drt, Vector.get_eq_getElem, Draught.cleared]
  foehn n := by simp [State.coreScope, State.fhn, Vector.get_eq_getElem, Foehn.cleared]
  chunks := rfl
  sessions i := by simp [State.coreScope, State.session, Vector.get_eq_getElem]
  links l := by simp [State.coreScope, State.link, Vector.get_eq_getElem, Link.unkeyed]
  stash n := by simp [State.coreScope, State.stc, Vector.get_eq_getElem, Stash.cleared]

theorem wideScope_core (s : State) (cold powerOn : Bool) (c : Fin 4) : (s.wideScope cold powerOn).core c = Core.zero := by
  simp [State.wideScope, State.reset, State.core, Vector.get_eq_getElem]

theorem scopeCleared_wideScope (s : State) (cold powerOn : Bool) : ScopeCleared (s.wideScope cold powerOn) where
  ctxs c k := by
    have e : (s.wideScope cold powerOn).ctx c k = Ctx.idle := by
      simp [State.wideScope, State.reset, State.ctx, Vector.get_eq_getElem, Core.zero]
    rw [e]
    exact ⟨rfl, rfl, rfl, rfl⟩
  cores c := by rw [wideScope_core]; exact ⟨rfl, rfl, rfl, rfl, rfl, rfl, rfl, rfl⟩
  vanes v := by
    cases v with
    | core c k =>
      simp only [State.vane, wideScope_core]
      simp [Core.zero, Vector.get_eq_getElem, Vane.zero]
    | chain k => simp [State.vane, State.wideScope, State.reset, Vector.get_eq_getElem, Vane.zero]
  gales g := by
    obtain ⟨x, e⟩ : ∃ x, (s.wideScope cold powerOn).gale g = { Gale.zero with health := x } := by
      simp only [State.wideScope, State.gale, Vector.get_eq_getElem, Vector.getElem_map]
      exact ⟨_, rfl⟩
    rw [e]
    exact ⟨rfl, rfl, rfl, rfl, rfl, rfl, rfl⟩
  draughts e := by simp [State.wideScope, State.reset, State.drt, Vector.get_eq_getElem, Draught.zero]
  foehn n := by simp [State.wideScope, State.reset, State.fhn, Vector.get_eq_getElem, Foehn.zero]
  chunks := rfl
  sessions i := by simp [State.wideScope, State.session, Vector.get_eq_getElem, Sec.cleared, Sec.reset]
  links l := by simp [State.wideScope, State.reset, State.link, Vector.get_eq_getElem, Link.zero]
  stash n := by simp [State.wideScope, State.reset, State.stc, Vector.get_eq_getElem, Stash.zero]

end

/-- The state that a scope leaves, before RST_CMD_STATUS is idle again. -/
def State.inScope (s : State) (k : Taking) : State :=
  match k.scope with
  | .core => s.coreScope
  | .warm => s.wideScope false (k.sources.getLsbD 0)
  | .cold => s.wideScope true (k.sources.getLsbD 0)

theorem inScope_core (s : State) {k : Taking} (h : k.scope = .core) : s.inScope k = s.coreScope := by
  unfold State.inScope
  rw [h]

theorem inScope_wide (s : State) {k : Taking} (h : k.scope ≠ .core) :
    s.inScope k = s.wideScope (decide (k.scope = .cold)) (k.sources.getLsbD 0) := by
  unfold State.inScope
  cases e : k.scope with
  | core => exact absurd e h
  | warm => rfl
  | cold => rfl

theorem scopeCleared_inScope (s : State) (k : Taking) : ScopeCleared (s.inScope k) := by
  by_cases h : k.scope = .core
  · rw [inScope_core s h]; exact scopeCleared_coreScope s
  · rw [inScope_wide s h]; exact scopeCleared_wideScope s _ _

theorem inScope_taking (s : State) (k : Taking) : (s.inScope k).rst.taking = s.rst.taking := by
  unfold State.inScope
  split <;> rfl

/-- The device held after a scope: in BRING_UP, in phase 1, with its reset applied (R394 order 4). -/
def State.heldForBringUp (s : State) (k : Taking) : State :=
  { s with
    dev := { s.dev with st := .bringUp, phase := 1 }
    rst := { s.rst with cmd := CmdStatus.idle, failedWait := none, taking := some { k with applied := true }, linksBegun := false, phaseSince := s.now } }

/-- RESET_TAKE past the halt (R393 to R395). -/
theorem resetTake_applies {s u x : State} {k q : Taking} (hk : s.rst.taking = some k) (happlied : k.applied = false)
    (hfusing : s.rst.fusing ≠ none → k.cut = true) (hu : u = if k.halts && s.running then close (s.haltSteps 7) else s)
    (hlow : k.halts = true → u.chain.lowering = false) (hx : x = u.flushedForReset k.cut) (hq : x.rst.taking = some q) :
    execResetTake s = done (((if q.scope = .warm && !q.cut then x.selfRefresh else x).inScope q).heldForBringUp q) := by
  have hblocked : (k.applied || (s.rst.fusing.isSome && !k.cut)) = false := by
    rw [happlied]
    cases hf : s.rst.fusing with
    | none => rfl
    | some f => simp [hfusing (by simp [hf])]
  have hstands : (k.halts && u.chain.lowering) = false := by
    cases hh : k.halts with
    | false => rfl
    | true => exact hlow hh
  have hrefreshed : (if q.scope = .warm && !q.cut then x.selfRefresh else x).rst.taking = some q := by
    split
    · rw [selfRefresh_rst, hq]
    · exact hq
  unfold execResetTake
  rw [hk]
  dsimp -zeta only
  rw [if_neg (by rw [hblocked]; decide)]
  rw [← hu]
  extract_lets v w y z z' q'
  rw [if_neg (by rw [hstands]; decide)]
  have hy : y = q := by
    have hw : w.rst.taking = some q := by
      rw [hx] at hq
      exact hq
    simp only [y, hw]
  have hz : z = if q.scope = .warm && !q.cut then x.selfRefresh else x := by
    rw [hx, ← hy]
    rfl
  have hz' : z' = (z.inScope q).modRst (fun r => { r with cmd := CmdStatus.idle, failedWait := none }) := by
    rw [← hy]
    rfl
  have hq' : q' = q := by
    have e : z'.rst.taking = some q := by
      rw [hz', State.modRst_rst]
      dsimp only
      rw [inScope_taking, hz]
      exact hrefreshed
    simp only [q', e]
  rw [hq', hz', hz]
  rfl

section
variable {s t u x : State} {k q : Taking}

theorem heldForBringUp_taking (s : State) (q : Taking) :
    (s.heldForBringUp q).rst.taking = some { q with applied := true } := rfl

/-- A widened scope is not the core's alone (R395). -/
theorem scope_ne_core_of_le {a b : Scope} (h : scopeRank a ≤ scopeRank b) (ha : a ≠ .core) : b ≠ .core := by
  cases a <;> cases b <;> simp_all [scopeRank]

theorem scope_eq_cold_of_le {b : Scope} (h : scopeRank .cold ≤ scopeRank b) : b = .cold := by
  cases b <;> simp_all [scopeRank]

theorem inScope_pending (s : State) (k : Taking) : (s.inScope k).pending = s.pending := by
  unfold State.inScope
  split <;> rfl

theorem inScope_serial (s : State) (k : Taking) : (s.inScope k).dev.serial = s.dev.serial := by
  unfold State.inScope
  split <;> rfl

end

/-- A handshake's end keeps the reset being taken, or widens it to a warm one (R34). -/
theorem close_taking {s : State} {q : Taking} (h : s.rst.taking = some q) :
    (close s).rst.taking = some q ∨ (close s).rst.taking = some (q.merge 8 .warm) := by
  rcases close_rst s with e | e
  · exact .inl (e ▸ h)
  · exact .inr (e ▸ recognise_taking_of_some 8 .warm h)

theorem merge_warm_scope_ne_core (q : Taking) : (q.merge 8 .warm).scope ≠ .core := by
  simp only [Taking.merge]
  cases q.scope <;> decide

theorem haltSteps_serial (s : State) (cause : Nat) : (s.haltSteps cause).dev.serial = s.dev.serial := by
  unfold State.haltSteps
  split
  · extract_lets v w
    have h : OnlyChanges (partsSend ++ [.slip, .ctxs, .frozen]) s (w.stopLinks (w.chain.twin == .paired)) := by
      simp +decide [v, w]
    have e : (w.stopLinks (w.chain.twin == .paired)).dev = s.dev := h .dev (by decide)
    rw [State.modDev_dev, e]
  · rfl

/-- Settles O50: the scope only widens on the way, each scope clears what it names, and a core scope reaches what it keeps by
the flush alone. -/
theorem resetIsTaken : Obligations.ResetIsTaken := by
  unfold Obligations.ResetIsTaken
  intro s k hk happlied hfusing u
  have hu : TakesAtLeast k.scope u := by
    have h : TakesAtLeast k.scope s := ⟨k, hk, Nat.le_refl _⟩
    show TakesAtLeast k.scope (if k.halts && s.running then close (s.haltSteps 7) else s)
    split
    · exact (h.haltSteps 7).close
    · exact h
  have hframe : OnlyChanges (partsSend ++ [.dev, .ctxs, .frozen, .slip]) s u := by
    show OnlyChanges _ s (if k.halts && s.running then close (s.haltSteps 7) else s)
    split
    · simp +decide
    · exact onlyChanges_refl _ s
  refine ⟨?stands, ?applies⟩
  case stands =>
    intro hhalts hlow
    show execResetTake s = .next u
    unfold execResetTake
    rw [hk]
    dsimp -zeta only
    have hblocked : (k.applied || (s.rst.fusing.isSome && !k.cut)) = false := by
      rw [happlied]
      cases hf : s.rst.fusing with
      | none => rfl
      | some f => simp [hfusing (by simp [hf])]
    rw [if_neg (by rw [hblocked]; decide)]
    extract_lets
    have hv : (k.halts && u.chain.lowering) = true := by
      rw [hhalts]
      exact hlow
    exact if_pos hv
  case applies =>
    intro hlow
    obtain ⟨q, hq, hkq⟩ := hu.flushedForReset k.cut
    obtain ⟨sec, rst, evr, hlt, held, hx⟩ := flushedForReset_parts u k.cut
    refine gives_done (resetTake_applies hk happlied hfusing (u := u) rfl hlow rfl hq) ?_
    have hserial : u.dev.serial = s.dev.serial := by
      show (if k.halts && s.running then close (s.haltSteps 7) else s).dev.serial = _
      split
      · rw [close_dev, haltSteps_serial]
      · rfl
    generalize hv : (if q.scope = .warm && !q.cut then (u.flushedForReset k.cut).selfRefresh else u.flushedForReset k.cut) = v
    have hvframe : OnlyChanges (partsRead ++ [.stackBytes, .sec, .rst, .hlt, .keepHeld]) u v := by
      have hflush : OnlyChanges [.sec, .rst, .hlt, .keepHeld] u (u.flushedForReset k.cut) := by
        unfold State.flushedForReset
        split
        · simp +decide
        · split <;> simp +decide
      rw [← hv]
      split
      · exact (onlyChanges_selfRefresh (by decide)).2 (hflush.mono (by decide))
      · exact hflush.mono (by decide)
    have hvcore : q.scope = .core → v = u.flushedForReset k.cut := by
      intro hcore
      rw [← hv, hcore]
      rfl
    have hcleared : ScopeCleared (close ((v.inScope q).heldForBringUp q)) :=
      (scopeCleared_inScope v q).of_eq (by simp [State.heldForBringUp]) (by simp [State.heldForBringUp])
        (by simp [State.heldForBringUp]) (by simp [State.heldForBringUp]) (by simp [State.heldForBringUp])
        (by simp [State.heldForBringUp]) (by simp [State.heldForBringUp]) (by simp [State.heldForBringUp])
        (by simp [State.heldForBringUp])
    refine ⟨by rw [close_dev]; rfl, by rw [close_dev]; rfl, by rw [close_cmd]; rfl, ?pending, ?serial, ?running, hcleared.ctxs,
      hcleared.cores, hcleared.vanes, hcleared.gales, hcleared.draughts, hcleared.foehn, hcleared.chunks, hcleared.sessions,
      hcleared.links, hcleared.stash, ?wide, ?tick, ?kept⟩
    case pending =>
      rw [close_pending]
      exact (inScope_pending v q).trans ((hvframe .pending (by decide)).trans (hframe .pending (by decide)))
    case serial =>
      rw [close_dev]
      exact (inScope_serial v q).trans ((congrArg Dev.serial (hvframe .dev (by decide))).trans hserial)
    case running =>
      unfold State.running
      rw [close_dev]
      rfl
    case wide =>
      intro hne
      have he := inScope_wide v (scope_ne_core_of_le hkq hne)
      refine ⟨fun c => ?_, ?_, ?_⟩
      · rw [core_close]
        exact (congrArg (State.core · c) he).trans (wideScope_core _ _ _ c)
      · rw [close_vio]
        exact (congrArg State.vio he :)
      · rw [close_loaded]
        exact (congrArg State.loaded he :)
    case tick =>
      intro hcold
      have hqcold := scope_eq_cold_of_le (hcold ▸ hkq)
      have he := inScope_wide v (k := q) (by rw [hqcold]; decide)
      rw [close_dev]
      refine (congrArg (fun t : State => t.dev.tick) he :).trans ?_
      rw [hqcold]
      rfl
    case kept =>
      rcases close_taking (heldForBringUp_taking (v.inScope q) q) with htaking | htaking
      · refine ⟨_, htaking, hkq, fun hcore => ?_⟩
        have he : v.inScope q = v.coreScope := inScope_core v hcore
        have hvu := (hvcore hcore).trans hx
        refine ⟨?_, ?_, ?_, ?_, ?_, fun c => ?_⟩
        · rw [close_loaded]
          exact (congrArg State.loaded he :).trans (congrArg State.loaded hvu :)
        · rw [close_plan]
          exact (congrArg State.plan he :).trans (congrArg State.plan hvu :)
        · rw [close_step]
          exact (congrArg State.step he :).trans (congrArg State.step hvu :)
        · rw [close_mem]
          exact (congrArg State.mem he :).trans (congrArg State.mem hvu :)
        · rw [close_vio]
          exact (congrArg State.vio he :).trans (congrArg State.vio hvu :)
        · have e : (close ((v.inScope q).heldForBringUp q)).core c = (u.core c).cleared := by
            rw [core_close]
            exact (congrArg (State.core · c) he).trans ((coreScope_core v c).trans
              (congrArg (fun t : State => (t.core c).cleared) hvu :))
          rw [e]
          exact ⟨rfl, rfl⟩
      · exact ⟨_, htaking, hkq.trans (scopeRank_wider_left _ _), fun hcore => absurd hcore (merge_warm_scope_ne_core _)⟩
end Sys2Proof.Machine
end

section
/-! SUPPORT. Bytes and poison of one controller: what reads back after a write (R260 to R262, R268, R270). -/

namespace Sys2Proof.Machine

/-! Sparse bytes. -/

theorem memTake_of_above (n : Nat) : ∀ {m : List (Nat × Byte)} {a : Nat}, (∀ e ∈ m, a + n ≤ e.1) → memTake n m a = zeros n := by
  induction n with
  | zero => exact fun _ => rfl
  | succ n ih =>
    intro m a h
    cases m with
    | nil => exact congrArg (0 :: ·) (ih (by simp))
    | cons e m =>
      have he := h e (by simp)
      unfold memTake
      rw [if_neg (by omega)]
      exact congrArg (0 :: ·) (ih (fun x hx => by have := h x hx; omega))

theorem memTake_memCells {rest : List (Nat × Byte)} (bs : List Byte) : ∀ {a : Nat}, (∀ e ∈ rest, a + bs.length ≤ e.1) →
    memTake bs.length (memCells a bs ++ rest) a = bs := by
  induction bs with
  | nil => exact fun _ => rfl
  | cons v vs ih =>
    intro a h
    have hrest : ∀ e ∈ rest, a + 1 + vs.length ≤ e.1 := fun e he => by
      have := h e he
      rw [List.length_cons] at this
      omega
    unfold memCells
    rw [List.length_cons]
    split
    next hv =>
      have hskip : memTake (vs.length + 1) (memCells (a + 1) vs ++ rest) a = 0 :: memTake vs.length (memCells (a + 1) vs ++ rest) (a + 1) := by
        cases hm : memCells (a + 1) vs ++ rest with
        | nil => rfl
        | cons e m =>
          have he : a + 1 ≤ e.1 := by
            rcases List.mem_append.1 (hm ▸ List.mem_cons_self : e ∈ memCells (a + 1) vs ++ rest) with h1 | h1
            · exact (memCells_low vs (a + 1) e h1).1
            · have := hrest e h1
              omega
          obtain ⟨i, x⟩ := e
          exact if_neg (by simp only at he; omega)
      rw [hskip, ih hrest, hv]
    next hv =>
      rw [List.cons_append]
      unfold memTake
      rw [if_pos rfl, ih hrest]

theorem dropWhile_append_of_all {α : Type} {p : α → Bool} {l k : List α} (h : ∀ x ∈ l, p x = true) (hk : ∀ x ∈ k, p x = false) :
    (l ++ k).dropWhile p = k := by
  induction l with
  | nil =>
    cases k with
    | nil => rfl
    | cons x k => exact List.dropWhile_cons_of_neg (by simp [hk x (by simp)])
  | cons x l ih =>
    rw [List.cons_append, List.dropWhile_cons_of_pos (h x (by simp))]
    exact ih (fun y hy => h y (by simp [hy]))

/-- Bytes written read back. -/
theorem memRead_memWrite_self (m : List (Nat × Byte)) (a : Nat) (bs : List Byte) : memRead (memWrite m a bs) a bs.length = bs := by
  unfold memRead memWrite
  have habove : ∀ e ∈ m.filter (fun e => decide (a + bs.length ≤ e.1)), a + bs.length ≤ e.1 := fun e he => by simp_all
  rw [List.append_assoc, dropWhile_append_of_all (fun e he => by simp_all) (fun e he => ?_), memTake_memCells bs habove]
  rcases List.mem_append.1 he with h | h
  · simpa using (memCells_low bs a e h).1
  · have := habove e h
    simp only [decide_eq_false_iff_not]
    omega

/-! Poison flags of a check group. -/

theorem get?_setFlags (t : Tbl (BitVec 16)) (g : Nat) (v : BitVec 16) : (Tbl.get? (setFlags t g v) g).getD 0 = v := by
  unfold setFlags
  split
  next h => rw [Tbl.get?_none_of_erase, h]; rfl
  next => rw [get?_set_self]; rfl

theorem lineInGroup_lt (line : Nat) : lineInGroup line < 15 := Nat.mod_lt _ (by decide)

theorem flagged_setPoison_self (m : LineMem) (line : Nat) (p : Bool) : (m.setPoison line p).flagged line = p := by
  have h := lineInGroup_lt line
  unfold LineMem.flagged LineMem.setPoison
  dsimp only
  rw [get?_setFlags, get?_setFlags, Bool.or_self]
  have hbit : (BitVec.ofNat 16 (1 <<< lineInGroup line)).getLsbD (lineInGroup line) = true := by
    rw [BitVec.getLsbD_ofNat, Nat.one_shiftLeft, Nat.testBit_two_pow_self]
    simp
    omega
  cases p
  · simp [bitAt, hbit]
  · simp [bitAt, hbit]

/-! What an access keeps beside the bytes: the positions whose device has failed. -/

section
variable (m : LineMem)

theorem LineMem.evict_dead (g : Nat) : (m.evict g).1.dead = m.dead := by
  unfold LineMem.evict
  dsimp only
  split <;> split <;> rfl

theorem LineMem.cacheIn_dead (g max : Nat) : (m.cacheIn g max).1.dead = m.dead := by
  unfold LineMem.cacheIn
  split
  · rfl
  · split
    · exact m.evict_dead _
    · rfl

theorem LineMem.touchCheck_dead (line max : Nat) : (m.touchCheck line max).1.dead = m.dead := by
  unfold LineMem.touchCheck LineMem.touchGroup
  dsimp only
  split
  · split
    · split <;> rfl
    · rfl
  · split
    · exact m.cacheIn_dead _ _
    · exact m.cacheIn_dead _ _

/-- A line read under no upset and from a live device gives its bytes. -/
theorem LineMem.decodeLine_of_sound {cr : Option Crypt} {code line : Nat} (hdead : m.dead = []) (hup : m.upsets line = zeros 68) :
    m.decodeLine cr code line = (m.plain line, false, false) := by
  unfold LineMem.decodeLine
  dsimp only
  rw [hdead, hup, if_neg (by simp)]
  exact if_pos (by decide)

variable {m}

/-- A whole line written reads as what was written (R262, R268, R270). -/
theorem LineMem.peek_write {bytes : List Byte} (hdead : m.dead = []) (hlen : bytes.length = 64) (cr : Option Crypt)
    (code line max : Nat) (p : Bool) : (m.write line max bytes p).1.peek cr code line = (bytes, p) := by
  have hd : (m.write line max bytes p).1.dead = [] := (m.touchCheck_dead line max).trans hdead
  have hup : (m.write line max bytes p).1.upsets line = zeros 68 := memRead_memWrite_self _ _ (zeros 68)
  have hplain : (m.write line max bytes p).1.plain line = bytes := by
    have h := memRead_memWrite_self (((m.touchCheck line max).1.turn (groupOf line) true).1.setPoison line p).data (64 * line) bytes
    rw [hlen] at h
    exact h
  have hwc : Tbl.get? (m.write line max bytes p).1.wc line = none := Tbl.get?_none_of_erase _ _
  have hflag : (m.write line max bytes p).1.flagged line = p :=
    flagged_setPoison_self (((m.touchCheck line max).1.turn (groupOf line) true).1) line p
  unfold LineMem.peek
  rw [LineMem.decodeLine_of_sound _ hd hup, hwc, hplain]
  dsimp only
  rw [hflag, Bool.false_or]

/-! A write of part of a line. -/

theorem Tbl.set_of_above {α : Type} {t : Tbl α} {k : Nat} (v : α) (h : ∀ e ∈ t, e.1 < k) : Tbl.set t k v = t ++ [(k, v)] := by
  induction t with
  | nil => rfl
  | cons e t ih =>
    have he := h e (by simp)
    obtain ⟨i, x⟩ := e
    unfold Tbl.set
    rw [if_neg (by simp only at he; omega), if_neg (by simp only at he; omega), ih (fun x hx => h x (by simp [hx]))]
    rfl

/-- Bytes by rising offset merge behind those that lie before them. -/
theorem mergeBytes_of_rising {new : List (Nat × Byte)} (hn : new.Pairwise (fun x y => x.1 < y.1)) :
    ∀ {old : List (Nat × Byte)}, (∀ e ∈ old, ∀ b ∈ new, e.1 < b.1) → mergeBytes old new = old ++ new := by
  induction new with
  | nil => exact fun _ => (List.append_nil _).symm
  | cons b new ih =>
    intro old h
    obtain ⟨hb, hn⟩ := List.pairwise_cons.1 hn
    have hset : Tbl.set old b.1 b.2 = old ++ [b] := Tbl.set_of_above b.2 (fun e he => h e he b (by simp))
    show mergeBytes (Tbl.set old b.1 b.2) new = _
    rw [hset, ih hn, List.append_assoc]
    · rfl
    · intro e he x hx
      rcases List.mem_append.1 he with h1 | h1
      · exact h e h1 x (by simp [hx])
      · rw [List.mem_singleton.1 h1]
        exact hb x hx

/-- Part of a line, with no entry of the line in the buffer, waits there: the line reads with those bytes replaced (R268, R270). -/
theorem LineMem.peek_combine {line : Nat} {bytes : List (Nat × Byte)} (hwc : Tbl.get? m.wc line = none)
    (hn : bytes.Pairwise (fun x y => x.1 < y.1)) (hlen : bytes.length < 64) (cr : Option Crypt) (code max now addr code' : Nat) :
    (m.combine line max now addr code' bytes false).1.peek cr code line =
      (overlay (m.peek cr code line).1 bytes, (m.peek cr code line).2) := by
  have hmerge : mergeBytes [] bytes = bytes := mergeBytes_of_rising hn (by simp)
  have hpeek : m.peek cr code line =
      ((m.decodeLine cr code line).1, (m.decodeLine cr code line).2.2 || m.flagged line) := by
    unfold LineMem.peek
    rw [hwc]
  obtain ⟨m', hm', hget, hrest⟩ : ∃ m', (m.combine line max now addr code' bytes false).1 = m' ∧
      Tbl.get? m'.wc line = some ⟨bytes, false, now, addr, code'⟩ ∧
      (m'.decodeLine cr code line = m.decodeLine cr code line ∧ m'.flagged line = m.flagged line) := by
    refine ⟨_, rfl, ?_⟩
    unfold LineMem.combine
    simp only [hwc, Option.getD_none, hmerge, Bool.false_or, if_neg (Nat.not_le.2 hlen)]
    exact ⟨get?_set_self _ _ _, rfl, rfl⟩
  obtain ⟨hdecode, hflag⟩ := hrest
  rw [hm', hpeek]
  unfold LineMem.peek
  rw [hget, hdecode, hflag]
  exact congrArg _ (Bool.or_false _)

end

end Sys2Proof.Machine
end

section
/-! SUPPORT. Lines of the device: what a write of one makes its read answer (R262, R268, R270), and the commands of the memory
controllers. -/

namespace Sys2Proof.Machine

section
variable {s t : State}

/-- Where an address lies is fixed by the plan, the stash devices and the committed halves. -/
theorem place_congr (hplan : t.plan = s.plan) (hdev : t.dev = s.dev) (hfoehn : t.foehn = s.foehn) (a : Nat) (work : Bool) :
    t.place a work = s.place a work := by
  unfold State.place State.region State.halfOf State.fhn
  rw [hplan, hdev, hfoehn]

theorem hbmLine_iff {a : Nat} {n : Fin 12} {line : Nat} (h : s.hbmLine a = some (n, line)) :
    ∃ loc code, s.place a = .hbm n loc code ∧ loc / 64 = line := by
  unfold State.hbmLine at h
  split at h
  next n' loc code hp =>
    obtain ⟨rfl, rfl⟩ := Prod.mk.inj (Option.some.inj h)
    exact ⟨loc, code, hp, rfl⟩
  next => cases h

theorem stashLineOf_iff {a : Nat} {n : Fin 8} {line code : Nat} (h : s.stashLineOf a = some (n, line, code)) :
    ∃ pos loc, s.place a = .stash n pos loc code ∧ stashLine pos loc = line := by
  unfold State.stashLineOf at h
  split at h
  next n' pos loc code' hp =>
    obtain ⟨rfl, hrest⟩ := Prod.mk.inj (Option.some.inj h)
    obtain ⟨rfl, rfl⟩ := Prod.mk.inj hrest
    exact ⟨pos, loc, hp, rfl⟩
  next => cases h

theorem peekLine_hbm {a : Nat} {n : Fin 12} {loc code : Nat} (h : s.place a = .hbm n loc code) :
    s.peekLine a = (s.stack n).arr.peek none code (loc / 64) := by
  unfold State.peekLine
  rw [h]

theorem peekLine_stash {a : Nat} {n : Fin 8} {pos : Bool} {loc code : Nat} (h : s.place a = .stash n pos loc code) :
    s.peekLine a = (s.stc n).arr.peek ((s.stc n).crypt (stashLine pos loc)) code (stashLine pos loc) := by
  unfold State.peekLine
  rw [h]

/-! A controller access. -/

variable (s) in
theorem stackTook_place (n : Fin 12) (m : LineMem) (e : LineEv) (addr line code a : Nat) (work : Bool) :
    (s.stackTook n m e addr line code).place a work = s.place a work := by
  unfold State.stackTook
  dsimp only
  split <;> exact place_congr rfl rfl rfl a work

variable (s) in
theorem stackTook_arr (n : Fin 12) (m : LineMem) (e : LineEv) (addr line code : Nat) :
    ((s.stackTook n m e addr line code).stack n).arr = m := by
  unfold State.stackTook
  dsimp only
  split
  · rw [State.stack_modStack_self]
    rfl
  · unfold State.memoryRecord
    rw [State.stack_ask, State.stack_modStack_self]
    rfl

variable (s) in
theorem stashTook_place (n : Fin 8) (m : LineMem) (e : LineEv) (addr line code a : Nat) (work : Bool) :
    (s.stashTook n m e addr line code).place a work = s.place a work := by
  unfold State.stashTook
  dsimp only
  split <;> exact place_congr rfl rfl rfl a work

variable (s) in
theorem stashTook_stc (n : Fin 8) (m : LineMem) (e : LineEv) (addr line code : Nat) :
    (s.stashTook n m e addr line code).stc n = (s.stc n).took m e addr line := by
  unfold State.stashTook
  dsimp only
  split
  · rw [State.stc_modStc_self]
  · unfold State.memoryRecord
    rw [State.stc_ask, State.stc_modStc_self]

/-- With no correction waiting, an access leaves the lines as its controller has them. -/
theorem took_arr_of_no_fixes (c : Stash) {m : LineMem} (h : m.fixes = []) (e : LineEv) (addr line : Nat) :
    (c.took m e addr line).arr = m := by
  have hfix : m.fixAll stashCache = (m, LineEv.none) := by
    unfold LineMem.fixAll
    rw [h]
    rfl
  unfold Stash.took
  rw [hfix]

theorem close_place (a : Nat) (work : Bool) : (close s).place a work = s.place a work :=
  place_congr (close_plan s) (close_dev s) (close_foehn s) a work

theorem close_peekLine (a : Nat) : (close s).peekLine a = s.peekLine a := by
  unfold State.peekLine
  rw [close_place]
  simp

end

/-! HBM writes. -/

section
variable {s : State} {addr : Nat} {data : List Byte} {poison : Bool} {n : Fin 12} {loc code : Nat}

theorem writeLine_whole_hbm {work : Bool} {off : Nat} (h : s.place addr work = .hbm n loc code) (hlen : data.length = 64) :
    s.writeLine addr off data poison work = s.stackTook n ((s.stack n).arr.write (loc / 64) stackCache data poison).1
      ((s.stack n).arr.write (loc / 64) stackCache data poison).2 (addr / 64 * 64) (loc / 64) code := by
  unfold State.writeLine
  rw [h]
  dsimp only
  rw [if_pos hlen, if_pos hlen]

theorem writeLine_part_hbm {work : Bool} {off : Nat} (h : s.place addr work = .hbm n loc code) (hlen : data.length ≠ 64)
    (hroom : (s.stack n).arr.displaced (loc / 64) stackWc = none) :
    ∃ since a' code', s.writeLine addr off data poison work = s.stackTook n
      ((s.stack n).arr.combine (loc / 64) stackCache since a' code'
        ((List.range data.length).map (fun i => (off + i, data.getD i 0))) poison).1
      ((s.stack n).arr.combine (loc / 64) stackCache since a' code'
        ((List.range data.length).map (fun i => (off + i, data.getD i 0))) poison).2 (addr / 64 * 64) (loc / 64) code := by
  have hr : s.roomStack n (loc / 64) = s := by
    unfold State.roomStack
    rw [hroom]
  unfold State.writeLine
  rw [h]
  dsimp only
  rw [if_neg hlen, if_neg hlen, hr]
  exact ⟨_, _, _, rfl⟩

theorem lineData_of_fits (h : addr % 64 + data.length ≤ 64) : lineData addr data = data :=
  List.take_of_length_le (by omega)

theorem rising_parts (off : Nat) (data : List Byte) :
    ((List.range data.length).map (fun i => (off + i, data.getD i 0))).Pairwise (fun x y => x.1 < y.1) := by
  rw [List.pairwise_map]
  exact List.pairwise_lt_range.imp (fun h => Nat.add_lt_add_left h off)

end

/-- Settles O35: a whole line goes to its stack at once, part of one into the write-combining buffer. -/
theorem hbmWriteThenRead : Obligations.HbmWriteThenRead := by
  unfold Obligations.HbmWriteThenRead
  refine ⟨fun s addr data poison n line hline => ?whole, fun s addr data n line hline hbase hparam hpos hfits hwc hroom => ?part⟩
  case whole =>
    obtain ⟨loc, code, hplace, rfl⟩ := hbmLine_iff hline
    refine ⟨fun hparam hdead halign hlen => ?_, fun hparam => ?_⟩
    · have hdata : lineData addr data = data := lineData_of_fits (by omega)
      have haddr : addr / 64 * 64 = addr := by omega
      have hempty : (s.inParameter addr || data.isEmpty) = false := by
        rw [hparam, List.isEmpty_eq_false_iff.2 (List.ne_nil_of_length_pos (by omega))]
        rfl
      refine gives_done (x := s.writeLine (addr / 64 * 64) (addr % 64) (lineData addr data) poison) ?_ ?_
      · show execHbmWrite addr data poison s = _
        unfold execHbmWrite
        rw [hline]
        exact if_neg (by rw [hempty]; decide)
      · rw [haddr, hdata, close_peekLine, writeLine_whole_hbm hplace hlen, peekLine_hbm ((stackTook_place ..).trans hplace),
          stackTook_arr]
        exact LineMem.peek_write hdead hlen ..
    · show execHbmWrite addr data poison s = _
      unfold execHbmWrite
      rw [hline, hparam]
      rfl
  case part =>
    obtain ⟨loc, code, hplace, rfl⟩ := hbmLine_iff hline
    obtain ⟨loc', code', hplace', hloc⟩ := hbmLine_iff hbase
    have hdata : lineData addr data = data := lineData_of_fits (by omega)
    have hempty : (s.inParameter addr || data.isEmpty) = false := by
      rw [hparam, List.isEmpty_eq_false_iff.2 (List.ne_nil_of_length_pos hpos)]
      rfl
    have hdisplaced : (s.stack n).arr.displaced (loc' / 64) stackWc = none := by
      unfold LineMem.displaced
      rw [if_neg]
      simp [hroom]
    refine gives_done (x := s.writeLine (addr / 64 * 64) (addr % 64) (lineData addr data) false) ?_ ?_
    · show execHbmWrite addr data false s = _
      unfold execHbmWrite
      rw [hline]
      exact if_neg (by rw [hempty]; decide)
    · obtain ⟨since, a', code'', hwrite⟩ := writeLine_part_hbm (off := addr % 64) (poison := false) hplace' (by omega : data.length ≠ 64) hdisplaced
      rw [hdata, close_peekLine, hwrite, peekLine_hbm ((stackTook_place ..).trans hplace), stackTook_arr, peekLine_hbm hplace, hloc]
      exact LineMem.peek_combine hwc (rising_parts _ _) (by simp; omega) ..

/-- A device whose count of stash devices reaches past the core stores: an address of a core store then falls in the stash tier's
range, where no region holds it. -/
def farStash : State := { State.reset with dev := { Dev.reset with stashDevices := 100 } }

theorem farStash_ok : farStash.MemoryOk := by
  refine ⟨fun n => ?_, fun n => ?_, fun c => ?_⟩
  · simp [farStash, State.reset, State.stack, Stack.zero, LineMem.Ok, LineMem.zero, memWf]
  · simp [farStash, State.reset, State.stc, Stash.zero, LineMem.Ok, LineMem.zero, memWf]
  · simp [farStash, State.reset, State.core, Core.zero, memWf]

/-- Refutes O36: the statement bounds no count of stash devices; with 100 of them the first byte of core store 0 lies in the
range of the stash tier, and bytes written there reach no core store. -/
theorem not_hbmWriteFrame : ¬ Obligations.HbmWriteFrame := by
  unfold Obligations.HbmWriteFrame
  rintro ⟨-, h⟩
  obtain ⟨-, hread, -⟩ := h farStash 0 0 [1] false farStash_ok (by decide) (by decide)
  exact absurd hread (by decide +kernel)

end Sys2Proof.Machine
end

section
/-! SUPPORT. The commands of the memory controllers (R260 to R262, R269 to R271, R274, R277, R343). -/

namespace Sys2Proof.Machine

section
variable {s : State}

/-! One controller: a line whose transfer failed reads as poisoned, a correction lands, a group leaves the cache. -/

theorem LineMem.fix_lands {m : LineMem} {line max : Nat} {d : List Byte} (h : Tbl.get? m.fixes line = some d) :
    Tbl.get? (m.fix line max).1.fixes line = none ∧ (d.length = 64 → (m.fix line max).1.plain line = d) ∧
      (m.fix line max).1.upsets line = zeros 68 := by
  unfold LineMem.fix
  rw [h]
  refine ⟨Tbl.get?_none_of_erase _ _, fun hlen => ?_, memRead_memWrite_self _ _ (zeros 68)⟩
  have hread := memRead_memWrite_self (((m.touchCheck line max).1.restorePair (groupOf line)).turn (groupOf line) true).1.data (64 * line) d
  rw [hlen] at hread
  exact hread

theorem LineMem.evict_cache (m : LineMem) (g : Nat) : (m.evict g).1.cache.contains g = false := by
  unfold LineMem.evict
  simp

theorem LineMem.peek_of_flagged {m : LineMem} {line : Nat} (h : m.flagged line = true) (cr : Option Crypt) (code : Nat) :
    (m.peek cr code line).2 = true := by
  unfold LineMem.peek
  cases Tbl.get? m.wc line <;> simp [h]

theorem LineMem.poisonOnly_flagged (m : LineMem) (line max : Nat) : (m.poisonOnly line max).1.flagged line = true :=
  flagged_setPoison_self (m.needCheck line max).1 line true

/-! The fixed place of an address in the stash tier. -/

theorem stash_base_le {a : Nat} {work : Bool} {n : Fin 8} {pos : Bool} {loc code : Nat} (h : s.place a work = .stash n pos loc code) :
    0x008700000000 ≤ a := by
  by_contra hlt
  unfold State.place at h
  rw [if_pos (by omega)] at h
  split at h
  · cases h
  · dsimp only at h
    split at h <;> cases h

theorem not_inParameter_of_stash {a : Nat} {work : Bool} {n : Fin 8} {pos : Bool} {loc code : Nat}
    (h : s.place a work = .stash n pos loc code) : s.inParameter a = false := by
  have := stash_base_le h
  unfold State.inParameter
  rw [decide_eq_false (by omega)]
  rfl

theorem crcRetries_place (n : Fin 8) (fails : Fin 5) (a : Nat) (work : Bool) :
    (s.crcRetries n fails).place a work = s.place a work := place_congr rfl rfl rfl a work

theorem crcRetries_arr (n : Fin 8) (fails : Fin 5) : ((s.crcRetries n fails).stc n).arr = (s.stc n).arr := by
  unfold State.crcRetries
  rw [State.stc_modStc_self]

theorem crcRetries_ok (h : s.MemoryOk) (n : Fin 8) (fails : Fin 5) : (s.crcRetries n fails).MemoryOk :=
  State.modStc_ok h n _ (h.2.1 n).1 (h.2.1 n).2

theorem writeLine_whole_stash {addr off : Nat} {data : List Byte} {poison work : Bool} {n : Fin 8} {pos : Bool} {loc code : Nat}
    (h : s.place addr work = .stash n pos loc code) (hlen : data.length = 64) :
    s.writeLine addr off data poison work = s.stashTook n ((s.stc n).arr.write (stashLine pos loc) stashCache data poison).1
      ((s.stc n).arr.write (stashLine pos loc) stashCache data poison).2 (addr / 64 * 64) (stashLine pos loc) code := by
  unfold State.writeLine
  rw [h]
  dsimp only
  rw [if_pos hlen, if_pos hlen]

theorem LineMem.write_fixes {m : LineMem} (h : m.fixes = []) (line max : Nat) (bytes : List Byte) (p : Bool) :
    (m.write line max bytes p).1.fixes = [] := by
  have e : (m.touchCheck line max).1.fixes = [] := (m.touchCheck_keeps line max).2.2.1.trans h
  show Tbl.erase (m.touchCheck line max).1.fixes line = []
  rw [e]
  rfl

theorem poisonLine_stash {a : Nat} {n : Fin 8} {pos : Bool} {loc code : Nat} (h : s.place a = .stash n pos loc code) :
    (s.poisonLine a).place a = s.place a ∧
      ((s.poisonLine a).stc n).arr = ((s.stc n).arr.poisonOnly (stashLine pos loc) stashCache).1 := by
  unfold State.poisonLine
  rw [if_neg (by rw [not_inParameter_of_stash h]; decide), h]
  exact ⟨(place_congr rfl rfl rfl a false).trans h, by dsimp only; rw [State.stc_modStc_self]⟩

/-! A fault in service of a device that runs (R342, R343). -/

/-- What a halt leaves of what it does not stop. -/
theorem haltLost_frame (cause : Nat) : OnlyChanges (partsSend ++ [.dev, .ctxs, .frozen, .slip]) s (s.haltLost cause) := by simp +decide

theorem gives_halted {i : Instr} {u : State} {P : State → Prop} (h : exec i s = done (u.haltLost 7)) (hrun : u.running = true)
    (hP : P (close (u.haltLost 7))) :
    Gives i s (fun t => P t ∧ t.dev.st = .halted ∧ t.Recognised 8 .warm) := by
  obtain ⟨hst, hrec⟩ := haltLost_of_running (cause := 7) hrun
  exact gives_done h ⟨hP, by rw [close_dev]; exact hst, hrec.close⟩

end

/-- Settles O34, controller by controller. -/
theorem memoryCommandsComplete : Obligations.MemoryCommandsComplete := by
  unfold Obligations.MemoryCommandsComplete
  refine ⟨fun s => ⟨?read, ?fix, ?entry, ?evict, ?refresh, ?stackFails, ?core, ?stashDead⟩,
    fun s addr n line code hline => ⟨?stashRead, ?stashLost, ?stashWrite, ?stashWriteLost⟩⟩
  case read =>
    intro addr upset flags n line hline
    refine gives_done (x := { (s.modStack n (fun st => { st with arr := st.arr.strike line upset flags })).touchLine addr with
      answer := some ((s.modStack n (fun st => { st with arr := st.arr.strike line upset flags })).peekLine addr) }) ?_ (close_answer _)
    show execHbmRead addr upset flags s = _
    unfold execHbmRead
    rw [hline]
  case fix =>
    intro n line d hd
    refine gives_done (x := s.modStack n (fun st => { st with
      arr := ((s.stack n).arr.fix line stackCache).1, bank := st.bank.stackEv ((s.stack n).arr.fix line stackCache).2 })) ?_ ?_
    · show execCorrectionWriteBack n line s = _
      unfold execCorrectionWriteBack
      rw [hd]
    · rw [stack_close, State.stack_modStack_self]
      exact LineMem.fix_lands hd
  case entry =>
    intro unit line w hw hdue
    have hexec : exec (.wcEntryFinish unit line) s =
        match unitOf unit with
        | .inl n => done (s.finishStack n line)
        | .inr n => done (s.finishStash n line) := by
      show execWcEntryFinish unit line s = _
      unfold execWcEntryFinish
      rw [hw]
      exact if_neg (by rw [hdue]; decide)
    exact ⟨fun n hn => gives_done (by rw [hexec, hn]) rfl, fun n hn => gives_done (by rw [hexec, hn]) rfl⟩
  case evict =>
    intro unit group hin
    have hexec : exec (.checkLineEvict unit group) s =
        match unitOf unit with
        | .inl n => done (s.modStack n (fun st => { st with
            arr := ((s.unitLines unit).evict group).1, bank := st.bank.stackEv ((s.unitLines unit).evict group).2 }))
        | .inr n => done (s.modStc n (fun c => { c with
            arr := ((s.unitLines unit).evict group).1, bank := c.bank.stashEv ((s.unitLines unit).evict group).2 })) := by
      show execCheckLineEvict unit group s = _
      unfold execCheckLineEvict
      exact if_neg (by rw [hin]; decide)
    have hevict := (s.unitLines unit).evict_cache group
    cases hu : unitOf unit with
    | inl n =>
      refine gives_done (by rw [hexec, hu]) ?_
      simp only [State.unitLines, hu] at hevict ⊢
      rw [stack_close, State.stack_modStack_self]
      exact hevict
    | inr n =>
      refine gives_done (by rw [hexec, hu]) ?_
      simp only [State.unitLines, hu] at hevict ⊢
      rw [stc_close, State.stc_modStc_self]
      exact hevict
  case refresh =>
    intro n channel hot htrained hself
    refine gives_done (x := s.modStack n (fun st => { st with refresh2x := hot, bank := st.bank.add 8 1 }))
      (if_pos (by rw [htrained, hself]; rfl)) ?_
    rw [stack_close, State.stack_modStack_self]
    exact ⟨rfl, rfl⟩
  case stackFails =>
    intro n hrun
    have hexec : exec (.stackFault (.stack n)) s = done ((s.modStack n (fun st => { st with failed := true })).haltLost 7) :=
      if_neg (by rw [hrun]; decide)
    refine gives_halted hexec hrun ?_
    have hrest := haltLost_frame (s := s.modStack n (fun st => { st with failed := true })) 7 .stacks (by decide) n
    rw [stack_close]
    have hfailed := congrArg Stack.failed hrest
    rw [State.stack_modStack_self] at hfailed
    exact hfailed
  case core =>
    intro c hrun
    have hexec : exec (.stackFault (.core c)) s = done ((s.modCore c (fun x => { x.halt 4 with health := .failed })).haltLost 7) :=
      if_neg (by rw [hrun]; decide)
    refine gives_halted hexec hrun ?_
    have hrest := haltLost_frame (s := s.modCore c (fun x => { x.halt 4 with health := .failed })) 7 .cores (by decide) c
    rw [core_close]
    have hhealth := congrArg Core.health hrest
    rw [State.core_modCore_self] at hhealth
    exact hhealth
  case stashDead =>
    intro n second hrun
    have hexec : exec (.stackFault (.stash n second)) s = done (s.modStc n (fun c => { c with
        arr := { c.arr with dead := insSorted c.arr.dead (b2n second) } })) := if_neg (by rw [hrun]; decide)
    refine gives_done hexec ⟨?_, close_dev _⟩
    rw [stc_close, State.stc_modStc_self]
  case stashRead =>
    intro upset fails hfails
    generalize hu : (s.modStc n (fun c => { c with arr := c.arr.strike line upset 0 })).crcRetries n fails = u
    refine gives_done (x := { u.touchLine addr with answer := some (u.peekLine addr) }) ?_ (close_answer _)
    show execStashRead addr upset fails s = _
    unfold execStashRead
    rw [hline]
    dsimp only
    rw [hu, if_pos hfails]
  case stashLost =>
    intro upset fails hfails
    generalize hu : (s.modStc n (fun c => { c with arr := c.arr.strike line upset 0 })).crcRetries n fails = u
    refine gives_done (x := { u.stashTook n ((u.stc n).arr.readLost line stashCache).1 ((u.stc n).arr.readLost line stashCache).2
      (addr / 64 * 64) line code with answer := some ((u.peekLine addr).1, true) }) ?_ ⟨_, close_answer _⟩
    show execStashRead addr upset fails s = _
    unfold execStashRead
    rw [hline]
    dsimp only
    rw [hu, if_neg (by omega)]
  case stashWrite =>
    intro data poison fails hok hdead hfails halign hlen
    obtain ⟨pos, loc, hplace, rfl⟩ := stashLineOf_iff hline
    have hdata : lineData addr data = data := lineData_of_fits (by omega)
    have haddr : addr / 64 * 64 = addr := by omega
    generalize hu : s.crcRetries n fails = u
    have hplaceU : u.place addr = .stash n pos loc code := by rw [← hu, crcRetries_place, hplace]
    have harr : (u.stc n).arr = (s.stc n).arr := by rw [← hu, crcRetries_arr]
    refine gives_done (x := u.writeLine (addr / 64 * 64) (addr % 64) (lineData addr data) poison) ?_ ?_
    · show execStashWrite addr data poison fails s = _
      unfold execStashWrite
      rw [hline]
      dsimp only
      rw [if_neg (by rw [List.isEmpty_eq_false_iff.2 (List.ne_nil_of_length_pos (by omega))]; decide), hu, if_pos hfails]
    · have hfixes : ((u.stc n).arr.write (stashLine pos loc) stashCache data poison).1.fixes = [] :=
        LineMem.write_fixes (by rw [harr]; exact (hok.2.1 n).2) ..
      rw [haddr, hdata, close_peekLine, writeLine_whole_stash hplaceU hlen, peekLine_stash ((stashTook_place ..).trans hplaceU),
        stashTook_stc, took_arr_of_no_fixes _ hfixes]
      exact LineMem.peek_write (by rw [harr]; exact hdead) hlen ..
  case stashWriteLost =>
    intro data poison fails hfails hpos
    obtain ⟨pos, loc, hplace, rfl⟩ := stashLineOf_iff hline
    generalize hu : s.crcRetries n fails = u
    have hplaceU : u.place addr = .stash n pos loc code := by rw [← hu, crcRetries_place, hplace]
    refine gives_done (x := u.poisonLine addr) ?_ ?_
    · show execStashWrite addr data poison fails s = _
      unfold execStashWrite
      rw [hline]
      dsimp only
      rw [if_neg (by rw [List.isEmpty_eq_false_iff.2 (List.ne_nil_of_length_pos hpos)]; decide), hu, if_neg (by omega)]
    · obtain ⟨hsame, harr⟩ := poisonLine_stash hplaceU
      rw [close_peekLine, peekLine_stash (hsame.trans hplaceU), harr]
      exact LineMem.peek_of_flagged (LineMem.poisonOnly_flagged ..) _ _

end Sys2Proof.Machine
end

section
/-! SUPPORT. The Gale arrays: a TILE takes its array, and each of the array's own commands stays within it (R66 to R73). -/

namespace Sys2Proof.Machine

section
variable {s t : State} {g h : Fin 8}

/-- An array other than the one that a command is about is as before. -/
def GalesKept (g : Fin 8) (s t : State) : Prop := ∀ h, h ≠ g → t.gale h = s.gale h

theorem galesKept_modGale (s : State) (g : Fin 8) (f : Gale → Gale) : GalesKept g s (s.modGale g f) := fun h hne => by
  rw [State.gale_modGale, if_neg hne]

theorem GalesKept.trans {u : State} (a : GalesKept g s t) (b : GalesKept g t u) : GalesKept g s u :=
  fun h hne => (b h hne).trans (a h hne)

theorem GalesKept.of_gales (a : GalesKept g s t) {u : State} (e : u.gales = t.gales) : GalesKept g s u := fun h hne => by
  unfold State.gale
  rw [e]
  exact a h hne

theorem arrayStep_gales (s : State) (g : Fin 8) : (s.arrayStep g).gales = s.gales := by
  unfold State.arrayStep
  split <;> rfl

theorem gale_of_gales {u : State} (e : u.gales = t.gales) (h : Fin 8) : u.gale h = t.gale h := by
  unfold State.gale
  rw [e]

/-- An array with the outcome of an offer to the cross-check (R90). -/
def Gale.offered (x : Gale) (candidates xhigh : Nat) (xqueue : List Chain) (xchkSkip : Bool) (bank : Bank 12) : Gale :=
  { x with candidates := candidates, xqueue := xqueue, xchkSkip := xchkSkip, xhigh := xhigh, bank := bank }

theorem sample_gale (s : State) (g : Fin 8) (ch : Chain) :
    ∃ n xh q k b, (s.sample g ch).gale g = (s.gale g).offered n xh q k b := by
  unfold State.sample
  dsimp only
  split
  · exact ⟨_, _, _, _, _, rfl⟩
  · rw [State.gale_modGale_self]
    split
    · exact ⟨_, _, _, _, _, rfl⟩
    · split
      · exact ⟨_, _, _, _, _, rfl⟩
      · exact ⟨_, _, _, _, _, rfl⟩

theorem sample_kept (s : State) (g : Fin 8) (ch : Chain) : GalesKept g s (s.sample g ch) := by
  unfold State.sample
  dsimp only
  split
  · exact fun _ _ => rfl
  · exact galesKept_modGale _ _ _

/-! TILE (R66, R67). -/

variable {c : Fin 4} {k : Fin 8} {op : BitVec 128}

/-- The chain that a TILE works on, before its drain parameters: the open one or a new one. -/
def State.tileChain (s : State) (c : Fin 4) (k : Fin 8) (op : BitVec 128) (x : Gale) : Chain :=
  match x.opened with
  | some ch => ch
  | none => s.newChain c k op (s.headSerial c k) x

theorem drainParams_keeps (s : State) (c : Fin 4) (k : Fin 8) (op : BitVec 128) (serial : Nat) (ch : Chain) :
    (s.drainParams c k op serial ch).ctx = ch.ctx ∧ (s.drainParams c k op serial ch).mode = ch.mode ∧
      (s.drainParams c k op serial ch).m = ch.m ∧ (s.drainParams c k op serial ch).n = ch.n ∧
      (s.drainParams c k op serial ch).bank = ch.bank := by
  unfold State.drainParams
  split <;> exact ⟨rfl, rfl, rfl, rfl, rfl⟩

theorem setAcc_keeps (x : Gale) (b : Bool) (a : AccBank) :
    (x.setAcc b a).run = x.run ∧ (x.setAcc b a).opened = x.opened ∧ (x.setAcc b a).lastBank = x.lastBank := by
  unfold Gale.setAcc
  split <;> exact ⟨rfl, rfl, rfl⟩

theorem admitLoad_keeps (x : Gale) :
    x.admitLoad.run = x.run ∧ x.admitLoad.opened = x.opened ∧ x.admitLoad.lastBank = x.lastBank := by
  unfold Gale.admitLoad
  split
  · exact ⟨rfl, rfl, rfl⟩
  · exact setAcc_keeps _ _ _

theorem issued_gales (s : State) (c : Fin 4) (k : Fin 8) : (s.issued c k).gales = s.gales := by
  have h : OnlyChanges [.ctxs, .cores] s (s.issued c k) := by simp +decide
  exact h .gales (by decide)

/-- What a TILE leaves of its array and of the others. -/
theorem tileIssue_array : ∃ ch : Chain,
    ((tileIssue c k op s).gale (arrayOf c (tileSide op))).run = some ⟨op, s.headSerial c k, k, 0, false⟩ ∧
      ((tileIssue c k op s).gale (arrayOf c (tileSide op))).opened = some ch ∧
      ((tileIssue c k op s).gale (arrayOf c (tileSide op))).lastBank = ch.bank ∧
      (let old := s.tileChain c k op (s.gale (arrayOf c (tileSide op)))
       ch.ctx = old.ctx ∧ ch.mode = old.mode ∧ ch.m = old.m ∧ ch.n = old.n ∧ ch.bank = old.bank) ∧
      GalesKept (arrayOf c (tileSide op)) s (tileIssue c k op s) := by
  generalize hg : arrayOf c (tileSide op) = g
  unfold tileIssue
  rw [hg]
  extract_lets g' x serial ch0 fresh badLoad ch vios x1 x2 lc s1 s2 old
  have hx : x2.run = x1.run ∧ x2.opened = x1.opened ∧ x2.lastBank = x1.lastBank := by
    show (ite _ _ _ : Gale).run = _ ∧ (ite _ _ _ : Gale).opened = _ ∧ (ite _ _ _ : Gale).lastBank = _
    split
    · exact ⟨rfl, rfl, rfl⟩
    · split
      · exact admitLoad_keeps _
      · split
        · exact setAcc_keeps _ _ _
        · exact ⟨rfl, rfl, rfl⟩
  have hch : ch.ctx = old.ctx ∧ ch.mode = old.mode ∧ ch.m = old.m ∧ ch.n = old.n ∧ ch.bank = old.bank := by
    obtain ⟨hctx, hmode, hm, hn, hbank⟩ :=
      drainParams_keeps s c k op serial (if badLoad then { ch0 with badLoad := true, poison := true } else ch0)
    refine ⟨hctx.trans ?_, hmode.trans ?_, hm.trans ?_, hn.trans ?_, hbank.trans ?_⟩ <;> split <;> rfl
  have hgales : ((s2.violateAll vios).issued c k).gales = (s.modGale g' (fun _ => x2)).gales := by
    have h : OnlyChanges [.vio, .ctxs, .cores] (s.modGale g' (fun _ => x2)) ((s2.violateAll vios).issued c k) := by
      clear_value vios x2
      refine (onlyChanges_issued (by decide)).2 ((onlyChanges_violateAll (by decide)).2 ?_)
      show OnlyChanges _ _ (ite _ _ _)
      split <;> simp +decide [s1]
    exact h .gales (by decide)
  have hgale : ((s2.violateAll vios).issued c k).gale g = x2 := by
    rw [gale_of_gales hgales, State.gale_modGale_self]
  obtain ⟨hrun, hopened, hlast⟩ := hx
  rw [hgale, hrun, hopened, hlast]
  exact ⟨ch, rfl, rfl, rfl, hch, (galesKept_modGale s g _).of_gales hgales⟩

/-- A TILE leaves of its core and of the other contexts what every operation that issues does. -/
theorem tileIssue_issued : Issued c k s (tileIssue c k op s) := by
  unfold tileIssue
  extract_lets g' x serial ch0 fresh badLoad ch vios x1 x2 lc s1 s2
  have hframe : CoresFramed s (s2.violateAll vios) := by
    refine CoresFramed.trans ?_ (((onlyChanges_violateAll (B := [.vio]) (by decide)).2 (onlyChanges_refl _ _)).coresFramed (by decide))
    have hfly : ∀ (u : State) (f : Flight), CoresFramed u (u.fly c f) := fun u f => coresFramed_modCore u c _ fun _ => rfl
    have h1 : CoresFramed s s1 :=
      (((onlyChanges_modGale (B := [.gales]) (by decide)).2 (onlyChanges_refl _ s)).coresFramed (by decide)).trans (hfly _ _)
    show CoresFramed s (ite _ _ _)
    split
    · exact h1.trans (hfly _ _)
    · exact h1
  have hctx : OnlyChanges [.gales, .cores, .vio] s (s2.violateAll vios) := by
    clear_value vios x2
    refine (onlyChanges_violateAll (by decide)).2 ?_
    show OnlyChanges _ _ (ite _ _ _)
    split <;> simp +decide [s1]
  rw [State.issued_eq]
  exact issued_issuedTo (hframe.bank c) (fun d j _ => hctx .ctxs (by decide) d j) _

/-! The array's own commands. -/

theorem GalesKept.close (a : GalesKept g s t) : GalesKept g s (Machine.close t) := a.of_gales (close_gales t)

theorem landedPart_gales (s : State) (c : Fin 4) (k : Fin 8) (serial : Nat) (reads : Bool) :
    (s.landedPart c k serial reads).gales = s.gales := rfl

/-- What a broadcast leaves of its array but for an offer to the cross-check, and of the others (R70, R90). -/
theorem galeBroadcast_gives {r : TileRun} (hr : (s.gale g).run = some r) (hrun : s.running = true)
    (hcan : (s.gale g).canBroadcast = true) :
    Gives (.galeBroadcast g) s (fun t =>
      (∃ n xh q k b, t.gale g = (s.gale g).broadcast.offered n xh q k b) ∧ GalesKept g s t) := by
  let s1 : State := (s.modGale g (fun _ => (s.gale g).broadcast)).arrayStep g
  let s2 : State := if (s.gale g).broadcast.run.isNone && !tileDrain r.op then s1.landedPart (coreOf g) r.ctx r.serial false else s1
  let s3 : State := match (s.gale g).opened with
    | some ch =>
      if (s.gale g).broadcast.opened.isNone && !(tileMode r.op).grouped then
        s2.sample g ((((s.gale g).broadcast.acc ch.bank).chain).getD ch)
      else s2
    | none => s2
  have hexec : exec (.galeBroadcast g) s = done s3 := by
    show execGaleBroadcast g s = _
    unfold execGaleBroadcast
    dsimp only
    rw [hr]
    exact if_pos (by rw [hrun, hcan]; rfl)
  have h2 : s2.gales = (s.modGale g (fun _ => (s.gale g).broadcast)).gales := by
    show (ite _ _ _ : State).gales = _
    split
    · exact arrayStep_gales _ _
    · exact arrayStep_gales _ _
  have hgale : s2.gale g = (s.gale g).broadcast := (gale_of_gales h2 g).trans (State.gale_modGale_self ..)
  have hkept : GalesKept g s s2 := (galesKept_modGale s g _).of_gales h2
  have hself : ∃ n xh q k b, s2.gale g = (s.gale g).broadcast.offered n xh q k b := ⟨_, _, _, _, _, hgale⟩
  have h3 : (∃ n xh q k b, s3.gale g = (s.gale g).broadcast.offered n xh q k b) ∧ GalesKept g s s3 := by
    show (∃ n xh q k b, (match (s.gale g).opened with | some ch => ite _ _ _ | none => s2 : State).gale g = _) ∧
      GalesKept g s (match (s.gale g).opened with | some ch => ite _ _ _ | none => s2)
    split
    · split
      · exact ⟨hgale ▸ sample_gale s2 g _, hkept.trans (sample_kept _ _ _)⟩
      · exact ⟨hself, hkept⟩
    · exact ⟨hself, hkept⟩
  refine gives_done hexec ⟨?_, h3.2.close⟩
  rw [gale_close]
  exact h3.1

theorem setAcc_acc (x : Gale) (b : Bool) (a : AccBank) : (x.setAcc b a).acc b = a := by cases b <;> rfl

end

/-- An array whose reduced group has been added to its bank (R73). -/
def Gale.sumAdded (x : Gale) (u : TermGroup) : Gale :=
  let a : AccBank := ⟨if u.last then .waitingDrain else .accumulating, (x.acc u.chain.bank).poison || u.chain.poison,
    addGroup u ((x.acc u.chain.bank).start u.chain), some u.chain⟩
  let y := { x.setAcc u.chain.bank a with reducer := none }
  if u.last then { y with drainOrder := y.drainOrder ++ [(u.chain.bank, false)] } else y

theorem sumAdded_fields (x : Gale) (u : TermGroup) :
    ((x.sumAdded u).acc u.chain.bank).acc = addGroup u ((x.acc u.chain.bank).start u.chain) ∧
      ((x.sumAdded u).acc u.chain.bank).st = (if u.last then .waitingDrain else .accumulating) ∧
      (x.sumAdded u).drainOrder = (if u.last then x.drainOrder ++ [(u.chain.bank, false)] else x.drainOrder) ∧
      (x.sumAdded u).reducer = none := by
  unfold Gale.sumAdded
  cases u.last <;> cases u.chain.bank <;> exact ⟨rfl, rfl, rfl, rfl⟩

/-- Settles O27: a TILE takes the array of its side, and every other command stays within its array. -/
theorem arraysRun : Obligations.ArraysRun := by
  unfold Obligations.ArraysRun
  refine ⟨fun s c k op h => ?tile, fun s g => ⟨?broadcast, ?stall, ?enters, ?adds⟩⟩
  case tile =>
    refine gives_issue h (show execTile c k s = _ from rfl) ?_
    obtain ⟨ch, hrun, hopened, hlast, ⟨hctx, hmode, hm, hn, hbank⟩, hkept⟩ := tileIssue_array (s := s) (c := c) (k := k) (op := op)
    rw [gale_close]
    refine ⟨hrun, tileIssue_issued.close, hkept.close, ch, hopened, hlast, fun hnone => ?_, fun old hold => ?_⟩
    · unfold State.tileChain at hctx hmode hm hn hbank
      rw [hnone] at hctx hmode hm hn hbank
      exact ⟨hctx, hmode, hm, hn, hbank⟩
    · unfold State.tileChain at hctx hmode hbank
      rw [hold] at hctx hmode hbank
      exact ⟨hctx, hbank, hmode⟩
  case broadcast =>
    intro r hr hrun hcan
    obtain ⟨t, ht, ⟨n, xh, q, k, b, hgale⟩, hkept⟩ := galeBroadcast_gives hr hrun hcan
    refine ⟨t, ht, ?_⟩
    dsimp only
    rw [hgale]
    exact ⟨rfl, rfl, rfl, rfl, rfl, rfl, rfl, hkept⟩
  case stall =>
    intro r hr hrun hcan
    have hexec : exec (.galeStall g) s =
        done ((s.modGale g (fun x => { x with bank := x.bank.add (x.stallOf r) 1 })).arrayStep g) := by
      show execGaleStall g s = _
      unfold execGaleStall
      dsimp only
      rw [hr]
      exact if_neg (by rw [hrun, hcan]; decide)
    have hgales := arrayStep_gales (s.modGale g (fun x => { x with bank := x.bank.add (x.stallOf r) 1 })) g
    refine gives_done hexec ⟨?_, ((galesKept_modGale s g _).of_gales hgales).close⟩
    rw [gale_close, gale_of_gales hgales, State.gale_modGale_self]
  case enters =>
    intro u hgroup hreducer hclosed
    refine gives_done (x := s.modGale g (fun x => { x with group := none, reducer := some u })) ?_ ⟨?_, (galesKept_modGale s g _).close⟩
    · show execGroupEntersReducer g s = _
      unfold execGroupEntersReducer
      dsimp only
      rw [hgroup, hreducer]
      exact if_pos hclosed
    · rw [gale_close, State.gale_modGale_self]
  case adds =>
    intro u hreducer htakes
    let u1 : State := s.modGale g (fun _ => (s.gale g).sumAdded u)
    have hexec : exec (.groupSumAdd g) s = done (if u.last then u1.sample g u.chain else u1) := by
      show execGroupSumAdd g s = _
      unfold execGroupSumAdd
      dsimp only
      rw [hreducer]
      exact if_pos htakes
    have hself : u1.gale g = (s.gale g).sumAdded u := State.gale_modGale_self ..
    have hshape : (∃ n xh q k b, (if u.last then u1.sample g u.chain else u1 : State).gale g =
        ((s.gale g).sumAdded u).offered n xh q k b) ∧ GalesKept g s (if u.last then u1.sample g u.chain else u1) := by
      split
      · exact ⟨hself ▸ sample_gale u1 g _, (galesKept_modGale s g _).trans (sample_kept _ _ _)⟩
      · exact ⟨⟨_, _, _, _, _, hself⟩, galesKept_modGale s g _⟩
    obtain ⟨⟨n, xh, q, k, b, hgale⟩, hkept⟩ := hshape
    obtain ⟨hacc, hst, horder, hred⟩ := sumAdded_fields (s.gale g) u
    refine gives_done hexec ?_
    rw [gale_close, hgale]
    exact ⟨hacc, hst, horder, hred, hkept.close⟩

end Sys2Proof.Machine
end

section
/-! SUPPORT. What sending leaves of the chain's own state, and a member that abandons a step (R338). -/

namespace Sys2Proof.Machine

/-- The chain's state is as before but for the packet numbers that were taken (R313). -/
def ChainSends (s t : State) : Prop := ∃ x, t.chain = { s.chain with txSeq := x }

section
variable {s t u : State}

theorem ChainSends.refl (s : State) : ChainSends s s := ⟨s.chain.txSeq, rfl⟩

theorem ChainSends.of_chain (h : t.chain = s.chain) : ChainSends s t := ⟨s.chain.txSeq, h⟩

theorem ChainSends.trans (a : ChainSends s t) (b : ChainSends t u) : ChainSends s u := by
  obtain ⟨x, hx⟩ := a
  obtain ⟨y, hy⟩ := b
  exact ⟨y, by rw [hy, hx]⟩

/-- A part of the chain's state that sending leaves. -/
theorem ChainSends.field {α : Type} (h : ChainSends s t) (f : ChainSt → α) (hf : ∀ c x, f { c with txSeq := x } = f c) :
    f t.chain = f s.chain := by
  obtain ⟨x, hx⟩ := h
  rw [hx, hf]

theorem pushOn_chain (s : State) (l : Fin 36) (p : Packet) : (s.pushOn l p).chain = s.chain := by
  unfold State.pushOn State.pumpOn
  dsimp only
  split <;> rfl

theorem chainSends_tookPseq (s : State) (d vl : Nat) : ChainSends s (s.tookPseq d vl) := ⟨_, rfl⟩

theorem chainSends_pushOn (s : State) (d vl : Nat) (l : Fin 36) (p : Packet) : ChainSends s ((s.tookPseq d vl).pushOn l p) :=
  (chainSends_tookPseq s d vl).trans (.of_chain (pushOn_chain _ _ _))

theorem chainSends_sendOn (s : State) (l : Fin 36) (p : Packet) : ChainSends s (s.sendOn l p) := by
  unfold State.sendOn
  exact chainSends_pushOn _ _ _ _ _

theorem chainSends_send (s : State) (p : Packet) : ChainSends s (s.send p) := by
  unfold State.send State.send?
  dsimp only
  split
  · rw [Option.getD_none]
    exact .refl s
  · rw [Option.getD_some]
    exact chainSends_pushOn _ _ _ _ _

theorem chainSends_toParent (s : State) (p : Packet) : ChainSends s (s.toParent p) := by
  unfold State.toParent
  split
  · exact .refl s
  · dsimp only
    split
    · exact chainSends_sendOn _ _ _
    · exact chainSends_send _ _

/-! A member that learns of a failure sends its report up and leaves the rest to the root (R338, R339). -/

theorem rootJudge_of_empty (h : s.chain.inbox = []) : s.rootJudge = s.modChain (fun c => { c with inbox := [] }) := by
  unfold State.rootJudge
  rw [h]
  dsimp only
  split <;> rfl

theorem learn_member (hroot : s.chain.isRoot = false) (cause : Nat) :
    OnlyChanges partsSend s (s.learn cause) ∧ (s.learn cause).chain.inbox = s.chain.inbox ∧ (s.learn cause).chain.isRoot = false := by
  refine ⟨(onlyChanges_learn (List.Subset.refl _)).2 (onlyChanges_refl _ s), ?_⟩
  unfold State.learn
  dsimp only
  split
  · exact ⟨rfl, hroot⟩
  · unfold State.report
    rw [if_neg (by simp [hroot, State.recoveryRecord])]
    have h := chainSends_toParent
      ((s.modChain (fun c => { c with myReports := c.myReports ++ [(cause, s.now)] })).recoveryRecord 0 cause s.self s.chain.attempt)
    exact ⟨(h _).field ChainSt.inbox fun _ _ => rfl, ((h _).field ChainSt.isRoot fun _ _ => rfl).trans hroot⟩

/-- A member that abandons its step changes the chain's state, the links and the sessions' counts alone (R338). -/
theorem stepAbandon_member (hroot : s.chain.isRoot = false) (hinbox : s.chain.inbox = []) (cause : Nat) :
    OnlyChanges partsSend s (s.stepAbandon cause) := by
  obtain ⟨hframe, hbox, -⟩ := learn_member hroot cause
  unfold State.stepAbandon
  rw [rootJudge_of_empty (hbox.trans hinbox)]
  exact (onlyChanges_modChain (by decide)).2 hframe

end

end Sys2Proof.Machine
end

section
/-! SUPPORT. The drain path (R74 to R77): the arrays' own state has no part in what a write to memory does. -/

namespace Sys2Proof.Machine

/-- A state with other arrays. -/
def State.withGales (s : State) (y : Vector Gale 8) : State := { s with gales := y }

section
variable (s : State) (y : Vector Gale 8)

theorem withGales_stack (n : Fin 12) : (s.withGales y).stack n = s.stack n := rfl

theorem withGales_stc (n : Fin 8) : (s.withGales y).stc n = s.stc n := rfl

theorem stackTook_withGales (n : Fin 12) (m : LineMem) (e : LineEv) (addr line code : Nat) :
    (s.withGales y).stackTook n m e addr line code = (s.stackTook n m e addr line code).withGales y := by
  unfold State.stackTook
  dsimp only
  split <;> rfl

theorem stashTook_withGales (n : Fin 8) (m : LineMem) (e : LineEv) (addr line code : Nat) :
    (s.withGales y).stashTook n m e addr line code = (s.stashTook n m e addr line code).withGales y := by
  unfold State.stashTook
  dsimp only
  split <;> rfl

theorem roomStack_withGales (n : Fin 12) (line : Nat) : (s.withGales y).roomStack n line = (s.roomStack n line).withGales y := by
  have hfinish : ∀ l, (s.withGales y).finishStack n l = (s.finishStack n l).withGales y := by
    intro l
    unfold State.finishStack
    rw [withGales_stack]
    cases Tbl.get? (s.stack n).arr.wc l with
    | none => rfl
    | some w => exact stackTook_withGales s y _ _ _ _ _ _
  unfold State.roomStack
  rw [withGales_stack]
  cases (s.stack n).arr.displaced line stackWc with
  | none => rfl
  | some l => exact hfinish l

theorem roomStash_withGales (n : Fin 8) (line : Nat) : (s.withGales y).roomStash n line = (s.roomStash n line).withGales y := by
  have hfinish : ∀ l, (s.withGales y).finishStash n l = (s.finishStash n l).withGales y := by
    intro l
    unfold State.finishStash
    rw [withGales_stc]
    cases Tbl.get? (s.stc n).arr.wc l with
    | none => rfl
    | some w => exact stashTook_withGales s y _ _ _ _ _ _
  unfold State.roomStash
  rw [withGales_stc]
  cases (s.stc n).arr.displaced line stashWc with
  | none => rfl
  | some l => exact hfinish l

theorem writeLine_withGales (a off : Nat) (bytes : List Byte) (p work : Bool) :
    (s.withGales y).writeLine a off bytes p work = (s.writeLine a off bytes p work).withGales y := by
  have hplace : (s.withGales y).place a work = s.place a work := rfl
  unfold State.writeLine
  rw [hplace]
  cases s.place a work with
  | hbm n loc code =>
    dsimp only
    rw [roomStack_withGales]
    split
    · exact stackTook_withGales _ y _ _ _ _ _ _
    · exact stackTook_withGales _ y _ _ _ _ _ _
  | stash n pos loc code =>
    dsimp only
    rw [roomStash_withGales]
    split
    · exact stashTook_withGales _ y _ _ _ _ _ _
    · exact stashTook_withGales _ y _ _ _ _ _ _
  | store c o => rfl
  | control o => rfl
  | unmapped => rfl

theorem poisonLine_withGales (a : Nat) : (s.withGales y).poisonLine a = (s.poisonLine a).withGales y := by
  have hplace : (s.withGales y).place a = s.place a := rfl
  have hparam : (s.withGales y).inParameter a = s.inParameter a := rfl
  unfold State.poisonLine
  rw [hplace, hparam]
  split
  · rfl
  · cases s.place a <;> rfl

end

theorem foldl_withGales {α : Type} {f : State → α → State} {y : Vector Gale 8} (hf : ∀ s a, f (s.withGales y) a = (f s a).withGales y)
    (l : List α) : ∀ s : State, l.foldl f (s.withGales y) = (l.foldl f s).withGales y := by
  induction l with
  | nil => exact fun _ => rfl
  | cons a l ih =>
    intro s
    rw [List.foldl_cons, List.foldl_cons, hf, ih]

theorem writeBytesN_withGales (p work : Bool) (y : Vector Gale 8) (fuel : Nat) : ∀ (s : State) (a : Nat) (bs : List Byte),
    (s.withGales y).writeBytesN p work fuel a bs = (s.writeBytesN p work fuel a bs).withGales y := by
  induction fuel with
  | zero => exact fun _ _ _ => rfl
  | succ n ih =>
    intro s a bs
    unfold State.writeBytesN
    split
    · rfl
    · dsimp only
      rw [writeLine_withGales, ih]

theorem landAll_withGales (s : State) (y : Vector Gale 8) (bs : List WBlk) :
    (s.withGales y).landAll bs = (s.landAll bs).withGales y := by
  refine foldl_withGales (fun s b => ?_) bs s
  unfold State.land
  split
  · split
    · unfold State.poisonRanges
      exact foldl_withGales (f := fun s l => s.poisonLine (64 * l)) (fun s l => poisonLine_withGales s y (64 * l)) _ s
    · rfl
  · exact writeBytesN_withGales _ _ y _ s _ _

/-- What memory takes is the same whatever the arrays hold. -/
theorem landAll_modGale_core (s : State) (g : Fin 8) (f : Gale → Gale) (bs : List WBlk) (c : Fin 4) :
    ((s.modGale g f).landAll bs).core c = (s.landAll bs).core c :=
  (congrArg (State.core · c) (landAll_withGales s (upd s.gales g f) bs) :)

end Sys2Proof.Machine
end

section
/-! SUPPORT. The drain path and the cross-check, command by command (R74 to R77, R90 to R97). -/

namespace Sys2Proof.Machine

section
variable {s t : State} {g : Fin 8}

/-! The drain. -/

theorem setAcc_held (x : Gale) (b : Bool) (a : AccBank) : (x.setAcc b a).held = x.held := by cases b <;> rfl

theorem admitLoad_held (x : Gale) : x.admitLoad.held = x.held := by
  unfold Gale.admitLoad
  split
  · rfl
  · exact setAcc_held _ _ _

theorem aim_held (x : Gale) (ch : Chain) : (x.aim ch).held = x.held := rfl

theorem held_modGale_aim (s : State) (g h : Fin 8) (ch : Chain) : ((s.modGale g (·.aim ch)).gale h).held = (s.gale h).held := by
  rw [State.gale_modGale]
  split
  next e => rw [e, aim_held]
  next => rfl

theorem claimDst_gales (s : State) (o : Opd) (spec : Bool) : (s.claimDst o spec).gales = s.gales := by
  unfold State.claimDst State.modRing
  split
  · split <;> rfl
  · rfl

/-- A destination slot that a drain claims changes no row on its way. -/
theorem claimDrain_held (s : State) (g h : Fin 8) (ch : Chain) : ((s.claimDrain g ch).1.gale h).held = (s.gale h).held := by
  unfold State.claimDrain
  split
  · split
    · split
      · rfl
      · dsimp only
        rw [held_modGale_aim, held_modGale_aim]
        split
        · exact congrArg Gale.held (gale_of_gales ((onlyChanges_violate (B := [.vio]) (by decide)).2 (onlyChanges_refl _ _) .gales (by decide)
            |>.trans (claimDst_gales _ _ _)) h)
        · exact congrArg Gale.held (gale_of_gales (claimDst_gales _ _ _) h)
    · rfl
  · rfl

end

/-- The row of a bank that a drain reads next, of a chain whose destination is claimed (R75). -/
def State.rowToDrain (s : State) (g : Fin 8) (b : Bool) (ch : Chain) : HeldRow :=
  let x := s.gale g
  let row := (x.acc b).acc.getD x.drainRow []
  { chain := { ch with poison := (x.acc b).poison }, row := x.drainRow
    codes := if ch.destEddy then row.map (·.toNat) else drainRow ch row (ch.flat x.drainRow)
    last := decide (ch.m ≤ x.drainRow + 1) }

/-- An array from whose bank a row has been read (R75). -/
def Gale.rowRead (x : Gale) (b : Bool) (rest : List (Bool × Bool)) (a : AccBank) (i : Nat) (h : HeldRow) : Gale :=
  let x := { x with held := x.held ++ [h], drainBank := b }
  if h.last then
    { x.setAcc b AccBank.none with drainOrder := rest, drainRow := 0, bank := (x.bank.add 6 1).add 7 (b2n a.poison) }.admitLoad
  else { x.setAcc b { a with st := .draining, chain := some h.chain } with drainRow := i + 1 }

section
variable {s t : State} {g : Fin 8}

theorem rowRead_held (x : Gale) (b : Bool) (rest : List (Bool × Bool)) (a : AccBank) (i : Nat) (h : HeldRow) :
    (x.rowRead b rest a i h).held = x.held ++ [h] := by
  unfold Gale.rowRead
  dsimp only
  split
  · rw [admitLoad_held]
    exact setAcc_held _ _ _
  · exact setAcc_held _ _ _

variable {b : Bool} {rest : List (Bool × Bool)} {ch : Chain}

theorem exec_drainRowRead (horder : (s.gale g).drainOrder = (b, false) :: rest) (hch : ((s.gale g).acc b).chain = some ch) :
    exec (.drainRowRead g) s =
      if !s.drainAccepts g ch || 2 ≤ (s.gale g).held.length then
        done (s.drainHold g (ch.destEddy && decide ((s.gale g).held.length < 2)))
      else done ((s.claimDrain g ch).1.modGale g (fun x =>
        x.rowRead b rest ((s.gale g).acc b) (s.gale g).drainRow (s.rowToDrain g b (s.claimDrain g ch).2))) := by
  show execDrainRowRead g s = _
  unfold execDrainRowRead
  dsimp only
  rw [horder]
  dsimp only
  rw [hch]
  rfl

theorem drainHold_gale (s : State) (g : Fin 8) (full : Bool) :
    (s.drainHold g full).gale g = { s.gale g with bank := (s.gale g).bank.add 5 1 } := by
  unfold State.drainHold
  dsimp only
  split
  · exact (gale_of_gales (State.modEddy_gales _ _ _) g).trans (State.gale_modGale_self ..)
  · exact State.gale_modGale_self ..

/-! A row on its way is written, or enters the expand buffer. -/

/-- The state after the oldest row on its way has left the array. -/
def State.rowLeft (s : State) (g : Fin 8) (h : HeldRow) (rest : List HeldRow) : State :=
  let u := s.modGale g (fun x => { x with held := rest })
  if h.chain.destEddy then u.modEddy (coreOf g) (fun e => e.modBuf g.val (enterBuffer h)) else u.landAll h.writes

/-- The slot that a chain's last row fills. -/
def State.lastRowFills (s : State) (h : HeldRow) : State :=
  match h.chain.dest with
  | some o => (match o.slot with
    | some (rc, r, i) => s.modRing rc r (fun x => x.fill i (h.chain.poison || h.chain.badDest))
    | none => s)
  | none => s

theorem exec_drainRowWrite {h : HeldRow} {held : List HeldRow} (hheld : (s.gale g).held = h :: held) :
    exec (.drainRowWrite g) s = done (if h.last then
      ((s.rowLeft g h held).lastRowFills h).landedPart (coreOf g) h.chain.ctx h.chain.drainSerial false else s.rowLeft g h held) := by
  show execDrainRowWrite g s = _
  unfold execDrainRowWrite
  rw [hheld]
  dsimp only
  split <;> rfl

theorem rowLeft_gale (s : State) (g : Fin 8) (h : HeldRow) (held : List HeldRow) : ((s.rowLeft g h held).gale g).held = held := by
  unfold State.rowLeft
  dsimp only
  split
  · exact congrArg Gale.held ((gale_of_gales (State.modEddy_gales _ _ _) g).trans (State.gale_modGale_self ..))
  · have hland : ((s.modGale g (fun x => { x with held := held })).landAll h.writes).gales =
        (s.modGale g (fun x => { x with held := held })).gales :=
      (onlyChanges_landAll (List.Subset.refl _)).2 (onlyChanges_refl _ _) .gales (by decide)
    exact congrArg Gale.held ((gale_of_gales hland g).trans (State.gale_modGale_self ..))

/-- The end of a chain's drain fills its slot and lands its flight: no more. -/
theorem lastRow_keeps (u : State) (h : HeldRow) (c : Fin 4) (k : Fin 8) (serial : Nat) :
    CoresFramed u ((u.lastRowFills h).landedPart c k serial false) ∧
      OnlyChanges [.cores] u ((u.lastRowFills h).landedPart c k serial false) := by
  have hfill : CoresFramed u (u.lastRowFills h) ∧ OnlyChanges [.cores] u (u.lastRowFills h) := by
    unfold State.lastRowFills
    split
    · split
      · exact ⟨coresFramed_modRing _ _ _ _, by simp +decide⟩
      · exact ⟨.refl u, onlyChanges_refl _ u⟩
    · exact ⟨.refl u, onlyChanges_refl _ u⟩
  exact ⟨hfill.1.trans (coresFramed_modCore _ _ _ fun _ => rfl), (onlyChanges_landedPart (by decide)).2 hfill.2⟩

/-- What the row leaves in memory and in the expand buffer, whether or not it was its chain's last. -/
theorem drainRowWrite_gives {h : HeldRow} {held : List HeldRow} (hheld : (s.gale g).held = h :: held) :
    Gives (.drainRowWrite g) s (fun t => CoresFramed (s.rowLeft g h held) t ∧ OnlyChanges [.cores] (s.rowLeft g h held) t) := by
  refine gives_done (exec_drainRowWrite hheld) ?_
  have hclose : ∀ v : State, CoresFramed v (close v) := fun v d => by rw [core_close]
  split
  · obtain ⟨hcores, hframe⟩ := lastRow_keeps (s.rowLeft g h held) h (coreOf g) h.chain.ctx h.chain.drainSerial
    exact ⟨hcores.trans (hclose _), onlyChanges_close.2 hframe⟩
  · exact ⟨hclose _, onlyChanges_close.2 (onlyChanges_refl _ _)⟩

theorem modBuf_buf (e : Eddy) (side : Nat) (f : List ExpandChain → List ExpandChain) :
    (e.modBuf side f).buf side = f (e.buf side) := by
  unfold Eddy.modBuf Eddy.buf
  split <;> rfl

theorem rowLeft_buf (s : State) (g : Fin 8) {h : HeldRow} (held : List HeldRow) (heddy : h.chain.destEddy = true) :
    ((s.rowLeft g h held).core (coreOf g)).eddy.buf g.val = enterBuffer h ((s.core (coreOf g)).eddy.buf g.val) := by
  unfold State.rowLeft
  dsimp only
  rw [if_pos heddy, eddy_modEddy]
  exact modBuf_buf _ _ _

theorem rowLeft_store (s : State) (g : Fin 8) {h : HeldRow} (held : List HeldRow) (heddy : h.chain.destEddy = false) (c : Fin 4) :
    ((s.rowLeft g h held).core c).store = ((s.landAll h.writes).core c).store := by
  unfold State.rowLeft
  dsimp only
  rw [if_neg (by rw [heddy]; decide)]
  exact congrArg Core.store (landAll_modGale_core s g _ h.writes c)

end

/-! A LOAD reads one row of initial values (R68). -/

/-- The row of initial values that comes next: unspecified where the LOAD's source was refused. -/
def State.loadRow (s : State) (ch : Chain) (o : Opd) (i : Nat) : List Word :=
  if ch.badLoad then (s.freeCodes ch.n).map (BitVec.ofNat 32) else (List.range ch.n).map (fun j => BitVec.ofNat 32 (s.code o j i 0 0))

/-- The source bytes of that row. -/
def loadRanges (ch : Chain) (o : Opd) (i : Nat) : List (Nat × Nat) :=
  if ch.badLoad then [] else (List.range (ceilDiv ch.n 32)).map (fun q => (o.base + o.d.bitOff (32 * q) i 0 0 / 8, 128))

/-- An array whose bank has taken a row of initial values. -/
def Gale.rowLoaded (x : Gale) (b : Bool) (rest : List (Bool × Bool)) (a : AccBank) (i : Nat) (ch : Chain) (row : List Word)
    (bad : Bool) : Gale :=
  let ends := decide (ch.m ≤ i + 1)
  let acc := a.acc ++ [row]
  let poison := a.poison || bad
  let ch' := { ch with init := if ends then acc else ch.init, poison := poison }
  let mark (y : Chain) : Chain := if y.same ch then { y with init := ch'.init, poison := y.poison || poison } else y
  let x' := x.setAcc b ⟨if ends then .accumulating else .loading, poison, acc, some ch'⟩
  { x' with
    opened := x'.opened.map mark
    group := x'.group.map (fun t => { t with chain := mark t.chain })
    reducer := x'.reducer.map (fun t => { t with chain := mark t.chain })
    poisonSeen := x'.poisonSeen || poison
    drainOrder := if ends then rest else x'.drainOrder
    drainBank := b
    drainRow := if ends then 0 else i + 1 }

section
variable {s t : State} {g : Fin 8}

theorem rowLoaded_fields (x : Gale) (b : Bool) (rest : List (Bool × Bool)) (a : AccBank) (i : Nat) (ch : Chain) (row : List Word)
    (bad : Bool) : ((x.rowLoaded b rest a i ch row bad).acc b).acc = a.acc ++ [row] ∧
      (x.rowLoaded b rest a i ch row bad).drainOrder = if ch.m ≤ i + 1 then rest else x.drainOrder := by
  unfold Gale.rowLoaded
  simp only [decide_eq_true_eq]
  cases b <;> exact ⟨rfl, rfl⟩

theorem accLoadRow_loads {b : Bool} {rest : List (Bool × Bool)} {ch : Chain} {o : Opd}
    (horder : (s.gale g).drainOrder = (b, true) :: rest) (hch : ((s.gale g).acc b).chain = some ch) (hload : ch.load = some o)
    (hready : s.srcReady o = true ∨ ch.badLoad = true) :
    Gives (.accLoadRow g) s (fun t => ∃ bad, t.gale g =
      (s.gale g).rowLoaded b rest ((s.gale g).acc b) (s.gale g).drainRow ch
        (s.loadRow ch o (s.gale g).drainRow) bad) := by
  let i := (s.gale g).drainRow
  let u : State := (if ch.badLoad then s.spent ch.n else s).touch (loadRanges ch o i)
  let bad : Bool := ch.badLoad || (if ch.badLoad then s.spent ch.n else s).anyPoison (loadRanges ch o i) ||
    (i == 0 && (if ch.badLoad then s.spent ch.n else s).srcPoison { o with d := { o.d with ext := [] } })
  let v : State := u.modGale g (fun x => x.rowLoaded b rest ((s.gale g).acc b) i ch (s.loadRow ch o i) bad)
  have hu : u.gales = s.gales := by
    have h : OnlyChanges (partsRead ++ [.fresh]) s u := by
      show OnlyChanges _ s ((ite _ _ _ : State).touch _)
      split
      · simp +decide
      · simp +decide
    exact h .gales (by decide)
  have hexec : exec (.accLoadRow g) s = done (if decide (ch.m ≤ i + 1) then (v.releaseSrc o).landedPart (coreOf g) ch.ctx ch.serial true else v) := by
    show execAccLoadRow g s = _
    unfold execAccLoadRow
    dsimp only
    rw [horder]
    dsimp only
    rw [hch]
    dsimp only
    split
    next hnone => cases hload.symm.trans hnone
    next o' ho' =>
      obtain rfl : o = o' := Option.some.inj (hload.symm.trans ho')
      rw [if_neg (by rcases hready with h | h <;> simp [h])]
      exact (apply_ite done _ _ _).symm
  have hrelease : ((v.releaseSrc o).landedPart (coreOf g) ch.ctx ch.serial true).gales = v.gales := by
    have h : OnlyChanges [.cores] v ((v.releaseSrc o).landedPart (coreOf g) ch.ctx ch.serial true) := by
      clear_value v
      simp +decide
    exact h .gales (by decide)
  have hv : v.gale g = (s.gale g).rowLoaded b rest ((s.gale g).acc b) i ch (s.loadRow ch o i) bad := by
    rw [State.gale_modGale_self, gale_of_gales hu]
  refine gives_done hexec ⟨bad, ?_⟩
  rw [gale_close]
  split
  · rw [gale_of_gales hrelease, hv]
  · exact hv

/-! What the cross-check reads of memory has nothing of the arrays in it. -/

variable (s) in
theorem peek_withGales (y : Vector Gale 8) (a n : Nat) : (s.withGales y).peek a n = s.peek a n := rfl

variable (s) in
theorem recorded_withGales (y : Vector Gale 8) (src : GroupSrc) (i : Nat) : (s.withGales y).recorded src i = s.recorded src i := by
  unfold State.recorded
  simp only [peek_withGales]

variable (s) in
theorem passRow_withGales (y : Vector Gale 8) (ch : Chain) (first : Nat) (weights : List (List (List CF))) (i : Nat)
    (row : List Word) :
    (s.withGales y).passRow ch first weights i row = s.passRow ch first weights i row := by
  unfold State.passRow
  simp only [recorded_withGales]

variable (s) in
theorem code_withGales (y : Vector Gale 8) (o : Opd) (a b c d : Nat) : (s.withGales y).code o a b c d = s.code o a b c d := by
  unfold State.code State.codeAt
  rw [peek_withGales]

variable (s) in
theorem storedRow_withGales (y : Vector Gale 8) (ch : Chain) (i : Nat) : (s.withGales y).storedRow ch i = s.storedRow ch i := by
  unfold State.storedRow
  simp only [code_withGales]

/-- The state in which a row comparison judges: its steps are counted (R95). -/
def State.comparing (s : State) (g : Fin 8) (ch : Chain) : State :=
  s.modGale g (fun x => { x with bank := (x.bank.add 11 ch.rowSteps).add 0 ch.rowSteps })

variable (s) in
theorem comparing_storedRow (g : Fin 8) (ch : Chain) (i : Nat) : (s.comparing g ch).storedRow ch i = s.storedRow ch i :=
  storedRow_withGales s (upd s.gales g _) ch i

variable (s) in
theorem comparing_checkRow (g : Fin 8) (r : XchkRun) : (s.comparing g r.chain).checkRow g r = s.checkRow g r := by
  have hbank : ((s.comparing g r.chain).gale g).bank1 = (s.gale g).bank1 := by
    unfold State.comparing
    rw [State.gale_modGale_self]
  unfold State.checkRow
  rw [hbank]
  exact passRow_withGales s (upd s.gales g _) _ _ _ _ _

/-- Where the row that the checker computes differs from the one that was stored (R95). -/
def State.rowDiff (s : State) (g : Fin 8) (r : XchkRun) : Option Nat :=
  (List.range r.chain.n).find? (fun j =>
    (drainRow r.chain (s.checkRow g r) (r.chain.flat r.row)).getD j 0 != (s.storedRow r.chain r.row).getD j 0)

/-- What a comparison leaves before its run goes on or ends. -/
def State.judged (s : State) (g : Fin 8) (r : XchkRun) : State :=
  match s.rowDiff g r with
  | some j => if r.bad then s.comparing g r.chain else (s.comparing g r.chain).mismatch r.owner g r.chain r.row j
  | none => s.comparing g r.chain

theorem exec_xchkRowCompare {r : XchkRun} (hr : (s.gale g).check = some r) :
    exec (.xchkRowCompare g) s =
      if !r.chain.recordedWhole || s.checkPoison r then done (s.modGale g Gale.endCheck)
      else if !(s.gale r.owner).wrote r.chain r.row then stay s
      else if s.storedPoison r.chain r.row then done (s.modGale g Gale.endCheck)
      else if r.chain.m ≤ r.row + 1 then
        done (((s.judged g r).modGale r.owner (fun x => { x with bank := x.bank.add 8 1 })).modGale g Gale.endCheck)
      else done ((s.judged g r).modGale g (fun x =>
        { x with check := x.check.map (fun y => { y with row := r.row + 1, bad := y.bad || (s.rowDiff g r).isSome }) })) := by
  show execXchkRowCompare g s = _
  unfold execXchkRowCompare
  rw [hr]
  dsimp only
  have hdiff : s.rowDiff g r = (List.range r.chain.n).find? (fun j =>
      (drainRow r.chain ((s.comparing g r.chain).checkRow g r) (r.chain.flat r.row)).getD j 0 !=
        ((s.comparing g r.chain).storedRow r.chain r.row).getD j 0) := by
    rw [comparing_checkRow, comparing_storedRow]
    rfl
  unfold State.judged
  rw [hdiff]
  rfl

theorem endCheck_fields (x : Gale) : x.endCheck.check = none ∧ x.endCheck.ws = false ∧ x.endCheck.mismatch = x.mismatch ∧
    x.endCheck.mmRow = x.mmRow ∧ x.endCheck.mmCol = x.mmCol ∧ x.endCheck.mmAddr = x.mmAddr := by
  have hadmit : ∀ y : Gale, y.admitLoad.check = y.check ∧ y.admitLoad.ws = y.ws ∧ y.admitLoad.mismatch = y.mismatch ∧
      y.admitLoad.mmRow = y.mmRow ∧ y.admitLoad.mmCol = y.mmCol ∧ y.admitLoad.mmAddr = y.mmAddr := by
    intro y
    unfold Gale.admitLoad Gale.setAcc
    split
    · exact ⟨rfl, rfl, rfl, rfl, rfl, rfl⟩
    · dsimp only
      split <;> exact ⟨rfl, rfl, rfl, rfl, rfl, rfl⟩
  exact hadmit { x with ws := false, check := none, bank0 := AccBank.none, bank1 := AccBank.none }

/-- The check of an array has ended. -/
theorem ends_close_endCheck (u : State) (g : Fin 8) :
    ((close (u.modGale g Gale.endCheck)).gale g).check = none ∧ ((close (u.modGale g Gale.endCheck)).gale g).ws = false := by
  rw [gale_close, State.gale_modGale_self]
  exact ⟨(endCheck_fields _).1, (endCheck_fields _).2.1⟩

/-- An array shows a mismatch at a row and a column of a result (R95, R96). -/
def Gale.ShowsMismatch (x : Gale) (addr row col : Nat) : Prop :=
  x.mismatch = true ∧ x.mmRow = row ∧ x.mmCol = col ∧ x.mmAddr = addr

theorem showsMismatch_modGale {u : State} {addr row col : Nat} {h : Fin 8} (hu : (u.gale h).ShowsMismatch addr row col) (g : Fin 8)
    {f : Gale → Gale} (hf : ∀ x, (f x).mismatch = x.mismatch ∧ (f x).mmRow = x.mmRow ∧ (f x).mmCol = x.mmCol ∧ (f x).mmAddr = x.mmAddr) :
    ((u.modGale g f).gale h).ShowsMismatch addr row col := by
  rw [State.gale_modGale]
  split
  next e =>
    obtain ⟨h1, h2, h3, h4⟩ := hf (u.gale g)
    obtain ⟨k1, k2, k3, k4⟩ := hu
    subst e
    exact ⟨h1.trans k1, h2.trans k2, h3.trans k3, h4.trans k4⟩
  next => exact hu

/-- A row that differs shows in the array that made it, and withholds the step, on a device that is not the root (R96, R338). -/
theorem mismatch_shows {owner w : Fin 8} {ch : Chain} {i j : Nat} (hroot : s.chain.isRoot = false) (hinbox : s.chain.inbox = [])
    (hmm : (s.gale owner).mismatch = false) :
    ((s.mismatch owner w ch i j).gale owner).ShowsMismatch ((ch.dest.map (·.base)).getD 0) i j ∧
      (s.mismatch owner w ch i j).withheld = true := by
  let sus (h : Health) : Health := if h = .failed then .failed else .suspect
  let u := s.modGale owner (fun x =>
    let x := if x.mismatch then x else { x with mmAddr := (ch.dest.map (·.base)).getD 0, mmRow := i, mmCol := j, mmValid := true }
    { x with mismatch := true, bank := x.bank.add 9 1, health := sus x.health })
  let v : State := { (u.modGale w (fun x => { x with health := sus x.health })).ask 0x32 (s.unit 3 owner 0)
    (leBytes 6 ((ch.dest.map (·.base)).getD 0) ++ leBytes 2 i ++ leBytes 2 j) with withheld := true }
  have hv : s.mismatch owner w ch i j = v.stepAbandon 4 := rfl
  have hframe : OnlyChanges partsSend v (v.stepAbandon 4) := stepAbandon_member (s := v) hroot hinbox 4
  have hu : (u.gale owner).ShowsMismatch ((ch.dest.map (·.base)).getD 0) i j := by
    rw [State.gale_modGale_self]
    dsimp only
    rw [if_neg (by rw [hmm]; decide)]
    exact ⟨rfl, rfl, rfl, rfl⟩
  rw [hv, gale_of_gales (hframe .gales (by decide)), hframe .withheld (by decide)]
  exact ⟨showsMismatch_modGale hu w fun _ => ⟨rfl, rfl, rfl, rfl⟩, rfl⟩

theorem comparing_gale (s : State) (g h : Fin 8) (ch : Chain) :
    ((s.comparing g ch).gale h).check = (s.gale h).check ∧ ((s.comparing g ch).gale h).mismatch = (s.gale h).mismatch := by
  unfold State.comparing
  rw [State.gale_modGale]
  split
  next e => exact e ▸ ⟨rfl, rfl⟩
  next => exact ⟨rfl, rfl⟩

end

/-- Settles O28, command by command. -/
theorem drainPathAndChecksRun : Obligations.DrainPathAndChecksRun := by
  unfold Obligations.DrainPathAndChecksRun
  refine ⟨fun s g => ⟨?reads, ?holds, ?writes, ?loads, ?fills⟩, fun s g => ⟨?issue, fun r hr => ⟨?unreadable, fun hwhole hpoison =>
    ⟨?waits, ?poisoned, fun hwrote hstored => ⟨?goesOn, ?ends, ?differs⟩⟩⟩⟩⟩
  case reads =>
    intro b rest ch horder hch hacc hheld
    have hexec := exec_drainRowRead horder hch
    rw [if_neg (by simp [hacc]; omega)] at hexec
    refine gives_done hexec ⟨s.rowToDrain g b (s.claimDrain g ch).2, ?_, rfl, rfl, rfl, rfl⟩
    rw [gale_close, State.gale_modGale_self, rowRead_held, claimDrain_held]
  case holds =>
    intro b rest ch horder hch hblocked
    have hexec := exec_drainRowRead horder hch
    rw [if_pos (by rcases hblocked with h | h <;> simp [h])] at hexec
    refine gives_done hexec ?_
    rw [gale_close, drainHold_gale]
  case writes =>
    intro h rest hheld
    obtain ⟨t, ht, hcores, hframe⟩ := drainRowWrite_gives hheld
    refine ⟨t, ht, ?_, fun heddy c => ?_, fun heddy => ?_⟩
    · rw [gale_of_gales (hframe .gales (by decide))]
      exact rowLeft_gale s g h rest
    · exact (hframe .stores (by decide) c).1.trans (rowLeft_store s g rest heddy c)
    · rw [hcores.eddy]
      exact rowLeft_buf s g rest heddy
  case loads =>
    intro b rest ch o horder hch hload hready
    obtain ⟨t, ht, bad, hgale⟩ := accLoadRow_loads horder hch hload hready
    obtain ⟨hacc, hdrain⟩ := rowLoaded_fields (s.gale g) b rest ((s.gale g).acc b) (s.gale g).drainRow ch
      (s.loadRow ch o (s.gale g).drainRow) bad
    refine ⟨t, ht, ⟨_, hgale ▸ hacc, fun hgood => ?_⟩, hgale ▸ hdrain⟩
    unfold State.loadRow
    rw [if_neg (by rw [hgood]; decide)]
  case fills =>
    intro col items b hitems
    have hexec : exec (.bayFillComplete g col) s =
        (let u := s.modGale g (fun y => y.modFeeder col (fun f => f.ofItems items))
         if (s.core (coreOf g)).eddy.owns b then done ((u.modEddy (coreOf g) (fun e =>
          { e with bank := e.bank.add 0 (u.compactFilled (coreOf g) - s.compactFilled (coreOf g)) })).feedCompact (coreOf g))
         else done (u.landed (coreOf g) b.ctx b.serial)) := by
      show execBayFillComplete g col s = _
      unfold execBayFillComplete
      dsimp only
      rw [hitems]
      rfl
    dsimp only at hexec ⊢
    by_cases howns : (s.core (coreOf g)).eddy.owns b = true
    · rw [if_pos howns] at hexec
      exact gives_done hexec ⟨fun _ => rfl, fun h => absurd howns (by rw [h]; decide)⟩
    · rw [if_neg howns] at hexec
      refine gives_done hexec ⟨fun h => absurd h howns, fun _ => ⟨?_, fun f hf => ?_⟩⟩
      · rw [gale_close]
        rfl
      · rw [core_close] at hf
        unfold State.landed at hf
        rw [State.core_modCore_self] at hf
        simp only [List.mem_filter, Bool.not_eq_true', Bool.and_eq_false_iff, beq_eq_false_iff_ne] at hf
        rintro ⟨hctx, hserial⟩
        rcases hf.2 with h | h
        · exact h hctx
        · exact h hserial
  case issue =>
    intro kx ch rest hctx hqueue hrun hchosen hoffer hready
    dsimp only
    let w := s.checker g
    let passes := max 1 (ceilDiv ch.valid.length 16)
    let first := 16 * (passes - 1)
    let run : XchkRun := ⟨ch, g, s.passWeights ch first, first, 0, false, s.anyPoison ((ch.srcA ++ ch.srcB).flatMap (·.ranges))⟩
    let held : AccBank := if passes = 1 then AccBank.none else ⟨.partials, false, s.partialRows ch passes, none⟩
    let before := (passes - 1) * (ch.rowSteps * ch.m)
    let u := s.modGale g (fun x => { x with xqueue := rest, selfCheck := w == g })
    let v := u.modGale w (fun x =>
      { x with
        ws := true, check := some run, bank0 := ⟨.weights, false, [], none⟩, bank1 := held
        bank := (x.bank.add 11 (before + passes * 1087)).add 0 before })
    have hexec : exec (.xchkIssue g) s =
        done (v.modCore (coreOf g) (fun x => { x with lastIssued := Fin.ofNat 8 kx, bank := x.bank.add 0 1 })) := by
      show execXchkIssue g s = _
      unfold execXchkIssue
      dsimp only
      rw [hctx, hqueue]
      exact if_pos (by rw [hrun, hchosen, hoffer, hready]; simp)
    refine gives_done hexec ?_
    have hw : (v.gale w).check = some run ∧ (v.gale w).ws = true ∧ (v.gale w).bank0.st = .weights ∧ (v.gale w).bank1 = held := by
      rw [State.gale_modGale_self]
      exact ⟨rfl, rfl, rfl, rfl⟩
    have hg : (v.gale g).xqueue = rest := by
      rw [State.gale_modGale]
      split
      next e =>
        dsimp only
        rw [← e, State.gale_modGale_self]
      next =>
        rw [State.gale_modGale_self]
    rw [gale_close, gale_close, core_close, State.core_modCore_self]
    obtain ⟨hcheck, hws, hbank0, hbank1⟩ := hw
    refine ⟨hcheck, hg, hws, hbank0, fun hmany => ?_, rfl⟩
    have hheld : held = ⟨.partials, false, s.partialRows ch passes, none⟩ :=
      if_neg (show ¬passes = 1 by have : 1 < passes := hmany; omega)
    exact ⟨(congrArg AccBank.st (hbank1.trans hheld) :), (congrArg AccBank.acc (hbank1.trans hheld) :)⟩
  case unreadable =>
    intro h
    have hexec := exec_xchkRowCompare hr
    rw [if_pos (by rcases h with h | h <;> simp [h])] at hexec
    exact gives_done hexec (ends_close_endCheck s g)
  case waits =>
    intro hwrote
    rw [exec_xchkRowCompare hr, if_neg (by simp [hwhole, hpoison]), if_pos (by simp [hwrote])]
    rfl
  case poisoned =>
    intro hwrote hstored
    have hexec := exec_xchkRowCompare hr
    rw [if_neg (by simp [hwhole, hpoison]), if_neg (by simp [hwrote]), if_pos hstored] at hexec
    exact gives_done hexec (ends_close_endCheck s g)
  case goesOn =>
    intro hdiff hrow
    have hnone : s.rowDiff g r = none := hdiff
    have hexec := exec_xchkRowCompare hr
    rw [if_neg (by simp [hwhole, hpoison]), if_neg (by simp [hwrote]), if_neg (by simp [hstored]), if_neg (by omega)] at hexec
    have hjudged : s.judged g r = s.comparing g r.chain := by
      unfold State.judged
      rw [hnone]
    refine gives_done hexec ?_
    rw [gale_close, State.gale_modGale_self, hjudged, (comparing_gale s g g r.chain).1, hr, hnone]
    refine ⟨congrArg some ?_, ?_⟩
    · simp
    · unfold State.comparing
      rw [State.gale_modGale_self]
  case ends =>
    intro hdiff hrow
    have hexec := exec_xchkRowCompare hr
    rw [if_neg (by simp [hwhole, hpoison]), if_neg (by simp [hwrote]), if_neg (by simp [hstored]), if_pos hrow] at hexec
    exact gives_done hexec (ends_close_endCheck _ g)
  case differs =>
    intro j hdiff hbad hroot hinbox hmm
    have hsome : s.rowDiff g r = some j := hdiff
    have hexec := exec_xchkRowCompare hr
    rw [if_neg (by simp [hwhole, hpoison]), if_neg (by simp [hwrote]), if_neg (by simp [hstored])] at hexec
    have hjudged : s.judged g r = (s.comparing g r.chain).mismatch r.owner g r.chain r.row j := by
      unfold State.judged
      rw [hsome]
      exact if_neg (by rw [hbad]; decide)
    obtain ⟨hshows, hwithheld⟩ := mismatch_shows (s := s.comparing g r.chain) (owner := r.owner) (w := g) (ch := r.chain) (i := r.row)
      (j := j) hroot hinbox ((comparing_gale s g r.owner r.chain).2.trans hmm)
    rw [← hjudged] at hshows hwithheld
    split at hexec
    · refine gives_done hexec ?_
      rw [gale_close, close_withheld]
      obtain ⟨h1, h2, h3, h4⟩ := showsMismatch_modGale
        (showsMismatch_modGale hshows r.owner (f := fun x => { x with bank := x.bank.add 8 1 }) fun _ => ⟨rfl, rfl, rfl, rfl⟩) g
        (f := Gale.endCheck) fun x => (endCheck_fields x).2.2
      exact ⟨h1, h2, h3, h4, hwithheld⟩
    · refine gives_done hexec ?_
      rw [gale_close, close_withheld]
      obtain ⟨h1, h2, h3, h4⟩ := showsMismatch_modGale hshows g (f := fun x =>
        { x with check := x.check.map (fun y => { y with row := r.row + 1, bad := y.bad || (s.rowDiff g r).isSome }) })
        fun _ => ⟨rfl, rfl, rfl, rfl⟩
      exact ⟨h1, h2, h3, h4, hwithheld⟩

end Sys2Proof.Machine
end

section
/-! SUPPORT. The Draught engines: a descriptor's item starts, moves its data and completes (R155 to R163). -/

namespace Sys2Proof.Machine

section
variable {s t u : State} {e : Fin 8}

theorem getElem?_modAt_self {α : Type} (l : List α) (i : Nat) (f : α → α) : (modAt l i f)[i]? = (l[i]?).map f := by
  induction l generalizing i with
  | nil => rfl
  | cons a l ih =>
    cases i with
    | zero => rfl
    | succ i => exact ih i

/-- The item of a queue, changed. -/
theorem item_modItem (u : State) (e : Fin 8) (i : Nat) (f : DrtItem → DrtItem) :
    ((u.modItem e i f).drt e).queue[i]? = ((u.drt e).queue[i]?).map f := by
  unfold State.modItem
  rw [show (u.modDrt e (fun d => { d with queue := modAt d.queue i f })).drt e = _ from upd_get_self _ _ _]
  exact getElem?_modAt_self _ _ _

theorem item_of_frame {A : List Part} (h : OnlyChanges A s t) (hA : Part.draughts ∉ A) (e : Fin 8) (i : Nat) :
    (t.drt e).queue[i]? = (s.drt e).queue[i]? := by
  unfold State.drt
  rw [show t.draughts = s.draughts from h .draughts hA]

theorem deliver_item {i : Nat} {x y : DrtItem} (hy : (s.drt e).queue[i]? = some y) :
    ∃ z, ((s.deliver e i x).drt e).queue[i]? = some z ∧ z.started = y.started ∧ z.moved = true ∧ z.desc = y.desc ∧
      z.serial = y.serial := by
  unfold State.deliver
  split
  · rw [item_modItem, hy]
    exact ⟨_, rfl, rfl, rfl, rfl, rfl⟩
  · dsimp only
    rw [item_modItem]
    refine ⟨_, congrArg (Option.map _) ((item_of_frame (A := partsSend ++ partsStore ++ [.cores, .mxScales, .fresh]) ?_ (by decide) e i).trans hy),
      rfl, rfl, rfl, rfl⟩
    split <;> split <;> simp +decide

theorem failItem_item {i : Nat} {x y : DrtItem} {kind addr dev : Nat} (hy : (s.drt e).queue[i]? = some y) :
    ∃ z, ((s.failItem e i x kind addr dev).drt e).queue[i]? = some z ∧ z.started = true ∧ z.moved = true ∧
      (kind = 6 → z.noDone = true) := by
  unfold State.failItem
  dsimp only
  rw [item_of_frame ((onlyChanges_violate (B := [.vio]) (by decide)).2 (onlyChanges_refl _ _)) (by decide), item_modItem]
  refine ⟨_, congrArg (Option.map _) ((item_of_frame (A := partsSend ++ partsStore ++ [.cores]) ?_ (by decide) e i).trans hy),
    rfl, rfl, fun h => by simp [h]⟩
  split <;> (split <;> [skip; split]) <;> simp +decide

/-- A descriptor that violates is one violation (R27, R155). -/
theorem failItem_vio {i : Nat} {x : DrtItem} {kind addr dev : Nat} :
    (s.failItem e i x kind addr dev).vio.count = s.vio.count + 1 ∧
      (s.vio.valid = false → (s.failItem e i x kind addr dev).vio.kind = kind ∧ (s.failItem e i x kind addr dev).vio.addr = addr ∧
        (s.failItem e i x kind addr dev).vio.dev = dev) := by
  obtain ⟨v, hv, hu⟩ : ∃ v : State, s.failItem e i x kind addr dev = v.violate ⟨kind, srcWord s.self 1 e 0, addr, dev⟩ ∧ v.vio = s.vio := by
    unfold State.failItem
    dsimp only
    refine ⟨_, rfl, ?_⟩
    refine ((onlyChanges_modItem (B := partsSend ++ partsStore ++ [.cores, .draughts]) (by decide)).2 ?_ :
      OnlyChanges _ s _) .vio (by decide)
    split <;> (split <;> [skip; split]) <;> simp +decide
  rw [hv, ← hu]
  exact ⟨violate_count _ _, fun h => violate_captured _ h⟩

/-- The state in which an item has started. -/
def State.itemStarted (s : State) (e : Fin 8) (i : Nat) (x : DrtItem) : State := s.modItem e i (fun _ => { x with started := true })

/-- The source bytes of an item. -/
def State.itemReads (s : State) (x : DrtItem) : List (Nat × Nat) := ((s.itemSrc x).map (·.ranges)).getD []

variable {i : Fin 4} {x : DrtItem} {kind : Nat}

theorem startItem_eq (hx : (s.drt e).queue[i.val]? = some x) (hstarted : x.started = false) (hkind : dscKind x.raw = kind)
    (hbefore : startedBefore (s.drt e).queue i = true) :
    startItem e i kind s = match s.itemVio x with
      | some (k, a, d) => if x.spec then stay s else done (s.failItem e i x k a d)
      | none =>
        if s.isLocal (dscSrcDev x.raw) then
          done ((if x.spec then s.itemStarted e i x
            else (s.itemStarted e i x).touch (s.itemReads x ++ ((s.itemMask x).map (·.ranges)).getD [])).deliver e i { x with started := true })
        else done (((s.itemStarted e i x).sendReads e (dscSrcDev x.raw) (s.itemReads x)).1.modItem e i (fun y =>
          { y with acks := ((s.itemStarted e i x).sendReads e (dscSrcDev x.raw) (s.itemReads x)).2 })) := by
  unfold startItem
  rw [hx]
  dsimp only
  rw [if_neg (by simp [hstarted, hkind, hbefore])]
  rfl

theorem itemStarted_item (hx : (s.drt e).queue[i.val]? = some x) :
    ((s.itemStarted e i x).drt e).queue[i.val]? = some { x with started := true } := by
  unfold State.itemStarted
  rw [item_modItem, hx]
  rfl

end

/-- Settles O29: the three descriptor kinds start alike, and the head of a queue completes. -/
theorem descriptorsRun : Obligations.DescriptorsRun := by
  unfold Obligations.DescriptorsRun
  intro s e i x
  have hstarts : ∀ (c : Instr) (kind : Nat), exec c s = startItem e i kind s →
      (s.drt e).queue[i.val]? = some x → x.started = false → dscKind x.raw = kind → startedBefore (s.drt e).queue i = true →
      (s.itemVio x = none → s.isLocal (dscSrcDev x.raw) = true →
        Gives c s (fun t => t = close ((if x.spec then s.itemStarted e i x
            else (s.itemStarted e i x).touch (s.itemReads x ++ ((s.itemMask x).map (·.ranges)).getD [])).deliver e i { x with started := true }) ∧
          ∃ y, (t.drt e).queue[i.val]? = some y ∧ y.started = true ∧ y.moved = true ∧ y.desc = x.desc ∧ y.serial = x.serial)) ∧
      (s.itemVio x = none → s.isLocal (dscSrcDev x.raw) = false →
        Gives c s (fun t => ∃ y, (t.drt e).queue[i.val]? = some y ∧ y.started = true ∧ y.moved = x.moved ∧ y.desc = x.desc ∧
          y.acks = ((s.itemStarted e i x).sendReads e (dscSrcDev x.raw) (s.itemReads x)).2)) ∧
      (∀ kind adr dev, s.itemVio x = some (kind, adr, dev) → x.spec = false →
        Gives c s (fun t => t.vio.count = s.vio.count + 1 ∧
          (s.vio.valid = false → t.vio.kind = kind ∧ t.vio.addr = adr ∧ t.vio.dev = dev) ∧
          ∃ y, (t.drt e).queue[i.val]? = some y ∧ y.started = true ∧ y.moved = true ∧ (kind = 6 → y.noDone = true))) := by
    intro c kind hc hx hstarted hkind hbefore
    have hexec := hc.trans (startItem_eq hx hstarted hkind hbefore)
    have hself := itemStarted_item hx
    refine ⟨fun hvio hlocal => ?locals, fun hvio hlocal => ?remote, fun k adr dev hvio hspec => ?violates⟩
    case locals =>
      rw [hvio] at hexec
      dsimp only at hexec
      rw [if_pos hlocal] at hexec
      refine gives_done hexec ⟨rfl, ?_⟩
      rw [drt_close]
      refine deliver_item (y := { x with started := true }) ?_
      split
      · exact hself
      · exact (item_of_frame ((onlyChanges_touch (List.Subset.refl _)).2 (onlyChanges_refl _ _)) (by decide) e i).trans hself
    case remote =>
      rw [hvio] at hexec
      dsimp only at hexec
      rw [if_neg (by rw [hlocal]; decide)] at hexec
      refine gives_done hexec ?_
      rw [drt_close, item_modItem,
        item_of_frame ((onlyChanges_sendReads (List.Subset.refl _)).2 (onlyChanges_refl _ _)) (by decide) e i, hself]
      exact ⟨_, rfl, rfl, rfl, rfl, rfl⟩
    case violates =>
      rw [hvio] at hexec
      dsimp only at hexec
      rw [if_neg (by rw [hspec]; decide)] at hexec
      refine gives_done hexec ?_
      rw [close_vio, drt_close]
      exact ⟨failItem_vio.1, failItem_vio.2, failItem_item hx⟩
  refine ⟨hstarts _ _ rfl, hstarts _ _ rfl, hstarts _ _ rfl, fun rest hqueue hspec => ?speculative,
    fun rest hqueue hstarted hmoved hacks hspec => ?completes⟩
  case speculative =>
    show execDraughtDescComplete e s = _
    unfold execDraughtDescComplete
    rw [hqueue]
    exact if_pos (by simp [hspec])
  case completes =>
    refine gives_done ?_ rfl
    show execDraughtDescComplete e s = _
    unfold execDraughtDescComplete
    rw [hqueue]
    exact if_neg (by simp [hstarted, hmoved, hacks, hspec])

end Sys2Proof.Machine
end

section
/-! SUPPORT. The router: a route starts, its pairs are dispatched in order, and it completes (R187 to R194). -/

namespace Sys2Proof.Machine

section
variable {s t : State} {c : Fin 4} {k : Fin 8} {op : BitVec 128}

theorem veer_modVeer (s : State) (c : Fin 4) (f : Veer → Veer) : ((s.modVeer c f).core c).veer = f (s.core c).veer := by
  unfold State.modVeer
  rw [State.core_modCore_self]

/-- Scoring goes on as far as the dispatch queue has room (R191). -/
theorem score_run (v : Veer) (r : RouteRun) :
    (v.score r).run = some { r with pairs := (routeFill r.pairs r.later).1, later := (routeFill r.pairs r.later).2.1 } ∧
      (v.score r).layer = v.layer ∧ (v.score r).ctx = v.ctx := ⟨rfl, rfl, rfl⟩

/-- What a route settles for every token (R188 to R190). -/
def State.routeAcc (s : State) (c : Fin 4) (e : RouteEntry) (o rows : Opd) : RouteAcc :=
  (List.range (rteTokens e)).foldl (fun a t =>
    routeToken e t (decide (rteOwnFirst e c ≤ t) && decide (t < rteOwnFirst e c + rows.d.extent 1)) (s.scores o (rteExperts e) t) a)
    (RouteAcc.empty (rteExperts e))

/-- The route that a ROUTE starts, and the state it starts in. -/
theorem routeIssue_eq {e : RouteEntry} {o rows : Opd} {rest : List Opd}
    (he : Tbl.get? (s.core c).veer.table (rteLayer op) = some e) (hsrcs : s.opSrcs c (s.ctx c k).lcX op = o :: rows :: rest) :
    ∃ (dst : Option Opd) (srcs : List Opd) (eff : Effect) (r : RouteRun) (f : Veer → Veer),
      routeIssue c k op s = (s.begin c k op dst srcs eff).1.modVeer c (fun v => (f v).score r) ∧
      (r.pairs = [] ∧ r.ctx = k ∧ r.layer = rteLayer op ∧ r.serial = s.headSerial c k ∧ r.predDesc = rtePredict op ∧
        ∀ v, (f v).layer = rteLayer op ∧ (f v).ctx = k) ∧
      (s.unmappedOpd (s.opDst c (s.ctx c k).lcX op) (o :: rows :: rest) = none →
        r.counts = (s.routeAcc c e o rows).counts ∧ r.drops = (s.routeAcc c e o rows).drops ∧
          r.later = (s.routeAcc c e o rows).tokens) := by
  unfold routeIssue
  rw [he]
  dsimp only
  rw [hsrcs]
  dsimp only
  refine ⟨_, _, _, _, _, rfl, ⟨rfl, rfl, rfl, rfl, rfl, fun _ => ⟨rfl, rfl⟩⟩, fun hmapped => ?_⟩
  rw [hmapped]
  exact ⟨rfl, rfl, rfl⟩

theorem Issued.modVeer (h : Issued c k s t) (f : Veer → Veer) : Issued c k s (t.modVeer c f) :=
  h.modCore _ (fun _ => rfl) (fun _ => rfl) fun _ => rfl

/-! Dispatch. -/

theorem veer_writeBytes (s : State) (a : Nat) (bs : List Byte) (p : Bool) (d : Fin 4) :
    ((s.writeBytes a bs p).core d).veer = (s.core d).veer :=
  ((onlyChanges_writeBytes (List.Subset.refl _)).2 (onlyChanges_refl _ s)).coresFramed (by decide) |>.veer d

theorem veer_dispatch (s : State) (c : Fin 4) (r : RouteRun) (e : RouteEntry) (p : Pair) (d : Fin 4) :
    ((s.dispatch c r e p).core d).veer = (s.core d).veer := by
  unfold State.dispatch
  extract_lets x base u
  rw [veer_writeBytes]
  show ((match r.rows with | some o => _ | none => s : State).core d).veer = _
  split
  · rw [veer_writeBytes]
    exact ((onlyChanges_touch (List.Subset.refl _)).2 (onlyChanges_refl _ s)).coresFramed (by decide) |>.veer d
  · rfl

theorem dispatchPair_gives {r : RouteRun} {p : Pair} {rest : List Pair} {e : RouteEntry} (hrun : (s.core c).veer.run = some r)
    (hpairs : r.pairs = p :: rest) (he : Tbl.get? (s.core c).veer.table r.layer = some e) :
    Gives (.dispatchPair c) s (fun t =>
      (t.core c).veer.run = some { r with pairs := (routeFill rest r.later).1, later := (routeFill rest r.later).2.1 } ∧
      ∀ d, (t.core d).store = ((s.dispatch c r e p).core d).store) := by
  refine gives_done (x := (s.dispatch c r e p).modVeer c (fun v => v.score { r with pairs := rest })) ?_ ⟨?_, fun d => ?_⟩
  · show execDispatchPair c s = _
    unfold execDispatchPair
    rw [hrun]
    dsimp only
    rw [hpairs, he]
  · rw [core_close, veer_modVeer]
    exact (score_run _ _).1
  · rw [core_close]
    have h : OnlyChanges [.cores] (s.dispatch c r e p) ((s.dispatch c r e p).modVeer c (fun v => v.score { r with pairs := rest })) :=
      (onlyChanges_modVeer (List.Subset.refl _)).2 (onlyChanges_refl _ _)
    exact (h .stores (by decide) d).1

/-! The end of a route. -/

theorem coresFramed_foldl {α : Type} {f : State → α → State} (h : ∀ u a, CoresFramed u (f u a)) (l : List α) (s : State) :
    CoresFramed s (l.foldl f s) := by
  induction l generalizing s with
  | nil => exact .refl s
  | cons a l ih => exact (h s a).trans (ih _)

/-- What the end of a route leaves before its context goes on and its vanes are signalled. -/
def State.routeEndedAt (s : State) (c : Fin 4) (r : RouteRun) (e : RouteEntry) : State :=
  let s1 := s.landAll r.records
  let s2 := r.fills.foldl (fun (s : State) q => s.modRing q.1 q.2.1 (fun x => x.fill q.2.2 r.poison)) s1
  let s3 := s2.writeAdmits c r e
  let s4 : State := match r.rows with | some o => s3.releaseSrc o | none => s3
  (s4.landed c r.ctx r.serial).modVeer c (fun v =>
    { v with
      run := none
      table := if r.bad then v.table else Tbl.set v.table r.layer (routeEnded e c r.counts r.drops)
      histOvf := v.histOvf || routeWraps e c r.counts r.drops
      bank := ((v.bank.add 0 1).add 10 r.stalls).add 11 (if s.padTiming then r.padTo - r.steps else 0) })

theorem routeEndedAt_veer (s : State) (c : Fin 4) (r : RouteRun) (e : RouteEntry) :
    ((s.routeEndedAt c r e).core c).veer.run = none ∧ (r.bad = false →
      ((s.routeEndedAt c r e).core c).veer.table = Tbl.set (s.core c).veer.table r.layer (routeEnded e c r.counts r.drops)) := by
  unfold State.routeEndedAt
  extract_lets s1 s2 s3 s4
  have h1 : CoresFramed s s1 := ((onlyChanges_landAll (List.Subset.refl _)).2 (onlyChanges_refl _ s)).coresFramed (by decide)
  have h2 : CoresFramed s1 s2 := coresFramed_foldl (fun u q => coresFramed_modRing u _ _ _) _ _
  have h3 : CoresFramed s2 s3 := ((onlyChanges_writeAdmits (List.Subset.refl _)).2 (onlyChanges_refl _ s2)).coresFramed (by decide)
  have h4 : CoresFramed s3 s4 := by
    simp only [s4]
    split
    · exact coresFramed_releaseSrc _ _
    · exact .refl _
  have h5 : CoresFramed s4 (s4.landed c r.ctx r.serial) := coresFramed_modCore _ _ _ fun _ => rfl
  rw [veer_modVeer, ((((h1.trans h2).trans h3).trans h4).trans h5).veer c]
  exact ⟨rfl, fun hbad => if_neg (by rw [hbad]; decide)⟩

theorem routeComplete_quiet {r : RouteRun} {e : RouteEntry} (hrun : (s.core c).veer.run = some r) (hpairs : r.pairs = [])
    (he : Tbl.get? (s.core c).veer.table r.layer = some e) :
    Gives (.routeComplete c) s (fun t => UnitsQuiet (s.routeEndedAt c r e) t) := by
  let u := s.routeEndedAt c r e
  let actual := (homeExperts e c).filter (fun i => decide (0 < r.counts.getD i 0))
  let mine := match (u.ctx c r.ctx).spec with | some p => p.route == some (r.layer, r.serial) | none => false
  let v := if mine then u.resolve c r.ctx actual 1
    else if r.predDesc = 0 then u
    else u.modCtx c r.ctx (fun x => x.routeEnds r.serial (actual.map (routeDesc e r.predDesc)))
  let homes := (allFin 4).filter (fun h => !(homeExperts e h).isEmpty)
  have hexec : exec (.routeComplete c) s = done (v.signalNow (homes.map (fun h => unitSig (.core h (rteDoneVane e)) s.self 1 2 c))) := by
    show execRouteComplete c s = _
    unfold execRouteComplete
    rw [hrun]
    dsimp only
    rw [hpairs, he]
    rfl
  have hv : UnitsQuiet u v := by
    simp only [v]
    split
    · exact unitsQuiet_resolve _ _ _ _ _
    · split
      · exact .refl u
      · exact unitsQuiet_modCtx _ _ _ _
  have hclose : ∀ w : State, UnitsQuiet w (close w) := fun w d => by
    rw [core_close]
    exact .of_units rfl rfl
  exact gives_done hexec ((hv.trans (unitsQuiet_signalNow v _)).trans (hclose _))

end

/-- Settles O26: a route's start, its dispatch and its end. -/
theorem routingRuns : Obligations.RoutingRuns := by
  unfold Obligations.RoutingRuns
  intro s c k op e
  refine ⟨fun o rows rest hissue he hsrcs => ?starts, fun r p rest hrun hpairs he => dispatchPair_gives hrun hpairs he,
    fun r hrun hpairs he => ?ends⟩
  case starts =>
    obtain ⟨dst, srcs, eff, r, f, heq, ⟨hpairs, hctx, hlayer, hserial, hpred, hf⟩, hmapped⟩ := routeIssue_eq he hsrcs
    refine gives_issue hissue (show execRoute c k s = _ from rfl) ?_
    obtain ⟨hrun, hvlayer, hvctx⟩ := score_run (f (((s.begin c k op dst srcs eff).1.core c).veer)) r
    rw [heq, core_close, veer_modVeer]
    refine ⟨((issued_begin s c k op dst srcs eff).modVeer _).close, _, hrun, hctx, hlayer, hserial, hpred,
      hvlayer.trans (hf _).1, hvctx.trans (hf _).2, fun hunmapped => ?_⟩
    obtain ⟨hcounts, hdrops, hlater⟩ := hmapped hunmapped
    rw [hpairs, hlater]
    exact ⟨hcounts, hdrops, rfl, rfl⟩
  case ends =>
    obtain ⟨t, ht, hquiet⟩ := routeComplete_quiet hrun hpairs he
    obtain ⟨hnone, htable⟩ := routeEndedAt_veer s c r e
    exact ⟨t, ht, (hquiet c).veer hnone, fun hbad => (hquiet c).table.trans (htable hbad)⟩

end Sys2Proof.Machine
end

section
/-! SUPPORT. The step fence: a commit's step number, and a fence bound that has shown stays shown (R225, R338, R339). -/

namespace Sys2Proof.Machine

section
variable {s t u : State}

/-! Frames of the chain's own state as relations. -/

theorem ChainSends.of_frame {A : List Part} (h : OnlyChanges A s t) (hA : Part.chain ∉ A) : ChainSends s t :=
  .of_chain (h .chain hA)

theorem chainSends_foldl {α : Type} {f : State → α → State} (h : ∀ u a, ChainSends u (f u a)) (l : List α) (s : State) :
    ChainSends s (l.foldl f s) := by
  induction l generalizing s with
  | nil => exact .refl s
  | cons a l ih => exact (h s a).trans (ih _)

theorem chainSends_sendTwin (s : State) (p : Packet) : ChainSends s (s.sendTwin p) := by
  unfold State.sendTwin
  dsimp only
  split
  · exact .refl s
  · exact chainSends_pushOn _ _ _ _ _

theorem chainSends_sendFrame (s : State) (d : Fin 2) (f : Frame) : ChainSends s (s.sendFrame d f) := by
  unfold State.sendFrame State.emitFrame State.atSeqLimit
  split
  · dsimp only
    have hlimit : ∀ n g, ChainSends s ((if n = seqMax then s.escalate else s).modSlip g) := by
      intro n g
      split
      · exact .of_chain rfl
      · exact .refl s
    split
    · exact (hlimit _ _).trans (chainSends_sendTwin _ _)
    · exact (hlimit _ _).trans (chainSends_send _ _)
  · exact .refl s

theorem chainSends_slipAbort (s : State) (attempt : Nat) : ChainSends s (s.slipAbort attempt) := by
  unfold State.slipAbort
  extract_lets f1 f2 s1 sent
  have h1 : ChainSends s s1 := (chainSends_sendFrame s 0 f2).trans (chainSends_sendFrame _ 1 f2)
  exact h1.trans (.of_chain (State.modSlip_chain s1 _))

theorem chainSends_orderDown (s : State) (p : Packet) (survivor : Bool) : ChainSends s (s.orderDown p survivor) := by
  unfold State.orderDown
  exact chainSends_foldl (fun u l => chainSends_sendOn u l p) _ s

/-! A fence bound that has shown stays shown until its bit is cleared by a register write. -/

/-- BOUND_SEEN is as it was. -/
def BoundKept (s t : State) : Prop := t.chain.boundSeen = s.chain.boundSeen

theorem ChainSends.boundKept (h : ChainSends s t) : BoundKept s t := h.field ChainSt.boundSeen fun _ _ => rfl

theorem BoundKept.trans (a : BoundKept s t) (b : BoundKept t u) : BoundKept s u := Eq.trans b a

theorem boundKept_modChain (s : State) {f : ChainSt → ChainSt} (hf : ∀ c, (f c).boundSeen = c.boundSeen) :
    BoundKept s (s.modChain f) := hf _

theorem boundKept_foldl {α : Type} {f : State → α → State} (h : ∀ u a, BoundKept u (f u a)) (l : List α) (s : State) :
    BoundKept s (l.foldl f s) := by
  induction l generalizing s with
  | nil => exact rfl
  | cons a l ih => exact (h s a).trans (ih _)

theorem boundKept_applyTakeover (s : State) (p : Nat × Nat) : BoundKept s (s.applyTakeover p) := by
  unfold State.applyTakeover
  extract_lets peer s1 s2 s3 s4
  split
  · rfl
  · rfl

theorem boundKept_countAbandoned (s : State) : BoundKept s s.countAbandoned := by
  unfold State.countAbandoned
  split
  · rfl
  · rfl

theorem boundKept_obeyRetry (s : State) (cause origin attempt : Nat) (pairs : List (Nat × Nat)) :
    BoundKept s (s.obeyRetry cause origin attempt pairs) := by
  unfold State.obeyRetry
  extract_lets old s1 s2 s3 s4 s5 s6 s7
  have h1 : BoundKept s s1 := (boundKept_modChain s (f := fun c => { c with attempt := attempt }) fun _ => rfl).trans
    (boundKept_foldl boundKept_applyTakeover pairs _)
  have h2 : BoundKept s1 s2 := (chainSends_slipAbort s1 old).boundKept.trans (boundKept_countAbandoned _)
  have h4 : BoundKept s3 s4 := (ChainSends.of_frame (A := [.ctxs, .cores, .gales, .draughts, .chainVanes, .signals, .foehn, .withheld])
    (by clear_value s3; simp +decide [s4]) (by decide)).boundKept
  have h6 : BoundKept s4 s6 := (ChainSends.of_frame (A := [.ctxs, .cores, .chainVanes, .ports]) (by
    clear_value s4
    simp only [s6, s5]
    split <;> simp +decide) (by decide)).boundKept
  have h3 : BoundKept s2 s3 := boundKept_modChain s2 fun _ => rfl
  have h7 : BoundKept s6 s7 := rfl
  exact ((h1.trans h2).trans h3).trans ((h4.trans h6).trans (h7.trans (chainSends_toParent s7 _).boundKept))

theorem boundKept_orderRetry (s : State) (cause origin : Nat) : BoundKept s (s.orderRetry cause origin) :=
  (chainSends_orderDown _ _ _).boundKept.trans (boundKept_obeyRetry _ _ _ _ _)

/-- What RECOVERY registers show of the last HALT. -/
def haltMarks (c : ChainSt) : Nat × Nat × Bool := (c.lastCause, c.lastAction, c.boundSeen)

theorem countAbandoned_marks (s : State) : haltMarks s.countAbandoned.chain = haltMarks s.chain := by
  unfold State.countAbandoned
  split <;> rfl

theorem stopLinks_marks (s : State) (atOnce : Bool) : haltMarks (s.stopLinks atOnce).chain = haltMarks s.chain := by
  unfold State.stopLinks
  split <;> rfl

/-- What a HALT leaves of the chain's own state, and the device halted (R339, R342). -/
theorem obeyHalt_shows (s : State) (cause origin : Nat) : (s.obeyHalt cause origin).dev.st = .halted ∧
    haltMarks (s.obeyHalt cause origin).chain = (cause, 2, s.chain.boundSeen) := by
  unfold State.obeyHalt
  extract_lets s1 s2
  have h1 : haltMarks s1.chain = (cause, 2, s.chain.boundSeen) :=
    congrArg (fun b => (cause, 2, b)) (chainSends_slipAbort s s.chain.attempt).boundKept
  have h2 : haltMarks s2.chain = haltMarks s1.chain := by
    have hstop : OnlyChanges [.ctxs, .frozen] (s1.countAbandoned.recoveryRecord 2 cause origin s1.chain.attempt) s2 :=
      (onlyChanges_fatalStop (List.Subset.refl _)).2 (onlyChanges_refl _ _)
    rw [hstop .chain (by decide)]
    exact countAbandoned_marks s1
  have hchain : haltMarks (s2.stopLinks false).chain = (cause, 2, s.chain.boundSeen) := (stopLinks_marks s2 false).trans (h2.trans h1)
  clear_value s2
  refine ⟨?_, ?_⟩
  · rw [State.modRst_dev]; rfl
  · rw [State.modRst_chain, State.modDev_chain]; exact hchain

theorem orderHalt_shows (s : State) (cause origin : Nat) : (s.orderHalt cause origin).dev.st = .halted ∧
    haltMarks (s.orderHalt cause origin).chain = (cause, 2, s.chain.boundSeen) := by
  unfold State.orderHalt
  have hdown : BoundKept s (s.haltDown (s.abandonPacket 2 cause origin s.chain.attempt [])) := by
    unfold State.haltDown
    exact (chainSends_orderDown _ _ _).boundKept
  rw [← hdown]
  exact obeyHalt_shows _ cause origin

theorem boundKept_rootAct (s : State) (r : Heard) : BoundKept s (s.rootAct r) := by
  unfold State.rootAct
  extract_lets s1
  have h1 : BoundKept s s1 := boundKept_modChain s fun _ => rfl
  split
  · have hhalt : BoundKept s1 (s1.orderHalt r.1 r.2.1) := (congrArg (fun m => m.2.2) (orderHalt_shows s1 r.1 r.2.1).2 :)
    exact h1.trans hhalt
  · split
    · exact h1
    · split
      · exact h1.trans (boundKept_modChain s1 fun _ => rfl)
      · exact h1.trans (boundKept_orderRetry _ _ _)

theorem boundKept_rootJudge (s : State) : BoundKept s s.rootJudge := by
  unfold State.rootJudge
  extract_lets box s1 s2
  have h1 : BoundKept s s1 := boundKept_modChain s fun _ => rfl
  split
  · exact h1
  · have h2 : BoundKept s1 s2 := boundKept_foldl (f := State.staleReport) (fun u r => rfl) _ s1
    split
    · exact h1.trans h2
    · exact (h1.trans h2).trans (boundKept_rootAct _ _)

theorem boundKept_learn (s : State) (cause : Nat) : BoundKept s (s.learn cause) := by
  unfold State.learn State.report
  extract_lets s1
  split
  · rfl
  · split
    · rfl
    · exact (chainSends_toParent _ _).boundKept

theorem boundKept_stepAbandon (s : State) (cause : Nat) : BoundKept s (s.stepAbandon cause) :=
  (boundKept_learn s cause).trans (boundKept_rootJudge _)

/-! What a device does that abandons its step, with no report heard in the handshake before (R338, R339). -/

/-- A device that has noted its own report of a cause. -/
def State.noted (s : State) (cause : Nat) : State :=
  (s.modChain (fun c => { c with myReports := c.myReports ++ [(cause, s.now)] })).recoveryRecord 0 cause s.self s.chain.attempt

theorem learn_eq {cause : Nat} (hrun : s.running = true) (hnew : s.chain.myReports.any (fun r => r.1 == cause) = false) :
    s.learn cause = (s.noted cause).report cause := by
  unfold State.learn
  rw [if_neg (by rw [hrun, hnew]; decide)]
  rfl

theorem modChain_inbox_nil (h : s.chain.inbox = []) : s.modChain (fun c => { c with inbox := [] }) = s := by
  unfold State.modChain
  rw [← h]

theorem stepAbandon_reports {cause : Nat} (hrun : s.running = true)
    (hnew : s.chain.myReports.any (fun r => r.1 == cause) = false) (hinbox : s.chain.inbox = []) (hroot : s.chain.isRoot = false) :
    s.stepAbandon cause = (s.noted cause).toParent (s.abandonPacket 0 cause s.self s.chain.attempt []) := by
  have hreport : (s.noted cause).report cause = (s.noted cause).toParent (s.abandonPacket 0 cause s.self s.chain.attempt []) :=
    if_neg (show ¬(s.chain.isRoot = true) by rw [hroot]; decide)
  have hbox : ((s.noted cause).toParent (s.abandonPacket 0 cause s.self s.chain.attempt [])).chain.inbox = [] :=
    ((chainSends_toParent _ _).field ChainSt.inbox fun _ _ => rfl).trans hinbox
  unfold State.stepAbandon
  rw [learn_eq hrun hnew, hreport, rootJudge_of_empty hbox, modChain_inbox_nil hbox]

/-- The root judges the one report of the handshake (R338). -/
theorem rootJudge_of_one {r : Heard} (hrun : s.running = true) (hbox : s.chain.inbox = [r]) (hnow : r.2.2 = s.chain.attempt) :
    s.rootJudge = (s.modChain (fun c => { c with inbox := [] })).rootAct r := by
  have hlate : [r].filter (fun r => r.2.2 < s.chain.attempt) = [] := by simp [hnow]
  have htaken : [r].filter (fun r => s.chain.attempt ≤ r.2.2) = [r] := by simp [hnow]
  unfold State.rootJudge
  extract_lets box u v
  have hb : box = [r] := hbox
  have hv : v = u := by
    have hnone : box.filter (fun r => r.2.2 < u.chain.attempt) = [] := by rw [hb]; exact hlate
    exact congrArg (·.foldl State.staleReport u) hnone
  have hones : box.filter (fun r => v.chain.attempt ≤ r.2.2) = [r] := by rw [hb, hv]; exact htaken
  rw [if_neg (show ¬((!u.running) = true) by rw [show u.running = true from hrun]; decide), hones, hv]
  rfl

theorem stepAbandon_root {cause : Nat} (hrun : s.running = true)
    (hnew : s.chain.myReports.any (fun r => r.1 == cause) = false) (hinbox : s.chain.inbox = []) (hroot : s.chain.isRoot = true) :
    s.stepAbandon cause = (s.noted cause).rootAct (cause, s.self, s.chain.attempt) := by
  have hreport : (s.noted cause).report cause = (s.noted cause).modChain (fun c =>
      { c with inbox := c.inbox ++ [(cause, s.self, s.chain.attempt)] }) :=
    if_pos (show s.chain.isRoot = true from hroot)
  have hbox : ((s.noted cause).report cause).chain.inbox = [(cause, s.self, s.chain.attempt)] := by
    rw [hreport]
    exact congrArg (· ++ [(cause, s.self, s.chain.attempt)]) hinbox
  have hclear : ((s.noted cause).report cause).modChain (fun c => { c with inbox := [] }) = s.noted cause :=
    (congrArg (fun u : State => u.modChain (fun c => { c with inbox := [] })) hreport).trans
      (modChain_inbox_nil (s := s.noted cause) hinbox)
  unfold State.stepAbandon
  rw [learn_eq hrun hnew, rootJudge_of_one (by rw [hreport]; exact hrun) hbox (by rw [hreport]; rfl), hclear]

/-! The training step number of a commit (R225). -/

@[simp] theorem setStep_step (s : State) (n : Nat) : (s.setStep n).step = n := by
  unfold State.setStep
  dsimp only
  split <;> rfl

/-- Parts that a commit changes beside the training step number. -/
def partsCommit : List Part := partsWake ++ [.stackBytes, .hlt]

theorem commitRecords_frame (s : State) (digest : List Byte) (f : Sec → Sec) :
    OnlyChanges partsCommit s (((s.commitRecords digest).releaseIngest.modSec f).finishEntries.commitSlip.swapHalves) := by
  simp +decide

theorem replan_frame (s : State) (f : Rst → Rst) : OnlyChanges partsCommit s ((s.replan).modRst f) := by
  simp +decide

theorem applyGrants_frame (s : State) (gs : List MemberReq) :
    OnlyChanges partsCommit s ((s.offerShard.applyGrants gs).rearmFoehns) := by
  simp +decide

theorem departs_frame (s : State) (ps : List PSig) (gs : List MemberReq) :
    OnlyChanges partsCommit s ((s.signalNow ps).askLeave.departs gs) := by
  simp +decide

theorem commit_step (s : State) (gs : List MemberReq) : (s.commit gs).step = seqNext s.step := by
  have hstep : Part.step ∉ partsCommit := by decide
  unfold State.commit
  extract_lets digest s1 s2 s3 s4 s5 s6
  have h2 : s2.step = s.step := commitRecords_frame s digest _ .step hstep
  clear_value s2
  have h4 : s4.step = s2.step := rfl
  clear_value s4
  have h5 : s5.step = seqNext s4.step := (replan_frame _ _ .step hstep).trans (setStep_step _ _)
  clear_value s5
  have h6 : s6.step = s5.step := applyGrants_frame s5 gs .step hstep
  clear_value s6
  rw [departs_frame s6 s6.stepSignals gs .step hstep, h6, h5, h4, h2]

/-! The fence's rows. -/

theorem loadComplete_gives (hrun : s.running = true) (hload : s.loaded = true) (hloads : s.loads = []) (hbegun : s.begun = false) :
    let u : State := { s with begun := true, foehn := s.foehn.map (fun f => { f with loading := false }) }
    Gives .loadComplete s (fun t => t.begun = true ∧
      t = close (if s.chain.role = .member then u.signalNow u.stepSignals else u)) := by
  intro u
  have hexec : execLoadComplete s = done (if s.chain.role = .member then u.signalNow u.stepSignals else u) := by
    unfold execLoadComplete
    rw [if_pos (by rw [hrun, hload, hloads, hbegun]; rfl)]
  have hframe : OnlyChanges partsWake u (if s.chain.role = .member then u.signalNow u.stepSignals else u) := by
    split <;> simp +decide
  exact gives_done hexec ⟨by rw [close_begun]; exact hframe .begun (by decide), rfl⟩

theorem localFence_gives (htrains : s.trains = true) (hlocal : s.chain.local_ = false) (hready : s.fenceReady = true) :
    Gives .localFence s (fun t =>
      t = close ((s.consumeFences.modChain (fun c => { c with local_ := true, localTick := s.now })).fenceProgress)) := by
  have hexec : execLocalFence s =
      done ((s.consumeFences.modChain (fun c => { c with local_ := true, localTick := s.now })).fenceProgress) := by
    unfold execLocalFence
    rw [if_pos (by rw [htrains, hlocal, hready]; rfl)]
  exact gives_done hexec rfl

theorem commit_gives_closing (htrains : s.trains = true) (hready : s.commitReady = true) (hclosing : s.chain.closing = true) :
    Gives .commit s (fun t => t = close (s.commit s.chain.grants) ∧ t.step = min (s.step + 1) (2 ^ 48 - 1)) := by
  have hexec : execCommit s = done (s.commit s.chain.grants) := by
    unfold execCommit
    rw [if_neg (by rw [htrains, hready]; decide), if_pos hclosing]
  exact gives_done hexec ⟨rfl, by rw [close_step]; exact commit_step s s.chain.grants⟩

theorem commit_gives_root (htrains : s.trains = true) (hready : s.commitReady = true) (hclosing : s.chain.closing = false)
    (hroot : s.rootReady = true) : Gives .commit s (fun t => t = close s.rootClose) := by
  have hexec : execCommit s = done s.rootClose := by
    unfold execCommit
    rw [if_neg (by rw [htrains, hready]; decide), if_neg (by rw [hclosing]; decide), if_pos hroot]
  exact gives_done hexec rfl

/-! The fence bound. -/

/-- What a fence bound that expires marks and records (R338). -/
def State.boundExpired (s : State) : State :=
  (s.modChain (fun c => { c with boundExpired := true, boundSeen := true })).ask 0x35 (s.unit 0xC 0x50 0) []

/-- The root that opens its settle window for cause 5. -/
theorem rootAct_settles (u : State) (origin attempt : Nat) (hretried : u.chain.retried = false)
    (hsettle : u.chain.settleSince = none) :
    (u.rootAct (5, origin, attempt)).chain.settleSince = some u.now ∧ (u.rootAct (5, origin, attempt)).chain.lastCause = 5 := by
  have haction : ∀ v : State, v.chain.retried = false → v.heardAction (5, origin, attempt) = 2 := fun v hv => by
    unfold State.heardAction
    rw [hv]
    rfl
  unfold State.rootAct
  extract_lets v
  have hv : v.heardAction (5, origin, attempt) = 2 := haction v hretried
  have hopen : ¬(v.chain.settleSince.isSome = true) := by
    rw [show v.chain.settleSince = none from hsettle]; decide
  rw [if_neg (by rw [hv]; decide), if_neg hopen, if_pos hv]
  exact ⟨rfl, rfl⟩

/-- The root that retried the attempt in vain halts the chain. -/
theorem rootAct_halts (u : State) (r : Heard) (hretried : u.chain.retried = true) :
    (u.rootAct r).dev.st = .halted ∧ (u.rootAct r).chain.lastCause = r.1 ∧ (u.rootAct r).chain.lastAction = 2 := by
  unfold State.rootAct
  extract_lets v
  have hv : v.heardAction r = 3 := if_pos hretried
  rw [if_pos hv]
  obtain ⟨hst, hmarks⟩ := orderHalt_shows v r.1 r.2.1
  exact ⟨hst, congrArg (fun m => m.1) hmarks, congrArg (fun m => m.2.1) hmarks⟩

theorem fenceBound_gives (htrains : s.trains = true) (hlocal : s.chain.local_ = true) (hclosing : s.chain.closing = false)
    (hexpired : s.chain.boundExpired = false) (hdue : s.chain.localTick + s.plan.fenceBound ≤ s.now) {P : State → Prop}
    (h : P (close (s.boundExpired.stepAbandon 5))) : Gives .fenceBoundExpiry s P := by
  have hexec : execFenceBoundExpiry s = done (s.boundExpired.stepAbandon 5) := by
    unfold execFenceBoundExpiry
    rw [if_pos (by rw [htrains, hlocal, hclosing, hexpired, decide_eq_true hdue]; rfl)]
    rfl
  exact gives_done hexec h

theorem stepAbandon_tells (hrun : s.running = true) (hinbox : s.chain.inbox = [])
    (hnew : s.chain.myReports.any (fun r => r.1 == 5) = false) (hroot : s.chain.isRoot = false) :
    (s.stepAbandon 5).chain.myReports = s.chain.myReports ++ [(5, s.now)] ∧
      s.stepAbandon 5 = (s.noted 5).toParent (s.abandonPacket 0 5 s.self s.chain.attempt []) := by
  have heq := stepAbandon_reports hrun hnew hinbox hroot
  refine ⟨?_, heq⟩
  rw [heq]
  exact (chainSends_toParent (s.noted 5) _).field ChainSt.myReports fun _ _ => rfl

theorem boundExpired_root (hrun : s.running = true) (hinbox : s.chain.inbox = [])
    (hnew : s.chain.myReports.any (fun r => r.1 == 5) = false) (hroot : s.chain.isRoot = true) :
    s.boundExpired.stepAbandon 5 = (s.boundExpired.noted 5).rootAct (5, s.self, s.chain.attempt) :=
  stepAbandon_root (s := s.boundExpired) hrun hnew hinbox hroot

theorem boundExpired_noted (cause : Nat) : (s.boundExpired.noted cause).chain.retried = s.chain.retried ∧
    (s.boundExpired.noted cause).chain.settleSince = s.chain.settleSince ∧ (s.boundExpired.noted cause).dev = s.dev := by
  unfold State.noted State.boundExpired State.recoveryRecord State.ask State.modEvr State.modChain
  exact ⟨rfl, rfl, rfl⟩

theorem boundExpired_settles (hretried : s.chain.retried = false) (hsettle : s.chain.settleSince = none) (origin attempt : Nat) :
    ((s.boundExpired.noted 5).rootAct (5, origin, attempt)).chain.settleSince = some s.now ∧
      ((s.boundExpired.noted 5).rootAct (5, origin, attempt)).chain.lastCause = 5 := by
  obtain ⟨hr, hs, hdev⟩ := boundExpired_noted (s := s) 5
  have hnow : (s.boundExpired.noted 5).now = s.now := congrArg (fun d : Dev => d.tick.toNat) hdev
  rw [← hnow]
  exact rootAct_settles _ origin attempt (hr.trans hretried) (hs.trans hsettle)

theorem abandoning_of_reports {r : Nat × Nat} {rs : List (Nat × Nat)} (h : s.chain.myReports = rs ++ [r]) :
    (close s).abandoning = true := by
  unfold State.abandoning
  rw [close_chain, h]
  simp

theorem abandoning_of_settles {n : Nat} (h : s.chain.settleSince = some n) : (close s).abandoning = true := by
  unfold State.abandoning
  rw [close_chain, h]
  simp

theorem running_of_trains (h : s.trains = true) : s.running = true :=
  (Bool.and_eq_true_iff.1 (Bool.and_eq_true_iff.1 h).1).1

/-! The update of a group (R217, R219). -/

section
variable {n : Fin 12} {group : Fin 256} {g : BitVec 512} {q : Nat × Bool}

/-- What follows once the remaining blocks of a group are updated in `u`. -/
def State.groupEnd (s u : State) (n : Fin 12) (group : Fin 256) (g : BitVec 512) : Out :=
  match Tbl.get? (u.fhn n).running group with
  | none => done (u.reportPoison s).startDue
  | some (b, bad) =>
    if b < groupChunks g || !((u.fhn n).waitsToHand group).isEmpty then done u
    else
      let stop := bad && grpStop g
      let v := u.modFhn n (fun f =>
        { f with
          running := Tbl.erase f.running group, done := insSorted f.done group
          withheld := f.withheld || stop, last := group, bank := f.bank.add 1 1 })
      let w := if grpDoneEn g then v.signalNow [unitSig (grpDone g) s.self 1 4 n] else v.startDue
      if stop then done ((w.ask 0x31 (s.unit 4 n 0) []).stepAbandon 3) else done w

theorem groupUpdateComplete_groupEnd {u : State} (hq : Tbl.get? (s.fhn n).running group = some q)
    (hg : Tbl.get? (s.groupTable n) group = some g) (hrun : s.running = true)
    (hu : s.updateBlocks n group g (groupChunks g + 1) = u) :
    exec (.groupUpdateComplete n group) s = s.groupEnd u n group g := by
  show execGroupUpdateComplete n group s = _
  unfold execGroupUpdateComplete
  simp only [hq, hg, hu, hrun]
  rfl

theorem groupEnd_none {u : State} (h : Tbl.get? (u.fhn n).running group = none) :
    s.groupEnd u n group g = done (u.reportPoison s).startDue := by
  unfold State.groupEnd
  rw [h]

theorem groupEnd_left {u : State} {b : Nat} {bad : Bool} (h : Tbl.get? (u.fhn n).running group = some (b, bad))
    (hleft : b < groupChunks g ∨ (u.fhn n).waitsToHand group ≠ []) : s.groupEnd u n group g = done u := by
  unfold State.groupEnd
  rw [h]
  exact if_pos (by simpa using hleft)

/-- A group that is done, and what it brings (R219, R337). -/
theorem groupEnd_all {u : State} {b : Nat} {bad : Bool} (h : Tbl.get? (u.fhn n).running group = some (b, bad))
    (hblocks : groupChunks g ≤ b) (hhand : (u.fhn n).waitsToHand group = []) :
    let stop := bad && grpStop g
    let v := u.modFhn n (fun f =>
      { f with
        running := Tbl.erase f.running group, done := insSorted f.done group
        withheld := f.withheld || stop, last := group, bank := f.bank.add 1 1 })
    let w := if grpDoneEn g then v.signalNow [unitSig (grpDone g) s.self 1 4 n] else v.startDue
    s.groupEnd u n group g = done (
      if stop then (w.ask 0x31 (s.unit 4 n 0) []).stepAbandon 3 else w) := by
  intro stop v w
  have hdone : ¬((decide (b < groupChunks g) || !((u.fhn n).waitsToHand group).isEmpty) = true) := by
    rw [hhand, decide_eq_false (by omega)]
    decide
  unfold State.groupEnd
  rw [h]
  exact (if_neg hdone).trans (apply_ite done _ _ _).symm

end

end

/-- Settles O30: the rows of the fence one by one; a group's update by the three ways its blocks can end. -/
theorem fenceRuns : Obligations.FenceRuns := by
  unfold Obligations.FenceRuns
  refine ⟨fun s => ⟨loadComplete_gives, localFence_gives, commit_gives_closing, commit_gives_root, ?_⟩, ?_⟩
  · intro htrains hlocal hclosing hexpired hdue u own
    have hrun : s.running = true := running_of_trains htrains
    refine fenceBound_gives htrains hlocal hclosing hexpired hdue ⟨?_, rfl, fun hinbox hnew => ⟨fun hroot => ?_,
      fun hroot hretried hsettle => ?_, fun hroot hretried => ?_⟩⟩
    · rw [close_chain]
      exact boundKept_stepAbandon u 5
    · obtain ⟨hmine, heq⟩ := stepAbandon_tells (s := s.boundExpired) hrun hinbox hnew hroot
      exact ⟨by rw [close_chain]; exact hmine, abandoning_of_reports hmine, congrArg close heq⟩
    · obtain ⟨hsince, hcause⟩ := boundExpired_settles hretried hsettle s.self s.chain.attempt
      rw [← boundExpired_root hrun hinbox hnew hroot] at hsince hcause
      exact ⟨by rw [close_chain]; exact hsince, by rw [close_chain]; exact hcause, abandoning_of_settles hsince⟩
    · rw [close_chain, close_dev, boundExpired_root hrun hinbox hnew hroot]
      exact rootAct_halts _ (5, _, _) ((boundExpired_noted 5).1.trans hretried)
  · intro s n group g q hq hg hrun
    generalize hu : s.updateBlocks n group g (groupChunks g + 1) = u
    intro _
    have hexec : exec (.groupUpdateComplete n group) s = s.groupEnd u n group g := groupUpdateComplete_groupEnd hq hg hrun hu
    refine ⟨fun hnone => ?_, fun b bad hrest => ⟨fun hleft => ?_, fun hblocks hhand => ?_⟩⟩
    · rw [groupEnd_none hnone] at hexec
      exact ⟨_, hexec, rfl⟩
    · rw [groupEnd_left hrest hleft] at hexec
      exact ⟨_, hexec, rfl⟩
    · rw [groupEnd_all hrest hblocks hhand] at hexec
      exact ⟨_, hexec, rfl⟩

end Sys2Proof.Machine
end

section
/-! SUPPORT. What a relation between two states has to be kept by for every stop, retry and takeover to keep it: the sending of a
packet, a link's going down, and what they change of the slipstream (R338 to R342). -/

namespace Sys2Proof.Machine

section
variable {s t u : State}

/-- A relation that sending, lowering the links and the slipstream's own bookkeeping keep, and that says nothing of any other part. -/
structure Carried (R : State → State → Prop) : Prop where
  trans : ∀ {s t u}, R s t → R t u → R s u
  frame : ∀ {A s t}, OnlyChanges A s t → Part.links ∉ A → Part.slip ∉ A → R s t
  slip : ∀ s {f : Slip → Slip}, (∀ x, (f x).nakSeen = x.nakSeen) → R s (s.modSlip f)
  push : ∀ s l p, R s (s.pushOn l p)
  down : ∀ s, R s s.linksDown

variable {R : State → State → Prop} (h : Carried R)
include h

theorem Carried.refl (s : State) : R s s := h.frame (A := []) (onlyChanges_refl _ s) (by decide) (by decide)

theorem Carried.modChain (s : State) (f : ChainSt → ChainSt) : R s (s.modChain f) :=
  h.frame (A := [.chain]) ((onlyChanges_modChain (by decide)).2 (onlyChanges_refl _ s)) (by decide) (by decide)

theorem Carried.foldl {α : Type} {f : State → α → State} (hf : ∀ u a, R u (f u a)) (l : List α) (s : State) : R s (l.foldl f s) := by
  induction l generalizing s with
  | nil => exact h.refl s
  | cons a l ih => exact h.trans (hf s a) (ih _)

theorem Carried.tookPush (s : State) (d vl : Nat) (l : Fin 36) (p : Packet) : R s ((s.tookPseq d vl).pushOn l p) :=
  h.trans (h.modChain s _) (h.push _ l p)

theorem Carried.sendOn (s : State) (l : Fin 36) (p : Packet) : R s (s.sendOn l p) := by
  unfold State.sendOn
  exact h.tookPush _ _ _ _ _

theorem Carried.send (s : State) (p : Packet) : R s (s.send p) := by
  unfold State.send State.send?
  dsimp only
  split
  · rw [Option.getD_none]
    exact h.refl s
  · rw [Option.getD_some]
    exact h.tookPush _ _ _ _ _

theorem Carried.toParent (s : State) (p : Packet) : R s (s.toParent p) := by
  unfold State.toParent
  split
  · exact h.refl s
  · dsimp only
    split
    · exact h.sendOn _ _ _
    · exact h.send _ _

theorem Carried.sendTwin (s : State) (p : Packet) : R s (s.sendTwin p) := by
  unfold State.sendTwin
  dsimp only
  split
  · exact h.refl s
  · exact h.tookPush _ _ _ _ _

theorem Carried.sendFrame (s : State) (d : Fin 2) (f : Frame) : R s (s.sendFrame d f) := by
  unfold State.sendFrame State.emitFrame
  split
  · extract_lets n g s1
    have hlimit : R s (s.atSeqLimit (seqNext n)) := by
      unfold State.atSeqLimit
      split
      · exact h.frame (A := []) (by simp +decide) (by decide) (by decide)
      · exact h.refl s
    have h1 : R s s1 := h.trans hlimit (h.slip _ fun _ => rfl)
    split
    · exact h.trans h1 (h.sendTwin _ _)
    · exact h.trans h1 (h.send _ _)
  · exact h.refl s

theorem Carried.slipAbort (s : State) (attempt : Nat) : R s (s.slipAbort attempt) := by
  unfold State.slipAbort
  extract_lets f1 f2 s1 sent
  have h1 : R s s1 := h.trans (h.sendFrame s 0 f2) (h.sendFrame _ 1 f2)
  exact h.trans h1 (h.slip s1 fun _ => rfl)

theorem Carried.resendChunk (s : State) (c : Chunk) (d : Fin 2) : R s (s.resendChunk c d) := by
  unfold State.resendChunk
  extract_lets s1
  have h1 : R s s1 := h.foldl (fun u f => h.sendFrame u d f) _ s
  have h2 : R s1 (s1.modSlip (fun x => { x with bank := x.bank.add 4 1 })) := h.slip s1 fun _ => rfl
  exact h.trans (h.trans h1 h2) (h.slip _ fun _ => rfl)

theorem Carried.orderDown (s : State) (p : Packet) (survivor : Bool) : R s (s.orderDown p survivor) := by
  unfold State.orderDown
  exact h.foldl (fun u l => h.sendOn u l p) _ s

/-! Retries (R339). -/

theorem Carried.obeyRetry (s : State) (cause origin attempt : Nat) (pairs : List (Nat × Nat)) :
    R s (s.obeyRetry cause origin attempt pairs) := by
  unfold State.obeyRetry
  extract_lets old s1 s2 s3 s4 s5 s6 s7
  have h1 : R s s1 := h.trans (h.modChain s _) (h.foldl (f := State.applyTakeover) (fun v p =>
    h.frame (A := [.dev, .foehn, .chain]) ((onlyChanges_applyTakeover (by decide)).2 (onlyChanges_refl _ v)) (by decide) (by decide)) pairs _)
  have h2 : R s1 s2 := h.trans (h.slipAbort s1 old)
    (h.frame (A := [.chain]) ((onlyChanges_countAbandoned (by decide)).2 (onlyChanges_refl _ _)) (by decide) (by decide))
  have h3 : R s2 s3 := h.modChain s2 _
  have h4 : R s3 s4 := h.frame (A := [.ctxs, .cores, .gales, .draughts, .chainVanes, .signals, .foehn, .withheld])
    (by clear_value s3; simp +decide [s4]) (by decide) (by decide)
  have h6 : R s4 s6 := h.frame (A := [.ctxs, .cores, .chainVanes, .ports]) (by
    clear_value s4
    simp only [s6, s5]
    split <;> simp +decide) (by decide) (by decide)
  have h7 : R s6 s7 := h.frame (A := [.chain, .rst]) (by clear_value s6; simp +decide [s7]) (by decide) (by decide)
  exact h.trans (h.trans (h.trans h1 h2) h3) (h.trans (h.trans h4 h6) (h.trans h7 (h.toParent s7 _)))

theorem Carried.orderRetry (s : State) (cause origin : Nat) : R s (s.orderRetry cause origin) := by
  unfold State.orderRetry State.retryDown
  exact h.trans (h.orderDown _ _ _) (h.obeyRetry _ _ _ _ _)

/-! Halts (R339, R342). -/

theorem Carried.fatalStop (s : State) (cause : Nat) : R s (s.fatalStop cause) :=
  h.frame (A := [.ctxs, .frozen]) ((onlyChanges_fatalStop (List.Subset.refl _)).2 (onlyChanges_refl _ s)) (by decide) (by decide)

theorem Carried.stopLinks (s : State) (atOnce : Bool) : R s (s.stopLinks atOnce) := by
  unfold State.stopLinks
  split
  · exact h.down s
  · exact h.modChain s _

theorem Carried.halted (s : State) (n : Nat) :
    R s ((s.modDev (fun d => { d with st := .halted })).modRst (fun r => { r with wdtSince := n })) :=
  h.frame (A := [.dev, .rst]) (by simp +decide) (by decide) (by decide)

theorem Carried.orderHalt (s : State) (cause origin : Nat) : R s (s.orderHalt cause origin) := by
  have h0 : R s (s.haltDown (s.abandonPacket 2 cause origin s.chain.attempt [])) := by
    unfold State.haltDown
    exact h.orderDown _ _ _
  unfold State.orderHalt State.obeyHalt
  generalize s.haltDown (s.abandonPacket 2 cause origin s.chain.attempt []) = s0 at h0 ⊢
  extract_lets s1 s2
  have h1 : R s0 s1 := h.trans (h.slipAbort s0 _) (h.modChain _ _)
  have h2 : R s1 s2 := h.trans (h.frame (A := [.chain]) (by clear_value s1; simp +decide) (by decide) (by decide)) (h.fatalStop _ _)
  exact h.trans h0 (h.trans h1 (h.trans h2 (h.trans (h.stopLinks s2 false) (h.halted _ _))))

theorem Carried.rootAct (s : State) (r : Heard) : R s (s.rootAct r) := by
  unfold State.rootAct
  extract_lets s1
  have h1 : R s s1 := h.modChain s _
  split
  · exact h.trans h1 (h.orderHalt s1 _ _)
  · split
    · exact h1
    · split
      · exact h.trans h1 (h.modChain s1 _)
      · exact h.trans h1 (h.orderRetry s1 _ _)

theorem Carried.rootJudge (s : State) : R s s.rootJudge := by
  unfold State.rootJudge
  extract_lets box s1 s2
  have h1 : R s s1 := h.modChain s _
  split
  · exact h1
  · have h2 : R s1 s2 := h.foldl (f := State.staleReport) (fun u r =>
      h.frame (A := [.chain]) (by simp +decide [State.staleReport]) (by decide) (by decide)) _ s1
    split
    · exact h.trans h1 h2
    · exact h.trans (h.trans h1 h2) (h.rootAct _ _)

theorem Carried.learn (s : State) (cause : Nat) : R s (s.learn cause) := by
  unfold State.learn State.report State.recoveryRecord
  extract_lets s1
  have h1 : R s (s1.ask 0x23 (s1.unit 0xC 0x50 0) (leBytes 1 0 ++ leBytes 1 cause ++ leBytes 2 s1.self ++ leBytes 2 s1.chain.attempt)) :=
    h.frame (A := [.chain]) (by simp +decide [s1]) (by decide) (by decide)
  split
  · exact h.refl s
  · split
    · exact h.trans h1 (h.modChain _ _)
    · exact h.trans h1 (h.toParent _ _)

theorem Carried.stepAbandon (s : State) (cause : Nat) : R s (s.stepAbandon cause) :=
  h.trans (h.learn s cause) (h.rootJudge _)

/-! Takeovers and the twin's arbitration (R326 to R329, R340). -/

theorem Carried.rootTakeover (s : State) (dev : Nat) : R s (s.rootTakeover dev) := by
  unfold State.rootTakeover State.rootHear State.takenOver
  extract_lets free ok twin s1 s2 s3
  have h1 : R s s1 := by
    simp only [s1]
    split
    · exact h.modChain s _
    · exact h.refl s
  have h2 : R s1 s2 := by
    simp only [s2]
    split
    · split
      · exact h.modChain s1 _
      · exact h.refl s1
    · exact h.send s1 _
  have h3 : R s s3 := h.trans (h.trans h1 h2) (h.modChain s2 _)
  split
  · exact h.trans h3 (h.trans (h.down s3)
      (h.frame (A := [.dev]) ((onlyChanges_modDev (by decide)).2 (onlyChanges_refl _ _)) (by decide) (by decide)))
  · exact h3

theorem Carried.arbitrate (s : State) (cause : Nat) : R s (s.arbitrate cause) := by
  unfold State.arbitrate
  split
  · exact h.refl s
  · extract_lets s1
    have h1 : R s s1 := h.trans
      (h.frame (A := [.chain]) (by simp +decide [State.linkRecord]) (by decide) (by decide)) (h.learn _ cause)
    split
    · exact h.trans h1 (h.trans (h.rootTakeover s1 _) (h.rootJudge _))
    · exact h.trans h1 (h.toParent s1 _)

theorem Carried.slipFails (s : State) (d : Fin 2) : R s (s.slipFails d) := by
  unfold State.slipFails
  extract_lets s1
  have h1 : R s s1 := h.slip s fun _ => rfl
  split
  · exact h.trans h1 (h.arbitrate s1 9)
  · exact h.trans h1 (h.stepAbandon s1 0x0B)

/-! A device that leaves the chain (R342), and a link that fails (R305, R310). -/

theorem Carried.haltLost (s : State) (cause : Nat) : R s (s.haltLost cause) := by
  unfold State.haltLost State.haltSteps
  split
  · extract_lets s1 s2
    have h1 : R s s1 := h.trans (h.toParent s _) (h.slipAbort _ _)
    have h2 : R s1 s2 := h.trans (h.frame (A := []) (by clear_value s1; simp +decide) (by decide) (by decide)) (h.fatalStop _ cause)
    have h3 : R s2 (s2.stopLinks (s2.chain.twin == .paired)) := h.stopLinks s2 _
    exact h.trans (h.trans (h.trans h1 h2) h3) (h.frame (A := [.dev]) (by simp +decide) (by decide) (by decide))
  · exact h.refl s

theorem Carried.afterFail (s : State) : R s s.afterFail := by
  unfold State.afterFail
  extract_lets dead twin
  split
  · exact h.refl s
  · split
    · exact h.haltLost s _
    · split
      · exact h.arbitrate s 8
      · exact h.refl s

theorem Carried.lowered (s : State) : R s s.lowered := by
  unfold State.lowered
  split
  · exact h.down s
  · exact h.refl s

end

end Sys2Proof.Machine
end

section
/-! SUPPORT. The slipstream: what its sender and its receiver keep of their state at each frame (R244 to R256). -/

namespace Sys2Proof.Machine

section
variable {s t u : State}

/-! A negative acknowledgement that was seen stays seen, whatever stop or retry it brings. -/

/-- NAK_SEEN is as it was. -/
def NakKept (s t : State) : Prop := t.slip.nakSeen = s.slip.nakSeen

theorem carried_nakKept : Carried NakKept where
  trans a b := Eq.trans b a
  frame h _ hslip := congrArg Slip.nakSeen (h .slip hslip)
  slip _ _ hf := hf _
  push s l p := congrArg Slip.nakSeen ((onlyChanges_pushOn (B := [.links, .sec]) (by decide)).2 (onlyChanges_refl _ s) .slip (by decide))
  down _ := rfl

/-! What the sender keeps at an answer (R249 to R251). -/

theorem takeChunkNak_aborted {p : Packet} {f : Frame} (h : s.slip.aborted.contains (f.step, f.attempt) = true) :
    s.takeChunkNak p f = s := by
  unfold State.takeChunkNak
  split
  · rfl
  · exact if_pos h

theorem takeChunkNak_seen {p : Packet} {f : Frame} {d : Fin 2} (h : s.slip.aborted.contains (f.step, f.attempt) = false)
    (hd : s.answerFrom p = some d) : (s.takeChunkNak p f).slip.nakSeen = true := by
  unfold State.takeChunkNak
  rw [hd]
  dsimp only
  rw [if_neg (by rw [h]; decide)]
  generalize hu : s.modSlip (fun x => { x with nakSeen := true, bank := x.bank.add 3 1 }) = u
  have hseen : u.slip.nakSeen = true := by rw [← hu]; rfl
  split
  · split
    · exact Eq.trans (carried_nakKept.slipFails u d) hseen
    · exact Eq.trans (carried_nakKept.resendChunk u _ d) hseen
  · exact hseen

/-- Of the slipstream's state, what closing a step's root leaves as it was. -/
theorem closeRoot_slip (s : State) : ∃ closed bank, s.closeRoot.slip = { s.slip with rootClosed := closed, bank := bank } := by
  unfold State.closeRoot
  dsimp only
  split
  · exact ⟨_, _, rfl⟩
  · exact ⟨_, _, rfl⟩

theorem stepEndSend_gives (h : s.stepComplete = true) :
    Gives .stepEndSend s (fun t =>
      t.slip.stepEndSent = true ∧ t.slip.root = rootOf s.self s.step (s.fullStep s.step) s.slip.leaves) := by
  have hexec : execStepEndSend s = done (((((s.sendFrame 0 (s.frame 3 (rootOf s.self s.step (s.fullStep s.step) s.slip.leaves))).sendFrame 1
      (s.frame 3 (rootOf s.self s.step (s.fullStep s.step) s.slip.leaves))).modSlip (fun x =>
        { x with stepEndSent := true, root := rootOf s.self s.step (s.fullStep s.step) s.slip.leaves })).closeRoot)) := if_pos h
  refine gives_done hexec ?_
  rw [close_slip]
  obtain ⟨closed, bank, hslip⟩ := closeRoot_slip (((s.sendFrame 0 (s.frame 3 (rootOf s.self s.step (s.fullStep s.step) s.slip.leaves))).sendFrame 1
      (s.frame 3 (rootOf s.self s.step (s.fullStep s.step) s.slip.leaves))).modSlip (fun x =>
        { x with stepEndSent := true, root := rootOf s.self s.step (s.fullStep s.step) s.slip.leaves }))
  rw [hslip]
  exact ⟨rfl, rfl⟩

theorem takeStepAck_shadow {p : Packet} {f : Frame} (hd : s.answerFrom p = some 0) (hstep : f.step = s.step)
    (hattempt : f.attempt = s.chain.attempt) (hsent : s.slip.stepEndSent = true) :
    (s.takeStepAck p f).slip.shadowAcked = true ∧ (s.takeStepAck p f).slip.shadowAck = some f.step := by
  have heq : s.takeStepAck p f =
      (s.modSlip (fun x => { x with shadowAcked := true, shadowAck := some f.step })).closeRoot := by
    unfold State.takeStepAck
    rw [hd]
    exact if_pos (by rw [hstep, hattempt, hsent]; simp)
  obtain ⟨closed, bank, hslip⟩ := closeRoot_slip (s.modSlip (fun x => { x with shadowAcked := true, shadowAck := some f.step }))
  rw [heq, hslip]
  exact ⟨rfl, rfl⟩

theorem takeStepAck_store {p : Packet} {f : Frame} (hd : s.answerFrom p = some 1) (hattempt : s.storeAttempt f.step f.attempt = true)
    (hnewer : ∀ n, s.slip.storeAck = some n → n < f.step) : (s.takeStepAck p f).slip.storeAck = some f.step := by
  have hnew : (match s.slip.storeAck with | some n => decide (n < f.step) | none => true) = true := by
    cases hack : s.slip.storeAck with
    | none => rfl
    | some n => exact decide_eq_true (hnewer n hack)
  generalize hu : s.modSlip (fun x =>
    { x with
      storeAck := some f.step
      seq := x.seq.filter (fun e => !(e.1.1 == 1 && e.1.2.1 < f.step)) }) = u
  have heq : s.takeStepAck p f = u.closeRoot.askLeave := by
    unfold State.takeStepAck
    rw [hd, ← hu]
    exact if_pos (by rw [hattempt]; exact hnew)
  have hask : OnlyChanges partsSend u.closeRoot u.closeRoot.askLeave := by simp +decide
  obtain ⟨closed, bank, hslip⟩ := closeRoot_slip u
  rw [heq, hask .slip (by decide), hslip, ← hu]
  rfl

/-! What the receiver keeps at a frame in its order (R246 to R248). -/

/-- A frame that is the next of its attempt is acted on (R246). -/
theorem takeFrame_in_order {f : Frame} (act : State → State) (hshadows : s.shadows f = true) (hstep : f.step = s.step)
    (hrxStep : s.slip.rx.step = f.step) (hattempt : s.slip.rx.attempt = f.attempt) (hseq : s.slip.rx.seq = f.seq) :
    s.takeFrame f act = act (s.modSlip (fun x => { x with rx := { x.rx with seq := x.rx.seq + 1 } })) := by
  unfold State.takeFrame
  simp [hshadows, hstep, hrxStep.trans hstep, hattempt, hseq]

theorem part_filter (r : ShadowRx) (k : Nat × Nat × Nat × Nat) (rest : ShadowRx)
    (h : rest.parts = r.parts.filter (fun e => e.1 != k)) : rest.part k = [] := by
  have hnone : rest.parts.find? (fun e => e.1 == k) = none := by
    rw [h, List.find?_eq_none]
    intro e he
    simpa using (List.mem_filter.1 he).2
  unfold ShadowRx.part
  rw [hnone]
  rfl

theorem part_cons (r : ShadowRx) (k : Nat × Nat × Nat × Nat) (cells : List (Nat × Byte))
    (rest : List ((Nat × Nat × Nat × Nat) × List (Nat × Byte)))
    (h : r.parts = (k, cells) :: rest) : r.part k = cells := by
  unfold ShadowRx.part
  rw [h, List.find?_cons_of_pos (by simp)]
  rfl

theorem shadowAnswer_slip (s : State) (type : Nat) (f : Frame) :
    ∃ n, (s.shadowAnswer type f).slip = { s.slip with rx := { s.slip.rx with txSeq := n } } := by
  unfold State.shadowAnswer
  dsimp only
  have hlimit : (s.atSeqLimit (seqNext s.slip.rx.txSeq)).slip = s.slip := by
    unfold State.atSeqLimit
    split <;> rfl
  generalize hv : (s.atSeqLimit (seqNext s.slip.rx.txSeq)).modSlip
    (fun x => { x with rx := { x.rx with txSeq := seqNext s.slip.rx.txSeq } }) = v
  have hsend : OnlyChanges partsSend v (v.sendTwin (slipPacket 0
      { f with type := type, offset := 0, seq := s.slip.rx.txSeq, payload := [] })) := by simp +decide
  refine ⟨seqNext s.slip.rx.txSeq, ?_⟩
  rw [hsend .slip (by decide), ← hv, State.modSlip_slip, hlimit]

/-- The root that the received leaves must give. -/
def State.rxRoot (s : State) (f : Frame) : List Byte := rootOf f.srcDev f.step (s.fullStep f.step) s.slip.rx.leaves

theorem shadowCheck_slip (s : State) (f : Frame) :
    ∃ n, (s.shadowCheck f).slip = { s.slip with rx := { s.slip.rx with
      acked := s.slip.rx.acked || s.slip.rx.wanted == some (s.rxRoot f), txSeq := n } } := by
  unfold State.shadowCheck
  extract_lets r
  split
  next h =>
    have hroot : (r.wanted == some (s.rxRoot f)) = true := (Bool.and_eq_true_iff.1 h).2
    obtain ⟨n, hn⟩ := shadowAnswer_slip (s.modSlip (fun x => { x with rx := { x.rx with acked := true } })) 7 f
    refine ⟨n, hn.trans ?_⟩
    rw [State.modSlip_slip, show (s.slip.rx.wanted == some (s.rxRoot f)) = true from hroot, Bool.or_true]
  next h =>
    refine ⟨s.slip.rx.txSeq, ?_⟩
    have hacked : (s.slip.rx.acked || s.slip.rx.wanted == some (s.rxRoot f)) = s.slip.rx.acked := by
      cases hr : s.slip.rx.acked with
      | true => rfl
      | false =>
        have hdiff : (s.slip.rx.wanted == some (s.rxRoot f)) = false := by
          cases hw : (s.slip.rx.wanted == some (s.rxRoot f)) with
          | false => rfl
          | true => exact absurd (Bool.and_eq_true_iff.2 ⟨by show (!s.slip.rx.acked) = true; rw [hr]; rfl, hw⟩) h
        rw [hdiff]
        rfl
    rw [hacked]

/-- The parts of a chunk, dropped. -/
def State.dropParts (s : State) (f : Frame) : State :=
  s.modSlip (fun x => { x with rx := { x.rx with parts := x.rx.parts.filter (fun e => e.1 != Frame.place f) } })

/-- A chunk whose digest matches, written where the shadow keeps it. -/
def State.chunkWritten (s : State) (f : Frame) (bytes : List Byte) : State :=
  match s.shadowAddr f.stack f.group f.kind f.chunk with
  | some a => s.writeBytes a bytes false true
  | none => s

theorem chunkWritten_slip (s : State) (f : Frame) (bytes : List Byte) : (s.chunkWritten f bytes).slip = s.slip := by
  unfold State.chunkWritten
  split
  · exact ((onlyChanges_writeBytes (B := partsStore) (List.Subset.refl _)).2 (onlyChanges_refl _ s)) .slip (by decide)
  · rfl

/-- A chunk written and its leaf added. -/
def State.leafAdded (s : State) (f : Frame) (bytes : List Byte) : State :=
  ((s.chunkWritten f bytes).dropParts f).modSlip (fun x => { x with rx := { x.rx with
    leaves := insLeaf ⟨f.stack, f.group, f.kind, f.chunk, bytes.length, sha384 bytes⟩ x.rx.leaves } })

theorem leafAdded_slip (s : State) (f : Frame) (bytes : List Byte) :
    (s.leafAdded f bytes).slip = { s.slip with rx := { s.slip.rx with
      parts := s.slip.rx.parts.filter (fun e => e.1 != Frame.place f)
      leaves := insLeaf ⟨f.stack, f.group, f.kind, f.chunk, bytes.length, sha384 bytes⟩ s.slip.rx.leaves } } := by
  rw [← chunkWritten_slip s f bytes]
  rfl

/-- A chunk whose digest matches is written and adds its leaf (R247). -/
theorem endChunk_matches {f : Frame} {bytes : List Byte} (hgot : chunkBytes (s.slip.rx.part (Frame.place f)) = some bytes)
    (hsha : f.payload = sha384 bytes) :
    (s.endChunk f).slip.rx.leaves =
        insLeaf ⟨f.stack, f.group, f.kind, f.chunk, bytes.length, sha384 bytes⟩ s.slip.rx.leaves ∧
      (s.endChunk f).slip.rx.part (Frame.place f) = [] := by
  have hbytes : (chunkBytes (s.slip.rx.part (Frame.place f))).filter (fun bytes => f.payload == sha384 bytes) = some bytes := by
    rw [hgot]
    simp [hsha]
  have heq : s.endChunk f = ((s.leafAdded f bytes).shadowAnswer 5 f).shadowCheck f := by
    unfold State.endChunk
    rw [hbytes]
    rfl
  obtain ⟨m, hm⟩ := shadowCheck_slip ((s.leafAdded f bytes).shadowAnswer 5 f) f
  obtain ⟨n, hn⟩ := shadowAnswer_slip (s.leafAdded f bytes) 5 f
  rw [heq, hm, hn, leafAdded_slip]
  exact ⟨rfl, part_filter _ _ _ rfl⟩

/-- A chunk whose digest fails adds no leaf (R247). -/
theorem endChunk_fails {f : Frame} (h : ∀ bytes, chunkBytes (s.slip.rx.part (Frame.place f)) = some bytes → f.payload ≠ sha384 bytes) :
    (s.endChunk f).slip.rx.leaves = s.slip.rx.leaves ∧ (s.endChunk f).slip.rx.part (Frame.place f) = [] := by
  have hnone : (chunkBytes (s.slip.rx.part (Frame.place f))).filter (fun bytes => f.payload == sha384 bytes) = none := by
    cases hgot : chunkBytes (s.slip.rx.part (Frame.place f)) with
    | none => rfl
    | some bytes => simp [Option.filter, h bytes hgot]
  have heq : s.endChunk f = (s.dropParts f).shadowAnswer 6 f := by
    unfold State.endChunk
    rw [hnone]
    rfl
  obtain ⟨n, hn⟩ := shadowAnswer_slip (s.dropParts f) 6 f
  rw [heq, hn]
  exact ⟨rfl, part_filter _ _ _ rfl⟩

theorem takeStepEnd_slip (s : State) (f : Frame) : (s.takeStepEnd f).slip.rx.wanted = some f.payload ∧
    (s.slip.rx.acked = false → (s.takeStepEnd f).slip.rx.acked = (f.payload == s.rxRoot f)) := by
  unfold State.takeStepEnd
  obtain ⟨n, hn⟩ := shadowCheck_slip (s.modSlip (fun x => { x with rx := { x.rx with wanted := some f.payload } })) f
  rw [hn]
  refine ⟨rfl, fun hacked => ?_⟩
  show (s.slip.rx.acked || (some f.payload == some (s.rxRoot f))) = _
  rw [hacked]
  simp

/-! The rows of the frames. -/

/-- What a slipstream packet does, by who takes it. -/
def State.slipFrame (s : State) (p : Packet) : State := if s.outsider then s.takeJoin p else s.takeSlip p

theorem takesFrame_at_turn {l : Fin 36} {p : Packet} {f : Frame} {ok : Nat → Bool} (h : s.InTurn l p 0x10)
    (hf : (frameOf p.payload).1 = f) (hok : ok f.type = true) :
    s.takesFrame l p f ok = done ((s.atTurn l p).slipFrame p) := by
  have htype : p.type = 0x10 := h.2.2.1
  have hact : (s.atTurn l p).actOf l p none = (s.atTurn l p).slipFrame p := by
    unfold State.actOf
    rw [htype]
    rfl
  rw [← hact, ← State.takes_at_turn s l p 0x10 h]
  exact if_pos (by rw [hf, hok]; simp)

theorem slipFrame_eq {p : Packet} {f : Frame} (hf : (frameOf p.payload).1 = f) :
    (f.type = 4 → s.slipFrame p = s.takeFrame f (·.takeAbort f)) ∧ (f.type = 5 → s.slipFrame p = s.takeChunkAck p f) ∧
    (f.type = 6 → s.slipFrame p = s.takeChunkNak p f) ∧ (f.type = 7 → s.slipFrame p = s.takeStepAck p f) := by
  unfold State.slipFrame State.takeJoin State.takeSlip
  rw [hf]
  dsimp only
  refine ⟨fun h => ?_, fun h => ?_, fun h => ?_, fun h => ?_⟩ <;> rw [h] <;> exact ite_self _

theorem slipFrame_member {p : Packet} {f : Frame} (hf : (frameOf p.payload).1 = f) (hmember : s.outsider = false) :
    (f.type = 1 → s.slipFrame p = s.takeFrame f (·.takeFrameData f)) ∧ (f.type = 2 → s.slipFrame p = s.takeFrame f (·.endChunk f)) ∧
    (f.type = 3 → s.slipFrame p = s.takeFrame f (·.takeStepEnd f)) := by
  unfold State.slipFrame State.takeSlip
  rw [hmember, if_neg (by decide), hf]
  dsimp only
  exact ⟨fun h => by rw [h]; rfl, fun h => by rw [h]; rfl, fun h => by rw [h]; rfl⟩

theorem slipFrame_outsider {p : Packet} {f : Frame} (hf : (frameOf p.payload).1 = f) (houtsider : s.outsider = true) :
    (f.type = 1 → s.slipFrame p = s.joinFrame f (·.takeFrameData f)) ∧
    (f.type = 2 → s.slipFrame p = s.joinFrame f (·.joinChunk f)) := by
  unfold State.slipFrame State.takeJoin
  rw [houtsider, if_pos rfl, hf]
  dsimp only
  exact ⟨fun h => by rw [h]; rfl, fun h => by rw [h]; rfl⟩

theorem chunkSend_gives {n : Fin 12} {group : Fin 256} {kind : Fin 3} {chunk : Nat} {c : Chunk} (hrun : s.running = true) :
    (s.unsent n group kind chunk = some c →
      Gives (.chunkSend n group kind chunk) s (fun t => t = close (((s.sendChunk c 0).sendChunk c 1).reportPoison s))) ∧
    (s.unsent n group kind chunk = none → (s.reachChunk n group chunk).unsent n group kind chunk = some c →
      Gives (.chunkSend n group kind chunk) s (fun t =>
        t = close ((((s.reachChunk n group chunk).sendChunk c 0).sendChunk c 1).reportPoison s))) := by
  refine ⟨fun hc => ?_, fun hnone hc => ?_⟩
  · have hexec : execChunkSend n group kind chunk s = done (((s.sendChunk c 0).sendChunk c 1).reportPoison s) := by
      unfold execChunkSend
      rw [if_neg (by rw [hrun]; decide)]
      dsimp only
      rw [if_pos (by rw [hc]; rfl), hc]
    exact gives_done hexec rfl
  · have hexec : execChunkSend n group kind chunk s =
        done ((((s.reachChunk n group chunk).sendChunk c 0).sendChunk c 1).reportPoison s) := by
      unfold execChunkSend
      rw [if_neg (by rw [hrun]; decide)]
      dsimp only
      rw [if_neg (by rw [hnone]; decide), hc]
    exact gives_done hexec rfl

end

/-- Settles O31: a frame's row is `takesFrame_at_turn`, and what it leaves is said of the receiver's state alone. -/
theorem slipstreamRuns : Obligations.SlipstreamRuns := by
  unfold Obligations.SlipstreamRuns
  refine ⟨fun s => ⟨fun n group kind chunk c hrun => chunkSend_gives hrun, stepEndSend_gives⟩, ?_⟩
  intro s l p f hturn hf u
  have hslip : u.slip = s.slip := rfl
  have hin : ∀ act : State → State, u.shadows f = true → f.step = s.step → s.slip.rx.step = f.step →
      s.slip.rx.attempt = f.attempt → s.slip.rx.seq = f.seq →
      u.takeFrame f act = act (u.modSlip (fun x => { x with rx := { x.rx with seq := x.rx.seq + 1 } })) :=
    fun act h1 h2 h3 h4 h5 => takeFrame_in_order (s := u) act h1 h2 h3 h4 h5
  refine ⟨fun ht => ?_, fun ht => ?_, fun ht => ?_, fun ht => ?_, fun ht => ?_, fun ht => ?_, fun ht => ?_⟩
  · have hexec : execChunkAck l p f s = done (u.slipFrame p) := takesFrame_at_turn hturn hf (by rw [ht]; rfl)
    have hact := (slipFrame_eq (s := u) hf).2.1 ht
    refine gives_done hexec ⟨congrArg close hact, fun d c hd hc => ?_⟩
    rw [hact]
    unfold State.takeChunkAck
    rw [hd, hc]
  · have hexec : execChunkNak l p f s = done (u.slipFrame p) := takesFrame_at_turn hturn hf (by rw [ht]; rfl)
    have hact := (slipFrame_eq (s := u) hf).2.2.1 ht
    refine gives_done hexec ⟨congrArg close hact, fun haborted => ?_, fun haborted d hd => ?_⟩
    · rw [close_slip, hact, takeChunkNak_aborted (s := u) haborted, hslip]
    · rw [close_slip, hact]
      exact takeChunkNak_seen (s := u) haborted hd
  · have hexec : execStepAck l p f s = done (u.slipFrame p) := takesFrame_at_turn hturn hf (by rw [ht]; rfl)
    have hact := (slipFrame_eq (s := u) hf).2.2.2 ht
    refine gives_done hexec ⟨congrArg close hact, fun hd hstep hattempt hsent => ?_, fun hd hattempt hnewer => ?_⟩
    · rw [close_slip, hact]
      exact takeStepAck_shadow (s := u) hd hstep hattempt hsent
    · rw [close_slip, hact]
      exact takeStepAck_store (s := u) hd hattempt hnewer
  · have hexec : execDataFrame l p f s = done (u.slipFrame p) := takesFrame_at_turn hturn hf (by rw [ht]; rfl)
    refine gives_done hexec ⟨fun hm => congrArg close ((slipFrame_member hf hm).1 ht),
      fun ho => congrArg close ((slipFrame_outsider hf ho).1 ht), ?_⟩
    rintro ⟨hm, h1, h2, h3, h4, h5⟩
    rw [close_slip, (slipFrame_member hf hm).1 ht, hin _ h1 h2 h3 h4 h5]
    exact ⟨part_cons _ _ _ _ rfl, congrArg (· + 1) h5⟩
  · have hexec : execChunkEnd l p f s = done (u.slipFrame p) := takesFrame_at_turn hturn hf (by rw [ht]; rfl)
    refine gives_done hexec ⟨fun hm => congrArg close ((slipFrame_member hf hm).2.1 ht),
      fun ho => congrArg close ((slipFrame_outsider hf ho).2 ht), ?_, ?_⟩
    · rintro ⟨hm, h1, h2, h3, h4, h5⟩ bytes hgot hsha
      rw [close_slip, (slipFrame_member hf hm).2.1 ht, hin _ h1 h2 h3 h4 h5]
      exact endChunk_matches hgot hsha
    · rintro ⟨hm, h1, h2, h3, h4, h5⟩ hbad
      rw [close_slip, (slipFrame_member hf hm).2.1 ht, hin _ h1 h2 h3 h4 h5]
      exact endChunk_fails hbad
  · have hexec : execStepEnd l p f s = done (u.slipFrame p) := takesFrame_at_turn hturn hf (by rw [ht]; rfl)
    refine gives_done hexec ⟨fun hm => congrArg close ((slipFrame_member hf hm).2.2 ht), ?_⟩
    rintro ⟨hm, h1, h2, h3, h4, h5⟩
    rw [close_slip, (slipFrame_member hf hm).2.2 ht, hin _ h1 h2 h3 h4 h5]
    exact takeStepEnd_slip _ f
  · have hexec : execAbortFrame l p f s = done (u.slipFrame p) := takesFrame_at_turn hturn hf (by rw [ht]; rfl)
    have hact := (slipFrame_eq (s := u) hf).1 ht
    refine gives_done hexec ⟨congrArg close hact, fun h1 h2 h3 h4 h5 => ?_⟩
    rw [close_slip, hact, hin _ h1 h2 h3 h4 h5]
    exact ⟨rfl, rfl, congrArg (· + 1) h5⟩

end Sys2Proof.Machine
end

section
/-! SUPPORT. The flit layer: what a link keeps of its number and of its failure, whatever a failing link brings (R305 to R312). -/

namespace Sys2Proof.Machine

section

/-! Of a link: the number that it expects next, and its state. -/

/-- The number expected next and the state of a link. -/
def Link.turn (x : Link) : Nat × LinkSt := (x.rxNext, x.st)

theorem emit_turn (x : Link) (ftype vl seq : Nat) (payload : List Byte) : (x.emit ftype vl seq payload).turn = x.turn := rfl

theorem emitBare_turn (x : Link) (ftype : Nat) : (x.emitBare ftype).turn = x.turn := rfl

theorem sendCut_turn (x : Link) (vl : Fin 8) : (x.sendCut vl).turn = x.turn := by
  unfold Link.sendCut
  split <;> rfl

theorem beginPacket_turn (x : Link) (vl : Fin 8) (p : Packet) (rest : List Packet) : (x.beginPacket vl p rest).turn = x.turn := by
  unfold Link.beginPacket
  dsimp only
  split <;> rfl

theorem sendOne_turn (x : Link) (vl : Fin 8) : (x.sendOne vl).turn = x.turn := by
  unfold Link.sendOne
  split
  · rfl
  · split
    · exact (sendCut_turn _ _).trans (beginPacket_turn _ _ _ _)
    · exact sendCut_turn _ _

theorem linkFoldl_turn {α : Type} {f : Link → α → Link} (hf : ∀ x a, (f x a).turn = x.turn) (l : List α) (x : Link) :
    (l.foldl f x).turn = x.turn := by
  induction l generalizing x with
  | nil => rfl
  | cons a l ih => exact (ih _).trans (hf x a)

theorem unkeyed_turn (x : Link) : x.unkeyed.turn = x.turn := rfl

/-- A link that has sent on each lane what its credits and its retry buffer let it send. -/
def Link.drained (x : Link) : Link :=
  (allFin 8).foldl (fun l vl =>
    (List.range ((l.cut.get vl).length + 18 * (l.waiting.get vl).length)).foldl (fun l _ => l.sendOne vl) l) x

theorem drained_turn (x : Link) : x.drained.turn = x.turn :=
  linkFoldl_turn (f := fun l vl =>
      (List.range ((l.cut.get vl).length + 18 * (l.waiting.get vl).length)).foldl (fun l _ => l.sendOne vl) l)
    (fun y vl => linkFoldl_turn (f := fun l _ => l.sendOne vl) (fun z _ => sendOne_turn z vl) _ y) _ x

theorem pump_eq (x : Link) :
    x.pump = if x.drained.ends && !(allFin 8).any x.drained.waits then x.drained.unkeyed else x.drained := rfl

theorem pump_turn (x : Link) : x.pump.turn = x.turn := by
  rw [pump_eq]
  split
  · rw [unkeyed_turn, drained_turn]
  · rw [drained_turn]

theorem emitHeld_turn (x : Link) : x.emitHeld.turn = x.turn := by
  unfold Link.emitHeld
  exact linkFoldl_turn (α := HeldFlit) (fun y f => emit_turn y 1 f.vl f.seq f.payload) x.retry x

section
variable {s t u : State}

/-! Of the state's links. -/

theorem link_modLink_ne {l m : Fin 36} (hne : m ≠ l) (s : State) (f : Link → Link) : (s.modLink l f).link m = s.link m := by
  rw [State.link_modLink, if_neg hne]

theorem pumpOn_link_self (s : State) (l : Fin 36) : (s.pumpOn l).link l = (s.link l).pump := by
  unfold State.pumpOn
  extract_lets x y s1
  have h1 : s1.link l = y := State.link_modLink_self s l _
  split
  · exact h1
  · exact h1

theorem pumpOn_link_ne {l m : Fin 36} (hne : m ≠ l) (s : State) : (s.pumpOn l).link m = s.link m := by
  unfold State.pumpOn
  extract_lets x y s1
  have h1 : s1.link m = s.link m := link_modLink_ne hne s _
  split
  · exact h1
  · exact h1

/-- Each link expects the number that it expected, and a FAILED link stays FAILED. -/
def LinksKept (s t : State) : Prop :=
  ∀ m, (t.link m).rxNext = (s.link m).rxNext ∧ ((s.link m).st = .failed → (t.link m).st = .failed)

theorem LinksKept.of_turn (h : ∀ m, (t.link m).turn = (s.link m).turn) : LinksKept s t := fun m =>
  ⟨congrArg Prod.fst (h m), fun hst => (congrArg Prod.snd (h m)).trans hst⟩

theorem linksKept_modLink (s : State) (l : Fin 36) {f : Link → Link} (hf : ∀ x, (f x).turn = x.turn) :
    LinksKept s (s.modLink l f) := .of_turn fun m => by
  rw [State.link_modLink]
  split
  · rename_i hm
    rw [hm, hf]
  · rfl

theorem linksKept_pumpOn (s : State) (l : Fin 36) : LinksKept s (s.pumpOn l) := .of_turn fun m => by
  by_cases hm : m = l
  · rw [hm, pumpOn_link_self, pump_turn]
  · rw [pumpOn_link_ne hm]

theorem linksKept_linksDown (s : State) : LinksKept s s.linksDown := fun m => by
  have hlink : s.linksDown.link m = (s.link m).lower := by
    simp [State.linksDown, State.link, State.modChain]
  rw [hlink]
  exact ⟨rfl, fun hst => if_pos hst⟩

theorem linksKept_trans (a : LinksKept s t) (b : LinksKept t u) : LinksKept s u := fun m =>
  ⟨(b m).1.trans (a m).1, fun hst => (b m).2 ((a m).2 hst)⟩

theorem linksKept_of_links (h : t.links = s.links) : LinksKept s t := .of_turn fun m => by
  unfold State.link
  rw [h]

theorem enqueue_turn (x : Link) (p : Packet) : (x.enqueue p).turn = x.turn := rfl

theorem linksKept_pushOn (s : State) (l : Fin 36) (p : Packet) : LinksKept s (s.pushOn l p) := by
  unfold State.pushOn
  exact linksKept_trans (linksKept_modLink s l fun x => enqueue_turn x p) (linksKept_pumpOn _ l)

theorem carried_linksKept : Carried LinksKept where
  trans := linksKept_trans
  frame h hlinks _ := linksKept_of_links (h .links hlinks)
  slip _ _ _ := linksKept_of_links rfl
  push := linksKept_pushOn
  down := linksKept_linksDown

/-! A link that fails (R305, R310, R311). -/

theorem failLink_failed {l : Fin 36} {event : Nat} (h : (s.link l).st ≠ .failed) :
    LinksKept s (s.failLink l event) ∧ ((s.failLink l event).link l).st = .failed := by
  unfold State.failLink
  extract_lets x pkts s1 s2
  have hfold : LinksKept s2 (pkts.foldl (fun s p => match s.linkFor p.dst p.pseq with
      | some (m, _) => s.pushOn m p
      | none => s) s2) := by
    refine carried_linksKept.foldl (fun u p => ?_) _ _
    split
    · exact carried_linksKept.push u _ p
    · exact carried_linksKept.refl u
  have h1 : LinksKept s s1 := fun m => by
    by_cases hm : m = l
    · rw [hm, State.link_modLink_self]
      exact ⟨rfl, fun hst => absurd hst h⟩
    · rw [link_modLink_ne hm]
      exact ⟨rfl, id⟩
  have hst : (s2.link l).st = .failed := by
    show ((s.modLink l _).link l).st = .failed
    rw [State.link_modLink_self]
  rw [if_neg h]
  exact ⟨linksKept_trans h1 (linksKept_trans (linksKept_of_links rfl) hfold), (hfold l).2 hst⟩

theorem linkFails_failed (s : State) (l : Fin 36) (event : Nat) :
    LinksKept s (s.linkFails l event) ∧ ((s.linkFails l event).link l).st = .failed := by
  unfold State.linkFails
  split
  · rename_i hst
    exact ⟨carried_linksKept.refl s, hst⟩
  · rename_i hst
    obtain ⟨hkept, hfailed⟩ := failLink_failed (event := event) hst
    have hafter := carried_linksKept.afterFail (s.failLink l event)
    have hlow := carried_linksKept.lowered (s.failLink l event).afterFail
    exact ⟨linksKept_trans (linksKept_trans hkept hafter) hlow, (hlow l).2 ((hafter l).2 hfailed)⟩

/-! A DATA flit taken in its turn (R309, R312). -/

theorem linksKept_modSec (s : State) (f : Sec → Sec) : LinksKept s (s.modSec f) := linksKept_of_links rfl

theorem linksKept_beginArrival (s : State) (l : Fin 36) (vl : Fin 8) : LinksKept s (s.beginArrival l vl) := by
  unfold State.beginArrival
  extract_lets x
  split
  · exact carried_linksKept.refl s
  · dsimp only
    split
    · refine linksKept_trans ?_ (linksKept_modSec _ _)
      exact linksKept_modLink s l fun _ => rfl
    · exact linksKept_modLink s l fun _ => rfl

theorem linksKept_tookWhole (s : State) (l : Fin 36) (vl : Fin 8) (p : Packet) (rest : List Byte) :
    LinksKept s (s.tookWhole l vl p rest) := by
  unfold State.tookWhole
  extract_lets keyed
  refine linksKept_modLink s l fun x => ?_
  extract_lets y
  split
  · rfl
  · split
    · rfl
    · rfl

theorem linksKept_assemble (l : Fin 36) (vl : Fin 8) (fuel : Nat) (s : State) : LinksKept s (s.assemble l vl fuel) := by
  induction fuel generalizing s with
  | zero => exact carried_linksKept.refl s
  | succ fuel ih =>
    unfold State.assemble
    split
    · exact linksKept_modLink s l fun _ => rfl
    · extract_lets s1
      have h1 : LinksKept s s1 := linksKept_beginArrival s l vl
      split
      · exact h1
      · split
        · refine linksKept_trans h1 (linksKept_trans ?_ (linkFails_failed _ l 2).1)
          exact linksKept_modLink s1 l fun _ => rfl
        · exact linksKept_trans h1 (linksKept_trans (linksKept_tookWhole s1 l vl _ _) (ih _))

theorem seqBefore_self (n : Nat) : seqBefore n n = false := by
  unfold seqBefore seqAfter
  have hdiff : (n + 16777216 - n % 16777216) % 16777216 = 0 := by omega
  simp [hdiff]

/-- A link that has kept what a flit brought, for a retrain. -/
def Link.remember (x : Link) (vl : Fin 8) (payload : List Byte) (before : Nat) : Link :=
  let t := x.taken ++ [(vl.val, payload, x.arrived.drop before)]
  { x with taken := t.drop (t.length - 1024) }

theorem remember_turn (x : Link) (vl : Fin 8) (payload : List Byte) (before : Nat) : (x.remember vl payload before).turn = x.turn := by
  unfold Link.remember Link.turn
  dsimp only

/-- A link that owes the credits of a lane whose bytes have left. -/
def Link.credit (x : Link) (vl : Fin 8) (n : Nat) : Link :=
  { x with owed := upd x.owed vl (· + (n - x.held vl)) }.emitBare 0

theorem credit_turn (x : Link) (vl : Fin 8) (n : Nat) : (x.credit vl n).turn = x.turn := rfl

/-- What follows once a flit's bytes stand in its lane's buffer. -/
def State.flitKept (s : State) (l : Fin 36) (vl : Fin 8) (payload : List Byte) (before n : Nat) : State :=
  let v := (s.assemble l vl 8).modLink l (·.remember vl payload before)
  if (v.link l).st != .up then v else v.modLink l (·.credit vl n)

theorem linksKept_flitKept (s : State) (l : Fin 36) (vl : Fin 8) (payload : List Byte) (before n : Nat) :
    LinksKept s (s.flitKept l vl payload before n) := by
  unfold State.flitKept
  extract_lets v
  have hv : LinksKept s v := linksKept_trans (linksKept_assemble l vl 8 s)
    (linksKept_modLink _ l fun x => remember_turn x vl payload before)
  split
  · exact hv
  · exact linksKept_trans hv (linksKept_modLink v l fun x => credit_turn x vl n)

/-- A link that takes a flit's bytes in their turn. -/
def Link.takeBytes (x : Link) (vl : Fin 8) (payload : List Byte) : Link :=
  { x with
    rxNext := (x.rxNext + 1) % 2 ^ 24, gap := false, bank := x.bank.add 1 1, again := []
    rx := upd x.rx vl (· ++ payload) }

/-- A DATA flit in its turn, with room in its lane, is taken and numbered. -/
theorem takeData_in_turn {l : Fin 36} {f : Flit} (hseq : f.seq = (s.link l).rxNext)
    (hroom : (s.link l).held (Fin.ofNat 8 f.vl) < (s.link l).allot.get (Fin.ofNat 8 f.vl)) :
    ((s.takeData l f).link l).rxNext = ((s.link l).rxNext + 1) % 2 ^ 24 := by
  have hturn : ¬((f.seq != (s.link l).rxNext ||
      decide ((s.link l).allot.get (Fin.ofNat 8 f.vl) ≤ (s.link l).held (Fin.ofNat 8 f.vl))) = true) := by
    rw [hseq, decide_eq_false (Nat.not_le.2 hroom)]
    simp
  unfold State.takeData
  dsimp only
  rw [if_neg (by rw [hseq, seqBefore_self]; decide)]
  split
  · rw [State.link_modLink_self]
    rfl
  · rw [if_neg hturn]
    generalize (f.payload ++ zeros flitBytes).take flitBytes = payload
    have hkept := linksKept_flitKept (s.modLink l (·.takeBytes (Fin.ofNat 8 f.vl) payload)) l (Fin.ofNat 8 f.vl) payload
      (s.link l).arrived.length ((s.link l).held (Fin.ofNat 8 f.vl) + 1)
    refine (hkept l).1.trans ?_
    rw [State.link_modLink_self]
    rfl

/-! The rows of the flit layer. -/

/-- Of a link, what settles whether a flit is taken in its turn. -/
def Link.flow (x : Link) : LinkSt × Nat × List HeldFlit × Nat × Vector (List Byte) 8 × Vector Nat 8 :=
  (x.st, x.rxNext, x.retry, x.txNext, x.rx, x.allot)

theorem nakOnce_gap (x : Link) : x.nakOnce.gap = true ∧ x.nakOnce.rxNext = x.rxNext := by
  unfold Link.nakOnce
  split
  · rename_i hgap
    exact ⟨hgap, rfl⟩
  · exact ⟨rfl, rfl⟩

theorem badAck_of_flow {x y : Link} (h : x.flow = y.flow) (ack : Nat) : x.badAck ack = y.badAck ack := by
  have hretry : x.retry = y.retry := congrArg (fun z => z.2.2.1) h
  have htx : x.txNext = y.txNext := congrArg (fun z => z.2.2.2.1) h
  unfold Link.badAck Link.oldest
  rw [hretry, htx]

/-- A link that has taken the credits and the ACK of a flit. -/
def Link.credited (x : Link) (vl : Fin 8) (n ack : Nat) : Link := { x with credits := upd x.credits vl (· + n) }.acked ack

theorem credited_flow (x : Link) (vl : Fin 8) (n ack : Nat) : (x.credited vl n ack).rxNext = x.rxNext ∧
    (x.credited vl n ack).rx = x.rx ∧ (x.credited vl n ack).allot = x.allot := ⟨rfl, rfl, rfl⟩

theorem takeFlit_data {l : Fin 36} {f : Flit} (hack : (s.link l).badAck f.ack = false) (htype : f.ftype = 1) :
    s.takeFlit l f =
      (((s.modLink l (·.credited (Fin.ofNat 8 f.creditVl) f.creditCount f.ack)).takeData l f).pumpOn l).lowered := by
  unfold State.takeFlit
  rw [if_neg (by rw [hack]; decide)]
  extract_lets vl s1 s2
  have h2 : s2 = s1.takeData l f := by
    simp only [s2]
    split
    next => rfl
    next h => exact absurd (htype.symm.trans h) (by decide)
    next h => exact absurd (htype.symm.trans h) (by decide)
    next hother _ _ => exact absurd htype hother
  rw [h2]
  rfl

theorem takeFlit_in_turn {l : Fin 36} {f : Flit} (hack : (s.link l).badAck f.ack = false) (htype : f.ftype = 1)
    (hseq : f.seq = (s.link l).rxNext)
    (hroom : (s.link l).held (Fin.ofNat 8 f.vl) < (s.link l).allot.get (Fin.ofNat 8 f.vl)) :
    ((s.takeFlit l f).link l).rxNext = ((s.link l).rxNext + 1) % 2 ^ 24 := by
  rw [takeFlit_data hack htype]
  generalize hs1 : s.modLink l (·.credited (Fin.ofNat 8 f.creditVl) f.creditCount f.ack) = s1
  have hlink : s1.link l = (s.link l).credited (Fin.ofNat 8 f.creditVl) f.creditCount f.ack := by
    rw [← hs1, State.link_modLink_self]
  obtain ⟨hrx, hbytes, hallot⟩ := credited_flow (s.link l) (Fin.ofNat 8 f.creditVl) f.creditCount f.ack
  rw [← hlink] at hrx hbytes hallot
  have hturn : ((s1.takeData l f).link l).rxNext = ((s1.link l).rxNext + 1) % 2 ^ 24 := by
    refine takeData_in_turn (hseq.trans hrx.symm) ?_
    unfold Link.held at hroom ⊢
    rw [hbytes, hallot]
    exact hroom
  have hlow := carried_linksKept.lowered ((s1.takeData l f).pumpOn l)
  rw [(hlow l).1, (linksKept_pumpOn _ l l).1, hturn, hrx]

/-- A flit at a link that is up and whose lanes hold. -/
theorem flitReceive_takes {l : Fin 36} {wire : List Byte} {v : State}
    (hexec : exec (.flitReceive l wire) s =
      if (v.link l).st != .up then done v
      else if (decodeWire wire).bad then done (v.modLink l Link.nakOnce)
      else done (v.takeFlit l (decodeWire wire).flit))
    (hup : (s.link l).st = .up) (hflow : (v.link l).flow = (s.link l).flow) :
    let w := decodeWire wire
    (w.bad = true → Gives (.flitReceive l wire) s (fun t => t = close (v.modLink l Link.nakOnce) ∧
      (t.link l).gap = true ∧ (t.link l).rxNext = (s.link l).rxNext)) ∧
    (w.bad = false → Gives (.flitReceive l wire) s (fun t => t = close (v.takeFlit l w.flit) ∧
      ((s.link l).badAck w.flit.ack = false → w.flit.ftype = 1 → w.flit.seq = (s.link l).rxNext →
        (s.link l).held (Fin.ofNat 8 w.flit.vl) < (s.link l).allot.get (Fin.ofNat 8 w.flit.vl) →
        (t.link l).rxNext = ((s.link l).rxNext + 1) % 2 ^ 24))) := by
  intro w
  have hst : (v.link l).st = .up := (congrArg Prod.fst hflow).trans hup
  have hrx : (v.link l).rxNext = (s.link l).rxNext := congrArg (fun z => z.2.1) hflow
  have hbytes : (v.link l).rx = (s.link l).rx := congrArg (fun z => z.2.2.2.2.1) hflow
  have hallot : (v.link l).allot = (s.link l).allot := congrArg (fun z => z.2.2.2.2.2) hflow
  rw [if_neg (by rw [hst]; decide)] at hexec
  refine ⟨fun hbad => ?_, fun hgood => ?_⟩
  · rw [if_pos hbad] at hexec
    refine gives_done hexec ⟨rfl, ?_⟩
    rw [link_close, State.link_modLink_self, ← hrx]
    exact nakOnce_gap _
  · rw [if_neg (by rw [show (decodeWire wire).bad = false from hgood]; decide)] at hexec
    refine gives_done hexec ⟨rfl, fun hack htype hseq hroom => ?_⟩
    rw [link_close, ← hrx]
    refine takeFlit_in_turn ((badAck_of_flow hflow _).trans hack) htype (hseq.trans hrx.symm) ?_
    unfold Link.held at hroom ⊢
    rw [hbytes, hallot]
    exact hroom

theorem flitReceive_eq {l : Fin 36} {wire : List Byte} {v : State} (hup : (s.link l).st = .up)
    (hv : (match ((s.modLink l (·.heard (decodeWire wire))).link l).failing s.plan.laneLimit with
      | some lane => (s.modLink l (·.heard (decodeWire wire))).spareLane l lane
      | none => s.modLink l (·.heard (decodeWire wire))) = v) :
    exec (.flitReceive l wire) s =
      if (v.link l).st != .up then done v
      else if (decodeWire wire).bad then done (v.modLink l Link.nakOnce)
      else done (v.takeFlit l (decodeWire wire).flit) := by
  show execFlitReceive l wire s = _
  unfold execFlitReceive
  rw [if_neg (by rw [hup]; decide), ← hv]
  rfl

theorem spareLane_used {l : Fin 36} {lane : Nat} (h : (s.link l).spareUsed = true) : s.spareLane l lane = s.linkFails l := by
  unfold State.spareLane State.swapLane
  rw [if_pos h, if_pos h]

/-- A link whose spare has taken a lane's traffic. -/
def Link.spared (x : Link) (lane : Nat) : Link :=
  { x.emitSwap lane with
    spareUsed := true, failedLane := lane, sparedSeen := true
    laneHits := (x.emitSwap lane).laneHits.filter (fun h => h.2 != lane) }

theorem spareLane_free {l : Fin 36} {lane : Nat} (h : (s.link l).spareUsed = false) :
    (s.spareLane l lane).link l = (s.link l).spared lane := by
  have hnew : ¬(((s.modLink l (·.emitSwap lane)).link l).spareUsed = true) := by
    rw [State.link_modLink_self]
    exact ne_true_of_eq_false h
  unfold State.spareLane State.swapLane
  rw [if_neg (show ¬((s.link l).spareUsed = true) by rw [h]; decide)]
  dsimp only
  rw [if_neg hnew]
  show (((s.modLink l _).modLink l _).link l) = _
  rw [State.link_modLink_self, State.link_modLink_self]
  rfl

theorem spared_flow (x : Link) (lane : Nat) : (x.spared lane).flow = x.flow := rfl

theorem retrained_turn (x : Link) : x.retrained.turn = (0, .up) := by
  unfold Link.retrained
  exact emitHeld_turn _

theorem nak_gives {l : Fin 36} {ack : BitVec 24} (hup : (s.link l).st = .up) :
    ((s.link l).badAck ack.toNat = false →
      Gives (.nak l ack) s (fun t => t = close ((((s.modLink l (·.acked ack.toNat)).resendHeld l).pumpOn l).lowered))) ∧
    ((s.link l).badAck ack.toNat = true → Gives (.nak l ack) s (fun t => t = close (s.retrain l))) := by
  have hexec : exec (.nak l ack) s = if (s.link l).badAck ack.toNat then done (s.retrain l)
      else done ((((s.modLink l (·.acked ack.toNat)).resendHeld l).pumpOn l).lowered) := by
    show execNak l ack s = _
    unfold execNak
    rw [if_neg (by rw [hup]; decide)]
  refine ⟨fun hgood => ?_, fun hbad => ?_⟩
  · rw [if_neg (by rw [hgood]; decide)] at hexec
    exact gives_done hexec rfl
  · rw [if_pos hbad] at hexec
    exact gives_done hexec rfl

theorem ackTimeout_gives {l : Fin 36} (hup : (s.link l).st = .up) (hheld : (s.link l).retry ≠ []) :
    Gives (.ackTimeout l) s (fun t => t = close (s.resendHeld l)) := by
  have hexec : execAckTimeout l s = done (s.resendHeld l) := by
    unfold execAckTimeout
    rw [if_neg (by rw [hup]; simpa using hheld)]
  exact gives_done hexec rfl

theorem retrainComplete_exec {l : Fin 36} (hst : (s.link l).st = .retraining) :
    exec (.retrainComplete l) s = done (((s.modLink l Link.retrained).pumpOn l).lowered) := by
  show execRetrainComplete l s = _
  unfold execRetrainComplete
  rw [if_neg (by rw [hst]; decide)]

theorem pumpOn_chain (s : State) (l : Fin 36) : (s.pumpOn l).chain = s.chain := by
  unfold State.pumpOn
  dsimp only
  split <;> rfl

theorem retrainComplete_gives {l : Fin 36} (hst : (s.link l).st = .retraining) (hlow : s.chain.lowering = false) :
    Gives (.retrainComplete l) s (fun t => t = close ((s.modLink l Link.retrained).pumpOn l) ∧
      (t.link l).st = .up ∧ (t.link l).rxNext = 0 ∧ ∀ m, m ≠ l → t.link m = s.link m) := by
  have hexec := retrainComplete_exec hst
  have hstays : ((s.modLink l Link.retrained).pumpOn l).lowered = (s.modLink l Link.retrained).pumpOn l := by
    have hchain : ((s.modLink l Link.retrained).pumpOn l).chain.lowering = false := by
      rw [pumpOn_chain]
      exact hlow
    unfold State.lowered
    exact if_neg (by rw [hchain, Bool.false_and]; decide)
  have hturn : (((s.modLink l Link.retrained).pumpOn l).link l).turn = (0, .up) := by
    rw [pumpOn_link_self, pump_turn, State.link_modLink_self, retrained_turn]
  rw [hstays] at hexec
  have hothers : ∀ m, m ≠ l → ((s.modLink l Link.retrained).pumpOn l).link m = s.link m := fun m hm => by
    rw [pumpOn_link_ne hm, link_modLink_ne hm]
  generalize (s.modLink l Link.retrained).pumpOn l = u at *
  refine gives_done hexec ⟨rfl, ?_, ?_, fun m hm => ?_⟩
  · rw [link_close]
    exact congrArg Prod.snd hturn
  · rw [link_close]
    exact congrArg Prod.fst hturn
  · rw [link_close]
    exact hothers m hm

theorem laneSpare_exec {l : Fin 36} (lane : Fin 8) (hup : (s.link l).st = .up) :
    exec (.laneSpare l lane) s = done (s.spareLane l lane) := by
  show execLaneSpare l lane s = _
  unfold execLaneSpare
  rw [if_neg (by rw [hup]; decide)]

theorem heard_flow (x : Link) (w : WireIn) : (x.heard w).flow = x.flow := rfl

theorem flitReceive_fails {l : Fin 36} {wire : List Byte} {lane : Fin 8} (hup : (s.link l).st = .up)
    (hlane : ((s.modLink l (·.heard (decodeWire wire))).link l).failing s.plan.laneLimit = some lane)
    (hused : (s.link l).spareUsed = true) :
    Gives (.flitReceive l wire) s (fun t => t = close ((s.modLink l (·.heard (decodeWire wire))).linkFails l) ∧
      (t.link l).st = .failed) := by
  generalize hu : s.modLink l (·.heard (decodeWire wire)) = u at *
  have husedU : (u.link l).spareUsed = true := by
    rw [← hu, State.link_modLink_self]
    exact hused
  obtain ⟨_, hfailed⟩ := linkFails_failed u l 1
  have hexec := flitReceive_eq (wire := wire) (v := u.linkFails l) hup (by rw [hu, hlane]; exact spareLane_used husedU)
  rw [if_pos (by rw [hfailed]; decide)] at hexec
  exact gives_done hexec ⟨rfl, by rw [link_close]; exact hfailed⟩

end

end

/-- Settles O38: a flit is taken by `flitReceive_takes`, whether or not a lane is spared first; the other rows one by one. -/
theorem flitLayerRuns : Obligations.FlitLayerRuns := by
  unfold Obligations.FlitLayerRuns
  intro s l
  refine ⟨fun wire hup => ?_, fun ack hup => nak_gives hup, ackTimeout_gives, retrainComplete_gives,
    fun hst _ => gives_done (retrainComplete_exec hst) rfl, fun hst => ?_, fun lane hup hfree => ?_, fun lane hup hused => ?_⟩
  · intro w u takes
    have hheard : u.link l = (s.link l).heard w := State.link_modLink_self s l _
    refine ⟨fun hnone => ?_, fun lane hlane => ⟨fun hfree => ?_, flitReceive_fails hup hlane⟩⟩
    · exact flitReceive_takes (flitReceive_eq hup (by rw [hnone])) hup (by rw [hheard, heard_flow])
    · have hfreeU : (u.link l).spareUsed = false := by
        rw [hheard]
        exact hfree
      exact flitReceive_takes (flitReceive_eq hup (by rw [hlane])) hup
        (by rw [spareLane_free hfreeU, spared_flow, hheard, heard_flow])
  · have hexec : execLinkRetrainFailure l s = done (s.linkFails l) := if_pos (by simpa using hst)
    exact gives_done hexec rfl
  · refine gives_done (laneSpare_exec lane hup) ?_
    rw [link_close, spareLane_free hfree]
    exact ⟨rfl, rfl, rfl, hup⟩
  · rw [← spareLane_used (lane := lane.val) hused]
    exact gives_done (laneSpare_exec lane hup) rfl

end Sys2Proof.Machine
end

section
/-! SUPPORT. Packets between devices: what each does at its turn, and what one out of its turn leaves (R313 to R317). -/

namespace Sys2Proof.Machine

section
variable {s : State} {l : Fin 36} {p : Packet}

/-! At its turn. -/

/-- The effect of a packet is settled by its type. -/
theorem actOf_eq (s : State) (l : Fin 36) (p : Packet) :
    (p.type = 0x01 → s.actOf l p none = s.remoteWrite l p) ∧ (p.type = 0x02 → s.actOf l p none = s.takeWriteAck p) ∧
    (p.type = 0x03 → s.actOf l p none = s.remoteRead l p) ∧ (p.type = 0x04 → s.actOf l p none = s.takeReadData p) ∧
    (p.type = 0x05 → s.actOf l p none = s.takeSignal l p) ∧ (p.type = 0x06 → s.actOf l p none = s.takeError p) ∧
    (p.type = 0x07 → s.actOf l p none = s.peerRead l p) ∧ (p.type = 0x08 → s.actOf l p none = s.peerWrite l p) ∧
    (p.type = 0x09 → s.actOf l p none = s) := by
  refine ⟨?_, ?_, ?_, ?_, ?_, ?_, ?_, ?_, ?_⟩ <;> intro h <;> simp only [State.actOf, h]

/-- The effect of a packet of the fence, of recovery and of membership. -/
theorem actOf_fence (s : State) (l : Fin 36) (p : Packet) :
    (p.type = 0x20 → s.actOf l p none = s.takeReport l p) ∧ (p.type = 0x21 → s.actOf l p none = s.takeClose l p) ∧
    (p.type = 0x22 → s.actOf l p none = s.takeAbandon l p) ∧ (p.type = 0x23 → s.actOf l p none = s.takeMember p) ∧
    (p.type = 0x24 → s.actOf l p none = s.takeGrant p) ∧ (p.type = 0x25 → s.actOf l p none = s.takeDeny p) ∧
    (p.type = 0x30 → s.actOf l p none = s.takeHeartbeat l) := by
  refine ⟨?_, ?_, ?_, ?_, ?_, ?_, ?_⟩ <;> intro h <;> simp only [State.actOf, h]

/-- The row of a packet at its turn. -/
theorem gives_takes {i : Instr} {k : Nat} {x : State} {P : State → Prop} (h : s.InTurn l p k)
    (hexec : exec i s = s.takes l p k) (hact : (s.atTurn l p).actOf l p none = x) (hp : P (close x)) : Gives i s P :=
  gives_done (hexec.trans ((State.takes_at_turn s l p k h).trans (congrArg done hact))) hp

/-- A signal that its vane has room for. -/
theorem takeSignal_fits {u : State} (hroom : (u.chainVanes.get (Fin.ofNat 64 p.addr)).count + p.aux % 65536 ≤ 0xFFFF) :
    u.takeSignal l p = u.signalNow [⟨.chain (Fin.ofNat 64 p.addr), u.self, p.aux % 65536, 6, l, 0, none, some p.src, false⟩] := by
  unfold State.takeSignal
  dsimp only
  rw [decide_eq_false (Nat.not_lt.2 hroom), Bool.and_false, if_neg (by decide)]

theorem signalPacket_gives (h : s.InTurn l p 0x05) :
    let u := s.atTurn l p
    Gives (.signalPacket l p) s (fun t => t = close (u.takeSignal l p).rootJudge ∧
      ((u.chainVanes.get (Fin.ofNat 64 p.addr)).count + p.aux % 65536 ≤ 0xFFFF → t = close (u.signalNow
        [⟨.chain (Fin.ofNat 64 p.addr), u.self, p.aux % 65536, 6, l, 0, none, some p.src, false⟩]).rootJudge)) := by
  intro u
  have hact : u.actOf l p none = u.takeSignal l p := (actOf_eq u l p).2.2.2.2.1 h.2.2.1
  have hexec : execSignalPacket l p s = done (u.takeSignal l p).rootJudge := by
    rw [← hact]
    exact State.takesFence_at_turn s l p 0x05 h
  exact gives_done hexec ⟨rfl, fun hroom => congrArg (fun v : State => close v.rootJudge) (takeSignal_fits hroom)⟩

theorem peerRead_empty (htype : p.type = 0x07) (hempty : p.payload = []) (u : State) :
    u.peerRead l p = (u.readAt (.peer l) p.src p.addr).1.send
      (peerAnswer (u.verdict (.peer l) p.addr false) p (leBytes 4 (u.readAt (.peer l) p.src p.addr).2)) := by
  have hwidth : peerWidth p = true := by
    unfold peerWidth
    rw [hempty, htype]
    rfl
  unfold State.peerRead
  rw [hwidth]
  rfl

theorem peerWrite_word (htype : p.type = 0x08) (hfour : p.payload.length = 4) (u : State) :
    u.peerWrite l p = (u.writeAt (.peer l) p.src p.addr (BitVec.ofNat 32 (ofLe p.payload))).send
      (peerAnswer (u.verdict (.peer l) p.addr true) p []) := by
  have hwidth : peerWidth p = true := by
    unfold peerWidth
    rw [hfour, htype]
    rfl
  unfold State.peerWrite
  rw [hwidth]
  rfl

theorem registerPackets_give (s : State) (l : Fin 36) (p : Packet) :
    let u := s.atTurn l p
    (s.InTurn l p 0x07 → Gives (.peerRegRead l p) s (fun t => t = close (u.peerRead l p) ∧
      (p.payload = [] → t = close ((u.readAt (.peer l) p.src p.addr).1.send
        (peerAnswer (u.verdict (.peer l) p.addr false) p (leBytes 4 (u.readAt (.peer l) p.src p.addr).2)))))) ∧
    (s.InTurn l p 0x08 → Gives (.peerRegWrite l p) s (fun t => t = close (u.peerWrite l p) ∧
      (p.payload.length = 4 → t = close ((u.writeAt (.peer l) p.src p.addr (BitVec.ofNat 32 (ofLe p.payload))).send
        (peerAnswer (u.verdict (.peer l) p.addr true) p []))))) ∧
    (s.InTurn l p 0x09 → Gives (.regResp l p) s (fun t =>
      t = close u ∧ t.chain.rxSeq.head? = some ((p.src, orderLane p.vl), (p.pseq + 1) % 2 ^ 24))) := by
  intro u
  obtain ⟨_, _, _, _, _, _, h7, h8, h9⟩ := actOf_eq u l p
  refine ⟨fun h => ?_, fun h => ?_, fun h => ?_⟩
  · exact gives_takes h (i := .peerRegRead l p) rfl (h7 h.2.2.1)
      ⟨rfl, fun hempty => congrArg close (peerRead_empty h.2.2.1 hempty u)⟩
  · exact gives_takes h (i := .peerRegWrite l p) rfl (h8 h.2.2.1)
      ⟨rfl, fun hfour => congrArg close (peerWrite_word h.2.2.1 hfour u)⟩
  · refine gives_takes h (i := .regResp l p) rfl (h9 h.2.2.1) ⟨rfl, ?_⟩
    rw [close_chain]
    rfl

end

/-- Settles O39: a packet's row is its effect by `actOf_eq`, and the answers and lane-0 signals are read off that effect. -/
theorem packetsTakeEffect : Obligations.PacketsTakeEffect := by
  unfold Obligations.PacketsTakeEffect
  intro s l p u
  obtain ⟨h1, h2, h3, h4, _, h6, _⟩ := actOf_eq u l p
  refine ⟨fun h => ?_, fun h => ?_, fun h => ?_, fun h => ?_, signalPacket_gives, fun h => ?_, registerPackets_give s l p⟩
  · exact gives_takes h (i := .writePacket l p) rfl (h1 h.2.2.1) rfl
  · refine gives_takes h (i := .writeAck l p) rfl (h2 h.2.2.1) ⟨rfl, fun e i x a hack => ?_⟩
    unfold State.takeWriteAck
    rw [hack]
  · exact gives_takes h (i := .readReq l p) rfl (h3 h.2.2.1) rfl
  · refine gives_takes h (i := .readData l p) rfl (h4 h.2.2.1) ⟨rfl, fun e i x a hack => ?_⟩
    unfold State.takeReadData
    rw [hack]
  · exact gives_takes h (i := .errorPacket l p) rfl (h6 h.2.2.1) rfl

end Sys2Proof.Machine
end

section
/-! SUPPORT. A packet in its order, repeated, ahead of its turn, misformed, without a session or of another device (R313 to R317). -/

namespace Sys2Proof.Machine

section
variable {s : State} {l : Fin 36} {p : Packet}

/-- A WRITE packet stands at its link. -/
def State.WriteComes (s : State) (l : Fin 36) (p : Packet) : Prop :=
  (s.link l).st = .up ∧ (s.link l).session = true ∧ p.type = 0x01 ∧ s.isLocal p.dst = true

theorem writePacket_exec (hup : (s.link l).st = .up) (htype : p.type = 0x01) (hlocal : s.isLocal p.dst = true) :
    exec (.writePacket l p) s = done (s.deliverPkt l p none) := by
  have hcomes : s.comes l p 0x01 = true := by simp [State.comes, State.hands, hup, htype, hlocal]
  exact if_pos hcomes

/-- A packet that was authenticated, in the form of its type and from a device that may send it, is taken in order. -/
theorem deliverPkt_inOrder (hsession : (s.link l).session = true) (hok : pktOk p = true) (hpeer : (s.link l).peerStore = false) :
    s.deliverPkt l p none = (s.collected l p).inOrder l p none := by
  unfold State.deliverPkt
  simp [State.authentic, hsession, hok, hpeer]

theorem deliverPkt_discarded (hsession : (s.link l).session = true) (htype : p.type = 0x01)
    (hbad : pktOk p = false ∨ (s.link l).peerStore = true) : s.deliverPkt l p none = (s.collected l p).discarded l := by
  have hmay : storeMay p.type = false := by rw [htype]; rfl
  unfold State.deliverPkt
  rcases hbad with hform | hstore
  · simp [State.authentic, hsession, hform]
  · simp [State.authentic, hsession, hstore, hmay]

theorem deliverPkt_unkeyed (hsession : (s.link l).session = false) (hnew : p ∉ (s.link l).arrived) :
    s.deliverPkt l p none = s.collected l p := by
  unfold State.deliverPkt
  simp [State.authentic, hsession, hnew]

theorem collected_bank (s : State) (l : Fin 36) (p : Packet) : ((s.collected l p).link l).bank = (s.link l).bank := by
  rw [State.collected_link, if_pos rfl]

/-! In order, and ahead of its turn. -/

theorem inOrder_turn (hturn : p.pseq % 2 ^ 24 = s.expected p.src p.vl) :
    s.inOrder l p none = (s.actOn ⟨l, p, none⟩).release p.src p.vl s.chain.heldPkts.length := if_pos hturn

theorem inOrder_ahead (hturn : p.pseq % 2 ^ 24 ≠ s.expected p.src p.vl) (hahead : seqAfter p.pseq (s.expected p.src p.vl) = true) :
    s.inOrder l p none = s.holdPacket ⟨l, p, none⟩ := by
  unfold State.inOrder
  dsimp only
  rw [if_neg hturn, if_pos hahead]

/-- A packet that comes again is counted, and acknowledged again where it asks for that. -/
theorem inOrder_again (htype : p.type = 0x01) (hturn : p.pseq % 2 ^ 24 ≠ s.expected p.src p.vl)
    (hpast : seqAfter p.pseq (s.expected p.src p.vl) = false) :
    let v := s.modLink l (fun x => { x with bank := x.bank.add 10 1 })
    s.inOrder l p none = if p.aux % 2 = 1 then v.send (answerPkt 0x02 0 p []) else v := by
  intro v
  unfold State.inOrder
  dsimp only
  rw [if_neg hturn, if_neg (by rw [hpast]; decide)]
  simp only [htype, decide_true, Bool.true_and, decide_eq_true_eq]
  rfl

theorem holdPacket_holds (s : State) (h : HeldPkt) : (∃ g ∈ (s.holdPacket h).chain.heldPkts, g.pkt = h.pkt) ∧
    (s.holdPacket h).chain.rxSeq = s.chain.rxSeq ∧ OnlyChanges [.links, .chain] s (s.holdPacket h) := by
  unfold State.holdPacket
  split
  · rename_i hany
    obtain ⟨g, hg, heq⟩ := List.any_eq_true.1 hany
    exact ⟨⟨g, hg, by simpa using heq⟩, rfl, (onlyChanges_modLink (by decide)).2 (onlyChanges_refl _ s)⟩
  · exact ⟨⟨h, List.mem_append_right _ (List.mem_singleton.2 rfl), rfl⟩, rfl,
      (onlyChanges_modChain (by decide)).2 (onlyChanges_refl _ s)⟩

theorem holdPacket_again {h : HeldPkt} (hheld : s.chain.heldPkts.any (fun g => g.pkt == h.pkt) = true) :
    s.holdPacket h = s.modLink h.link (fun x => { x with bank := x.bank.add 10 1 }) := if_pos hheld

/-- A packet of another device is sent on where a route leads, and dropped where none does. -/
theorem packetForward_exec (hup : (s.link l).st = .up) (hsession : (s.link l).session = true) (haway : s.isLocal p.dst = false)
    (hok : pktOk p = true) (hmay : (s.link l).peerStore = true → storeMay p.type = true) :
    exec (.packetForward l p) s =
      match (s.collected l p).linkFor (s.addressed p.dst) p.pseq with
      | none => done (s.collected l p)
      | some (m, dateline) =>
        done (((s.collected l p).pushOn m
          { p with dst := s.addressed p.dst, vl := if dateline && p.type = 1 then 7 else p.vl }).modLink l
            (fun x => { x with bank := x.bank.add 11 1 })) := by
  have hhands : s.hands l p = true := by simp [State.hands, hup]
  have hkeyed : s.authentic l p = true := by simp [State.authentic, hsession]
  have hsends : (((s.collected l p).link l).peerStore && !storeMay p.type) = false := by
    rw [State.collected_peerStore]
    cases hp : (s.link l).peerStore with
    | false => rfl
    | true => rw [hmay hp]; rfl
  show execPacketForward l p s = _
  unfold execPacketForward
  rw [hhands, haway, hkeyed]
  dsimp only
  rw [hok, hsends]
  rfl

end

/-- Settles O40: `deliverPkt` by what stands before the order (form, session), `inOrder` by the packet's place in it. -/
theorem packetsKeepTheirOrder : Obligations.PacketsKeepTheirOrder := by
  unfold Obligations.PacketsKeepTheirOrder
  intro s l p u comes meant
  have hheld : u.chain = s.chain := rfl
  have hu : OnlyChanges [.links] s u := (onlyChanges_collected (by decide)).2 (onlyChanges_refl _ s)
  have hexec : ∀ {P : State → Prop}, meant → P (close (u.inOrder l p none)) → Gives (.writePacket l p) s P := by
    rintro P ⟨⟨hup, hsession, htype, hlocal⟩, hok, hpeer⟩ hp
    exact gives_done ((writePacket_exec hup htype hlocal).trans (congrArg done (deliverPkt_inOrder hsession hok hpeer))) hp
  refine ⟨fun hm hturn => ?_, fun hm hturn hahead => ?_, fun hm hturn hahead hagain => ?_, fun hm hturn hpast => ?_, ?_, ?_, ?_⟩
  · refine hexec hm ?_
    rw [inOrder_turn (s := u) hturn, hheld]
  · refine hexec hm ?_
    rw [inOrder_ahead (s := u) hturn hahead]
    obtain ⟨hheld, hrx, hframe⟩ := holdPacket_holds u ⟨l, p, none⟩
    rw [close_chain]
    exact ⟨hheld, hrx, onlyChanges_close.2 ((hu.mono (by decide)).trans hframe)⟩
  · refine hexec hm ?_
    rw [inOrder_ahead (s := u) hturn hahead, holdPacket_again (s := u) (h := ⟨l, p, none⟩) hagain, close_chain, link_close, State.link_modLink_self]
    exact ⟨rfl, congrArg (fun b : Bank 12 => b.add 10 1) (collected_bank s l p)⟩
  · intro v
    refine hexec hm ?_
    have hv : OnlyChanges [.links, .chain, .sec] s v :=
      (onlyChanges_modLink (by decide)).2 (hu.mono (by decide))
    rw [inOrder_again (s := u) hm.1.2.2.1 hturn hpast]
    have hend : OnlyChanges [.links, .chain, .sec] s (if p.aux % 2 = 1 then v.send (answerPkt 0x02 0 p []) else v) ∧
        (if p.aux % 2 = 1 then v.send (answerPkt 0x02 0 p []) else v).chain.rxSeq = s.chain.rxSeq := by
      split
      · exact ⟨(onlyChanges_send (by decide)).2 hv, (chainSends_send v _).field ChainSt.rxSeq fun _ _ => rfl⟩
      · exact ⟨hv, rfl⟩
    refine ⟨by rw [close_chain]; exact hend.2, onlyChanges_close.2 hend.1, rfl, fun heven => ?_⟩
    rw [link_close, if_neg (by rw [heven]; decide), State.link_modLink_self]
    exact congrArg (fun b : Bank 12 => b.add 10 1) (collected_bank s l p)
  · rintro ⟨hup, hsession, htype, hlocal⟩ hbad
    refine gives_done ((writePacket_exec hup htype hlocal).trans (congrArg done (deliverPkt_discarded hsession htype hbad))) ⟨rfl, ?_⟩
    rw [link_close]
    unfold State.discarded
    rw [State.link_modLink_self]
    exact congrArg (fun b : Bank 12 => b.add 9 1) (collected_bank s l p)
  · intro hup hsession hnew htype hlocal
    exact gives_done ((writePacket_exec hup htype hlocal).trans (congrArg done (deliverPkt_unkeyed hsession hnew))) rfl
  · intro hup hsession haway hok hmay
    have hforward := packetForward_exec hup hsession haway hok hmay
    refine ⟨fun m dl hroute => ?_, fun hroute => ?_⟩
    · rw [hroute] at hforward
      exact gives_done hforward rfl
    · rw [hroute] at hforward
      exact gives_done hforward rfl

end Sys2Proof.Machine
end

section
/-! SUPPORT. Fence and recovery packets at their turn (R324, R325, R337 to R340). -/

namespace Sys2Proof.Machine

section
variable {s : State} {l : Fin 36} {p : Packet}

/-! What is left where no report waits for the root's judgement. -/

/-- Of the state, what judging an empty inbox leaves. -/
theorem rootJudge_quiet (h : s.chain.inbox = []) : s.rootJudge = s := by
  rw [rootJudge_of_empty h]
  exact modChain_inbox_nil h

theorem obeyHalt_inbox (s : State) (cause origin : Nat) : (s.obeyHalt cause origin).chain.inbox = s.chain.inbox := by
  unfold State.obeyHalt
  extract_lets s1 s2
  have h1 : s1.chain.inbox = s.chain.inbox := (chainSends_slipAbort s s.chain.attempt).field ChainSt.inbox fun _ _ => rfl
  have h2 : s2.chain.inbox = s1.chain.inbox := by
    have hstop : OnlyChanges [.ctxs, .frozen] (s1.countAbandoned.recoveryRecord 2 cause origin s1.chain.attempt) s2 :=
      (onlyChanges_fatalStop (List.Subset.refl _)).2 (onlyChanges_refl _ _)
    rw [hstop .chain (by decide)]
    show s1.countAbandoned.chain.inbox = s1.chain.inbox
    unfold State.countAbandoned
    split <;> rfl
  have h3 : (s2.stopLinks false).chain.inbox = s2.chain.inbox := by
    unfold State.stopLinks
    split <;> rfl
  clear_value s2
  rw [State.modRst_chain, State.modDev_chain]
  exact h3.trans (h2.trans h1)

theorem chainSends_haltDown (s : State) (q : Packet) : ChainSends s (s.haltDown q) := by
  unfold State.haltDown
  exact chainSends_orderDown _ _ _

theorem chainSends_toChildren (s : State) (q : Packet) : ChainSends s (s.toChildren q) := by
  unfold State.toChildren
  exact chainSends_foldl (fun u m => chainSends_sendOn u m q) _ s

theorem pushOn_evr (s : State) (l : Fin 36) (q : Packet) : (s.pushOn l q).evr = s.evr := by
  unfold State.pushOn State.pumpOn
  dsimp only
  split <;> rfl

theorem sendOn_evr (s : State) (l : Fin 36) (q : Packet) : (s.sendOn l q).evr = s.evr := by
  unfold State.sendOn
  dsimp only
  rw [pushOn_evr]
  rfl

theorem toChildren_evr (s : State) (q : Packet) : (s.toChildren q).evr = s.evr := by
  unfold State.toChildren
  generalize s.chain.children = ls
  induction ls generalizing s with
  | nil => rfl
  | cons m ls ih => rw [List.foldl_cons, ih, sendOn_evr]

theorem toChildren_commitReady (s : State) (q : Packet) : (s.toChildren q).commitReady = s.commitReady := by
  have hnow : (s.toChildren q).dev = s.dev :=
    (onlyChanges_toChildren (B := partsSend) (List.Subset.refl _)).2 (onlyChanges_refl _ s) .dev (by decide)
  have hlast : (s.toChildren q).chain.lastCommit = s.chain.lastCommit :=
    (chainSends_toChildren s q).field ChainSt.lastCommit fun _ _ => rfl
  unfold State.commitReady State.now
  rw [hnow, hlast, toChildren_evr]

/-! The row of a fence packet. -/

theorem gives_takesFence {i : Instr} {k : Nat} {x : State} {P : State → Prop} (h : s.InTurn l p k)
    (hexec : exec i s = s.takesFence l p k) (hact : (s.atTurn l p).actOf l p none = x) (hp : P (close x.rootJudge)) :
    Gives i s P := by
  rw [State.takesFence_at_turn s l p k h, hact] at hexec
  exact gives_done hexec hp

theorem atTurn_inbox (s : State) (l : Fin 36) (p : Packet) : (s.atTurn l p).chain.inbox = s.chain.inbox := rfl

theorem takeAbandon_eq (s : State) (l : Fin 36) (p : Packet) :
    let a := abandonOf p.payload
    (a.action = 0 → s.takeAbandon l p = s.takeUp p a) ∧ (a.action = 1 → s.takeAbandon l p = s.takeRetry p a) ∧
    (a.action = 2 → s.takeAbandon l p = s.takeHalt a) ∧ (a.action = 3 → s.takeAbandon l p = s.takeRetryDone l p a) := by
  intro a
  refine ⟨?_, ?_, ?_, ?_⟩ <;> intro h <;> simp only [State.takeAbandon, a, h]

theorem abandons_iff {k : Nat} : abandons k p = true ↔ (abandonOf p.payload).action = k := by
  unfold abandons
  exact beq_iff_eq

/-! FENCE_REPORT. -/

theorem takeReport_discards (h : s.belongs = false ∨ s.fenceMine p = false) : s.takeReport l p = s.fenceDiscard l := by
  unfold State.takeReport
  exact if_pos (by rcases h with h | h <;> simp [h])

theorem fenceDiscard_chain (s : State) (l : Fin 36) : (s.fenceDiscard l).chain.discarded = (addWrap s.chain.discarded 1).1 ∧
    (s.fenceDiscard l).chain.reports = s.chain.reports ∧ (s.fenceDiscard l).chain.inbox = s.chain.inbox ∧
    (s.fenceDiscard l).step = s.step := ⟨rfl, rfl, rfl, rfl⟩

/-- A device other than the root sends its own report up, and that is all that a report brings about (R324). -/
theorem fenceProgress_member (hroot : s.chain.isRoot = false) : ChainSends s s.fenceProgress := by
  unfold State.fenceProgress
  extract_lets u
  have hu : ChainSends s u := by
    simp only [u]
    split
    · exact chainSends_toParent _ _
    · exact .refl s
  have hready : u.rootReady = false := by
    have hu' : u.chain.isRoot = false := (hu.field ChainSt.isRoot fun _ _ => rfl).trans hroot
    unfold State.rootReady
    rw [hu']
    rfl
  rw [hready, Bool.false_and, if_neg (by decide)]
  exact hu

theorem takeReport_held (hbelongs : s.belongs = true) (hmine : s.fenceMine p = true) (hroot : s.chain.isRoot = false)
    (hchild : s.childLink l p ∈ s.chain.children) (hnot : s.childLink l p ∉ s.chain.retrying) :
    s.childLink l p ∈ (s.takeReport l p).chain.reports ∧ (s.takeReport l p).chain.inbox = s.chain.inbox := by
  unfold State.takeReport
  extract_lets m
  rw [if_neg (by rw [hbelongs, hmine]; decide)]
  split
  · rename_i h
    have hin : s.chain.reports.contains m = true := by
      simpa [m, hnot, hchild] using h
    exact ⟨List.contains_iff_mem.1 hin, rfl⟩
  · have hsends := fenceProgress_member (s := s.modChain (fun c => { c with reports := c.reports ++ [m] })) hroot
    refine ⟨?_, hsends.field ChainSt.inbox fun _ _ => rfl⟩
    rw [hsends.field ChainSt.reports fun _ _ => rfl]
    exact List.mem_append_right _ (List.mem_singleton.2 rfl)

/-! FENCE_CLOSE. -/

theorem takeClose_discards (h : s.trains = false ∨ s.fenceMine p = false) : s.takeClose l p = s.fenceDiscard l := by
  unfold State.takeClose
  exact if_pos (by rcases h with h | h <;> simp [h])

/-- A close that the device learns (R325). -/
theorem takeClose_learns (htrains : s.trains = true) (hmine : s.fenceMine p = true) (hclosing : s.chain.closing = false) :
    s.takeClose l p =
      let u := s.toChildren (s.fencePacket 0x21 p.payload)
      if s.commitReady then u.commit (parseGrants (p.payload.length / 8) p.payload)
      else u.modChain (fun c => { c with closing := true, grants := parseGrants (p.payload.length / 8) p.payload }) := by
  unfold State.takeClose
  rw [if_neg (by rw [htrains, hmine, hclosing]; decide)]
  dsimp only
  rw [toChildren_commitReady]

theorem rootJudge_step (s : State) : s.rootJudge.step = s.step :=
  (onlyChanges_rootJudge (B := partsRetry) (List.Subset.refl _)).2 (onlyChanges_refl _ s) .step (by decide)

/-! The rows. -/

theorem reports_give (s : State) (first : Fin 36 × Packet) (more : List (Fin 36 × Packet)) :
    Gives (.report first more) s (fun t => t = close (((first :: more).filter (fun x => s.comes x.1 x.2 0x22 && abandons 0 x.2)).foldl
      (fun s x => s.deliverPkt x.1 x.2 none) s).rootJudge) := by
  have hexec : exec (.report first more) s = s.takesAll ((first :: more).filter (fun x => s.comes x.1 x.2 0x22 && abandons 0 x.2)) := rfl
  unfold State.takesAll at hexec
  exact ⟨_, hexec, rfl⟩

theorem report_one (h : s.InTurn l p 0x22) (haction : (abandonOf p.payload).action = 0) :
    Gives (.report (l, p) []) s (fun t => t = close ((s.atTurn l p).takeUp p (abandonOf p.payload)).rootJudge) := by
  have hone : ([(l, p)] : List (Fin 36 × Packet)).filter (fun x => s.comes x.1 x.2 0x22 && abandons 0 x.2) = [(l, p)] := by
    rw [List.filter_cons_of_pos]
    · rfl
    · show (s.comes l p 0x22 && abandons 0 p) = true
      rw [State.comes_at_turn s l p 0x22 h, abandons_iff.2 haction]
      rfl
  have hact : s.deliverPkt l p none = (s.atTurn l p).takeUp p (abandonOf p.payload) := by
    rw [State.deliverPkt_at_turn s l p 0x22 none h, (actOf_fence _ l p).2.2.1 h.2.2.1]
    exact (takeAbandon_eq _ l p).1 haction
  have hall := reports_give s (l, p) []
  rw [hone, List.foldl_cons, List.foldl_nil, hact] at hall
  exact hall

theorem abandon_gives {i : Instr} {k : Nat} {P : State → Prop} (h : s.InTurn l p 0x22) (haction : (abandonOf p.payload).action = k)
    (hexec : exec i s = if abandons k p then s.takesFence l p 0x22 else stay s)
    (hp : P (close ((s.atTurn l p).takeAbandon l p).rootJudge)) : Gives i s P := by
  rw [if_pos (abandons_iff.2 haction)] at hexec
  exact gives_takesFence h hexec ((actOf_fence _ l p).2.2.1 h.2.2.1) hp

theorem takeHalt_halts (hrun : s.running = true) (hinbox : s.chain.inbox = []) (a : Abandon) :
    (s.takeHalt a).rootJudge.dev.st = .halted := by
  unfold State.takeHalt
  rw [if_pos hrun]
  have hdown : (s.haltDown (s.abandonPacket 2 a.cause a.origin a.attempt [])).chain.inbox = [] :=
    ((chainSends_haltDown s _).field ChainSt.inbox fun _ _ => rfl).trans hinbox
  rw [rootJudge_quiet ((obeyHalt_inbox _ _ _).trans hdown)]
  exact (obeyHalt_shows _ _ _).1

theorem retryOrder_gives (h : s.InTurn l p 0x22) (haction : (abandonOf p.payload).action = 1) (hrun : s.running = true)
    (hstep : pktStep p = s.step) (hattempt : s.chain.attempt < (abandonOf p.payload).attempt) :
    let u := s.atTurn l p
    let a := abandonOf p.payload
    Gives (.retryOrder l p) s (fun t => t = close ((u.retryDown (u.abandonPacket 1 a.cause a.origin a.attempt a.pairs)
      a.pairs).obeyRetry a.cause a.origin a.attempt a.pairs).rootJudge) := by
  intro u a
  have hact : u.takeAbandon l p = (u.retryDown (u.abandonPacket 1 a.cause a.origin a.attempt a.pairs)
      a.pairs).obeyRetry a.cause a.origin a.attempt a.pairs := by
    rw [(takeAbandon_eq u l p).2.1 haction]
    refine if_pos ?_
    rw [show u.running = true from hrun, beq_iff_eq.2 (show pktStep p = u.step from hstep),
      decide_eq_true (show u.chain.attempt < a.attempt from hattempt)]
    rfl
  exact abandon_gives h haction (show execRetryOrder l p s = _ from rfl) (congrArg (fun v : State => close v.rootJudge) hact)

theorem haltOrder_gives (h : s.InTurn l p 0x22) (haction : (abandonOf p.payload).action = 2) (hrun : s.running = true) :
    let u := s.atTurn l p
    let a := abandonOf p.payload
    Gives (.haltOrder l p) s (fun t =>
      t = close ((u.haltDown (u.abandonPacket 2 a.cause a.origin a.attempt [])).obeyHalt a.cause a.origin).rootJudge ∧
        (s.chain.inbox = [] → t.dev.st = .halted)) := by
  intro u a
  have hact : u.takeAbandon l p = u.takeHalt a := (takeAbandon_eq u l p).2.2.1 haction
  have hhalt : u.takeHalt a = (u.haltDown (u.abandonPacket 2 a.cause a.origin a.attempt [])).obeyHalt a.cause a.origin :=
    if_pos (show u.running = true from hrun)
  refine abandon_gives h haction (show execHaltOrder l p s = _ from rfl) 
    ⟨congrArg (fun v : State => close v.rootJudge) (hact.trans hhalt), fun hinbox => ?_⟩
  rw [close_dev, hact]
  exact takeHalt_halts (s := u) hrun hinbox a

theorem retryDone_gives (h : s.InTurn l p 0x22) (haction : (abandonOf p.payload).action = 3) (hstep : pktStep p = s.step)
    (hattempt : (abandonOf p.payload).attempt = s.chain.attempt) :
    let u := s.atTurn l p
    Gives (.retryDone l p) s (fun t =>
      t = close (u.modChain (fun c => { c with retrying := c.retrying.filter (· != u.childLink l p) })).rootJudge ∧
      (s.chain.inbox = [] → u.childLink l p ∉ t.chain.retrying)) := by
  intro u
  have hact : u.takeAbandon l p = u.modChain (fun c => { c with retrying := c.retrying.filter (· != u.childLink l p) }) := by
    rw [(takeAbandon_eq u l p).2.2.2 haction]
    refine if_pos ?_
    rw [beq_iff_eq.2 (show pktStep p = u.step from hstep), beq_iff_eq.2 (show (abandonOf p.payload).attempt = u.chain.attempt from hattempt)]
    rfl
  refine abandon_gives h haction (show execRetryDone l p s = _ from rfl) ⟨congrArg (fun v : State => close v.rootJudge) hact, fun hinbox => ?_⟩
  rw [close_chain, hact, rootJudge_quiet]
  · intro hin
    simpa using (List.mem_filter.1 hin).2
  · exact hinbox

theorem fenceReport_gives (h : s.InTurn l p 0x20) :
    let u := s.atTurn l p
    Gives (.fenceReport l p) s (fun t => t = close (u.takeReport l p).rootJudge ∧
      (s.chain.inbox = [] → (u.belongs = false ∨ u.fenceMine p = false) →
        t.chain.discarded = (addWrap s.chain.discarded 1).1 ∧ t.chain.reports = s.chain.reports) ∧
      (s.chain.inbox = [] → u.belongs = true → u.fenceMine p = true → s.chain.isRoot = false → u.childLink l p ∈ s.chain.children →
        u.childLink l p ∉ s.chain.retrying → u.childLink l p ∈ t.chain.reports)) := by
  intro u
  refine gives_takesFence h (show execFenceReport l p s = _ from rfl) ((actOf_fence u l p).1 h.2.2.1)
    ⟨rfl, fun hinbox hbad => ?_, fun hinbox hbelongs hmine hroot hchild hnot => ?_⟩
  · obtain ⟨hcount, hreports, hbox, _⟩ := fenceDiscard_chain u l
    rw [close_chain, takeReport_discards hbad, rootJudge_quiet (hbox.trans hinbox)]
    exact ⟨hcount, hreports⟩
  · obtain ⟨hheld, hbox⟩ := takeReport_held (s := u) hbelongs hmine hroot hchild hnot
    rw [close_chain, rootJudge_quiet (hbox.trans hinbox)]
    exact hheld

theorem fenceClose_gives (h : s.InTurn l p 0x21) :
    let u := s.atTurn l p
    Gives (.fenceClose l p) s (fun t => t = close (u.takeClose l p).rootJudge ∧
      (s.chain.inbox = [] → (u.trains = false ∨ u.fenceMine p = false) →
        t.chain.discarded = (addWrap s.chain.discarded 1).1 ∧ t.step = s.step) ∧
      (s.chain.inbox = [] → u.trains = true → u.fenceMine p = true → s.chain.closing = false →
        (u.commitReady = false → t.chain.closing = true ∧ t.chain.grants = parseGrants (p.payload.length / 8) p.payload ∧
          t.step = s.step) ∧
        (u.commitReady = true → t.step = min (s.step + 1) (2 ^ 48 - 1)))) := by
  intro u
  refine gives_takesFence h (show execFenceClose l p s = _ from rfl) ((actOf_fence u l p).2.1 h.2.2.1)
    ⟨rfl, fun hinbox hbad => ?_, fun hinbox htrains hmine hclosing => ?_⟩
  · obtain ⟨hcount, _, hbox, hstep⟩ := fenceDiscard_chain u l
    rw [close_chain, close_step, takeClose_discards hbad, rootJudge_quiet (hbox.trans hinbox)]
    exact ⟨hcount, hstep⟩
  · have hlearn := takeClose_learns (s := u) (l := l) htrains hmine hclosing
    have hdown := chainSends_toChildren u (u.fencePacket 0x21 p.payload)
    have hstep : (u.toChildren (u.fencePacket 0x21 p.payload)).step = s.step :=
      (onlyChanges_toChildren (B := partsSend) (List.Subset.refl _)).2 (onlyChanges_refl _ u) .step (by decide)
    dsimp only at hlearn
    generalize u.toChildren (u.fencePacket 0x21 p.payload) = v at hlearn hdown hstep
    refine ⟨fun hready => ?_, fun hready => ?_⟩
    · rw [hready, if_neg (by decide)] at hlearn
      have hbox : v.chain.inbox = [] := (hdown.field ChainSt.inbox fun _ _ => rfl).trans hinbox
      rw [close_chain, close_step, hlearn, rootJudge_quiet]
      · exact ⟨rfl, rfl, hstep⟩
      · exact hbox
    · rw [hready, if_pos rfl] at hlearn
      rw [close_step, rootJudge_step, hlearn, commit_step, hstep]
      rfl

end

/-- Settles O41: each row is its effect by `takeAbandon_eq` and the lemmas of FENCE_REPORT and FENCE_CLOSE. -/
theorem fencePacketsTakeEffect : Obligations.FencePacketsTakeEffect := by
  unfold Obligations.FencePacketsTakeEffect
  exact ⟨fun s l p => ⟨report_one, retryOrder_gives, haltOrder_gives, retryDone_gives, fenceReport_gives, fenceClose_gives⟩,
    reports_give⟩

end Sys2Proof.Machine
end

section
/-! SUPPORT. Membership packets, and the row of TL_CHAIN_CMD: the first command has its effect, and the other commands of the
handshake are answered STATE_CONFLICT behind it (R32, R320 to R323). -/

namespace Sys2Proof.Machine

section
variable {s : State} {l : Fin 36} {p : Packet}

/-! Membership packets at their turn. -/

/-- The requests of one kind among those of one handshake. -/
theorem requestsOf_one {kind : Nat} (h : s.InTurn l p 0x23) (hkind : p.aux % 4 = kind) : s.requestsOf kind [(l, p)] = [(l, p)] := by
  have hin : (s.comes l p 0x23 && p.aux % 4 == kind) = true := by
    rw [State.comes_at_turn s l p 0x23 h, beq_iff_eq.2 hkind]
    rfl
  unfold State.requestsOf
  rw [List.filter_cons_of_pos (by exact hin)]
  rfl

/-- The requests of one handshake, taken in the order of their devices. -/
def State.takesRequests (s : State) (xs : List (Fin 36 × Packet)) : State :=
  (xs.foldl (fun s x => s.deliverPkt x.1 x.2 none) s).rootJudge

theorem takesRequests_one {kind : Nat} (h : s.InTurn l p 0x23) (hkind : p.aux % 4 = kind) :
    s.takesRequests (s.requestsOf kind [(l, p)]) = ((s.atTurn l p).takeMember p).rootJudge := by
  rw [requestsOf_one h hkind]
  unfold State.takesRequests
  rw [List.foldl_cons, List.foldl_nil, State.deliverPkt_at_turn s l p 0x23 none h, (actOf_fence _ l p).2.2.2.1 h.2.2.1]

theorem takeMember_root {kind : Nat} (hkind : p.aux % 4 = kind) (hrun : s.running = true) (hroot : s.chain.isRoot = true) :
    (kind = 1 ∨ kind = 2 → s.takeMember p = s.holdRequest kind p.addr) ∧ (kind = 3 → s.takeMember p = s.rootTakeover p.addr) := by
  unfold State.takeMember
  rw [hkind, hrun, hroot]
  refine ⟨fun h => ?_, fun h => ?_⟩
  · rcases h with rfl | rfl <;> rfl
  · rw [h]
    rfl

theorem takeMember_passed (hrun : s.running = true) (hroot : s.chain.isRoot = false) :
    s.takeMember p = s.toParent (memberReq (p.aux % 4) p.addr) := by
  unfold State.takeMember
  dsimp only
  rw [if_neg (by rw [hrun]; decide), if_pos (by rw [hroot]; rfl)]

/-- A request of a device is held at the root and passed up elsewhere (R320). -/
theorem memberReq_gives {i : Instr} {kind : Nat} (hexec : exec i s = s.takesAll (s.requestsOf kind [(l, p)]))
    (hone : kind = 1 ∨ kind = 2) (h : s.InTurn l p 0x23) (hkind : p.aux % 4 = kind) (hrun : s.running = true) :
    let u := s.atTurn l p
    (s.chain.isRoot = true → Gives i s (fun t => t = close (u.holdRequest kind p.addr).rootJudge ∧
      (s.chain.inbox = [] → ∃ r, t.chain.requests = s.chain.requests ++ [r] ∧ r.kind = kind ∧ r.dev = p.addr))) ∧
    (s.chain.isRoot = false → Gives i s (fun t => t = close (u.toParent (memberReq kind p.addr)).rootJudge)) := by
  intro u
  have hexec' : exec i s = done (u.takeMember p).rootJudge := hexec.trans (congrArg done (takesRequests_one h hkind))
  refine ⟨fun hroot => ?_, fun hroot => ?_⟩
  · rw [(takeMember_root (s := u) hkind hrun hroot).1 hone] at hexec'
    refine gives_done hexec' ⟨rfl, fun hinbox => ?_⟩
    have hbox : (u.holdRequest kind p.addr).chain.inbox = [] := hinbox
    rw [close_chain, rootJudge_quiet hbox]
    exact ⟨_, rfl, rfl, rfl⟩
  · rw [takeMember_passed (s := u) hrun hroot, hkind] at hexec'
    exact gives_done hexec' rfl

theorem memberReqTakeover_gives (h : s.InTurn l p 0x23) (hkind : p.aux % 4 = 3) (hrun : s.running = true) :
    let u := s.atTurn l p
    (s.chain.isRoot = true → Gives (.memberReqTakeover (l, p) []) s (fun t => t = close (u.rootTakeover p.addr).rootJudge)) ∧
    (s.chain.isRoot = false →
      Gives (.memberReqTakeover (l, p) []) s (fun t => t = close (u.toParent (memberReq 3 p.addr)).rootJudge)) := by
  intro u
  have hexec : execMemberReqTakeover (l, p) [] s = done (u.takeMember p).rootJudge := congrArg done (takesRequests_one h hkind)
  refine ⟨fun hroot => ?_, fun hroot => ?_⟩
  · rw [(takeMember_root (s := u) hkind hrun hroot).2 rfl] at hexec
    exact gives_done hexec rfl
  · rw [takeMember_passed (s := u) hrun hroot, hkind] at hexec
    exact gives_done hexec rfl

theorem memberGrant_gives (h : s.InTurn l p 0x24) :
    let u := s.atTurn l p
    (p.aux % 4 = 3 → s.chain.twin = .lost → Gives (.memberGrant l p) s (fun t => t = close u.takenOver.rootJudge)) ∧
    (p.aux % 4 = 1 → Gives (.memberGrant l p) s (fun t => t = close (u.joins p.payload).rootJudge)) := by
  intro u
  have hrow : ∀ {x : State}, u.takeGrant p = x → Gives (.memberGrant l p) s (fun t => t = close x.rootJudge) := fun hx =>
    gives_takesFence h (show execMemberGrant l p s = _ from rfl) (((actOf_fence u l p).2.2.2.2.1 h.2.2.1).trans hx) rfl
  refine ⟨fun hkind hlost => hrow ?_, fun hkind => hrow ?_⟩
  · simp only [State.takeGrant, hkind]
    exact if_pos hlost
  · simp only [State.takeGrant, hkind]

theorem answerChain_role (s : State) (a : Answer) : (s.answerChain a).chain.role = s.chain.role ∧
    (s.answerChain a).chain.inbox = s.chain.inbox := by
  unfold State.answerChain
  split
  · exact ⟨rfl, rfl⟩
  · exact ⟨rfl, rfl⟩

theorem requestDenied_role (s : State) : (s.chain.role = .joining → (s.requestDenied 1).chain.role = .outside ∧
      (s.requestDenied 1).chain.inbox = s.chain.inbox) ∧
    (s.chain.role = .leaving → (s.requestDenied 2).chain.role = .member ∧ (s.requestDenied 2).chain.inbox = s.chain.inbox) := by
  refine ⟨fun h => ?_, fun h => ?_⟩
  · have heq : s.requestDenied 1 = (s.modChain (fun c => { c with role := .outside })).answerChain .failed := if_pos h
    rw [heq]
    exact answerChain_role _ _
  · have heq : s.requestDenied 2 = (s.modChain (fun c => { c with role := .member, leaveHeld := false })).answerChain .failed :=
      if_pos h
    rw [heq]
    exact answerChain_role _ _

theorem takeDeny_request {kind : Nat} (hkind : p.aux % 4 = kind) (hne : kind ≠ 3) : s.takeDeny p = s.requestDenied kind := by
  unfold State.takeDeny
  rw [hkind, if_neg hne]

theorem memberDeny_gives {P : State → Prop} (h : s.InTurn l p 0x25) (hp : P (close ((s.atTurn l p).takeDeny p).rootJudge)) :
    Gives (.memberDeny l p) s P :=
  gives_takesFence h (show execMemberDeny l p s = _ from rfl) ((actOf_fence _ l p).2.2.2.2.2.1 h.2.2.1) hp

theorem memberDeny_role (h : s.InTurn l p 0x25) (hinbox : s.chain.inbox = []) :
    (p.aux % 4 = 1 → s.chain.role = .joining → Gives (.memberDeny l p) s (fun t => t.chain.role = .outside)) ∧
    (p.aux % 4 = 2 → s.chain.role = .leaving → Gives (.memberDeny l p) s (fun t => t.chain.role = .member)) := by
  refine ⟨fun hkind hrole => memberDeny_gives h ?_, fun hkind hrole => memberDeny_gives h ?_⟩
  · obtain ⟨hout, hbox⟩ := (requestDenied_role (s.atTurn l p)).1 hrole
    rw [takeDeny_request hkind (by decide), close_chain, rootJudge_quiet (hbox.trans hinbox)]
    exact hout
  · obtain ⟨hout, hbox⟩ := (requestDenied_role (s.atTurn l p)).2 hrole
    rw [takeDeny_request hkind (by decide), close_chain, rootJudge_quiet (hbox.trans hinbox)]
    exact hout

end

/-! The row of TL_CHAIN_CMD. -/

section
variable {s t u : State} {p : Path} {rivals : List Rival}

theorem transfer_chain (w : Option Resp) : (s.transfer p w).chain = s.chain := by
  unfold State.transfer
  split <;> rfl

/-- A command of the handshake behind the first. -/
def State.chainRival (s : State) (r : Rival) : State :=
  s.commandWrite r.path chainCmdOffset (fun s => s.chainAnswer r.path r.tag.toNat .conflict s.chain.cmd.busy)

theorem chainRival_chain (s : State) (r : Rival) :
    (s.chainRival r).chain = { s.chain with cmd := s.chain.cmd.answer .conflict r.path r.tag.toNat s.chain.cmd.busy } := by
  unfold State.chainRival State.commandWrite
  rw [transfer_chain]
  rfl

/-- The state after the other commands of a handshake. -/
def State.chainRivals (s : State) (rivals : List Rival) : State := rivals.foldl State.chainRival s

/-- They leave the device's place in the chain and the command that runs. -/
theorem chainRivals_kept (s : State) (rivals : List Rival) : (s.chainRivals rivals).chain.role = s.chain.role ∧
    (s.chainRivals rivals).chain.cmd.running = s.chain.cmd.running := by
  induction rivals generalizing s with
  | nil => exact ⟨rfl, rfl⟩
  | cons r rs ih =>
    obtain ⟨hrole, hrunning⟩ := ih (s.chainRival r)
    have hchain := chainRival_chain s r
    exact ⟨hrole.trans (by rw [hchain]), hrunning.trans (by rw [hchain]; rfl)⟩

theorem showsLast_chainRivals {a : Answer} {tag : Nat} {busy : Bool} (h : s.chain.cmd.Shows a p tag busy) :
    (s.chainRivals rivals).chain.cmd.ShowsLast rivals a p tag busy := by
  induction rivals generalizing s a p tag with
  | nil => exact h
  | cons r rs ih =>
    obtain ⟨-, -, -, hb⟩ := h
    have hr : (s.chainRival r).chain.cmd.Shows .conflict r.path r.tag.toNat busy := by
      rw [chainRival_chain, ← hb]
      exact shows_answer _ _ _ _ _
    have hrs := ih hr
    cases rs with
    | nil => exact hrs
    | cons q qs =>
      unfold CmdStatus.ShowsLast at hrs ⊢
      rw [List.getLast?_cons_cons]
      cases hl : (q :: qs).getLast? with
      | none => simp at hl
      | some x =>
        rw [hl] at hrs
        exact hrs

theorem gives_chainRow {c : Instr} {act : State → State} {P : State → Prop} (hf : rivalsFollow p rivals = true)
    (hr : s.allReach p rivals = true) (hs : s.dev.st ≠ .safe) (hc : exec c s = s.chainRow p rivals act)
    (hP : P (close ((s.commandWrite p chainCmdOffset act).chainRivals rivals))) : Gives c s P := by
  have hrow : s.chainRow p rivals act = done ((s.commandWrite p chainCmdOffset act).chainRivals rivals) := by
    unfold State.chainRow State.commandRow
    rw [if_neg (by rw [hf, hr]; decide), if_neg (by simp [State.silent, hs])]
    rfl
  exact gives_done (hc.trans hrow) hP

/-- In the safe state the block does not answer (R405). -/
theorem gives_chainRow_safe {c : Instr} {act : State → State} (hf : rivalsFollow p rivals = true)
    (hr : s.allReach p rivals = true) (hs : s.dev.st = .safe) (hc : exec c s = s.chainRow p rivals act) :
    Gives c s (OnlyChanges [.ports] s) := by
  have hrow : s.chainRow p rivals act = done (rivals.foldl (fun s r => s.silentWrite r.path) (s.silentWrite p)) := by
    unfold State.chainRow State.commandRow
    rw [if_neg (by rw [hf, hr]; decide), if_pos (by simp [State.silent, hs, chainCmdOffset])]
  have hsilent : ∀ (u : State) q, OnlyChanges [.ports] u (u.silentWrite q) := fun u q => by
    unfold State.silentWrite
    split <;> simp
  exact gives_done (hc.trans hrow)
    (onlyChanges_close.2 ((hsilent s p).trans (onlyChanges_foldl (fun u (r : Rival) => hsilent u r.path) _ _)))

/-! What the first command does. -/

/-- A request for membership leaves the device's place and the command as they are. -/
theorem seekMember_kept (s : State) (kind : Nat) : (s.seekMember kind).chain.role = s.chain.role ∧
    (s.seekMember kind).chain.cmd = s.chain.cmd := by
  have hsent : ∀ {v : State}, ChainSends s v → v.chain.role = s.chain.role ∧ v.chain.cmd = s.chain.cmd := fun h =>
    ⟨h.field ChainSt.role fun _ _ => rfl, h.field ChainSt.cmd fun _ _ => rfl⟩
  unfold State.seekMember State.requestMember
  split
  · exact ⟨rfl, rfl⟩
  · split
    · exact ⟨rfl, rfl⟩
    · split
      · exact hsent (chainSends_send _ _)
      · exact hsent (chainSends_toParent _ _)

/-- The place and the command, and the answer that shows. -/
def ChainShows (t : State) (role : Role) (running : Option (Nat × Path × Nat)) (rivals : List Rival) (a : Answer) (p : Path)
    (tag : Nat) (busy : Bool) : Prop :=
  t.chain.role = role ∧ t.chain.cmd.running = running ∧ t.chain.cmd.ShowsLast rivals a p tag busy

theorem chainShows_close {v : State} {a : Answer} {tag : Nat} {busy : Bool} (hv : v.chain.cmd.Shows a p tag busy) (w : Option Resp) :
    ChainShows (close ((v.transfer p w).chainRivals rivals)) v.chain.role v.chain.cmd.running rivals a p tag busy := by
  have hchain : (v.transfer p w).chain = v.chain := transfer_chain w
  obtain ⟨hrole, hrunning⟩ := chainRivals_kept (v.transfer p w) rivals
  rw [hchain] at hrole hrunning
  unfold ChainShows
  rw [close_chain]
  exact ⟨hrole, hrunning, showsLast_chainRivals (by rw [hchain]; exact hv)⟩

theorem denyReg_chain (p : Path) (off : Nat) : (s.denyReg p off).chain = s.chain := rfl

theorem chainCommand_taken {off kind tag : Nat} {ok : Bool} {role : Role} (hpriv : (s.party p).privileged = true)
    (hbusy : s.chain.cmd.busy = false) (hok : ok = true) :
    (s.chainCommand off kind p tag ok role).chain.cmd.Shows .accepted p tag true ∧
      (s.chainCommand off kind p tag ok role).chain.role = role ∧
      (s.chainCommand off kind p tag ok role).chain.cmd.running = some (kind, p, tag) := by
  unfold State.chainCommand
  dsimp only
  rw [if_neg (by rw [hpriv]; decide), if_neg (by rw [hbusy, hok]; decide)]
  obtain ⟨hrole, hcmd⟩ := seekMember_kept ((s.modChain (fun c =>
    { c with role := role, cmd := { c.cmd with running := some (kind, p, tag) } })).chainAnswer p tag .accepted true) kind
  rw [hrole, hcmd]
  exact ⟨shows_answer _ _ _ _ _, rfl, rfl⟩

theorem chainCommand_refused {off kind tag : Nat} {ok : Bool} {role : Role} (hpriv : (s.party p).privileged = true)
    (h : s.chain.cmd.busy = true ∨ ok = false) :
    s.chainCommand off kind p tag ok role = s.chainAnswer p tag .conflict s.chain.cmd.busy := by
  unfold State.chainCommand
  dsimp only
  rw [if_neg (by rw [hpriv]; decide), if_pos (by rcases h with h | h <;> simp [h])]

theorem chainCommand_denied {off kind tag : Nat} {ok : Bool} {role : Role} (hpriv : (s.party p).privileged = false) :
    s.chainCommand off kind p tag ok role = (s.denyReg p off).chainAnswer p tag .denied s.chain.cmd.busy := by
  unfold State.chainCommand
  dsimp only
  rw [if_pos (by rw [hpriv]; rfl)]

theorem chainAnswer_role (s : State) (p : Path) (tag : Nat) (a : Answer) (busy : Bool) :
    (s.chainAnswer p tag a busy).chain.role = s.chain.role ∧ (s.chainAnswer p tag a busy).chain.cmd.Shows a p tag busy :=
  ⟨rfl, shows_answer _ _ _ _ _⟩

theorem chainAnswer_shows {a : Answer} {tag : Nat} {busy : Bool} (w : Option Resp) :
    let t := close (((s.chainAnswer p tag a busy).transfer p w).chainRivals rivals)
    t.chain.role = s.chain.role ∧ t.chain.cmd.ShowsLast rivals a p tag busy := by
  obtain ⟨hrole, hshows⟩ := chainAnswer_role s p tag a busy
  generalize s.chainAnswer p tag a busy = v at hrole hshows ⊢
  obtain ⟨hkept, _, hlast⟩ := chainShows_close (rivals := rivals) hshows w
  exact ⟨hkept.trans hrole, hlast⟩

/-- ATTACH and DETACH by what stands in their way (R32, R321, R322). -/
theorem chainCommand_gives {c : Instr} {kind : Nat} {tag : BitVec 16} {ok : State → Bool} {role : Role}
    (hf : rivalsFollow p rivals = true) (hr : s.allReach p rivals = true) (hs : s.dev.st ≠ .safe)
    (hok : ok (s.respond p (s.verdict p chainCmdOffset true) []) = ok s)
    (hc : exec c s = s.chainRow p rivals (fun s => s.chainCommand chainCmdOffset kind p tag.toNat (ok s) role)) :
    ((s.party p).privileged = true → s.chain.cmd.busy = false → ok s = true →
      Gives c s (fun t => t.chain.role = role ∧ t.chain.cmd.running = some (kind, p, tag.toNat) ∧
        t.chain.cmd.ShowsLast rivals .accepted p tag.toNat true)) ∧
    ((s.party p).privileged = true → (s.chain.cmd.busy = true ∨ ok s = false) →
      Gives c s (fun t => t.chain.role = s.chain.role ∧
        t.chain.cmd.ShowsLast rivals .conflict p tag.toNat s.chain.cmd.busy)) ∧
    ((s.party p).privileged = false →
      Gives c s (fun t => t.chain.role = s.chain.role ∧
        t.chain.cmd.ShowsLast rivals .denied p tag.toNat s.chain.cmd.busy)) := by
  generalize hs' : s.respond p (s.verdict p chainCmdOffset true) [] = s' at hok
  have hchain : s'.chain = s.chain := by rw [← hs']; rfl
  have hparty : s'.party p = s.party p := by rw [← hs']; rfl
  have hrow : ∀ {P : State → Prop} {v : State}, s'.chainCommand chainCmdOffset kind p tag.toNat (ok s') role = v →
      (∀ w, P (close ((v.transfer p w).chainRivals rivals))) → Gives c s P := fun hv hp =>
    gives_chainRow hf hr hs hc (by
      unfold State.commandWrite
      dsimp only
      rw [hs', hv]
      exact hp _)
  refine ⟨fun hpriv hbusy htrue => ?_, fun hpriv h => ?_, fun hpriv => ?_⟩
  · obtain ⟨hshows, hrole, hrunning⟩ := chainCommand_taken (s := s') (off := chainCmdOffset) (kind := kind) (tag := tag.toNat)
      (role := role) (hparty ▸ hpriv) (by rw [hchain]; exact hbusy) (hok.trans htrue)
    refine hrow rfl fun w => ?_
    obtain ⟨hkept, hstays, hlast⟩ := chainShows_close (rivals := rivals) hshows w
    exact ⟨hkept.trans hrole, hstays.trans hrunning, hlast⟩
  · refine hrow (chainCommand_refused (hparty ▸ hpriv) (by rw [hchain, hok]; exact h)) fun w => ?_
    rw [← hchain]
    exact chainAnswer_shows w
  · refine hrow (chainCommand_denied (hparty ▸ hpriv)) fun w => ?_
    rw [← hchain]
    obtain ⟨hrole, hlast⟩ := chainAnswer_shows (s := s'.denyReg p chainCmdOffset) (rivals := rivals) (p := p) (a := .denied)
      (tag := tag.toNat) (busy := s'.chain.cmd.busy) w
    rw [denyReg_chain] at hrole
    exact ⟨hrole, hlast⟩

theorem mayAttach_respond (s : State) (r : Resp) (bs : List Byte) : (s.respond p r bs).mayAttach = s.mayAttach ∧
    (s.respond p r bs).mayDetach = s.mayDetach := ⟨rfl, rfl⟩

end

/-- Settles O42: membership packets by `takeMember`, `takeGrant` and `takeDeny`, ATTACH and DETACH by `chainCommand_gives`. -/
theorem membershipRuns : Obligations.MembershipRuns := by
  unfold Obligations.MembershipRuns
  refine ⟨fun s l p => ?_, fun s first more => ⟨?_, ?_, ?_⟩, fun s q tag rivals hf hr => ⟨fun hs i hi => ?_, fun hs k hk => ?_⟩⟩
  · intro u
    refine ⟨fun k hk h hkind hrun => ?_, memberReqTakeover_gives, fun h => (memberGrant_gives h).1, fun h => (memberGrant_gives h).2,
      fun h hkind hrole hinbox => (memberDeny_role h hinbox).1 hkind hrole,
      fun h hkind hrole hinbox => (memberDeny_role h hinbox).2 hkind hrole, fun h => memberDeny_gives h rfl⟩
    rcases List.mem_cons.1 hk with rfl | hk
    · exact memberReq_gives (show execMemberReqAttach (l, p) [] s = _ from rfl) (.inl rfl) h hkind hrun
    · rw [List.mem_singleton.1 hk] at hkind ⊢
      exact memberReq_gives (show execMemberReqDetach (l, p) [] s = _ from rfl) (.inr rfl) h hkind hrun
  · exact gives_done (show execMemberReqAttach first more s = done (s.takesRequests _) from rfl) rfl
  · exact gives_done (show execMemberReqDetach first more s = done (s.takesRequests _) from rfl) rfl
  · exact gives_done (show execMemberReqTakeover first more s = done (s.takesRequests _) from rfl) rfl
  · rcases List.mem_cons.1 hi with rfl | hi
    · exact gives_chainRow_safe hf hr hs (show execAttach q ⟨tag, rivals⟩ s = _ from rfl)
    · rw [List.mem_singleton.1 hi]
      exact gives_chainRow_safe hf hr hs (show execDetach q ⟨tag, rivals⟩ s = _ from rfl)
  · rcases List.mem_cons.1 hk with rfl | hk
    · exact chainCommand_gives (ok := State.mayAttach) hf hr hs (mayAttach_respond _ _ _).1
        (show execAttach q ⟨tag, rivals⟩ s = _ from rfl)
    · rw [List.mem_singleton.1 hk]
      exact chainCommand_gives (ok := State.mayDetach) hf hr hs (mayAttach_respond _ _ _).2
        (show execDetach q ⟨tag, rivals⟩ s = _ from rfl)

end Sys2Proof.Machine
end

section
/-! SUPPORT. What time brings on the chain, and the messages of a session handshake (R326 to R329, R338, R339, R373). -/

namespace Sys2Proof.Machine

section
variable {s : State} {l : Fin 36} {p : Packet}

/-! Reports and the settle window. -/

/-- Of a device other than the root, a report changes the numbers of the packets that it sends and no more of the chain's state. -/
theorem reports_member {α : Type} (f : α → Nat) (rs : List α) {u : State} (hroot : u.chain.isRoot = false) :
    ChainSends u (rs.foldl (fun s r => s.report (f r)) u) := by
  induction rs generalizing u with
  | nil => exact .refl u
  | cons r rs ih =>
    have hone : ChainSends u (u.report (f r)) := by
      unfold State.report
      rw [if_neg (by rw [hroot]; decide)]
      exact chainSends_toParent _ _
    exact hone.trans (ih ((hone.field ChainSt.isRoot fun _ _ => rfl).trans hroot))

theorem reportResend_gives :
    let due (r : Nat × Nat) : Bool := decide (r.2 + s.plan.settle ≤ s.now)
    let again := s.chain.myReports.filter due
    let stamped := s.chain.myReports.map (fun r => if due r then (r.1, s.now) else r)
    s.running = true → again ≠ [] →
    Gives .reportResend s (fun t =>
      t = close (again.foldl (fun s r => s.report r.1) (s.modChain (fun c => { c with myReports := stamped }))).rootJudge ∧
      (s.chain.isRoot = false → s.chain.inbox = [] → t.chain.myReports = stamped)) := by
  intro due again stamped hrun hagain
  have hsome : (s.running && !again.isEmpty) = true := by
    rw [hrun]
    simpa using hagain
  have hexec : execReportResend s =
      done ((again.foldl (fun s r => s.report r.1) (s.modChain (fun c => { c with myReports := stamped }))).rootJudge) := if_pos hsome
  refine gives_done hexec ⟨rfl, fun hroot hinbox => ?_⟩
  have hsent := reports_member (fun r : Nat × Nat => r.1) again (u := s.modChain (fun c => { c with myReports := stamped })) hroot
  rw [close_chain, rootJudge_quiet ((hsent.field ChainSt.inbox fun _ _ => rfl).trans hinbox)]
  exact hsent.field ChainSt.myReports fun _ _ => rfl

theorem settleWindow_gives {t0 : Nat} (hopen : s.chain.settleSince = some t0) (hrun : s.running = true) (hroot : s.chain.isRoot = true)
    (hdue : t0 + s.plan.settle ≤ s.now) :
    Gives .settleWindowClose s (fun t => t = close (s.orderRetry s.chain.lastCause s.chain.lastOrigin)) := by
  have hexec : execSettleWindowClose s = done (s.orderRetry s.chain.lastCause s.chain.lastOrigin) := by
    unfold execSettleWindowClose
    rw [hopen]
    exact if_pos (by rw [hrun, hroot, decide_eq_true hdue]; rfl)
  exact gives_done hexec rfl

/-! Heartbeats and the silent twin. -/

/-- A heartbeat on each link of the twin that is up. -/
def State.heartbeats (s : State) : State := s.twinLinksUp.foldl (fun u l => u.sendOn l (mkPkt 0x30 0 0 0 s.heartbeatPayload)) s

theorem heartbeats_kept (s : State) : s.heartbeats.chain.hbSeq = s.chain.hbSeq ∧ s.heartbeats.now = s.now := by
  have hsent : ChainSends s s.heartbeats := chainSends_foldl (fun u m => chainSends_sendOn u m _) _ s
  have hframe : OnlyChanges partsSend s s.heartbeats :=
    onlyChanges_foldl (fun u m => (onlyChanges_sendOn (List.Subset.refl _)).2 (onlyChanges_refl _ u)) _ s
  exact ⟨hsent.field ChainSt.hbSeq fun _ _ => rfl, congrArg (fun d : Dev => d.tick.toNat) (hframe .dev (by decide))⟩

theorem heartbeatSend_gives (hrun : s.running = true) (htwin : s.chain.twin = .paired) (hperiod : s.chain.hbPeriod ≠ 0)
    (hdue : s.chain.hbSent + s.chain.hbPeriod ≤ s.now) :
    Gives .heartbeatSend s (fun t => t.chain.hbSeq = min (s.chain.hbSeq + 1) (2 ^ 48 - 1) ∧ t.chain.hbSent = s.now) := by
  obtain ⟨hseq, hnow⟩ := heartbeats_kept s
  have hexec : execHeartbeatSend s = done (
      let u := s.heartbeats.modChain (fun c => { c with hbSeq := seqNext s.heartbeats.chain.hbSeq, hbSent := s.heartbeats.now })
      if seqNext s.heartbeats.chain.hbSeq = seqMax then u.escalate else u) := by
    unfold execHeartbeatSend
    rw [if_pos (by simp [hrun, htwin, hperiod, hdue])]
    rfl
  refine gives_done hexec ?_
  dsimp only
  generalize s.heartbeats = v at hseq hnow
  rw [close_chain, hseq, hnow]
  split
  · exact ⟨rfl, rfl⟩
  · exact ⟨rfl, rfl⟩

theorem heartbeat_gives (h : s.InTurn l p 0x30) :
    (32 ≤ l.val → Gives (.heartbeat l p) s (fun t => t.chain.hbLast = s.now)) ∧
    (l.val < 32 → Gives (.heartbeat l p) s (fun t => t.chain.hbLast = s.chain.hbLast)) := by
  have hact := (actOf_fence (s.atTurn l p) l p).2.2.2.2.2.2 h.2.2.1
  unfold State.takeHeartbeat at hact
  refine ⟨fun hl => ?_, fun hl => ?_⟩
  · rw [if_neg (Nat.not_lt.2 hl)] at hact
    refine gives_takes h (show execHeartbeat l p s = _ from rfl) hact ?_
    rw [close_chain]
    rfl
  · rw [if_pos hl] at hact
    refine gives_takes h (show execHeartbeat l p s = _ from rfl) hact ?_
    rw [close_chain]
    rfl

theorem twinSilent_gives (hrun : s.running = true) (htwin : s.chain.twin = .paired) (hout : s.chain.role ≠ .outside)
    (hjoin : s.chain.role ≠ .joining) (hperiod : s.chain.hbPeriod ≠ 0)
    (hdue : s.chain.hbLast + s.chain.hbLimit * s.chain.hbPeriod ≤ s.now) :
    Gives .twinSilent s (fun t => t = close (s.arbitrate 8)) := by
  have hexec : execTwinSilent s = done (s.arbitrate 8) := if_pos (by simp [hrun, htwin, hout, hjoin, hperiod, hdue])
  exact gives_done hexec rfl

/-! The session handshake. -/

/-- A message of a session handshake on an UP link is taken by the handshake's own work. -/
theorem takePair_gives {i : Instr} {kind : Nat} {act : State → State} (hexec : exec i s = s.takePair l p kind act)
    (hup : (s.link l).st = .up) (hpair : isPair p.type = true) (hkind : p.aux % 4 = kind) (hok : pktOk p = true)
    (hstore : ¬((s.link l).session = true ∧ (s.link l).peerStore = true)) :
    Gives i s (fun t => t = close (act (
      if twinPort l && kind ≤ 1 then (s.collected l p).modChain (fun c => { c with twinSpoke := true }) else s.collected l p))) := by
  have hmay : ¬((!pktOk p || ((s.collected l p).link l).session && ((s.collected l p).link l).peerStore) = true) := by
    rw [hok, State.collected_session, State.collected_peerStore]
    simpa using hstore
  have hrow : s.takePair l p kind act = done (act (
      if twinPort l && kind ≤ 1 then (s.collected l p).modChain (fun c => { c with twinSpoke := true }) else s.collected l p)) := by
    unfold State.takePair
    rw [if_neg (by simp [hup, hpair, hkind])]
    exact if_neg hmay
  exact gives_done (hexec.trans hrow) rfl

theorem offerPair_twin (s : State) : s.offerPair.settleLinks.chain.twin = s.chain.twin := by
  have hoffer : OnlyChanges [.links, .sec] (s.modChain (fun c => { c with pairSince := s.now })) s.offerPair := by
    unfold State.offerPair
    exact onlyChanges_foldl (fun u m => (onlyChanges_sendHello (List.Subset.refl _)).2 (onlyChanges_refl _ u)) _ _
  have hsettle : OnlyChanges [.dev, .rst] s.offerPair s.offerPair.settleLinks := by
    unfold State.settleLinks
    split
    · exact (onlyChanges_enterPhase (List.Subset.refl _)).2 (onlyChanges_refl _ _)
    · exact onlyChanges_refl _ _
  rw [hsettle .chain (by decide), hoffer .chain (by decide)]
  rfl

theorem pairBound_gives :
    (s.inPhase 6 = true → s.rst.linksBegun = true → s.chain.twin = .pairing → s.chain.twinSpoke = false →
      s.rst.phaseSince + s.chain.pairBound ≤ s.now →
      Gives .pairBoundExpiry s (fun t => t.chain.twin = .unpaired ∧
        t = close ((s.modChain (fun c => { c with twin := .unpaired })).offerPair.settleLinks))) ∧
    (s.running = true → s.chain.twin = .unpaired → s.plan.twin ≠ none → s.chain.pairSince + s.chain.pairBound ≤ s.now →
      Gives .pairBoundExpiry s (fun t => t = close s.offerPair)) := by
  refine ⟨fun hphase hbegun htwin hspoke hdue => ?_, fun hrun htwin hplan hdue => ?_⟩
  · have hexec : execPairBoundExpiry s = done ((s.modChain (fun c => { c with twin := .unpaired })).offerPair.settleLinks) :=
      if_pos (by simp [hphase, hbegun, htwin, hspoke, hdue])
    refine gives_done hexec ⟨?_, rfl⟩
    rw [close_chain]
    exact offerPair_twin _
  · have hexec : execPairBoundExpiry s = done s.offerPair := by
      unfold execPairBoundExpiry
      rw [if_neg (by simp [htwin])]
      exact if_pos (by simp [hrun, htwin, hdue, Option.isSome_iff_ne_none.2 hplan])
    exact gives_done hexec rfl

end

/-- Settles O43: each row by its own lemma; the handshake's messages all by `takePair_gives`. -/
theorem chainTimersAndHandshakes : Obligations.ChainTimersAndHandshakes := by
  unfold Obligations.ChainTimersAndHandshakes
  refine ⟨fun s => ⟨reportResend_gives, fun t0 => settleWindow_gives, heartbeatSend_gives, fun l p => heartbeat_gives,
    twinSilent_gives⟩, fun s l p => ?_⟩
  intro u spoke ready
  refine ⟨?_, ?_, ?_, ?_, pairBound_gives.1, pairBound_gives.2⟩
  · rintro ⟨hup, hpair, hkind, hok, hstore⟩
    have h := takePair_gives (i := .hello l p) (kind := 0) (act := (·.takeHello l p.payload)) rfl hup hpair hkind hok hstore
    simpa [spoke, u] using h
  · rintro ⟨hup, hpair, hkind, hok, hstore⟩
    have h := takePair_gives (i := .reply l p) (kind := 1) (act := (·.takeReply l p.payload)) rfl hup hpair hkind hok hstore
    simpa [spoke, u] using h
  · rintro ⟨hup, hpair, hkind, hok, hstore⟩
    have h := takePair_gives (i := .confirm l p) (kind := 2) (act := (·.takeConfirm l p.payload)) rfl hup hpair hkind hok hstore
    simpa [u] using h
  · rintro ⟨hup, hpair, hkind, hok, hstore⟩
    have h := takePair_gives (i := .finish l p) (kind := 3) (act := (·.takeFinish l p.payload)) rfl hup hpair hkind hok hstore
    simpa [u] using h

end Sys2Proof.Machine
end

section
/-! SUPPORT. A bring-up that fails, and the phases of one that does not (R398 to R406). -/

namespace Sys2Proof.Machine

section
variable {s t v : State}

/-! A failure. -/

/-- The failure of a bring-up that a state holds (R405). -/
def FailureHeld (s : State) (phase code : Nat) (t : State) : Prop :=
  t.rst.failPhase = phase ∧ t.rst.failCode = code ∧ t.rst.fails = min 255 (s.rst.fails + 1) ∧
    ((code = 1 ∨ code = 2) → t.dev.st = .safe ∧ t.dev.phase = phase) ∧
    (code ≠ 1 → code ≠ 2 → t.rst.failedWait = some s.now ∧ t.dev.st = s.dev.st)

/-- A failure that is held and recorded, before the safe state is entered. -/
def State.noteFailure (s : State) (code : Nat) : State :=
  ((s.modRst (fun r =>
      { r with fails := min 255 (r.fails + 1), failPhase := s.dev.phase, failCode := code, failedWait := some s.now })).outcome
    s.dev.phase code).ask 0x10 (s.unit 0xC 0x01 0) (leBytes 1 s.dev.phase ++ leBytes 1 code ++ leBytes 1 (s.failDetail code))

theorem failBringUp_eq (s : State) (code : Nat) :
    s.failBringUp code = if code = 1 || code = 2 then (s.noteFailure code).enterSafe s.dev.phase else s.noteFailure code := rfl

theorem noteFailure_kept (s : State) (code : Nat) : (s.noteFailure code).rst.failPhase = s.dev.phase ∧
    (s.noteFailure code).rst.failCode = code ∧ (s.noteFailure code).rst.fails = min 255 (s.rst.fails + 1) ∧
    (s.noteFailure code).rst.failedWait = some s.now ∧ (s.noteFailure code).dev = s.dev := ⟨rfl, rfl, rfl, rfl, rfl⟩

theorem enterSafe_kept (s : State) (phase : Nat) : (s.enterSafe phase).dev.st = .safe ∧ (s.enterSafe phase).dev.phase = phase ∧
    (s.enterSafe phase).rst = { s.rst with safe := true, failedWait := none } := ⟨rfl, rfl, rfl⟩

theorem failBringUp_held (s : State) (code : Nat) : FailureHeld s s.dev.phase code (s.failBringUp code) := by
  obtain ⟨hphase, hcode, hfails, hwait, hdev⟩ := noteFailure_kept s code
  rw [failBringUp_eq]
  split
  · rename_i h
    obtain ⟨hst, hreached, hrst⟩ := enterSafe_kept (s.noteFailure code) s.dev.phase
    refine ⟨by rw [hrst]; exact hphase, by rw [hrst]; exact hcode, by rw [hrst]; exact hfails, fun _ => ⟨hst, hreached⟩, fun h1 h2 => ?_⟩
    exact absurd h (by simp [h1, h2])
  · rename_i h
    refine ⟨hphase, hcode, hfails, fun hsafe => absurd ?_ h, fun _ _ => ⟨hwait, by rw [hdev]⟩⟩
    rcases hsafe with rfl | rfl <;> rfl

/-- What the failure of a bring-up is read from. -/
def SameBringUp (s v : State) : Prop := v.dev.phase = s.dev.phase ∧ v.dev.st = s.dev.st ∧ v.now = s.now ∧ v.rst.fails = s.rst.fails

theorem failureHeld_close {phase code : Nat} (h : FailureHeld s phase code t) : FailureHeld s phase code (close t) := by
  unfold FailureHeld at h ⊢
  rw [close_dev]
  simpa [close_rst_field t Rst.failPhase fun _ _ => rfl, close_rst_field t Rst.failCode fun _ _ => rfl,
    close_rst_field t Rst.fails fun _ _ => rfl, close_rst_field t Rst.failedWait fun _ _ => rfl] using h

/-- A bring-up that fails from a state that stands as `s` does. -/
theorem failBringUp_holds {phase : Nat} (code : Nat) (h : SameBringUp s v) (hphase : s.dev.phase = phase) :
    FailureHeld s phase code (close (v.failBringUp code)) := by
  obtain ⟨hp, hst, hnow, hfails⟩ := h
  have hheld := failBringUp_held v code
  unfold FailureHeld at hheld
  rw [hp, hphase, hst, hnow, hfails] at hheld
  exact failureHeld_close hheld

theorem gives_failed {i : Instr} {phase code : Nat} (hexec : exec i s = done (v.failBringUp code)) (h : SameBringUp s v)
    (hphase : s.dev.phase = phase) : Gives i s (FailureHeld s phase code) :=
  gives_done hexec (failBringUp_holds code h hphase)

theorem phase_of_inPhase {n : Nat} (h : s.inPhase n = true) : s.dev.phase = n := by
  unfold State.inPhase at h
  simp only [Bool.and_eq_true, beq_iff_eq] at h
  exact h.1.1.2

theorem sameBringUp_refl (s : State) : SameBringUp s s := ⟨rfl, rfl, rfl, rfl⟩

/-! Phases 2 and 3. -/

/-- The state whose fuses were read. -/
def State.fusesRead (s : State) (badCopies : List BadCopy) : State :=
  (s.modSec (fun x => { x with fuses := x.fuses.read badCopies })).readFuses

theorem fusesRead_kept (s : State) (badCopies : List BadCopy) : (s.fusesRead badCopies).rst = s.rst ∧
    (s.fusesRead badCopies).dev.phase = s.dev.phase ∧ (s.fusesRead badCopies).dev.st = s.dev.st ∧
    (s.fusesRead badCopies).dev.tick = s.dev.tick ∧ (s.fusesRead badCopies).sec.fuses = s.sec.fuses.read badCopies :=
  ⟨rfl, rfl, rfl, rfl, rfl⟩

theorem sameBringUp_fusesRead (s : State) (badCopies : List BadCopy) : SameBringUp s (s.fusesRead badCopies) := by
  obtain ⟨hrst, hphase, hst, htick, _⟩ := fusesRead_kept s badCopies
  refine ⟨hphase, hst, ?_, by rw [hrst]⟩
  unfold State.now
  rw [htick]

/-- Phase 2 by what it finds (R396). -/
theorem phase2_exec (env : Phase2Env) (hphase : s.inPhase 2 = true) :
    let v := s.fusesRead env.badCopies
    exec (.phase2 env) s =
      if !(s.sec.fuses.read env.badCopies).readable then done (v.failBringUp 2)
      else if !env.bootRomOk then done (v.failBringUp 1)
      else if !env.entropyOk then done ((v.modSec (fun x => { x with entropyFail := true })).failBringUp 3)
      else
        let u := (v.modSec (fun x => { x with seeded := true })).readySlots env.lostSlots
        done ((u.modHlt (fun h => { h with avs := some (h.startVoltage, u.now) })).enterPhase 3) := by
  intro v
  show execPhase2 env s = _
  unfold execPhase2
  rw [if_neg (by rw [hphase]; decide)]
  rfl

theorem phase2_fails (env : Phase2Env) (hphase : s.inPhase 2 = true) :
    ((s.sec.fuses.read env.badCopies).readable = false → Gives (.phase2 env) s (FailureHeld s 2 2)) ∧
    ((s.sec.fuses.read env.badCopies).readable = true → env.bootRomOk = false → Gives (.phase2 env) s (FailureHeld s 2 1)) ∧
    ((s.sec.fuses.read env.badCopies).readable = true → env.bootRomOk = true → env.entropyOk = false →
      Gives (.phase2 env) s (FailureHeld s 2 3)) := by
  have hexec := phase2_exec env hphase
  have hsame := sameBringUp_fusesRead s env.badCopies
  dsimp only at hexec
  refine ⟨fun hread => ?_, fun hread hrom => ?_, fun hread hrom hentropy => ?_⟩
  · rw [hread, if_pos (by rfl)] at hexec
    exact gives_failed hexec hsame (phase_of_inPhase hphase)
  · rw [hread, hrom, if_neg (by decide), if_pos (by rfl)] at hexec
    exact gives_failed hexec hsame (phase_of_inPhase hphase)
  · rw [hread, hrom, hentropy, if_neg (by decide), if_neg (by decide), if_pos (by rfl)] at hexec
    exact gives_failed hexec hsame (phase_of_inPhase hphase)

/-- The device with its straps latched. -/
def State.strapped (s : State) (straps : Straps) : State :=
  s.modRst (fun r => { r with straps := straps, strapsLatched := true })

/-- Phase 3 by whether it samples the straps (R397). -/
theorem phase3_exec (straps : Straps) (hphase : s.inPhase 3 = true) :
    (s.rst.cur.sources.getLsbD 0 = true ∨ s.rst.strapsLatched = false → exec (.phase3 straps) s =
      if straps.paceSel = 2 then done ((s.strapped straps).failBringUp 4) else done (s.strapped straps).afterPhase3) ∧
    (¬(s.rst.cur.sources.getLsbD 0 = true ∨ s.rst.strapsLatched = false) → exec (.phase3 straps) s =
      if s.rst.straps.paceSel = 2 then done (s.failBringUp 4) else done s.afterPhase3) := by
  have hexec : exec (.phase3 straps) s = execPhase3 straps s := rfl
  rw [hexec]
  unfold execPhase3
  rw [if_neg (by rw [hphase]; decide)]
  refine ⟨fun h => ?_, fun h => ?_⟩
  · have hcond : (s.rst.cur.sources.getLsbD 0 || !s.rst.strapsLatched) = true := by simpa using h
    rw [if_pos hcond]
    rfl
  · have hcond : ¬((s.rst.cur.sources.getLsbD 0 || !s.rst.strapsLatched) = true) := by simpa using h
    rw [if_neg hcond]

theorem phase3_fails (straps : Straps) (hphase : s.inPhase 3 = true)
    (hsamples : s.rst.cur.sources.getLsbD 0 = true ∨ s.rst.strapsLatched = false) (hpace : straps.paceSel = 2) :
    Gives (.phase3 straps) s (FailureHeld s 3 4) := by
  have hexec := (phase3_exec straps hphase).1 hsamples
  rw [if_pos hpace] at hexec
  exact gives_failed hexec ⟨rfl, rfl, rfl, rfl⟩ (phase_of_inPhase hphase)

/-! Phase 4 (R398 to R403). -/

/-- The device that looks for its plan. -/
def State.seekPlan (s : State) : State :=
  (s.modSec (fun x => { x with policy := x.pending })).modRst (fun r =>
    { r with fallback := decide (16 ≤ r.fails), bootSrc := s.rst.source })

theorem sameBringUp_seekPlan (s : State) : SameBringUp s s.seekPlan := ⟨rfl, rfl, rfl, rfl⟩

theorem sameBringUp_endBoot (s : State) : SameBringUp s s.seekPlan.endBoot := ⟨rfl, rfl, rfl, rfl⟩

/-- Phase 4 by the source of the plan. -/
theorem phase4_exec (env : Phase4Env) (hphase : s.inPhase 4 = true) :
    (s.rst.source < 2 → exec (.phase4 env) s =
      match env.memory.bind memoryImage with
      | some image => done (s.seekPlan.checkImage image env.body)
      | none => done (s.seekPlan.failBringUp 5)) ∧
    (s.rst.source = 2 → exec (.phase4 env) s =
      match s.rst.staging with
      | some n => if imageLengthOk n then done (s.seekPlan.checkImage (s.seekPlan.peek (storeBase 0) n) env.body)
        else done (s.seekPlan.failBringUp 5)
      | none => done s.seekPlan) ∧
    (s.rst.source = 3 → exec (.phase4 env) s =
      if s.sec.entropyFail then done (s.seekPlan.failBringUp 3)
      else if !s.rst.linksBegun then done (s.seekPlan.beginBoot env.failedLinks)
      else if s.chain.shardRx.isEmpty then done s.seekPlan
      else if imageLengthOk s.chain.shardRx.length then done (s.seekPlan.endBoot.checkImage s.chain.shardRx env.body)
      else done (s.seekPlan.endBoot.failBringUp 5)) := by
  have hexec : exec (.phase4 env) s = execPhase4 env s := rfl
  rw [hexec]
  unfold execPhase4
  rw [if_neg (by rw [hphase]; decide)]
  dsimp only
  refine ⟨fun hsrc => ?_, fun hsrc => ?_, fun hsrc => ?_⟩
  · split
    next h => exact absurd (show s.rst.source = 2 from h) (by omega)
    next h => exact absurd (show s.rst.source = 3 from h) (by omega)
    next => rfl
  · split
    next => rfl
    next h => exact absurd (show s.rst.source = 3 from h) (by omega)
    next h _ => exact absurd hsrc h
  · split
    next h => exact absurd (show s.rst.source = 2 from h) (by omega)
    next => rfl
    next h => exact absurd hsrc h

/-- An image that fails its seal check. -/
theorem checkImage_fails {image : List Byte} {body : Plan} (h : v.sealCheck image ≠ 0) :
    v.checkImage image body = (v.modSec (fun x => { x with planCheck := v.sealCheck image })).failBringUp 6 := by
  unfold State.checkImage
  split
  · rename_i hz
    exact absurd hz h
  · rename_i n hn
    rw [hn]

theorem failBringUp_sec {code : Nat} (h : ¬((code = 1 || code = 2) = true)) : (s.failBringUp code).sec = s.sec := by
  rw [failBringUp_eq, if_neg h]
  rfl

theorem failBringUp_chain {code : Nat} (h : ¬((code = 1 || code = 2) = true)) : (s.failBringUp code).chain = s.chain := by
  rw [failBringUp_eq, if_neg h]
  rfl

theorem SameBringUp.modSec (h : SameBringUp s v) (f : Sec → Sec) : SameBringUp s (v.modSec f) := by
  obtain ⟨hphase, hst, hnow, hfails⟩ := h
  exact ⟨hphase, hst, hnow, hfails⟩

/-- A plan's image that fails its seal check shows why in the security block (R402). -/
theorem gives_sealFailed {i : Instr} {image : List Byte} {body : Plan} {phase : Nat} (h : SameBringUp s v)
    (hphase : s.dev.phase = phase)
    (hexec : exec i s = done (v.checkImage image body)) (hbad : v.sealCheck image ≠ 0) :
    Gives i s (fun t => FailureHeld s phase 6 t ∧ t.sec.planCheck = v.sealCheck image) := by
  rw [checkImage_fails hbad] at hexec
  generalize v.sealCheck image = n at hexec ⊢
  refine gives_done hexec ⟨failBringUp_holds 6 (h.modSec _) hphase, ?_⟩
  rw [close_sec, failBringUp_sec (by decide)]
  rfl

theorem phase4_fails (env : Phase4Env) (hphase : s.inPhase 4 = true) :
    let u := s.seekPlan
    let seals (image : List Byte) (v : State) : Prop := v.sealCheck image ≠ 0 →
      Gives (.phase4 env) s (fun t => FailureHeld s 4 6 t ∧ t.sec.planCheck = v.sealCheck image)
    (s.rst.source < 2 → env.memory.bind memoryImage = none → Gives (.phase4 env) s (FailureHeld s 4 5)) ∧
    (∀ image, s.rst.source < 2 → env.memory.bind memoryImage = some image → seals image u) ∧
    (∀ n, s.rst.source = 2 → s.rst.staging = some n →
      (imageLengthOk n = false → Gives (.phase4 env) s (FailureHeld s 4 5)) ∧
      (imageLengthOk n = true → seals (u.peek (storeBase 0) n) u)) ∧
    (s.rst.source = 3 → s.sec.entropyFail = true → Gives (.phase4 env) s (FailureHeld s 4 3)) ∧
    (s.rst.source = 3 → s.sec.entropyFail = false → s.rst.linksBegun = true → s.chain.shardRx ≠ [] →
      (imageLengthOk s.chain.shardRx.length = false → Gives (.phase4 env) s (FailureHeld s 4 5)) ∧
      (imageLengthOk s.chain.shardRx.length = true → seals s.chain.shardRx u.endBoot)) := by
  intro u seals
  obtain ⟨hmemory, hhost, htwin⟩ := phase4_exec env hphase
  have hp := phase_of_inPhase hphase
  have hu : SameBringUp s u := sameBringUp_seekPlan s
  refine ⟨fun hsrc hnone => ?_, fun image hsrc hsome hbad => ?_, fun n hsrc hstaged => ⟨fun hlen => ?_, fun hlen hbad => ?_⟩,
    fun hsrc hentropy => ?_, fun hsrc hentropy hbegun hheld => ⟨fun hlen => ?_, fun hlen hbad => ?_⟩⟩
  · have hexec := hmemory hsrc
    rw [hnone] at hexec
    exact gives_failed hexec hu hp
  · have hexec := hmemory hsrc
    rw [hsome] at hexec
    exact gives_sealFailed hu hp hexec hbad
  · have hexec := hhost hsrc
    rw [hstaged] at hexec
    dsimp only at hexec
    rw [hlen, if_neg (by decide)] at hexec
    exact gives_failed hexec hu hp
  · have hexec := hhost hsrc
    rw [hstaged] at hexec
    dsimp only at hexec
    rw [hlen, if_pos rfl] at hexec
    exact gives_sealFailed hu hp hexec hbad
  · have hexec := htwin hsrc
    rw [if_pos hentropy] at hexec
    exact gives_failed hexec hu hp
  · have hexec := htwin hsrc
    rw [hentropy, hbegun, if_neg (by decide), if_neg (by decide), if_neg (by simpa using hheld), hlen, if_neg (by decide)] at hexec
    exact gives_failed hexec (sameBringUp_endBoot s) hp
  · have hexec := htwin hsrc
    rw [hentropy, hbegun, if_neg (by decide), if_neg (by decide), if_neg (by simpa using hheld), hlen, if_pos rfl] at hexec
    exact gives_sealFailed (sameBringUp_endBoot s) hp hexec hbad

/-! Phases 5, 6 and 8, and the bound of a phase. -/

theorem phase5_fails (env : Phase5Env) (hphase : s.inPhase 5 = true) (hentropy : s.sec.entropyFail = true) :
    Gives (.phase5 env) s (FailureHeld s 5 3) := by
  have hexec : execPhase5 env s = done (s.failBringUp 3) := by
    unfold execPhase5
    rw [if_neg (by rw [hphase]; decide), if_pos hentropy]
  exact gives_failed hexec (sameBringUp_refl s) (phase_of_inPhase hphase)

theorem phase6_fails (env : Phase6Env) (hphase : s.inPhase 6 = true) (hbegun : s.rst.linksBegun = false)
    (hentropy : s.sec.entropyFail = true) (hused : s.usedLinks ≠ []) : Gives (.phase6 env) s (FailureHeld s 6 3) := by
  have hexec : execPhase6 env s = done (s.failBringUp 3) := by
    unfold execPhase6
    rw [if_neg (by rw [hphase]; decide), if_neg (by rw [hbegun]; decide), if_pos (by simp [hentropy, hused])]
  exact gives_failed hexec (sameBringUp_refl s) (phase_of_inPhase hphase)

theorem phase8_fails (hphase : s.inPhase 8 = true) {q : Failure} (hq : s.firstFailure = some q) :
    Gives .phase8 s (FailureHeld s 8 9) := by
  have hexec : execPhase8 s = done (({ s with fit := (q.1, q.2.1, q.2.2.1, q.2.2.2, true) } : State).failBringUp 9) := by
    unfold execPhase8
    rw [if_neg (by rw [hphase]; decide), hq]
  exact gives_failed hexec ⟨rfl, rfl, rfl, rfl⟩ (phase_of_inPhase hphase)

theorem phaseBound_fails {b : Nat} (hb : s.phaseBound = some b) (hphase : s.inPhase s.dev.phase = true)
    (hdue : s.rst.phaseSince + b ≤ s.now) : Gives .phaseBoundExpiry s (FailureHeld s s.dev.phase s.boundCode) := by
  have hexec : execPhaseBoundExpiry s = done (s.failBringUp s.boundCode) := by
    unfold execPhaseBoundExpiry
    rw [hb]
    dsimp only
    rw [if_neg (Nat.not_lt.2 hdue), if_pos hphase]
  exact gives_failed hexec (sameBringUp_refl s) rfl

theorem phase1Due_facts {k : Taking} (h : s.phase1Due = some k) : s.rst.taking = some k ∧ s.dev.phase = 1 := by
  unfold State.phase1Due at h
  obtain ⟨htaking, hcond⟩ := Option.filter_eq_some_iff.1 h
  simp only [Bool.and_eq_true, beq_iff_eq] at hcond
  exact ⟨htaking, hcond.1.1.1.1.2⟩

theorem phase1Bound_fails {k : Taking} (hk : s.phase1Due = some k) (hdue : s.rst.phaseSince + 2 ^ 20 ≤ s.now) :
    Gives .phaseBoundExpiry s (fun t => t.rst.failPhase = 1 ∧ t.rst.failCode = 0x0A ∧ t.rst.failedWait = some s.now ∧
      t.rst.cur = k) := by
  obtain ⟨htaking, hone⟩ := phase1Due_facts hk
  have hbound : s.phaseBound = some (2 ^ 20) := by
    simp only [State.phaseBound, hone]
  have hcode : s.boundCode = 0x0A := by
    unfold State.boundCode
    rw [hone]
    rfl
  have hnot : ¬(s.inPhase s.dev.phase = true) := by
    unfold State.inPhase
    simp [htaking]
  have hexec : execPhaseBoundExpiry s = done ((s.countReset k).failBringUp 0x0A) := by
    unfold execPhaseBoundExpiry
    rw [hbound]
    dsimp only
    rw [if_neg (Nat.not_lt.2 hdue), if_neg hnot, hk, hcode]
  refine gives_done hexec ?_
  obtain ⟨hphase, hcode, _, _, hwait⟩ := failureHeld_close (failBringUp_held (s.countReset k) 0x0A)
  refine ⟨hphase.trans hone, hcode, (hwait (by decide) (by decide)).1, ?_⟩
  rw [close_rst_field _ Rst.cur fun _ _ => rfl]
  rfl

/-! Links that train (R304, R327). -/

/-- Each link expects the number that it expected and is in the state that it was in. -/
def TurnsKept (s t : State) : Prop := ∀ m, (t.link m).turn = (s.link m).turn

theorem TurnsKept.trans {u : State} (a : TurnsKept s t) (b : TurnsKept t u) : TurnsKept s u := fun m => (b m).trans (a m)

theorem turnsKept_modLink (s : State) (l : Fin 36) {f : Link → Link} (hf : ∀ x, (f x).turn = x.turn) :
    TurnsKept s (s.modLink l f) := fun m => by
  rw [State.link_modLink]
  split
  · rename_i hm
    rw [hm, hf]
  · rfl

theorem turnsKept_pumpOn (s : State) (l : Fin 36) : TurnsKept s (s.pumpOn l) := fun m => by
  by_cases hm : m = l
  · rw [hm, pumpOn_link_self, pump_turn]
  · rw [pumpOn_link_ne hm]

theorem turnsKept_pushOn (s : State) (l : Fin 36) (p : Packet) : TurnsKept s (s.pushOn l p) := by
  unfold State.pushOn
  exact (turnsKept_modLink s l fun x => enqueue_turn x p).trans (turnsKept_pumpOn _ l)

theorem turnsKept_foldl {α : Type} {f : State → α → State} (hf : ∀ u a, TurnsKept u (f u a)) (l : List α) (s : State) :
    TurnsKept s (l.foldl f s) := by
  induction l generalizing s with
  | nil => exact fun _ => rfl
  | cons a l ih => exact (hf s a).trans (ih _)

theorem turnsKept_sendHello (s : State) (l : Fin 36) (boot : Bool) : TurnsKept s (s.sendHello l boot) := by
  unfold State.sendHello State.pair
  split
  · exact fun _ => rfl
  · extract_lets d m u
    have hu : TurnsKept s u := fun k => by
      have hlink := turnsKept_modLink (s.drew 3) l (f := fun x => { x with hs := ⟨true, 1, m, [], [], boot, d⟩, initiator := true })
        (fun _ => rfl) k
      exact hlink
    exact hu.trans (turnsKept_pushOn u l _)

/-- A link that fails leaves every other link in its state. -/
theorem failLink_other {l m : Fin 36} (hm : m ≠ l) (event : Nat) : ((s.failLink l event).link m).turn = (s.link m).turn := by
  unfold State.failLink
  extract_lets x pkts s1 s2
  split
  · rfl
  · have hfold : TurnsKept s2 (pkts.foldl (fun s p => match s.linkFor p.dst p.pseq with
        | some (k, _) => s.pushOn k p
        | none => s) s2) := by
      refine turnsKept_foldl (fun u p => ?_) _ _
      split
      · exact turnsKept_pushOn u _ p
      · exact fun _ => rfl
    have h2 : s2.link m = s.link m := link_modLink_ne hm s _
    exact (hfold m).trans (by rw [h2])

theorem trainLink_other {env : Phase6Env} {l m : Fin 36} (hm : m ≠ l) : ((s.trainLink env l).link m).turn = (s.link m).turn := by
  unfold State.trainLink
  extract_lets flits peer base u
  have hu : u.link m = s.link m := link_modLink_ne hm s _
  split
  · rw [failLink_other hm, hu]
  · rw [hu]

theorem trainLink_up {env : Phase6Env} {l : Fin 36} (h : env.failedLinks.contains l = false) :
    ((s.trainLink env l).link l).st = .up := by
  unfold State.trainLink
  extract_lets flits peer base u
  rw [if_neg (by rw [h]; decide)]
  show ((s.modLink l _).link l).st = .up
  rw [State.link_modLink_self]

/-- A link in use that does not fail is up when the links have trained. -/
theorem trainLinks_up {env : Phase6Env} {l : Fin 36} (h : env.failedLinks.contains l = false) (ls : List (Fin 36)) (s : State)
    (hl : l ∈ ls ∨ (s.link l).st = .up) : ((ls.foldl (fun s l => s.trainLink env l) s).link l).st = .up := by
  induction ls generalizing s with
  | nil =>
    rcases hl with hl | hl
    · cases hl
    · exact hl
  | cons m ls ih =>
    refine ih _ ?_
    by_cases hm : l = m
    · rw [hm] at h ⊢
      exact .inr (trainLink_up h)
    · rcases hl with hl | hl
      · exact .inl ((List.mem_cons.1 hl).resolve_left hm)
      · exact .inr ((congrArg Prod.snd (trainLink_other hm)).trans hl)

/-- The links of a bring-up as they stand before the twin's side is judged. -/
def State.linksRaised (s : State) (env : Phase6Env) : State :=
  let s := if s.coreBringUp then { s with links := s.links.map Link.rise }
    else s.usedLinks.foldl (fun s l => s.trainLink env l) s
  let s := s.modChain (fun c =>
    { c with
      twin := if s.plan.twin.isSome then .pairing else .unpaired, twinTaken := env.twinTaken && s.plan.twin.isSome
      twinSpoke := false, pairSince := s.now })
  let s := s.modRst (fun r => { r with linksBegun := true })
  (s.usedLinks.filter (fun l => (s.link l).st == .up && s.begins l)).foldl (fun s l => s.sendHello l false) s

theorem beginLinks_eq (s : State) (env : Phase6Env) : s.beginLinks env = (s.linksRaised env).judgeSides env := rfl

theorem failLink_rst (s : State) (l : Fin 36) (event : Nat) : (s.failLink l event).rst = s.rst := by
  unfold State.failLink
  extract_lets x pkts s1 s2
  split
  · rfl
  · refine (foldl_rst (fun u p => ?_) pkts s2).trans rfl
    split
    · exact pushOn_rst _ _ _
    · rfl

theorem trainLink_rst (s : State) (env : Phase6Env) (l : Fin 36) : (s.trainLink env l).rst = s.rst := by
  unfold State.trainLink
  extract_lets flits peer base u
  split
  · exact (failLink_rst u l 1).trans rfl
  · rfl

theorem sendHello_rst (s : State) (l : Fin 36) (boot : Bool) : (s.sendHello l boot).rst = s.rst := by
  unfold State.sendHello State.pair
  split
  · rfl
  · exact (pushOn_rst _ _ _).trans rfl

/-- The links trained, as the first step of a bring-up's phase 6. -/
def State.linksTrained (s : State) (env : Phase6Env) : State :=
  if s.coreBringUp then { s with links := s.links.map Link.rise } else s.usedLinks.foldl (fun s l => s.trainLink env l) s

theorem linksTrained_kept (s : State) (env : Phase6Env) : (s.linksTrained env).rst = s.rst ∧
    OnlyChanges [.links, .sec] s (s.linksTrained env) := by
  unfold State.linksTrained
  split
  · exact ⟨rfl, (onlyChanges_links (by decide)).2 (onlyChanges_refl _ s)⟩
  · exact ⟨foldl_rst (fun u l => trainLink_rst u env l) _ s,
      onlyChanges_foldl (fun u l => (onlyChanges_trainLink (List.Subset.refl _)).2 (onlyChanges_refl _ u)) _ s⟩

/-- The chain's own state when the links begin their handshakes. -/
def State.linksBegin (s : State) (env : Phase6Env) : State :=
  (s.modChain (fun c =>
    { c with
      twin := if s.plan.twin.isSome then .pairing else .unpaired, twinTaken := env.twinTaken && s.plan.twin.isSome
      twinSpoke := false, pairSince := s.now })).modRst (fun r => { r with linksBegun := true })

/-- HELLO on each link whose handshake this end begins. -/
def State.hellos (s : State) : State :=
  (s.usedLinks.filter (fun l => (s.link l).st == .up && s.begins l)).foldl (fun s l => s.sendHello l false) s

theorem linksRaised_eq (s : State) (env : Phase6Env) : s.linksRaised env = ((s.linksTrained env).linksBegin env).hellos := rfl

theorem hellos_kept (s : State) : s.hellos.rst = s.rst ∧ OnlyChanges [.links, .sec] s s.hellos ∧ TurnsKept s s.hellos :=
  ⟨foldl_rst (fun u l => sendHello_rst u l false) _ s,
    onlyChanges_foldl (fun u _ => (onlyChanges_sendHello (List.Subset.refl _)).2 (onlyChanges_refl _ u)) _ s,
    turnsKept_foldl (fun u l => turnsKept_sendHello u l false) _ s⟩

theorem linksRaised_kept (s : State) (env : Phase6Env) : (s.linksRaised env).rst = { s.rst with linksBegun := true } ∧
    (s.linksRaised env).dev = s.dev ∧ (s.linksRaised env).plan = s.plan ∧
    (s.linksRaised env).chain.twin = if s.plan.twin.isSome then .pairing else .unpaired := by
  obtain ⟨hrst, htrained⟩ := linksTrained_kept s env
  obtain ⟨hrst', hhellos, _⟩ := hellos_kept ((s.linksTrained env).linksBegin env)
  have hplan : (s.linksTrained env).plan = s.plan := htrained .plan (by decide)
  rw [linksRaised_eq]
  refine ⟨hrst'.trans ?_, (hhellos .dev (by decide)).trans (htrained .dev (by decide)), (hhellos .plan (by decide)).trans hplan, ?_⟩
  · unfold State.linksBegin
    rw [State.modRst_rst, State.modChain_rst, hrst]
  · rw [hhellos .chain (by decide)]
    unfold State.linksBegin
    rw [State.modRst_chain, State.modChain_chain, hplan]

theorem linksRaised_inPhase {n : Nat} (env : Phase6Env) (h : s.inPhase n = true) : (s.linksRaised env).inPhase n = true := by
  obtain ⟨hrst, hdev, _, _⟩ := linksRaised_kept s env
  unfold State.inPhase at h ⊢
  rw [hrst, hdev]
  exact h

/-- A link of the twin in use that does not fail is up when the handshakes begin. -/
theorem linksRaised_up {env : Phase6Env} {l : Fin 36} (hscope : s.coreBringUp = false) (hused : s.plan.usedLinks.getLsbD l.val = true)
    (hok : env.failedLinks.contains l = false) : ((s.linksRaised env).link l).st = .up := by
  have hl : l ∈ s.usedLinks := List.mem_filter.2 ⟨List.mem_finRange l, hused⟩
  have htrained : ((s.linksTrained env).link l).st = .up := by
    unfold State.linksTrained
    rw [if_neg (by rw [hscope]; decide)]
    exact trainLinks_up hok _ s (.inl hl)
  rw [linksRaised_eq]
  exact (congrArg Prod.snd ((hellos_kept _).2.2 l)).trans htrained

theorem refuseSession_twin {l : Fin 36} (hl : 32 ≤ l.val) (htwin : s.chain.twin = .pairing) (hphase : s.inPhase 6 = true) :
    ∃ v, SameBringUp s v ∧ v.chain.twin = .refused ∧ s.refuseSession l = v.failBringUp 8 := by
  unfold State.refuseSession
  extract_lets u w v
  have hw : w.chain.twin = .pairing := htwin
  have hv : v = w.modChain (fun c => { c with twin := .refused }) := if_neg (by rw [hw]; decide)
  refine ⟨v, ?_, ?_, ?_⟩
  · rw [hv]
    exact ⟨rfl, rfl, rfl, rfl⟩
  · rw [hv]
    rfl
  · rw [if_neg (Nat.not_lt.2 hl)]
    refine if_pos ?_
    rw [hv]
    exact hphase

/-- Two twins of the same side do not pair (R327). -/
theorem judgeSides_refuses {env : Phase6Env} {l : Fin 36} (hl : 32 ≤ l.val) (hup : (s.link l).st = .up)
    (htwin : s.chain.twin = .pairing)
    (hplan : s.plan.twin.isSome = true) (hside : env.sameSide = true) (hphase : s.inPhase 6 = true) :
    ∃ v, SameBringUp s v ∧ v.chain.twin = .refused ∧ s.judgeSides env = v.failBringUp 8 := by
  have hin : l ∈ s.twinLinksUp := List.mem_filter.2 ⟨List.mem_finRange l, by simp [hl, hup]⟩
  unfold State.judgeSides
  split
  · rename_i m ms hms
    have hm : m ∈ s.twinLinksUp := by
      rw [hms]
      exact List.mem_cons_self
    rw [if_pos (by rw [hside, hplan]; rfl)]
    have hm32 : 32 ≤ m.val := by
      have hcond := (List.mem_filter.1 hm).2
      simp only [Bool.and_eq_true, decide_eq_true_eq] at hcond
      exact hcond.1
    exact refuseSession_twin hm32 htwin hphase
  · rename_i hnone
    rw [hnone] at hin
    cases hin

theorem settleLinks_failed (s : State) {code : Nat} (h : ¬((code = 1 || code = 2) = true)) :
    (s.failBringUp code).settleLinks = s.failBringUp code := by
  have hwait : (s.failBringUp code).rst.failedWait = some s.now := by
    rw [failBringUp_eq, if_neg h]
    rfl
  have hnot : (s.failBringUp code).inPhase 6 = false := by
    unfold State.inPhase
    rw [hwait]
    simp
  unfold State.settleLinks
  rw [hnot]
  rfl

theorem sameBringUp_linksRaised (s : State) (env : Phase6Env) : SameBringUp s (s.linksRaised env) := by
  obtain ⟨hrst, hdev, _, _⟩ := linksRaised_kept s env
  refine ⟨by rw [hdev], by rw [hdev], ?_, by rw [hrst]⟩
  unfold State.now
  rw [hdev]

theorem SameBringUp.trans {u : State} (a : SameBringUp s v) (b : SameBringUp v u) : SameBringUp s u := by
  obtain ⟨h1, h2, h3, h4⟩ := a
  obtain ⟨g1, g2, g3, g4⟩ := b
  exact ⟨g1.trans h1, g2.trans h2, g3.trans h3, g4.trans h4⟩

theorem phase6_exec (env : Phase6Env) (hphase : s.inPhase 6 = true) (hbegun : s.rst.linksBegun = false)
    (hentropy : s.sec.entropyFail = false ∨ s.usedLinks = []) : exec (.phase6 env) s = done (s.beginLinks env).settleLinks := by
  show execPhase6 env s = _
  unfold execPhase6
  rw [if_neg (by rw [hphase]; decide), if_neg (by rw [hbegun]; decide), if_neg (by rcases hentropy with h | h <;> simp [h])]

theorem phase6_refuses (env : Phase6Env) (l : Fin 36) (hphase : s.inPhase 6 = true) (hbegun : s.rst.linksBegun = false)
    (hentropy : s.sec.entropyFail = false) (hscope : s.coreBringUp = false) (hplan : s.plan.twin.isSome = true) (hl : 32 ≤ l.val)
    (hused : s.plan.usedLinks.getLsbD l.val = true) (hok : env.failedLinks.contains l = false) (hside : env.sameSide = true) :
    Gives (.phase6 env) s (fun t => FailureHeld s 6 8 t ∧ t.chain.twin = .refused) := by
  obtain ⟨_, _, hkept, htwin⟩ := linksRaised_kept s env
  rw [hplan, if_pos rfl] at htwin
  obtain ⟨v, hsame, hrefused, hjudge⟩ := judgeSides_refuses hl (linksRaised_up hscope hused hok) htwin (by rw [hkept]; exact hplan)
    hside (linksRaised_inPhase env hphase)
  have hexec := phase6_exec env hphase hbegun (.inl hentropy)
  rw [beginLinks_eq, hjudge, settleLinks_failed v (by decide)] at hexec
  refine gives_done hexec ⟨failBringUp_holds 8 ((sameBringUp_linksRaised s env).trans hsame) (phase_of_inPhase hphase), ?_⟩
  rw [close_chain, failBringUp_chain (by decide)]
  exact hrefused

end

/-- Settles O52: each failure is `failBringUp` from a state that stands as the one before the command does. -/
theorem bringUpFailuresAreHeld : Obligations.BringUpFailuresAreHeld := by
  unfold Obligations.BringUpFailuresAreHeld
  intro s failed
  refine ⟨fun env hphase => (phase2_fails env hphase).1, fun env hphase => (phase2_fails env hphase).2.1,
    fun env hphase => (phase2_fails env hphase).2.2, phase3_fails, phase4_fails, phase5_fails, phase6_fails, phase6_refuses,
    fun hphase q => phase8_fails hphase, fun b => phaseBound_fails, fun k => phase1Bound_fails⟩

end Sys2Proof.Machine
end

section
/-! SUPPORT. The phases of a bring-up in which nothing fails (R395 to R404). -/

namespace Sys2Proof.Machine

section
variable {s t v : State}

/-! Phase 1. -/

/-- Of the reset state, what reading the keep store leaves: a word that is lost can only take failures away. -/
def ResetStands (a b : Rst) : Prop := b.count = a.count ∧ b.cause = a.cause ∧ b.safe = a.safe ∧ b.fails ≤ a.fails

theorem ResetStands.refl (a : Rst) : ResetStands a a := ⟨rfl, rfl, rfl, le_refl _⟩

theorem ResetStands.trans {a b c : Rst} (h : ResetStands a b) (h' : ResetStands b c) : ResetStands a c := by
  obtain ⟨h1, h2, h3, h4⟩ := h
  obtain ⟨g1, g2, g3, g4⟩ := h'
  exact ⟨g1.trans h1, g2.trans h2, g3.trans h3, g4.trans h4⟩

theorem dropWord_stands (r : Rst) (o : Nat) : ResetStands r (r.dropWord o) := by
  unfold Rst.dropWord
  split
  · exact ⟨rfl, rfl, rfl, Nat.zero_le _⟩
  · split
    · exact .refl r
    · exact ⟨rfl, rfl, rfl, le_refl _⟩

theorem dropKeep_stands (s : State) (w : Nat) : ResetStands s.rst (s.dropKeep w).rst := by
  have hsame : ResetStands s.rst s.rst := .refl s.rst
  unfold State.dropKeep
  split
  · split
    · exact hsame
    · exact hsame
  · split
    · rw [State.modHlt_rst]
      exact hsame
    · rw [State.modRst_rst]
      exact dropWord_stands s.rst _

theorem dropKeeps_stand (ws : List Nat) (s : State) : ResetStands s.rst (ws.foldl State.dropKeep s).rst := by
  induction ws generalizing s with
  | nil => exact .refl _
  | cons w ws ih => exact (dropKeep_stands s w).trans (ih _)

theorem keepErrors_rst (s : State) (n : Nat) : (s.keepErrors n).rst = s.rst := by
  unfold State.keepErrors
  split
  · rfl
  · exact (foldl_rst (f := fun s _ => s.ask 0x30 (s.unit 0xC 0x03 0) []) (fun _ _ => rfl) _ _).trans rfl

theorem readKeep_stands (s : State) (fixed lost : List Nat) : ResetStands s.rst (s.readKeep fixed lost).rst := by
  unfold State.readKeep
  have hkeep := dropKeeps_stand lost ((s.keepErrors lost.length).modHlt (fun h => { h with bank := h.bank.add 4 fixed.length }))
  rw [State.modHlt_rst, keepErrors_rst] at hkeep
  exact hkeep

/-- The state of a device whose reset was counted, before the bring-up goes on. -/
def Counted (s : State) (k : Taking) (v : State) : Prop :=
  v.dev = s.dev ∧ v.sec = s.sec ∧ v.rst.cur = k ∧ v.rst.lastSource = k.source ∧
    v.rst.count = min (s.rst.count + 1) 0xFFFFFFFF ∧ v.rst.cause = s.rst.cause ||| k.sources ∧
    v.rst.safe = (s.rst.safe && !k.sources.getLsbD 0) ∧ (s.rst.fails < 32 → v.rst.fails < 32)

theorem countReset_counted {u : State} (k : Taking) (hframe : OnlyChanges [.rst, .hlt] s u) (hstands : ResetStands s.rst u.rst) :
    Counted s k (u.countReset k) := by
  obtain ⟨hcount, hcause, hsafe, hfails⟩ := hstands
  refine ⟨hframe .dev (by decide), hframe .sec (by decide), rfl, rfl, ?_, ?_, ?_, fun h => ?_⟩
  · rw [← hcount]
    rfl
  · rw [← hcause]
    rfl
  · rw [← hsafe]
    rfl
  · show (if k.sources.getLsbD 0 then 0 else u.rst.fails) < 32
    split <;> omega

/-- Phase 1 where the backup domain holds. -/
theorem phase1_exec {env : Phase1Env} {k : Taking} (hk : s.phase1Due = some k) (hbackup : env.backupOk = true) :
    ∃ v, Counted s k v ∧ exec (.phase1 env) s = done v.afterPhase1 := by
  have hexec : exec (.phase1 env) s = execPhase1 env s := rfl
  rw [hexec]
  unfold execPhase1
  rw [hk]
  dsimp only
  rw [if_pos hbackup]
  generalize hu : (s.modEvr (fun e => e.cutShort (if k.sources.getLsbD 0 then env.flushCut else []))).readKeep env.fixedWords
    env.lostWords = u
  have hframe : OnlyChanges [.rst, .hlt] s u := by
    rw [← hu]
    exact (onlyChanges_readKeep (List.Subset.refl _)).2 (onlyChanges_modEvr.2 (onlyChanges_refl _ s))
  have hstands : ResetStands s.rst u.rst := by
    rw [← hu]
    exact readKeep_stands (s.modEvr _) _ _
  have hcounted := countReset_counted k hframe hstands
  generalize u.countReset k = w at hcounted ⊢
  refine ⟨_, ?_, rfl⟩
  split
  · exact hcounted
  · split
    · exact hcounted
    · exact hcounted

/-- Where the bring-up goes from phase 1, of a device that is not safe. -/
theorem afterPhase1_cases (hsafe : v.rst.safe = false) (hfails : v.rst.fails < 32) :
    (v.coreBringUp = false ∨ v.sec.zeroiseFlag = true → v.afterPhase1 = v.enterPhase 2) ∧
    (v.coreBringUp = true → v.sec.zeroiseFlag = false → v.unlocked = true →
      v.afterPhase1 = v.modDev (fun d => { d with st := .halted })) ∧
    (v.coreBringUp = true → v.sec.zeroiseFlag = false → v.unlocked = false → v.afterPhase1 = v.enterPhase 5) := by
  unfold State.afterPhase1
  rw [if_neg (by rw [hsafe]; decide), if_neg (Nat.not_le.2 hfails)]
  refine ⟨fun h => if_pos (by rcases h with h | h <;> simp [h]), fun hcore hzero hopen => ?_, fun hcore hzero hopen => ?_⟩
  · rw [if_neg (by rw [hcore, hzero]; decide), if_pos hopen]
  · rw [if_neg (by rw [hcore, hzero]; decide), if_neg (by rw [hopen]; decide)]

theorem enterPhase_kept (v : State) (n : Nat) : (v.enterPhase n).dev.st = .bringUp ∧ (v.enterPhase n).dev.phase = n ∧
    (v.enterPhase n).rst = { v.rst with phaseSince := v.now, linksBegun := false } ∧ (v.enterPhase n).sec = v.sec :=
  ⟨rfl, rfl, rfl, rfl⟩

/-- Phase 1 of a device that is not in the safe state (R395). -/
theorem phase1_leads {env : Phase1Env} {k : Taking} (hk : s.phase1Due = some k) (hbackup : env.backupOk = true)
    (hsafe : s.rst.safe = false) (hfails : s.rst.fails < 32) :
    (k.scope ≠ .core → Gives (.phase1 env) s (fun t =>
      t.dev.st = .bringUp ∧ t.dev.phase = 2 ∧ t.rst.cur = k ∧ t.rst.lastSource = k.source ∧
        t.rst.count = min (s.rst.count + 1) 0xFFFFFFFF ∧ t.rst.cause = s.rst.cause ||| k.sources)) ∧
    (k.scope = .core → s.sec.zeroiseFlag = false →
      (s.unlocked = false → Gives (.phase1 env) s (fun t => t.dev.st = .bringUp ∧ t.dev.phase = 5 ∧ t.rst.cur = k)) ∧
      (s.unlocked = true → Gives (.phase1 env) s (fun t => t.dev.st = .halted ∧ t.rst.cur = k))) := by
  obtain ⟨v, ⟨hdev, hsec, hcur, hsource, hcount, hcause, hvsafe, hvfails⟩, hexec⟩ := phase1_exec hk hbackup
  obtain ⟨hcold, hopen, hshut⟩ := afterPhase1_cases (v := v) (by rw [hvsafe, hsafe]; rfl) (hvfails hfails)
  have hunlocked : v.unlocked = s.unlocked := by
    unfold State.unlocked
    rw [hsec]
  refine ⟨fun hscope => gives_done hexec ?_, fun hscope hzero => ?_⟩
  · have hcore : v.coreBringUp = false := by
      unfold State.coreBringUp
      rw [hcur]
      exact beq_eq_false_iff_ne.2 hscope
    simp only [hcold (.inl hcore), close_dev, close_cur, close_lastSource, close_count, close_cause]
    exact ⟨rfl, rfl, hcur, hsource, hcount, hcause⟩
  · have hcore : v.coreBringUp = true := by
      unfold State.coreBringUp
      rw [hcur]
      exact beq_iff_eq.2 hscope
    have hvzero : v.sec.zeroiseFlag = false := by rw [hsec, hzero]
    refine ⟨fun hlocked => gives_done hexec ?_, fun hlocked => gives_done hexec ?_⟩
    · simp only [hshut hcore hvzero (hunlocked.trans hlocked), close_dev, close_cur]
      exact ⟨rfl, rfl, hcur⟩
    · simp only [hopen hcore hvzero (hunlocked.trans hlocked), close_dev, close_cur]
      exact ⟨rfl, hcur⟩

/-- Phase 1 of a device that stays in the safe state. -/
theorem phase1_safe {env : Phase1Env} {k : Taking} (hk : s.phase1Due = some k) (hbackup : env.backupOk = true)
    (hsafe : s.rst.safe = true) (hpower : k.sources.getLsbD 0 = false) :
    Gives (.phase1 env) s (fun t => t.dev.st = .bringUp ∧ t.dev.phase = 2 ∧ t.rst.safe = true) := by
  obtain ⟨v, hcounted, hexec⟩ := phase1_exec hk hbackup
  obtain ⟨_, _, _, _, _, _, hvsafe, _⟩ := hcounted
  have hstays : v.rst.safe = true := by rw [hvsafe, hsafe, hpower]; rfl
  refine gives_done hexec ?_
  have hafter : v.afterPhase1 = v.enterPhase 2 := by
    unfold State.afterPhase1
    rw [if_pos hstays]
  simp only [hafter, close_dev, close_safe]
  exact ⟨rfl, rfl, hstays⟩

/-! Phases 2 and 3. -/

theorem seeded_foldl {α : Type} {f : State → α → State} (hf : ∀ u a, (f u a).sec.seeded = u.sec.seeded) (xs : List α)
    (u : State) : (xs.foldl f u).sec.seeded = u.sec.seeded := by
  induction xs generalizing u with
  | nil => rfl
  | cons x xs ih => exact (ih _).trans (hf u x)

theorem unseal_seeded (s : State) (lost : List (Fin 16)) : (s.unseal lost).sec.seeded = s.sec.seeded := by
  unfold State.unseal
  dsimp only
  refine (seeded_foldl ?_ _ _).trans ?_
  · exact fun _ _ => rfl
  show (s.keepErrors lost.length).sec.seeded = _
  unfold State.keepErrors
  split
  · rfl
  · exact seeded_foldl (f := fun s _ => s.ask 0x30 (s.unit 0xC 0x03 0) []) (fun _ _ => rfl) _ _

theorem readySlots_seeded (s : State) (lost : List (Fin 16)) : (s.readySlots lost).sec.seeded = s.sec.seeded := by
  unfold State.readySlots
  split
  · rfl
  · exact unseal_seeded s lost

/-- Phase 2 where the fuses, the boot ROM and the noise source are good (R396, R397). -/
theorem phase2_leads {env : Phase2Env} (hphase : s.inPhase 2 = true)
    (hfuses : (s.sec.fuses.read env.badCopies).readable = true) (hrom : env.bootRomOk = true) (hnoise : env.entropyOk = true) :
    Gives (.phase2 env) s (fun t => t.dev.phase = 3 ∧ t.sec.seeded = true ∧ ∃ v, t.hlt.avs = some (v, s.now)) := by
  have hexec := phase2_exec env hphase
  dsimp only at hexec
  rw [if_neg (by rw [hfuses]; decide), if_neg (by rw [hrom]; decide), if_neg (by rw [hnoise]; decide)] at hexec
  obtain ⟨-, -, -, htick, -⟩ := fusesRead_kept s env.badCopies
  generalize s.fusesRead env.badCopies = w at hexec htick
  generalize hu : (w.modSec (fun x => { x with seeded := true })).readySlots env.lostSlots = u at hexec
  have hseeded : u.sec.seeded = true := by rw [← hu, readySlots_seeded]; rfl
  have hnow : u.dev.tick = s.dev.tick := by
    have hframe := (onlyChanges_readySlots (lost := env.lostSlots) (List.Subset.refl _)).2
      (onlyChanges_refl _ (w.modSec (fun x => { x with seeded := true })))
    rw [hu] at hframe
    rw [show u.dev = w.dev from hframe .dev (by decide)]
    exact htick
  refine gives_done hexec ?_
  rw [close_dev, close_sec, close_hlt]
  refine ⟨rfl, hseeded, u.hlt.startVoltage, ?_⟩
  show some (u.hlt.startVoltage, u.now) = some (u.hlt.startVoltage, s.now)
  unfold State.now
  rw [hnow]

/-- Where phase 3 leads from the state `v` that has the straps (R398, R414). -/
theorem afterPhase3_leads (v : State) :
    (v.rst.safe = true → v.afterPhase3.dev.st = .safe) ∧
    (v.rst.safe = false → v.sec.zeroiseFlag = true → v.afterPhase3.dev.st = .bringUp ∧ v.afterPhase3.dev.phase = 5) ∧
    (v.rst.safe = false → v.sec.zeroiseFlag = false → v.unlocked = true → v.afterPhase3.dev.st = .halted) ∧
    (v.rst.safe = false → v.sec.zeroiseFlag = false → v.unlocked = false →
      v.afterPhase3.dev.st = .bringUp ∧ v.afterPhase3.dev.phase = 4) := by
  unfold State.afterPhase3
  refine ⟨fun h => ?_, fun h hzero => ?_, fun h hzero hopen => ?_, fun h hzero hopen => ?_⟩
  · rw [if_pos h]
    rfl
  · rw [if_neg (by rw [h]; decide), if_pos hzero]
    exact ⟨rfl, rfl⟩
  · rw [if_neg (by rw [h]; decide), if_neg (by rw [hzero]; decide), if_pos hopen]
    rfl
  · rw [if_neg (by rw [h]; decide), if_neg (by rw [hzero]; decide), if_neg (by rw [hopen]; decide)]
    exact ⟨rfl, rfl⟩

theorem afterPhase3_straps (v : State) : v.afterPhase3.rst.straps = v.rst.straps ∧
    v.afterPhase3.rst.strapsLatched = v.rst.strapsLatched := by
  unfold State.afterPhase3
  split
  · exact ⟨rfl, rfl⟩
  · split
    · exact ⟨rfl, rfl⟩
    · split
      · exact ⟨rfl, rfl⟩
      · exact ⟨rfl, rfl⟩

theorem phase3_from {straps : Straps} (hexec : exec (.phase3 straps) s = done v.afterPhase3) (hsafe : v.rst.safe = s.rst.safe)
    (hsec : v.sec = s.sec) {P : Straps → Bool → Prop} (hstraps : P v.rst.straps v.rst.strapsLatched) :
    Gives (.phase3 straps) s (fun t => P t.rst.straps t.rst.strapsLatched ∧
      (s.rst.safe = true → t.dev.st = .safe) ∧
      (s.rst.safe = false → s.sec.zeroiseFlag = true → t.dev.st = .bringUp ∧ t.dev.phase = 5) ∧
      (s.rst.safe = false → s.sec.zeroiseFlag = false → s.unlocked = true → t.dev.st = .halted) ∧
      (s.rst.safe = false → s.sec.zeroiseFlag = false → s.unlocked = false → t.dev.st = .bringUp ∧ t.dev.phase = 4)) := by
  refine gives_done hexec ?_
  have hunlocked : s.unlocked = v.unlocked := by
    unfold State.unlocked
    rw [hsec]
  have hleads := afterPhase3_leads v
  obtain ⟨hkept, hlatch⟩ := afterPhase3_straps v
  rw [close_dev, close_straps, close_strapsLatched, hkept, hlatch, ← hsafe, ← hsec, hunlocked]
  exact ⟨hstraps, hleads⟩

/-! Phase 4. -/

theorem checkImage_taken {image : List Byte} {body : Plan} (h : v.sealCheck image = 0) :
    v.checkImage image body = (v.takePlan image body).enterPhase 5 := by
  unfold State.checkImage
  simp only [h]

theorem takePlan_policy (v : State) (image : List Byte) (body : Plan) : (v.takePlan image body).sec.policy = v.sec.policy := by
  unfold State.takePlan
  dsimp only
  rw [State.modRst_sec, State.modChain_sec, State.modSec_sec, State.modDev_sec]

theorem enterPhase_sec (v : State) (n : Nat) : (v.enterPhase n).sec = v.sec := rfl

theorem gives_taken {i : Instr} {image : List Byte} {body : Plan} (hexec : exec i s = done (v.checkImage image body))
    (h : v.sealCheck image = 0) (hpolicy : v.sec.policy = s.sec.pending) :
    Gives i s (fun t => t.dev.phase = 5 ∧ t.sec.policy = s.sec.pending ∧ t.loaded = true ∧ t.plan = body) := by
  rw [checkImage_taken h] at hexec
  refine gives_done hexec ?_
  rw [close_dev, close_sec, close_loaded, close_plan]
  refine ⟨?_, ?_, ?_, ?_⟩
  · rfl
  · rw [enterPhase_sec, takePlan_policy]
    exact hpolicy
  · rfl
  · rfl

/-- Phase 4 where an image passes, or the twin's links are begun (R401). -/
theorem phase4_leads (env : Phase4Env) (hphase : s.inPhase 4 = true) :
    let taken (t : State) : Prop := t.dev.phase = 5 ∧ t.sec.policy = s.sec.pending ∧ t.loaded = true ∧ t.plan = env.body
    (∀ bytes image, s.rst.source < 2 → env.memory = some bytes → memoryImage bytes = some image →
      s.seekPlan.sealCheck image = 0 → Gives (.phase4 env) s taken) ∧
    (∀ n, s.rst.source = 2 → s.rst.staging = some n → imageLengthOk n = true →
      s.seekPlan.sealCheck (s.seekPlan.peek (storeBase 0) n) = 0 → Gives (.phase4 env) s taken) ∧
    (s.rst.source = 3 → s.sec.entropyFail = false → s.rst.linksBegun = true → s.chain.shardRx ≠ [] →
      imageLengthOk s.chain.shardRx.length = true → s.seekPlan.endBoot.sealCheck s.chain.shardRx = 0 →
      Gives (.phase4 env) s taken) ∧
    (s.rst.source = 3 → s.sec.entropyFail = false → s.rst.linksBegun = false →
      Gives (.phase4 env) s (fun t => t = close (s.seekPlan.beginBoot env.failedLinks))) := by
  obtain ⟨hmemory, hhost, htwin⟩ := phase4_exec env hphase
  refine ⟨fun bytes image hsrc hbytes himage hseal => ?_, fun n hsrc hstaged hlength hseal => ?_,
    fun hsrc hnoise hbegun hshard hlength hseal => ?_, fun hsrc hnoise hbegun => ?_⟩
  · have hexec := hmemory hsrc
    have hfound : env.memory.bind memoryImage = some image := by
      rw [hbytes]
      exact himage
    simp only [hfound] at hexec
    exact gives_taken hexec hseal rfl
  · have hexec := hhost hsrc
    simp only [hstaged] at hexec
    rw [if_pos hlength] at hexec
    exact gives_taken hexec hseal rfl
  · have hexec := htwin hsrc
    rw [if_neg (by rw [hnoise]; decide), if_neg (by rw [hbegun]; decide),
      if_neg (by simpa using hshard), if_pos hlength] at hexec
    exact gives_taken hexec hseal rfl
  · have hexec := htwin hsrc
    rw [if_neg (by rw [hnoise]; decide), if_pos (by rw [hbegun]; decide)] at hexec
    exact gives_done hexec rfl

theorem vector_get_ofFn {α : Type} {n : Nat} (f : Fin n → α) (i : Fin n) : (Vector.ofFn f).get i = f i := by
  show (Vector.ofFn f)[i.val] = f i
  simp

theorem vector_get_map {α β : Type} {n : Nat} (f : α → β) (v : Vector α n) (i : Fin n) :
    (v.map f).get i = f (v.get i) := by
  simp [Vector.get]

/-! Phase 5. -/

/-- The device after the training of phase 5. -/
def State.trained (s : State) (env : Phase5Env) : State := (s.trainStacks env).trainStash env

theorem phase5_exec (env : Phase5Env) (hphase : s.inPhase 5 = true) (hnoise : s.sec.entropyFail = false) :
    exec (.phase5 env) s = if s.sec.zeroiseFlag then done (s.trained env).endUnlock else done ((s.trained env).enterPhase 6) := by
  have hexec : exec (.phase5 env) s = execPhase5 env s := rfl
  rw [hexec]
  unfold execPhase5
  rw [if_neg (by rw [hphase]; decide), if_neg (by rw [hnoise]; decide)]
  have hflag : (s.trained env).sec.zeroiseFlag = s.sec.zeroiseFlag := by
    unfold State.trained State.trainStash State.trainStacks
    dsimp only
    split
    · split <;> rfl
    · rfl
  rw [← hflag]
  rfl

theorem trainStacks_sec (s : State) (env : Phase5Env) : (s.trainStacks env).sec = s.sec := by
  unfold State.trainStacks
  dsimp only
  split
  · split <;> rfl
  · rfl

theorem trained_stash (s : State) (env : Phase5Env) (n : Fin 8) : ((s.trained env).stc n).arr = LineMem.zero ∧
    ((s.trained env).stc n).keyReady = true ∧ ((s.trained env).stc n).key = some s.sec.draws := by
  have hsec := trainStacks_sec s env
  unfold State.trained
  generalize s.trainStacks env = u at hsec
  have hstc : (u.trainStash env).stc n = (u.stc n).train n.val
      (stashDevicesOf (fun d => env.fitted.any (fun x => x.val == d) && !env.failedStash.any (fun x => x.val == d))) u.sec.draws
      (fun d => env.fitted.any (fun x => x.val == d))
      (fun d => env.fitted.any (fun x => x.val == d) && !env.failedStash.any (fun x => x.val == d)) :=
    vector_get_ofFn _ n
  rw [hstc, hsec]
  exact ⟨rfl, rfl, rfl⟩

theorem trained_mem (s : State) (env : Phase5Env) : (s.trained env).mem = (s.trainStacks env).mem := rfl

theorem trained_draws (s : State) (env : Phase5Env) : (s.trained env).sec.draws = s.sec.draws + 1 := by
  rw [← trainStacks_sec s env]
  rfl

/-- The stacks after phase 5 of a cold or warm bring-up. -/
theorem trained_stack {env : Phase5Env} (hscope : s.rst.cur.scope ≠ .core) (n : Fin 12) :
    (s.trained env).stack n =
      (s.stack n).train (env.failedStacks.contains n) (s.rst.cur.scope == .cold || s.sec.zeroiseFlag) := by
  have hcore : ¬(s.coreBringUp = true) := fun h => hscope (beq_iff_eq.1 h)
  unfold State.stack
  rw [trained_mem]
  unfold State.trainStacks
  rw [if_neg hcore]
  exact vector_get_ofFn _ n

theorem phase5_leads (env : Phase5Env) (hphase : s.inPhase 5 = true) (hnoise : s.sec.entropyFail = false)
    (hzero : s.sec.zeroiseFlag = false) :
    Gives (.phase5 env) s (fun t => t.dev.phase = 6 ∧ t.sec.draws = s.sec.draws + 1 ∧
      (∀ n, (t.stc n).arr = LineMem.zero ∧ (t.stc n).keyReady = true ∧ (t.stc n).key = some s.sec.draws) ∧
      t.dev.stashDevices =
        stashDevicesOf (fun d => env.fitted.any (fun x => x.val == d) && !env.failedStash.any (fun x => x.val == d)) ∧
      (s.rst.cur.scope = .core → t.mem = s.mem) ∧
      (s.rst.cur.scope ≠ .core → ∀ n, (t.stack n).selfRefresh = false ∧
        (t.stack n).failed = env.failedStacks.contains n ∧ (t.stack n).trained = !env.failedStacks.contains n ∧
        (s.rst.cur.scope = .cold → n ∉ env.failedStacks → (t.stack n).arr = LineMem.zero) ∧
        (s.rst.cur.scope = .warm → (t.stack n).arr = (s.stack n).arr))) := by
  have hexec := phase5_exec env hphase hnoise
  rw [if_neg (by rw [hzero]; decide)] at hexec
  have hstc (n : Fin 8) : (close ((s.trained env).enterPhase 6)).stc n = (s.trained env).stc n := by
    unfold State.stc
    rw [close_stash]
    rfl
  have hstack (n : Fin 12) : (close ((s.trained env).enterPhase 6)).stack n = (s.trained env).stack n := by
    unfold State.stack
    rw [close_mem]
    rfl
  refine gives_done hexec ⟨?_, ?_, fun n => ?_, ?_, fun hcore => ?_, fun hscope n => ?_⟩
  · rw [close_dev]
    rfl
  · rw [close_sec]
    exact trained_draws s env
  · rw [hstc]
    exact trained_stash s env n
  · rw [close_dev]
    rfl
  · rw [close_mem]
    show (s.trainStacks env).mem = s.mem
    unfold State.trainStacks
    rw [if_pos (show s.coreBringUp = true from beq_iff_eq.2 hcore), if_neg (by rw [hzero]; decide)]
  · rw [hstack, trained_stack hscope]
    refine ⟨rfl, rfl, rfl, fun hcold hgood => ?_, fun hwarm => ?_⟩
    · unfold Stack.train
      rw [hcold]
      simp [hgood]
    · unfold Stack.train
      rw [hwarm, hzero]
      rfl

theorem phase5_unlocks (env : Phase5Env) (hphase : s.inPhase 5 = true) (hnoise : s.sec.entropyFail = false)
    (hzero : s.sec.zeroiseFlag = true) :
    Gives (.phase5 env) s (fun t => t.dev.st = .halted ∧ t.sec.debugOpen = true ∧ t.sec.zeroiseFlag = false) := by
  have hexec := phase5_exec env hphase hnoise
  rw [if_pos hzero] at hexec
  refine gives_done hexec ?_
  rw [close_dev, close_sec]
  exact ⟨rfl, rfl, rfl⟩

/-! Phase 6. -/

/-- A refused side check leaves the phase and that links are begun. -/
theorem judgeSides_kept (s : State) (env : Phase6Env) : (s.judgeSides env).dev.phase = s.dev.phase ∧
    (s.judgeSides env).rst.linksBegun = s.rst.linksBegun := by
  unfold State.judgeSides
  split
  next l rest hup =>
    split
    · have hl : 32 ≤ l.val := by
        have hmem : l ∈ s.twinLinksUp := by simp [hup]
        have hkeep := (List.mem_filter.1 hmem).2
        simp only [Bool.and_eq_true, decide_eq_true_eq] at hkeep
        exact hkeep.1
      obtain ⟨v, hv⟩ : ∃ v : State, (v.dev = s.dev ∧ v.rst = s.rst) ∧
          s.refuseSession l = if v.inPhase 6 then v.failBringUp 8 else v := by
        unfold State.refuseSession
        dsimp only
        rw [if_neg (Nat.not_lt.2 hl)]
        refine ⟨_, ?_, rfl⟩
        split
        · exact ⟨rfl, rfl⟩
        · exact ⟨rfl, rfl⟩
      obtain ⟨⟨hdev, hrst⟩, heq⟩ := hv
      rw [heq, ← hdev, ← hrst]
      split
      · rw [failBringUp_eq, if_neg (by decide)]
        exact ⟨rfl, rfl⟩
      · exact ⟨rfl, rfl⟩
    · exact ⟨rfl, rfl⟩
  next => exact ⟨rfl, rfl⟩

theorem beginLinks_kept (s : State) (env : Phase6Env) : (s.beginLinks env).dev.phase = s.dev.phase ∧
    (s.beginLinks env).rst.linksBegun = true := by
  obtain ⟨hrst, hdev, -, -⟩ := linksRaised_kept s env
  obtain ⟨hphase, hbegun⟩ := judgeSides_kept (s.linksRaised env) env
  rw [beginLinks_eq, hphase, hbegun, hdev, hrst]
  exact ⟨rfl, rfl⟩

/-- Of a device with no link in use and no twin, phase 6 leaves nothing to wait for. -/
theorem beginLinks_idle (env : Phase6Env) (hused : s.usedLinks = []) (hidle : ∀ l, (s.link l).used = false)
    (htwin : s.plan.twin = none)
    (hscope : s.coreBringUp = false) : (s.beginLinks env).linksSettled = true ∧
      (s.beginLinks env).dev.st = s.dev.st ∧ (s.beginLinks env).rst = { s.rst with linksBegun := true } := by
  obtain ⟨hrst, hdev, hplan, hunpaired⟩ := linksRaised_kept s env
  rw [htwin] at hunpaired
  have hjudge : s.beginLinks env = s.linksRaised env := by
    rw [beginLinks_eq]
    unfold State.judgeSides
    split
    · rw [if_neg (by rw [hplan, htwin]; simp)]
    · rfl
  have hlinks : (s.linksRaised env).links = s.links := by
    have hnone : ∀ u : State, u.plan = s.plan → u.usedLinks = [] := fun u h => by
      rw [← hused]
      unfold State.usedLinks
      rw [h]
    unfold State.linksRaised
    dsimp only
    rw [if_neg (by rw [hscope]; decide), hused]
    rw [hnone]
    · rfl
    · rfl
  rw [hjudge]
  refine ⟨?_, by rw [hdev], hrst⟩
  unfold State.linksSettled
  rw [hunpaired, Bool.and_eq_true, List.all_eq_true]
  refine ⟨rfl, fun l _ => ?_⟩
  have hl : ((s.linksRaised env).link l).used = false := by
    unfold State.link
    rw [hlinks]
    exact hidle l
  rw [hl]
  rfl

theorem settleLinks_of_not_settled (h : v.linksSettled = false) : v.settleLinks = v := by
  unfold State.settleLinks
  rw [if_neg (by rw [h]; simp)]

theorem settleLinks_of_settled (hphase : v.inPhase 6 = true) (hbegun : v.rst.linksBegun = true) (h : v.linksSettled = true) :
    v.settleLinks = v.enterPhase 7 := by
  unfold State.settleLinks
  rw [if_pos (by rw [hphase, hbegun, h]; rfl)]

theorem phase6_leads (env : Phase6Env) (hphase : s.inPhase 6 = true) (hbegun : s.rst.linksBegun = false)
    (hnoise : s.sec.entropyFail = false ∨ s.usedLinks = []) :
    Gives (.phase6 env) s (fun t => t = close (s.beginLinks env).settleLinks ∧
      ((s.beginLinks env).linksSettled = false → t.dev.phase = 6 ∧ t.rst.linksBegun = true) ∧
      ((s.beginLinks env).linksSettled = true → (s.beginLinks env).inPhase 6 = true → t.dev.phase = 7) ∧
      (s.usedLinks = [] → (∀ l, (s.link l).used = false) → s.plan.twin = none → s.coreBringUp = false →
        t.dev.phase = 7)) := by
  have hexec := phase6_exec env hphase hbegun hnoise
  obtain ⟨hkept, hnow⟩ := beginLinks_kept s env
  have hsettled (hall : (s.beginLinks env).linksSettled = true) (hin : (s.beginLinks env).inPhase 6 = true) :
      (close (s.beginLinks env).settleLinks).dev.phase = 7 := by
    rw [settleLinks_of_settled hin hnow hall, close_dev]
    rfl
  refine gives_done hexec ⟨rfl, fun hopen => ?_, hsettled, fun hused hidle htwin hscope => ?_⟩
  · rw [settleLinks_of_not_settled hopen, close_dev, close_linksBegun, hkept]
    exact ⟨phase_of_inPhase hphase, hnow⟩
  · obtain ⟨hall, hst, hrst⟩ := beginLinks_idle env hused hidle htwin hscope
    refine hsettled hall ?_
    unfold State.inPhase at hphase ⊢
    rw [hst, hkept, hrst]
    exact hphase

theorem phase6_waits (env : Phase6Env) (hphase : s.inPhase 6 = true) (hbegun : s.rst.linksBegun = true) :
    Gives (.phase6 env) s (fun t =>
      (s.linksSettled = true → t.dev.phase = 7) ∧ (s.linksSettled = false → t = close s)) := by
  have hexec : exec (.phase6 env) s = execPhase6 env s := rfl
  unfold execPhase6 at hexec
  rw [if_neg (by rw [hphase]; decide), if_pos hbegun] at hexec
  refine gives_done hexec ⟨fun hall => ?_, fun hopen => ?_⟩
  · rw [settleLinks_of_settled hphase hbegun hall, close_dev]
    rfl
  · rw [settleLinks_of_not_settled hopen]

/-! Phases 7 and 8. -/

/-- The device after the self-test of phase 7. -/
def State.selfTested (s : State) (env : Phase7Env) : State := { s with
  gales := Vector.ofFn (fun g : Fin 8 => (s.gales.get g).selfTest (env.fails.find? (fun t => t.array == g))
    (Config.freeNat (s.fresh + 2 * g.val)) (Config.freeNat (s.fresh + 2 * g.val + 1)))
  fresh := s.fresh + 16
  cores := s.cores.map (fun c => { c with health := .ok })
  hlt := s.hlt.measure env.meas s.rst.count s.now s.step true }

theorem selfTested_gale (env : Phase7Env) (g : Fin 8) : ((s.selfTested env).gale g).stDone = true := by
  unfold State.selfTested State.gale
  dsimp only
  rw [vector_get_ofFn]
  rfl

theorem selfTested_core (env : Phase7Env) (c : Fin 4) : ((s.selfTested env).core c).health = .ok := by
  unfold State.selfTested State.core
  dsimp only
  rw [vector_get_map]

theorem phase7_exec (env : Phase7Env) (hphase : s.inPhase 7 = true) : exec (.phase7 env) s =
    if (s.selfTested env).hlt.late then done (s.selfTested env).escalate else done ((s.selfTested env).enterPhase 8) := by
  have hexec : exec (.phase7 env) s = execPhase7 env s := rfl
  rw [hexec]
  unfold execPhase7
  rw [if_neg (by rw [hphase]; decide)]
  rfl

theorem phase7_leads (env : Phase7Env) (hphase : s.inPhase 7 = true)
    (hmargin : (s.hlt.measure env.meas s.rst.count s.now s.step true).late = false) :
    Gives (.phase7 env) s (fun t => t.dev.phase = 8 ∧
      (∀ g, (t.gale g).stDone = true) ∧ ∀ c, (t.core c).health = .ok) := by
  have hexec := phase7_exec env hphase
  have hlate : ¬((s.selfTested env).hlt.late = true) := fun h => absurd (hmargin.symm.trans h) (by decide)
  rw [if_neg hlate] at hexec
  refine gives_done hexec ⟨?_, fun g => ?_, fun c => ?_⟩
  · rw [close_dev]
    rfl
  · unfold State.gale
    rw [close_gales]
    exact selfTested_gale env g
  · unfold State.core
    rw [close_cores]
    exact selfTested_core env c

theorem phase8_leads (hphase : s.inPhase 8 = true) (hfits : s.firstFailure = none) :
    Gives .phase8 s (fun t => t.dev.phase = 9 ∧ t.fit = (0, 0, 0, 0, true)) := by
  have hexec : exec .phase8 s = execPhase8 s := rfl
  unfold execPhase8 at hexec
  rw [if_neg (by rw [hphase]; decide)] at hexec
  simp only [hfits] at hexec
  refine gives_done hexec ?_
  rw [close_dev, close_fit]
  exact ⟨rfl, rfl⟩

theorem phase9_leads (hphase : s.inPhase 9 = true) : Gives .phase9 s (fun t =>
    t = close (((s.modDev (fun d => { d with st := .run })).modRst (fun r => { r with fails := 0, wdtSince := s.now })).outcome
      25 0).startPlan) := by
  have hexec : exec .phase9 s = execPhase9 s := rfl
  unfold execPhase9 at hexec
  rw [if_neg (by rw [hphase]; decide)] at hexec
  exact gives_done hexec rfl

/-- Settles O51: each phase by its own lemma. -/
theorem bringUpPhasesRun : Obligations.BringUpPhasesRun := by
  unfold Obligations.BringUpPhasesRun
  intro s
  refine ⟨fun env k hk hbackup => ⟨phase1_leads hk hbackup, phase1_safe hk hbackup⟩, fun env => phase2_leads,
    fun straps hphase => ⟨fun hsamples hpace => ?_, fun hkeeps hpace => ?_⟩, fun env => phase4_leads env,
    fun env => phase5_leads env, fun env => phase5_unlocks env, fun env => phase6_leads env, fun env => phase6_waits env,
    fun env => phase7_leads env, phase8_leads, phase9_leads⟩
  · have hexec := (phase3_exec straps hphase).1 hsamples
    rw [if_neg hpace] at hexec
    have hgives := phase3_from hexec rfl rfl (P := fun x b => x = straps ∧ b = true) ⟨rfl, rfl⟩
    exact hgives.imp fun t ⟨⟨hstraps, hlatched⟩, hleads⟩ => ⟨hstraps, hlatched, hleads⟩
  · have hexec := (phase3_exec straps hphase).2 hkeeps
    rw [if_neg hpace] at hexec
    exact phase3_from hexec rfl rfl (P := fun x _ => x = s.rst.straps) rfl

end
end Sys2Proof.Machine
end

section
/-! SUPPORT. What keeps all memory in canonical form beside the reads and writes themselves: what leaves every byte of it, and the
operations of fetch, of the units and of the Draught engines. -/

namespace Sys2Proof.Machine

/-- Every part but those that hold bytes of memory. -/
def partsQuiet : List Part :=
  [.pending, .dev, .ports, .vio, .ctxs, .cores, .gales, .draughts, .chainVanes, .chainSeen, .frozen, .chainBank, .signals, .stacks,
    .foehn, .slip, .links, .chain, .sec, .rst, .hlt, .plan, .loaded, .fit, .step, .loads, .begun, .hostLeaves, .loadedChunks,
    .withheld, .answer, .mxScales, .fresh, .keepHeld]

theorem LineMem.Ok.of_bytes {m m' : LineMem} (h : m.Ok) (hb : m'.bytes = m.bytes) : m'.Ok := by
  simp only [LineMem.bytes, Prod.mk.injEq] at hb
  obtain ⟨hd, hu, -⟩ := hb
  exact h.of_eq hd hu

/-- What leaves every byte of memory and the controllers of the stash tier keeps the form. -/
theorem State.MemoryOk.quiet {s t : State} (h : s.MemoryOk) (hframe : OnlyChanges partsQuiet s t) : t.MemoryOk := by
  obtain ⟨hmem, hstash, hcore⟩ := h
  refine ⟨fun n => (hmem n).of_bytes (hframe .stackBytes (by decide) n), fun n => ⟨?_, ?_⟩, fun c => ?_⟩
  · exact (hstash n).1.of_bytes (hframe .stashBytes (by decide) n)
  · have hrest := hframe .stashes (by decide) n
    exact (congrArg (fun x : Stash => x.arr.fixes) hrest).trans (hstash n).2
  · obtain ⟨hbytes, -⟩ := hframe .stores (by decide) c
    rw [hbytes]
    exact hcore c

/-- What changes of a stash controller neither its bytes nor its waiting corrections keeps the form. -/
theorem State.MemoryOk.modStc {s : State} (h : s.MemoryOk) (n : Fin 8) {f : Stash → Stash} (hf : ∀ x, (f x).arr = x.arr) :
    (s.modStc n f).MemoryOk := by
  obtain ⟨hok, hfixes⟩ := h.2.1 n
  exact State.modStc_ok h n f (by rw [hf]; exact hok) (by rw [hf]; exact hfixes)

/-- A fold whose state each step keeps in the form keeps it. -/
theorem State.MemoryOk.foldl_fst {α β : Type} {f : State × β → α → State × β} (hf : ∀ z a, z.1.MemoryOk → (f z a).1.MemoryOk)
    (l : List α) {z : State × β} (h : z.1.MemoryOk) : (l.foldl f z).1.MemoryOk := by
  induction l generalizing z with
  | nil => exact h
  | cons a l ih => exact ih (hf z a h)

section
variable {s : State} (h : s.MemoryOk)
include h

/-! Updates of the Foehn units and the start of groups. -/

theorem State.MemoryOk.storeBlock (n : Fin 12) (gi : Nat) (g : BitVec 512) (b : Nat) : (s.storeBlock n gi g b).MemoryOk := by
  unfold State.storeBlock
  extract_lets first count res bad s1 chunks s2
  have h1 : s1.MemoryOk := State.foldl_ok _ (fun _ _ hu => State.writeBytes_ok hu _ _ _ _) _ h
  clear_value s1
  exact h1.quiet (by simp +decide [s2])

theorem State.MemoryOk.updateBlock (n : Fin 12) (gi : Nat) (g : BitVec 512) (b : Nat) : (s.updateBlock n gi g b).MemoryOk := by
  unfold State.updateBlock
  split
  · exact h.storeBlock n gi g b
  · exact h.quiet (by simp +decide)

omit h in
theorem State.MemoryOk.updateBlocks (n : Fin 12) (gi : Nat) (g : BitVec 512) (fuel : Nat) :
    ∀ {s : State}, s.MemoryOk → (s.updateBlocks n gi g fuel).MemoryOk := by
  induction fuel with
  | zero => exact fun h => h
  | succ m ih =>
    intro s h
    unfold State.updateBlocks
    split
    · exact h
    · next b x hrun =>
      extract_lets u
      have hu : u.MemoryOk := h.quiet (by simp +decide [u])
      split
      · exact hu
      · exact ih (hu.updateBlock n gi g b)

theorem State.MemoryOk.startGroup (n : Fin 12) (gi : Nat) : (s.startGroup n gi).MemoryOk := by
  unfold State.startGroup
  split
  · exact h
  · next g hg =>
    extract_lets ranges bad s1 s2
    have h1 : s1.MemoryOk := State.touch_ok h ranges _
    have h2 : s2.MemoryOk := h1.quiet (by simp +decide [s2])
    clear_value s2 bad
    split
    · exact h2.quiet (by simp +decide)
    · exact h2.quiet (by simp +decide)

omit h in
theorem State.MemoryOk.startUnit (n : Fin 12) (fuel : Nat) : ∀ {s : State}, s.MemoryOk → (s.startUnit n fuel).MemoryOk := by
  induction fuel with
  | zero => exact fun h => h
  | succ m ih =>
    intro s h
    unfold State.startUnit
    split
    · exact ih (h.startGroup n _)
    · exact h

theorem State.MemoryOk.startDue : s.startDue.MemoryOk := by
  unfold State.startDue
  have hunits := State.foldl_ok (fun u n => u.startUnit n (u.fhn n).due.length) (fun _ n hu => hu.startUnit n _) (allFin 12) h
  exact hunits.quiet (by simp +decide)

theorem State.MemoryOk.signalNow (ps : List PSig) : (s.signalNow ps).MemoryOk := by
  unfold State.signalNow
  extract_lets ordered
  split
  next u vios hu =>
    have hturned : u.MemoryOk := by
      have hfold := State.MemoryOk.foldl_fst (f := fun (a : State × List Vio) p =>
        let (s', v) := a.1.turnSignal p
        (s', a.2 ++ v)) (fun z p hz => hz.quiet ((onlyChanges_turnSignal (by decide)).2 (onlyChanges_refl _ z.1))) ordered
        (z := (s, [])) h
      rwa [hu] at hfold
    exact (hturned.quiet (by simp +decide)).startDue

/-! Fetch. -/

theorem State.MemoryOk.claimFill (c : Fin 4) (k : Fin 8) (op : BitVec 128) (o : Opd) (sc : Option Opd) (packed : Option Nat) :
    (s.claimFill c k op o sc packed).MemoryOk := by
  unfold State.claimFill
  extract_lets g col x spec d poison tile bay moves before s1 s2 s3 s4 s5
  have h1 : s1.MemoryOk := by
    simp only [s1]
    split
    · exact h.quiet (by simp +decide)
    · split
      · exact h
      · exact State.touch_ok h _ _
  clear_value s1
  have h2 : s2.MemoryOk := h1.quiet (by simp +decide [s2])
  have h3 : s3.MemoryOk := by
    simp only [s3]
    clear_value s2 tile
    split
    · split
      · exact h2.quiet (by simp +decide)
      · exact h2
    · exact h2
  clear_value s3
  have h4 : s4.MemoryOk := by
    simp only [s4]
    exact h3.quiet ((onlyChanges_fly (by decide)).2 (.trans (by simp +decide) (onlyChanges_foldl (fun u o => by simp +decide) _ _)))
  have h5 : s5.MemoryOk := by
    simp only [s5]
    clear_value s4 d
    split
    · split
      · exact h4
      · exact h4.quiet (by simp +decide)
    · exact h4
  exact h5.quiet (by simp +decide)

theorem State.MemoryOk.tryFill {c : Fin 4} {k : Fin 8} {op : BitVec 128} {u : State} (hu : s.tryFill c k op = .ok u) :
    u.MemoryOk := by
  unfold State.tryFill at hu
  extract_lets g x y gate s0 spec at hu
  have h0 : s0.MemoryOk := by
    simp only [s0]
    clear_value gate
    split
    · exact h.quiet (by simp +decide)
    · exact h
  clear_value s0
  split at hu
  · cases hu
  · rw [← Except.ok.inj (ok_of_ite (ok_of_ite (ok_of_ite hu)))]
    exact h0.claimFill _ _ _ _ _ _

theorem State.MemoryOk.tryDesc {c : Fin 4} {k : Fin 8} {e : Fin 8} {desc : Nat} {ahead : Bool} {u : State}
    (hu : s.tryDesc c k e desc ahead = .ok u) : u.MemoryOk := h.quiet ((tryDesc_onlyChanges hu).mono (by decide))

theorem State.MemoryOk.tryTodo {c : Fin 4} {k : Fin 8} {d : Nat} {rest : List Nat} {u : State}
    (hu : s.tryTodo c k d rest = .ok u) : u.MemoryOk := by
  unfold State.tryTodo at hu
  dsimp only at hu
  split at hu
  · cases hu
  · next v hv =>
    rw [← Except.ok.inj hu]
    exact (h.tryDesc hv).quiet (by simp +decide)

theorem State.MemoryOk.tryFetch {c : Fin 4} {k : Fin 8} {u : State} (hu : s.tryFetch c k = .ok u) : u.MemoryOk := by
  unfold State.tryFetch at hu
  dsimp only at hu
  split at hu
  · cases hu
  split at hu
  · exact h.tryTodo hu
  split at hu
  · cases hu
  split at hu
  · cases hu
  split at hu
  · cases hu
  split at hu
  · cases hu
  split at hu
  · exact h.tryFill hu
  split at hu
  · split at hu
    · cases hu
    · next v hv =>
      rw [← Except.ok.inj hu]
      exact (h.tryDesc hv).quiet (by simp +decide)
  split at hu
  · cases hu
  split at hu
  · split at hu
    · rw [← Except.ok.inj hu]
      exact h.quiet (by simp +decide)
    · cases hu
    · rw [← Except.ok.inj hu]
      exact h.quiet (by simp +decide)
  · rw [← Except.ok.inj hu]
    exact h.quiet (by simp +decide)

end
end Sys2Proof.Machine
end

section
/-! SUPPORT. The operations of the units keep all memory in canonical form. -/

namespace Sys2Proof.Machine

/-- A command that answers a next state answers one whose memory is in canonical form. -/
def KeepsMemory (o : Out) : Prop := ∀ t, o = .next t → t.MemoryOk

section
variable {s t u : State}

theorem State.MemoryOk.done (h : t.MemoryOk) : KeepsMemory (done t) := by
  intro v hv
  have he : Sys2Proof.Machine.close t = v := Host.Outcome.next.inj hv
  rw [← he]
  exact h.close

theorem State.MemoryOk.stay (h : t.MemoryOk) : KeepsMemory (stay t) := by
  intro v hv
  have he : t = v := Host.Outcome.next.inj hv
  rwa [← he]

theorem keepsMemory_refused (r : Refusal) : KeepsMemory (.refused r) := by
  intro t h
  cases h

/-- What leaves every byte of memory keeps the form. -/
theorem StaysWithin.keepsMemory {o : Out} (hw : StaysWithin partsQuiet s o) (h : s.MemoryOk) : KeepsMemory o :=
  fun t ht => h.quiet (hw t ht)

theorem keepsMemory_issue {c : Fin 4} {k : Fin 8} {code : Nat} {f : BitVec 128 → State → State} (h : s.MemoryOk)
    (hf : ∀ op, (f op s).MemoryOk) : KeepsMemory (issue c k code s f) := by
  unfold issue
  split
  · exact (hf _).done
  · exact (h.quiet (by simp +decide)).done

variable (h : s.MemoryOk)
include h

theorem keepsMemory_fetchStep {c : Fin 4} {k : Fin 8} : KeepsMemory (fetchStep c k s) := by
  unfold fetchStep
  split
  · exact h.stay
  · split
    · next u hu =>
      split
      · exact ((h.tryFetch hu).quiet (by simp +decide [Core.rest])).done
      · exact h.stay
    · exact h.stay
    · refine State.MemoryOk.done (h.quiet ?_)
      split <;> split <;> simp +decide [Core.rest]

theorem keepsMemory_fetchRow {c : Fin 4} {k : Fin 8} {p : Prop} [Decidable p] :
    KeepsMemory (if p then fetchStep c k s else stay s) := by
  split
  · exact keepsMemory_fetchStep h
  · exact h.stay

/-! Begin, finish and the points of speculation. -/

theorem State.MemoryOk.begin {c : Fin 4} {k : Fin 8} {op : BitVec 128} {dst : Option Opd} {srcs : List Opd} {e : Effect}
    {r : RunOp}
    (hu : s.begin c k op dst srcs e = (u, r)) : u.MemoryOk := by
  have hfst : (s.begin c k op dst srcs e).1.MemoryOk := by
    unfold State.begin
    extract_lets serial reads writes bad s1 s2 s3 s4 s5
    have h1 : s1.MemoryOk := by
      simp only [s1]
      split
      · exact h
      · exact State.touch_ok h _ _
    clear_value s1
    have h2 : s2.MemoryOk := h1.quiet (onlyChanges_foldl (fun _ _ => by simp +decide) _ _)
    clear_value s2
    have h3 : s3.MemoryOk := by
      simp only [s3]
      split
      · exact h2.quiet (by simp +decide)
      · exact h2
    clear_value s3
    exact h3.quiet (by simp +decide [s5, s4])
  rwa [hu] at hfst

theorem State.MemoryOk.finish (c : Fin 4) (r : RunOp) : (s.finish c r).MemoryOk := by
  unfold State.finish
  exact (State.landAll_ok h (spread r.writes)).quiet (by simp +decide)

theorem State.MemoryOk.countReads (c : Fin 4) (k : Fin 8) (i : SpecItem) : (s.countReads c k i).MemoryOk := by
  unfold State.countReads
  split
  · split
    · exact State.touch_ok h _ _
    · exact h
  · split
    · exact h
    · exact State.touch_ok h _ _

theorem State.MemoryOk.confirmItem (c : Fin 4) (k : Fin 8) (i : SpecItem) : (s.confirmItem c k i).MemoryOk := by
  unfold State.confirmItem
  have hreads := h.countReads c k i
  generalize s.countReads c k i = u at hreads ⊢
  refine hreads.quiet ?_
  repeat' split
  all_goals simp +decide

theorem State.MemoryOk.resolve (c : Fin 4) (k : Fin 8) (actual : List Nat) (unit : Nat) :
    (s.resolve c k actual unit).MemoryOk := by
  unfold State.resolve
  split
  · exact h
  split
  next yes no hy =>
  extract_lets s1 s2 s3 bays slots lastYes cut s4 s5 s6 n7 s7 s8 s9
  have h1 : s1.MemoryOk := h.quiet (onlyChanges_foldl (fun _ _ => by simp +decide) _ _)
  have h2 : s2.MemoryOk := State.foldl_ok _ (fun _ _ hu => hu.confirmItem _ _ _) _ h1
  clear_value s2
  have h6 : s6.MemoryOk := h2.quiet (by simp +decide [s6, s5, s4, s3, Core.rest])
  have h7 : s7.MemoryOk := by
    simp only [s7]
    clear_value s6
    split
    · exact h6.quiet (by simp +decide)
    · exact h6
  have h8 : s8.MemoryOk := by
    simp only [s8]
    clear_value s7
    split
    · exact h7.quiet (by simp +decide)
    · exact h7
  have h9 : s9.MemoryOk := h8.quiet (by simp +decide [s9])
  clear_value s9
  split
  · exact h9
  · exact h9.quiet (by simp +decide)

/-! Issues. -/

theorem vecIssue_ok (c : Fin 4) (k : Fin 8) (op : BitVec 128) (value : List Opd → Nat → Nat → Nat → Nat → Word) :
    (vecIssue c k op s value).MemoryOk := by
  unfold vecIssue
  extract_lets lc dst srcs e scales
  split
  next hu => exact (h.begin hu).quiet (by simp +decide)

theorem copyIssue_ok (c : Fin 4) (k : Fin 8) (op : BitVec 128) (vio : Option Opd → List Opd → Option (Nat × Nat))
    (perm : List Opd → List Nat) : (copyIssue c k op s vio perm).MemoryOk := by
  unfold copyIssue
  extract_lets lc dst srcs p at_ e whole scales
  split
  next hu => exact (h.begin hu).quiet (by simp +decide)

theorem gatherIssue_ok (c : Fin 4) (k : Fin 8) (op : BitVec 128) : (gatherIssue c k op s).MemoryOk := by
  unfold gatherIssue
  extract_lets lc dst srcs d from_ e whole scales
  split
  next hu => exact (h.begin hu).quiet (by simp +decide)

theorem mergeIssue_ok (c : Fin 4) (k : Fin 8) (code : Nat) (op : BitVec 128) : (mergeIssue c k code op s).MemoryOk := by
  unfold mergeIssue
  extract_lets lc dst srcs d idx e
  split
  next hu => exact (h.begin hu).quiet (by simp +decide)

theorem compactIssue_ok (c : Fin 4) (k : Fin 8) (op : BitVec 128) : (compactIssue c k op s).MemoryOk := by
  unfold compactIssue
  extract_lets lc srcs g
  clear_value srcs
  split
  · extract_lets
    split
    next hu => exact (h.begin hu).quiet (by simp +decide)
  · exact h.quiet (by simp +decide)

theorem expandIssue_ok (c : Fin 4) (k : Fin 8) (op : BitVec 128) : (expandIssue c k op s).MemoryOk := by
  unfold expandIssue
  extract_lets dst e
  split
  next hu => exact (h.begin hu).quiet (by simp +decide)

theorem eddyTileIssue_ok (c : Fin 4) (k : Fin 8) (op : BitVec 128) : (eddyTileIssue c k op s).MemoryOk := by
  unfold eddyTileIssue
  extract_lets lc dst srcs mode g e
  split
  next hu => exact (h.begin hu).quiet (by simp +decide)

theorem predictIssue_ok (c : Fin 4) (k : Fin 8) (op : BitVec 128) : (predictIssue c k op s).MemoryOk := by
  unfold predictIssue
  extract_lets lc srcs p poison mask steps e
  split
  next hu => exact (h.begin hu).quiet (by simp +decide)

theorem verifyIssue_ok (c : Fin 4) (k : Fin 8) (op : BitVec 128) : (verifyIssue c k op s).MemoryOk := by
  unfold verifyIssue
  extract_lets lc dst srcs p g idle whole passed missed e
  split
  extract_lets bound makeup
  split
  next hu => exact (h.begin hu).quiet (by simp +decide)

theorem routeIssue_ok (c : Fin 4) (k : Fin 8) (op : BitVec 128) : (routeIssue c k op s).MemoryOk := by
  unfold routeIssue
  extract_lets lc dst srcs
  split
  · extract_lets bad first own acc poison
    split
    next hu => exact (h.begin hu).quiet (by simp +decide)
  · exact h.quiet (by simp +decide)

theorem keepsMemory_vec1 {c : Fin 4} {k : Fin 8} {code : Nat} {f : BitVec 128 → Word → Word} :
    KeepsMemory (vec1 c k code s f) := by
  unfold vec1
  exact keepsMemory_issue h fun op => vecIssue_ok h c k op _

theorem keepsMemory_vec2 {c : Fin 4} {k : Fin 8} {code : Nat} {f : Word → Word → Word} : KeepsMemory (vec2 c k code s f) := by
  unfold vec2
  exact keepsMemory_issue h fun op => vecIssue_ok h c k op _

theorem keepsMemory_vecCompare {c : Fin 4} {k : Fin 8} {code : Nat} {f : Word → Word → Word} :
    KeepsMemory (vecCompare c k code s f) := by
  unfold vecCompare
  exact keepsMemory_issue h fun op => vecIssue_ok h c k op _

/-! Completions. -/

theorem State.MemoryOk.expandDone (c : Fin 4) (r : RunOp) (e : ExpandChain) : (s.expandDone c r e).1.MemoryOk := by
  unfold State.expandDone
  extract_lets s0
  have h0 : s0.MemoryOk := h.quiet (by simp +decide [s0])
  clear_value s0
  split
  · exact h0
  · next o ho =>
    split
    · exact State.landAll_ok h0 _
    · split
      · exact State.landAll_ok (h0.quiet (by simp +decide)) _
      · extract_lets writes
        have hwrites : ((s0.landAll (s.expandOpen c r o)).landAll writes).MemoryOk := State.landAll_ok (State.landAll_ok h0 _) _
        exact hwrites.quiet (by simp +decide)

theorem State.MemoryOk.dispatch (c : Fin 4) (r : RouteRun) (e : RouteEntry) (p : Pair) : (s.dispatch c r e p).MemoryOk := by
  unfold State.dispatch
  extract_lets x base u
  have hu : u.MemoryOk := by
    simp only [u]
    split
    · exact State.writeBytes_ok (State.touch_ok h _ _) _ _ _ _
    · exact h
  exact State.writeBytes_ok hu _ _ _ _

theorem State.MemoryOk.writeAdmits (c : Fin 4) (r : RouteRun) (e : RouteEntry) : (s.writeAdmits c r e).MemoryOk := by
  unfold State.writeAdmits
  refine State.foldl_ok _ (fun u i hu => ?_) _ h
  dsimp only
  split
  · exact State.poisonRanges_ok hu _
  · exact State.writeBytes_ok hu _ _ _ _

/-! The Draught engines. -/

theorem State.MemoryOk.deliver (e : Fin 8) (i : Nat) (x : DrtItem) : (s.deliver e i x).MemoryOk := by
  unfold State.deliver
  split
  · exact h.quiet (by simp +decide)
  · next src hsrc =>
    dsimp only
    refine State.MemoryOk.quiet (?_ : State.MemoryOk _) ((onlyChanges_modItem (by decide)).2 (onlyChanges_refl _ _))
    have hland := State.foldl_ok State.landAll (fun _ _ hu => State.landAll_ok hu _)
      ((s.itemWrites x src (s.itemDsts x)).1.map spread) h
    split
    · split
      · exact h.quiet (by simp +decide)
      · exact hland.quiet (by simp +decide)
    · split
      · exact h.quiet (by simp +decide)
      · exact hland.quiet (by simp +decide)

theorem State.MemoryOk.failItem (e : Fin 8) (i : Nat) (x : DrtItem) (kind addr dev : Nat) :
    (s.failItem e i x kind addr dev).MemoryOk := by
  unfold State.failItem
  extract_lets dsts blocks remote
  split
  next s1 acks hsent =>
    have h1 : s1.MemoryOk := by
      split at hsent
      · obtain ⟨rfl, -⟩ := Prod.mk.inj hsent
        exact State.landAll_ok h blocks
      · split at hsent
        · rw [← show (s.sendWrites e (dscDstDev x.raw) blocks).1 = s1 by rw [hsent]]
          exact h.quiet (by simp +decide)
        · obtain ⟨rfl, -⟩ := Prod.mk.inj hsent
          exact h
    refine h1.quiet ?_
    dsimp only
    split <;> simp +decide

theorem State.MemoryOk.answered (e : Fin 8) (i : Nat) (x : DrtItem) (a : Ack) (blocks : List WBlk) (noDone : Bool) :
    (s.answered e i x a blocks noDone).MemoryOk := by
  unfold State.answered
  extract_lets x1 s1
  have h1 : s1.MemoryOk := h.quiet (by simp +decide [s1])
  split
  · exact h1
  · exact h1.deliver _ _ _

theorem keepsMemory_startItem {e : Fin 8} {i : Fin 4} {kind : Nat} : KeepsMemory (startItem e i kind s) := by
  unfold startItem
  split
  · exact h.stay
  · next x hx =>
    split
    · exact h.stay
    · split
      · split
        · exact h.stay
        · exact (h.failItem _ _ _ _ _ _).done
      · extract_lets x1 s1
        have h1 : s1.MemoryOk := h.quiet (by simp +decide [s1])
        clear_value s1
        split
        · split
          · exact (h1.deliver _ _ _).done
          · exact ((State.touch_ok h1 _ _).deliver _ _ _).done
        · split
          next s2 acks hsent =>
            have h2 : s2.MemoryOk := by
              rw [← show (s1.sendReads e (dscSrcDev x.raw) (((s.itemSrc x).map (·.ranges)).getD [])).1 = s2 by rw [hsent]]
              exact h1.quiet (by simp +decide)
            exact (h2.quiet (by simp +decide)).done

end
end Sys2Proof.Machine
end

section
/-! SUPPORT. The commands of the streams, the units, the arrays and the Draught engines keep all memory in canonical form. -/

namespace Sys2Proof.Machine

section
variable {s : State} (h : s.MemoryOk)
include h

/-! Operations that issue. -/

theorem execGather_keepsMemory {c : Fin 4} {k : Fin 8} : KeepsMemory (execGather c k s) :=
  keepsMemory_issue h fun op => gatherIssue_ok h c k op

theorem execScatter_keepsMemory {c : Fin 4} {k : Fin 8} : KeepsMemory (execScatter c k s) :=
  keepsMemory_issue h fun op => mergeIssue_ok h c k _ op

theorem execMerge_keepsMemory {c : Fin 4} {k : Fin 8} : KeepsMemory (execMerge c k s) :=
  keepsMemory_issue h fun op => mergeIssue_ok h c k _ op

theorem execCompact_keepsMemory {c : Fin 4} {k : Fin 8} : KeepsMemory (execCompact c k s) :=
  keepsMemory_issue h fun op => compactIssue_ok h c k op

theorem execExpand_keepsMemory {c : Fin 4} {k : Fin 8} : KeepsMemory (execExpand c k s) :=
  keepsMemory_issue h fun op => expandIssue_ok h c k op

theorem execEddyTile_keepsMemory {c : Fin 4} {k : Fin 8} : KeepsMemory (execEddyTile c k s) :=
  keepsMemory_issue h fun op => eddyTileIssue_ok h c k op

theorem execPredict_keepsMemory {c : Fin 4} {k : Fin 8} : KeepsMemory (execPredict c k s) :=
  keepsMemory_issue h fun op => predictIssue_ok h c k op

theorem execVerify_keepsMemory {c : Fin 4} {k : Fin 8} : KeepsMemory (execVerify c k s) :=
  keepsMemory_issue h fun op => verifyIssue_ok h c k op

theorem execRoute_keepsMemory {c : Fin 4} {k : Fin 8} : KeepsMemory (execRoute c k s) :=
  keepsMemory_issue h fun op => routeIssue_ok h c k op

theorem execTcopy_keepsMemory {c : Fin 4} {k : Fin 8} : KeepsMemory (execTcopy c k s) := by
  unfold execTcopy
  exact keepsMemory_issue h fun op => copyIssue_ok h c k op _ _

theorem execPcopy_keepsMemory {c : Fin 4} {k : Fin 8} : KeepsMemory (execPcopy c k s) := by
  unfold execPcopy
  exact keepsMemory_issue h fun op => copyIssue_ok h c k op _ _

theorem execCopy_keepsMemory {c : Fin 4} {k : Fin 8} : KeepsMemory (execCopy c k s) := by
  unfold execCopy
  exact keepsMemory_issue h fun op => copyIssue_ok h c k op _ _

theorem execConvert_keepsMemory {c : Fin 4} {k : Fin 8} : KeepsMemory (execConvert c k s) := keepsMemory_vec1 h

theorem execVecAdd_keepsMemory {c : Fin 4} {k : Fin 8} : KeepsMemory (execVecAdd c k s) := keepsMemory_vec2 h

theorem execVecSub_keepsMemory {c : Fin 4} {k : Fin 8} : KeepsMemory (execVecSub c k s) := keepsMemory_vec2 h

theorem execVecMul_keepsMemory {c : Fin 4} {k : Fin 8} : KeepsMemory (execVecMul c k s) := keepsMemory_vec2 h

theorem execVecFma_keepsMemory {c : Fin 4} {k : Fin 8} : KeepsMemory (execVecFma c k s) := by
  unfold execVecFma
  exact keepsMemory_issue h fun op => vecIssue_ok h c k op _

theorem execVecFunc_keepsMemory {c : Fin 4} {k : Fin 8} : KeepsMemory (execVecFunc c k s) := keepsMemory_vec1 h

theorem execVecMax_keepsMemory {c : Fin 4} {k : Fin 8} : KeepsMemory (execVecMax c k s) := keepsMemory_vecCompare h

theorem execVecMin_keepsMemory {c : Fin 4} {k : Fin 8} : KeepsMemory (execVecMin c k s) := keepsMemory_vecCompare h

theorem execVecSum_keepsMemory {c : Fin 4} {k : Fin 8} : KeepsMemory (execVecSum c k s) := by
  unfold execVecSum
  exact keepsMemory_issue h fun op => vecIssue_ok h c k op _

theorem execVecDot_keepsMemory {c : Fin 4} {k : Fin 8} : KeepsMemory (execVecDot c k s) := by
  unfold execVecDot
  exact keepsMemory_issue h fun op => vecIssue_ok h c k op _

theorem execVecSelect_keepsMemory {c : Fin 4} {k : Fin 8} : KeepsMemory (execVecSelect c k s) := by
  unfold execVecSelect
  exact keepsMemory_issue h fun op => vecIssue_ok h c k op _

theorem execVecDropout_keepsMemory {c : Fin 4} {k : Fin 8} : KeepsMemory (execVecDropout c k s) := by
  unfold execVecDropout
  exact keepsMemory_issue h fun op => vecIssue_ok h c k op _

/-! Completions. -/

theorem execPredictComplete_keepsMemory {c : Fin 4} : KeepsMemory (execPredictComplete c s) := by
  unfold execPredictComplete
  split
  · exact h.stay
  · next r hr =>
    split
    · exact h.stay
    · next slot tile mask vane hp =>
      extract_lets s1 s2 mine s3
      have h2 : s2.MemoryOk := (h.finish c r).quiet (by simp +decide [s2, s1])
      clear_value s2
      have h3 : s3.MemoryOk := by
        simp only [s3]
        split
        · exact h2.resolve _ _ _ _
        · exact h2
      clear_value s3
      split
      · exact (h3.signalNow _).done
      · exact h3.done

theorem execVectorOperationComplete_keepsMemory {c : Fin 4} : KeepsMemory (execVectorOperationComplete c s) := by
  unfold execVectorOperationComplete
  split
  · exact h.stay
  · next r hr => exact ((h.finish c r).quiet (by simp +decide)).done

theorem execCopyOperationComplete_keepsMemory {c : Fin 4} : KeepsMemory (execCopyOperationComplete c s) := by
  unfold execCopyOperationComplete
  split
  · exact h.stay
  · next r hr => exact ((h.finish c r).quiet (by simp +decide)).done

theorem execEddyOperationComplete_keepsMemory {c : Fin 4} : KeepsMemory (execEddyOperationComplete c s) := by
  unfold execEddyOperationComplete
  split
  · exact h.stay
  · next r hr =>
    split
    · exact h.stay
    · split
      · extract_lets s1
        have h1 : s1.MemoryOk := h.quiet (by simp +decide [s1])
        clear_value s1
        split
        · exact h.stay
        · next r1 hr1 =>
          split
          · exact h.stay
          · split
            · exact ((h1.finish c r1).quiet (by simp +decide)).done
            · exact h1.done
      · split
        · split
          · exact h.stay
          · next ch hch =>
            split
            · dsimp only
              have hdone := (h.expandDone c r ch).finish c { r with poison := (s.expandDone c r ch).2 }
              exact (hdone.quiet (by simp +decide)).done
            · exact h.stay
        · exact ((h.finish c r).quiet (by simp +decide)).done

theorem execDispatchPair_keepsMemory {c : Fin 4} : KeepsMemory (execDispatchPair c s) := by
  unfold execDispatchPair
  split
  · exact h.stay
  · next r hr =>
    split
    · next p rest e hp he => exact ((h.dispatch c r e p).quiet (by simp +decide)).done
    · exact h.stay

theorem execRouteComplete_keepsMemory {c : Fin 4} : KeepsMemory (execRouteComplete c s) := by
  unfold execRouteComplete
  split
  · exact h.stay
  · next r hr =>
    split
    · next e hpairs he =>
      extract_lets s1 s2 s3 s4 s5 actual mine s6
      have h2 : s2.MemoryOk := (State.landAll_ok h r.records).quiet (by simp +decide [s2, s1])
      clear_value s2
      have h3 : s3.MemoryOk := h2.writeAdmits c r e
      clear_value s3
      have h4 : s4.MemoryOk := by
        simp only [s4]
        split
        · exact h3.quiet (by simp +decide)
        · exact h3
      clear_value s4
      have h5 : s5.MemoryOk := h4.quiet (by simp +decide [s5])
      clear_value s5
      have h6 : s6.MemoryOk := by
        simp only [s6]
        split
        · exact h5.resolve _ _ _ _
        · split
          · exact h5
          · exact h5.quiet (by simp +decide)
      exact (h6.signalNow _).done
    · exact h.stay

/-! Vanes. -/

theorem execVaneSignal_keepsMemory {c : Fin 4} {k : Fin 8} : KeepsMemory (execVaneSignal c k s) := by
  unfold execVaneSignal
  refine keepsMemory_issue h fun op => ?_
  dsimp only
  split
  · exact (h.quiet (by simp +decide)).signalNow _
  · exact h.quiet (by simp +decide)

theorem execVaneSignalTakesEffect_keepsMemory {v : VaneId} : KeepsMemory (execVaneSignalTakesEffect v s) := by
  unfold execVaneSignalTakesEffect
  dsimp only
  split
  · exact h.stay
  · exact ((h.quiet (by simp +decide)).signalNow _).done

theorem execVaneWait_keepsMemory {c : Fin 4} {k : Fin 8} : KeepsMemory (execVaneWait c k s) := by
  unfold execVaneWait
  refine keepsMemory_issue h fun op => ?_
  extract_lets v s1 s2 s3
  have h3 : s3.MemoryOk := (h.quiet (by simp +decide [s2, s1])).startDue
  clear_value s3
  split
  · exact h3.quiet (by simp +decide)
  · exact h3

/-! The arrays and the Draught engines. -/

theorem execDrainRowWrite_keepsMemory {g : Fin 8} : KeepsMemory (execDrainRowWrite g s) := by
  unfold execDrainRowWrite
  split
  · exact h.stay
  · next row rest hheld =>
    extract_lets c s1 s2 s3
    have h1 : s1.MemoryOk := h.quiet (by simp +decide [s1])
    clear_value s1
    have h2 : s2.MemoryOk := by
      simp only [s2]
      split
      · exact h1.quiet (by simp +decide)
      · exact State.landAll_ok h1 _
    clear_value s2
    split
    · refine (State.MemoryOk.quiet (?_ : s3.MemoryOk) (by simp +decide)).done
      simp only [s3]
      split
      · split
        · exact h2.quiet (by simp +decide)
        · exact h2
      · exact h2
    · exact h2.done

theorem execAccLoadRow_keepsMemory {g : Fin 8} : KeepsMemory (execAccLoadRow g s) := by
  unfold execAccLoadRow
  extract_lets x i
  split
  · next b rest hd =>
    extract_lets a
    split
    · exact h.stay
    · next ch hch =>
      split
      · exact h.stay
      · next o ho =>
        split
        · exact h.stay
        · extract_lets row s1 ranges src bad ends acc poison ch' mark s2 s3
          have h1 : s1.MemoryOk := by
            simp only [s1]
            split
            · exact h.quiet (by simp +decide)
            · exact h
          have h2 : s2.MemoryOk := State.touch_ok h1 ranges _
          have h3 : s3.MemoryOk := h2.quiet (by simp +decide [s3])
          clear_value s3
          split
          · exact (h3.quiet (by simp +decide)).done
          · exact h3.done
  · exact h.stay

theorem execDraughtDescComplete_keepsMemory {e : Fin 8} : KeepsMemory (execDraughtDescComplete e s) := by
  unfold execDraughtDescComplete
  split
  · exact h.stay
  · split
    · exact h.stay
    · extract_lets s1 s2 s3
      have h3 : s3.MemoryOk := h.quiet (by simp +decide [s3, s2, s1])
      exact (h3.signalNow _).done

end
end Sys2Proof.Machine
end

section
/-! SUPPORT. Register accesses, the fence, the chain and the slipstream keep all memory in canonical form, and so does a packet. -/

namespace Sys2Proof.Machine

section
variable {s : State} (h : s.MemoryOk)
include h

/-! Register writes. -/

theorem State.MemoryOk.clearStash (n : Fin 8) (o : Nat) (v : Word) : (s.clearStash n o v).MemoryOk := by
  unfold State.clearStash
  split
  · exact h.modStc n fun _ => rfl
  · exact h.modStc n fun _ => rfl
  · exact h

theorem State.MemoryOk.clearBits (off : Nat) (v : Word) : (s.clearBits off v).MemoryOk := by
  unfold State.clearBits
  split
  · exact h.quiet (by simp +decide)
  split
  · exact h.quiet (by simp +decide)
  split
  · exact h.quiet (by simp +decide)
  split
  · dsimp only
    split
    · exact h.quiet (by simp +decide)
    · exact h.quiet (by simp +decide)
  split
  · exact h.clearStash _ _ _
  · exact h.quiet (by simp +decide)

theorem State.MemoryOk.perfStash : s.perfStash.MemoryOk := by
  obtain ⟨hmem, hstash, hcore⟩ := h
  refine ⟨hmem, fun n => ?_, hcore⟩
  have hn : s.perfStash.stc n = { s.stc n with bank := Bank.zero 8, arr := (s.stc n).arr.clearHigh } := vector_get_map _ _ _
  rw [hn]
  exact hstash n

theorem State.MemoryOk.perfClear (v : Word) : (s.perfClear v).MemoryOk := by
  unfold State.perfClear
  extract_lets go
  have hgo {i : Nat} {f : State → State} {u : State} (hu : u.MemoryOk) (hf : (f u).MemoryOk) : (go i f u).MemoryOk := by
    simp only [go]
    split
    · exact hf
    · exact hu
  have h0 := hgo (i := 0) (f := State.perfCores) h (h.quiet (by simp +decide))
  have h1 := hgo (i := 1) (f := State.perfDraught) h0 (h0.quiet (by simp +decide))
  have h2 := hgo (i := 2) (f := State.perfMemory) h1 (h1.quiet (by simp +decide))
  have h3 := hgo (i := 3) (f := State.perfStash) h2 h2.perfStash
  have h4 := hgo (i := 4) (f := State.perfLinks) h3 (h3.quiet (by simp +decide))
  have h5 := hgo (i := 5) (f := State.perfSlip) h4 (h4.quiet (by simp +decide))
  exact hgo (i := 6) h5 (h5.quiet (by simp +decide))

theorem State.MemoryOk.store (p : Path) (off : Nat) (v : Word) : (s.store p off v).MemoryOk := by
  unfold State.store
  split
  · exact h.perfClear v
  · exact h.quiet (by simp +decide)
  · exact h.quiet (by simp +decide)
  · exact h.quiet (by simp +decide)
  · exact h.quiet (by simp +decide)
  · exact h.quiet (by simp +decide)
  · split
    · exact h.quiet (by simp +decide)
    · split
      · split
        · exact h.quiet (by simp +decide)
        · exact h
      · exact h.clearBits off v

theorem State.MemoryOk.writeAt (p : Path) (dev off : Nat) (v : Word) : (s.writeAt p dev off v).MemoryOk := by
  unfold State.writeAt
  split
  · exact h.quiet (by simp +decide)
  · split
    · exact h.quiet (by simp +decide)
    · exact h.quiet (by simp +decide)
    · exact h.quiet (by simp +decide)
    · exact h.quiet (by simp +decide)
    · split
      · exact h.quiet (by simp +decide)
      · split
        · exact h.store p off v
        · exact h.quiet (by simp +decide)

theorem State.MemoryOk.peerWrite (l : Fin 36) (p : Packet) : (s.peerWrite l p).MemoryOk := by
  unfold State.peerWrite
  split
  · exact h.quiet (by simp +decide)
  · have hwrite := h.writeAt (.peer l) p.src p.addr (BitVec.ofNat 32 (ofLe p.payload))
    exact hwrite.quiet (by simp +decide)

/-! The fence. -/

/-- What leaves the stacks and the stash tier, and of each core store every byte or none, keeps the form. -/
theorem State.MemoryOk.of_stores {t : State} (hmem : t.mem = s.mem) (hstash : t.stash = s.stash)
    (hstore : ∀ c, (t.core c).store = (s.core c).store ∨ (t.core c).store = []) : t.MemoryOk := by
  obtain ⟨hstacks, hstashes, hcores⟩ := h
  refine ⟨fun n => ?_, fun n => ?_, fun c => ?_⟩
  · unfold State.stack at hstacks ⊢
    rw [hmem]
    exact hstacks n
  · unfold State.stc at hstashes ⊢
    rw [hstash]
    exact hstashes n
  · rcases hstore c with hc | hc
    · rw [hc]
      exact hcores c
    · rw [hc]
      exact ⟨List.Pairwise.nil, fun _ he => absurd he List.not_mem_nil⟩

theorem State.MemoryOk.commit (gs : List MemberReq) : (s.commit gs).MemoryOk := by
  unfold State.commit
  extract_lets digest s1 s2 s3 s4 s5 s6
  have h1 : s1.MemoryOk := h.quiet (by simp +decide [s1])
  clear_value s1
  have h2 : s2.MemoryOk := (State.finishEntries_ok h1).quiet (by simp +decide [s2])
  clear_value s2
  have h3 : s3.MemoryOk := by
    refine h2.of_stores rfl rfl fun c => .inl ?_
    have hcore : s3.core c = Core.newStep (s2.core c) := vector_get_map Core.newStep s2.cores c
    rw [hcore]
    rfl
  clear_value s3
  have h5 : s5.MemoryOk := h3.quiet (by simp +decide [s5, s4])
  clear_value s5
  have h6 : s6.MemoryOk := h5.quiet (by simp +decide [s6])
  clear_value s6
  exact (h6.signalNow s6.stepSignals).quiet (by simp +decide)

theorem State.MemoryOk.rootClose : s.rootClose.MemoryOk := by
  unfold State.rootClose
  exact (h.quiet (by simp +decide)).commit _

theorem State.MemoryOk.fenceProgress : s.fenceProgress.MemoryOk := by
  unfold State.fenceProgress
  extract_lets u
  have hu : u.MemoryOk := h.quiet (by simp +decide [u])
  clear_value u
  split
  · exact hu.rootClose
  · exact hu

theorem State.MemoryOk.takeReport (l : Fin 36) (p : Packet) : (s.takeReport l p).MemoryOk := by
  unfold State.takeReport
  dsimp only
  split
  · exact h.quiet (by simp +decide)
  · split
    · exact h
    · exact (h.quiet (by simp +decide)).fenceProgress

theorem State.MemoryOk.takeClose (l : Fin 36) (p : Packet) : (s.takeClose l p).MemoryOk := by
  unfold State.takeClose
  split
  · exact h.quiet (by simp +decide)
  · extract_lets gs u
    have hu : u.MemoryOk := h.quiet (by simp +decide [u])
    clear_value u
    split
    · exact hu.commit gs
    · exact hu.quiet (by simp +decide)

/-! Reads, writes and answers of other devices. -/

theorem State.MemoryOk.remoteWrite (l : Fin 36) (p : Packet) : (s.remoteWrite l p).MemoryOk := by
  unfold State.remoteWrite
  dsimp only
  split
  · have hpoison : (s.poisonRanges [(p.addr, p.payload.length)]).MemoryOk := State.poisonRanges_ok h _
    exact hpoison.quiet (by simp +decide)
  · split
    · exact h.quiet (by simp +decide)
    · have hwrites := State.foldl_ok (fun s x => s.writeBytes x.1 x.2.1 x.2.2) (fun _ _ hu => State.writeBytes_ok hu _ _ _ _)
        (payloadLines p) h
      split
      · exact hwrites.quiet (by simp +decide)
      · exact hwrites

theorem State.MemoryOk.remoteRead (l : Fin 36) (p : Packet) : (s.remoteRead l p).MemoryOk := by
  unfold State.remoteRead
  dsimp only
  split
  · exact h.quiet (by simp +decide)
  · split
    · exact h.quiet (by simp +decide)
    · have htouch : (s.touch [(p.addr, min p.aux 4096)]).MemoryOk := State.touch_ok h _ _
      exact htouch.quiet (by simp +decide)

theorem State.MemoryOk.takeWriteAck (p : Packet) : (s.takeWriteAck p).MemoryOk := by
  unfold State.takeWriteAck
  split
  · exact h.answered _ _ _ _ _ _
  · exact h

theorem State.MemoryOk.takeReadData (p : Packet) : (s.takeReadData p).MemoryOk := by
  unfold State.takeReadData
  split
  · exact h.answered _ _ _ _ _ _
  · exact h

theorem State.MemoryOk.takeSignal (l : Fin 36) (p : Packet) : (s.takeSignal l p).MemoryOk := by
  unfold State.takeSignal
  extract_lets k n bad u
  have hu : u.MemoryOk := h.signalNow _
  clear_value u
  split
  · exact hu.quiet (by simp +decide)
  · exact hu

theorem State.MemoryOk.takeError (p : Packet) : (s.takeError p).MemoryOk := by
  unfold State.takeError
  dsimp only
  split
  · split
    · exact h.answered _ _ _ _ _ _
    · exact h
  · split
    · split
      · exact h.answered _ _ _ _ _ _
      · exact h
    · exact h.quiet (by simp +decide)

/-! Membership, and the shard of a device that joins. -/

theorem State.MemoryOk.joins (payload : List Byte) : (s.joins payload).MemoryOk := by
  unfold State.joins
  split
  · exact h
  · split
    · exact h.quiet (by simp +decide)
    · extract_lets s1 s2 s3
      have h3 : s3.MemoryOk := h.quiet (by simp +decide [s3, s2, s1])
      clear_value s3
      split
      · exact h3.signalNow _
      · exact h3

theorem State.MemoryOk.takeGrant (p : Packet) : (s.takeGrant p).MemoryOk := by
  unfold State.takeGrant
  split
  · exact h.joins _
  · split
    · exact h.quiet (by simp +decide)
    · exact h
  · exact h

theorem State.MemoryOk.shardCheck : s.shardCheck.MemoryOk := by
  unfold State.shardCheck
  extract_lets x cs u
  have hu : u.MemoryOk := h.quiet (by simp +decide [u])
  clear_value u
  split
  · split
    · exact hu.joins _
    · exact hu
  · exact h

theorem State.MemoryOk.acceptChunk (p : ChunkProof) (a : Nat) (bytes : List Byte) (store : Bool) :
    (s.acceptChunk p a bytes store).MemoryOk := by
  unfold State.acceptChunk
  extract_lets n stale loads s1 s2 s3 s4 tab s5
  have hwrite : (s.writeBytes a bytes false).MemoryOk := State.writeBytes_ok h _ _ _ _
  have h1 : s1.MemoryOk := hwrite.quiet (by simp +decide [s1])
  clear_value s1
  have h2 : s2.MemoryOk := h1.quiet (by simp +decide [s2])
  have h5 : s5.MemoryOk := h2.quiet (by simp +decide [s5, s4, s3])
  exact (h5.quiet (by simp +decide)).startDue

theorem State.MemoryOk.offerChunk (p : ChunkProof) (bytes : Option (List Byte)) (store : Bool) :
    (s.offerChunk p bytes store).MemoryOk := by
  unfold State.offerChunk
  split
  · exact h.quiet (by simp +decide)
  · split
    · exact h.quiet (by simp +decide)
    · split
      · split
        · exact h.acceptChunk _ _ _ _
        · exact h
      · exact h

theorem State.MemoryOk.takeShard (p : Packet) (proof : Option ChunkProof) : (s.takeShard p proof).MemoryOk := by
  unfold State.takeShard
  split
  · exact h.quiet (by simp +decide)
  · exact ((h.quiet (by simp +decide)).offerChunk _ _ _).shardCheck

/-! The slipstream. -/

theorem State.MemoryOk.reachChunk (n : Fin 12) (gi : Fin 256) (chunk : Nat) : (s.reachChunk n gi chunk).MemoryOk := by
  unfold State.reachChunk
  split
  · extract_lets u
    have hu : u.MemoryOk := h.quiet (by simp +decide [u])
    clear_value u
    split
    · exact hu.updateBlock _ _ _ _
    · exact hu
  · exact h

theorem State.MemoryOk.takeFrame (f : Frame) {act : State → State} (hact : ∀ u : State, u.MemoryOk → (act u).MemoryOk) :
    (s.takeFrame f act).MemoryOk := by
  unfold State.takeFrame
  split
  · exact h
  · extract_lets rx sameStep none u
    split
    · exact h.quiet (by simp +decide)
    · split
      · exact h
      · have hu : u.MemoryOk := h.quiet (by simp +decide [u])
        clear_value u
        split
        · exact hu.quiet (by simp +decide)
        · exact hact _ (hu.quiet (by simp +decide))

theorem State.MemoryOk.endChunk (f : Frame) : (s.endChunk f).MemoryOk := by
  unfold State.endChunk
  extract_lets drop
  split
  · next bytes hb =>
    extract_lets s1 s2
    have h1 : s1.MemoryOk := by
      simp only [s1]
      split
      · exact State.writeBytes_ok h _ _ _ _
      · exact h
    clear_value s1
    exact h1.quiet (by simp +decide [s2, drop])
  · exact h.quiet (by simp +decide [drop])

theorem State.MemoryOk.takeSlip (p : Packet) : (s.takeSlip p).MemoryOk := by
  unfold State.takeSlip
  dsimp only
  split
  · exact h.takeFrame _ fun u hu => hu.quiet (by simp +decide)
  · exact h.takeFrame _ fun u hu => hu.endChunk _
  · exact h.takeFrame _ fun u hu => hu.quiet (by simp +decide)
  · exact h.takeFrame _ fun u hu => hu.quiet (by simp +decide)
  · exact h.quiet (by simp +decide)
  · exact h.quiet (by simp +decide)
  · exact h.quiet (by simp +decide)
  · split
    · exact h.quiet (by simp +decide)
    · exact h

theorem State.MemoryOk.joinFrame (f : Frame) {act : State → State} (hact : ∀ u : State, u.MemoryOk → (act u).MemoryOk) :
    (s.joinFrame f act).MemoryOk := by
  unfold State.joinFrame
  extract_lets x none u
  split
  · exact h
  · have hu : u.MemoryOk := by
      simp only [u]
      split
      · exact h
      · exact h.quiet (by simp +decide)
    clear_value u
    split
    · exact hu.quiet (by simp +decide)
    · exact hact _ (hu.quiet (by simp +decide))

theorem State.MemoryOk.joinChunk (f : Frame) : (s.joinChunk f).MemoryOk := by
  unfold State.joinChunk
  extract_lets bytes place u
  have hu : u.MemoryOk := h.quiet (by simp +decide [u])
  clear_value u bytes place
  split
  · next _ _ bs a n =>
    split
    · have hwrite : (u.writeBytes a bs false).MemoryOk := State.writeBytes_ok hu _ _ _ _
      exact (hwrite.quiet (by simp +decide)).shardCheck
    · exact hu.quiet (by simp +decide)
  · exact hu.quiet (by simp +decide)

theorem State.MemoryOk.takeJoin (p : Packet) : (s.takeJoin p).MemoryOk := by
  unfold State.takeJoin
  dsimp only
  split
  · exact h.joinFrame _ fun u hu => hu.quiet (by simp +decide)
  · exact h.joinFrame _ fun u hu => hu.joinChunk _
  · exact h.joinFrame _ fun u hu => (hu.quiet (by simp +decide)).shardCheck
  · exact h.takeSlip p

end
end Sys2Proof.Machine
end

section
/-! SUPPORT. Packets, the memory controllers' commands, loading, resets and bring-up keep all memory in canonical form. -/

namespace Sys2Proof.Machine

section
variable {s : State} (h : s.MemoryOk)
include h

/-! Packets. -/

theorem State.MemoryOk.actOf (l : Fin 36) (p : Packet) (proof : Option ChunkProof) : (s.actOf l p proof).MemoryOk := by
  unfold State.actOf
  split
  · exact h.remoteWrite l p
  · exact h.takeWriteAck p
  · exact h.remoteRead l p
  · exact h.takeReadData p
  · exact h.takeSignal l p
  · exact h.takeError p
  · exact h.quiet (by simp +decide)
  · exact h.peerWrite l p
  · split
    · exact h.takeJoin p
    · exact h.takeSlip p
  · exact h.takeReport l p
  · exact h.takeClose l p
  · exact h.quiet (by simp +decide)
  · exact h.quiet (by simp +decide)
  · exact h.takeGrant p
  · exact h.quiet (by simp +decide)
  · exact h.quiet (by simp +decide)
  · exact h.takeShard p proof
  · exact h

theorem State.MemoryOk.actOn (x : HeldPkt) : (s.actOn x).MemoryOk := by
  unfold State.actOn
  exact (h.quiet (by simp +decide)).actOf _ _ _

omit h in
theorem State.MemoryOk.release (src vl fuel : Nat) : ∀ {s : State}, s.MemoryOk → (s.release src vl fuel).MemoryOk := by
  induction fuel with
  | zero => exact fun h => h
  | succ n ih =>
    intro s h
    unfold State.release
    split
    · exact ih (h.actOn _)
    · exact h

theorem State.MemoryOk.inOrder (l : Fin 36) (p : Packet) (proof : Option ChunkProof) : (s.inOrder l p proof).MemoryOk := by
  unfold State.inOrder
  dsimp only
  split
  · exact (h.actOn ⟨l, p, proof⟩).release _ _ _
  · split
    · exact h.quiet (by simp +decide)
    · refine h.quiet ?_
      split <;> simp +decide

theorem State.MemoryOk.deliverPkt (l : Fin 36) (p : Packet) (proof : Option ChunkProof) : (s.deliverPkt l p proof).MemoryOk := by
  unfold State.deliverPkt
  extract_lets keyed u
  have hu : u.MemoryOk := h.quiet (by simp +decide [u])
  clear_value u
  split
  · exact hu
  · split
    · exact hu.quiet (by simp +decide)
    · exact hu.inOrder l p proof

theorem State.MemoryOk.rootJudge : s.rootJudge.MemoryOk := h.quiet (by simp +decide)

theorem keepsMemory_takes {l : Fin 36} {p : Packet} {type : Nat} : KeepsMemory (s.takes l p type) := by
  unfold State.takes
  split
  · exact (h.deliverPkt _ _ _).done
  · exact h.stay

theorem keepsMemory_takesFence {l : Fin 36} {p : Packet} {type : Nat} : KeepsMemory (s.takesFence l p type) := by
  unfold State.takesFence
  split
  · exact (h.deliverPkt _ _ _).rootJudge.done
  · exact h.stay

theorem keepsMemory_takesAll {xs : List (Fin 36 × Packet)} : KeepsMemory (s.takesAll xs) := by
  unfold State.takesAll
  refine State.MemoryOk.done (State.MemoryOk.rootJudge ?_)
  exact State.foldl_ok _ (fun _ _ hu => hu.deliverPkt _ _ _) xs h

theorem keepsMemory_takesFrame {l : Fin 36} {p : Packet} {f : Frame} {ok : Nat → Bool} : KeepsMemory (s.takesFrame l p f ok) := by
  unfold State.takesFrame
  split
  · exact keepsMemory_takes h
  · exact h.stay

theorem keepsMemory_abandons {l : Fin 36} {p : Packet} {kind : Nat} :
    KeepsMemory (if abandons kind p then s.takesFence l p 0x22 else stay s) := by
  split
  · exact keepsMemory_takesFence h
  · exact h.stay

theorem execShard_keepsMemory {l : Fin 36} {p : Packet} {proof : Option ChunkProof} : KeepsMemory (execShard l p proof s) := by
  unfold execShard
  split
  · exact (h.deliverPkt _ _ _).done
  · exact h.stay

theorem execRestoreChunk_keepsMemory {proof : ChunkProof} {src : ChunkSource} : KeepsMemory (execRestoreChunk proof src s) := by
  unfold execRestoreChunk
  split
  · exact (h.offerChunk _ _ _).done
  · exact h.stay

/-! The fence, the Foehn units and the slipstream's sender. -/

theorem execLocalFence_keepsMemory : KeepsMemory (execLocalFence s) := by
  unfold execLocalFence
  split
  · exact (h.quiet (by simp +decide)).fenceProgress.done
  · exact h.stay

theorem execCommit_keepsMemory : KeepsMemory (execCommit s) := by
  unfold execCommit
  split
  · exact h.stay
  split
  · exact (h.commit _).done
  split
  · exact h.rootClose.done
  · exact h.stay

theorem execLoadComplete_keepsMemory : KeepsMemory (execLoadComplete s) := by
  unfold execLoadComplete
  split
  · extract_lets u
    have hu : u.MemoryOk := h.of_eq rfl rfl rfl
    clear_value u
    split
    · exact (hu.signalNow _).done
    · exact hu.done
  · exact h.stay

theorem execGroupUpdateComplete_keepsMemory {n : Fin 12} {group : Fin 256} : KeepsMemory (execGroupUpdateComplete n group s) := by
  unfold execGroupUpdateComplete
  split
  · next x g hrun hg =>
    split
    · exact h.stay
    · extract_lets s1
      have h1 : s1.MemoryOk := h.updateBlocks _ _ _ _
      clear_value s1
      split
      · exact (h1.quiet (by simp +decide)).startDue.done
      · next b bad hb =>
        split
        · exact h1.done
        · extract_lets stop s2 s3
          have h2 : s2.MemoryOk := h1.quiet (by simp +decide [s2])
          clear_value s2
          have h3 : s3.MemoryOk := by
            simp only [s3]
            split
            · exact h2.signalNow _
            · exact h2.startDue
          clear_value s3
          split
          · exact (h3.quiet (by simp +decide)).done
          · exact h3.done
  · exact h.stay

theorem execChunkSend_keepsMemory {n : Fin 12} {group : Fin 256} {kind : Fin 3} {chunk : Nat} :
    KeepsMemory (execChunkSend n group kind chunk s) := by
  unfold execChunkSend
  split
  · exact h.stay
  · extract_lets u
    have hu : u.MemoryOk := by
      simp only [u]
      split
      · exact h
      · exact h.reachChunk _ _ _
    clear_value u
    split
    · exact (hu.quiet (by simp +decide)).done
    · exact (hu.quiet (by simp +decide)).done

/-! The commands of the memory controllers. -/

theorem State.MemoryOk.answer (a : Option (List Byte × Bool)) : ({ s with answer := a } : State).MemoryOk := h.of_eq rfl rfl rfl

theorem execHbmRead_keepsMemory {addr : Nat} {upset : List Byte} {flags : BitVec 16} :
    KeepsMemory (execHbmRead addr upset flags s) := by
  unfold execHbmRead
  split
  · exact h.stay
  · next n line hline =>
    extract_lets u
    have hu : u.MemoryOk := State.modStack_ok h n _ (LineMem.strike_ok (h.1 n) _ _ _)
    clear_value u
    exact (State.MemoryOk.answer (State.touchLine_ok hu addr _) _).done

theorem execHbmWrite_keepsMemory {addr : Nat} {data : List Byte} {poison : Bool} :
    KeepsMemory (execHbmWrite addr data poison s) := by
  unfold execHbmWrite
  split
  · exact h.stay
  · split
    · exact h.stay
    · exact (State.writeLine_ok h _ _ _ _ _).done

theorem execCorrectionWriteBack_keepsMemory {n : Fin 12} {line : Nat} : KeepsMemory (execCorrectionWriteBack n line s) := by
  unfold execCorrectionWriteBack
  split
  · exact h.stay
  · exact (State.modStack_ok h n _ (LineMem.fix_ok (h.1 n) line stackCache)).done

theorem execWcEntryFinish_keepsMemory {unit : Fin 20} {line : Nat} : KeepsMemory (execWcEntryFinish unit line s) := by
  unfold execWcEntryFinish
  split
  · exact h.stay
  · split
    · exact h.stay
    · split
      · exact (State.finishStack_ok h _ _).done
      · exact (State.finishStash_ok h _ _).done

theorem execCheckLineEvict_keepsMemory {unit : Fin 20} {group : Nat} : KeepsMemory (execCheckLineEvict unit group s) := by
  unfold execCheckLineEvict
  dsimp only
  split
  · exact h.stay
  · have hkeeps := LineMem.evict_keeps (s.unitLines unit) group
    split
    · next n hn =>
      rw [unitLines_inl hn] at hkeeps ⊢
      exact (State.modStack_ok h n _ (hkeeps.ok (h.1 n))).done
    · next n hn =>
      rw [unitLines_inr hn] at hkeeps ⊢
      obtain ⟨hok, hfixes⟩ := h.2.1 n
      obtain ⟨_, _, hkept, _⟩ := id hkeeps
      exact (State.modStc_ok h n _ (hkeeps.ok hok) (hkept.trans hfixes)).done

theorem execStackFault_keepsMemory {what : ServiceFault} : KeepsMemory (execStackFault what s) := by
  unfold execStackFault
  split
  · exact h.stay
  · split
    · exact (h.quiet (by simp +decide)).done
    · exact (h.quiet (by simp +decide [Core.halt])).done
    · next n second =>
      obtain ⟨hok, hfixes⟩ := h.2.1 n
      exact (State.modStc_ok h n _ (hok.of_eq rfl rfl) hfixes).done

theorem execStashRead_keepsMemory {addr : Nat} {upset : List Byte} {fails : Fin 5} :
    KeepsMemory (execStashRead addr upset fails s) := by
  unfold execStashRead
  split
  · exact h.stay
  · next n line code hline =>
    extract_lets u out
    have hu : u.MemoryOk := by
      obtain ⟨hok, hfixes⟩ := h.2.1 n
      have hstruck : (s.modStc n (fun c => { c with arr := c.arr.strike line upset 0 })).MemoryOk :=
        State.modStc_ok h n _ (LineMem.strike_ok hok _ _ _) hfixes
      exact hstruck.modStc n fun _ => rfl
    clear_value u
    split
    · exact (State.MemoryOk.answer (State.touchLine_ok hu addr _) _).done
    · have hlost := (LineMem.readLost_keeps (u.stc n).arr line stashCache).ok (hu.2.1 n).1
      dsimp only
      exact (State.MemoryOk.answer (State.stashTook_ok hu n hlost _ _ _ _) _).done

theorem execStashWrite_keepsMemory {addr : Nat} {data : List Byte} {poison : Bool} {fails : Fin 5} :
    KeepsMemory (execStashWrite addr data poison fails s) := by
  unfold execStashWrite
  split
  · exact h.stay
  · next n _ _ hline =>
    split
    · exact h.stay
    · extract_lets u
      have hu : u.MemoryOk := h.modStc n fun _ => rfl
      clear_value u
      split
      · exact (State.writeLine_ok hu _ _ _ _ _).done
      · exact (State.poisonLine_ok hu _).done

end
end Sys2Proof.Machine
end

section
/-! SUPPORT. Register rows, the host's accesses, loading, resets and bring-up keep all memory in canonical form. -/

namespace Sys2Proof.Machine

section
variable {s : State} (h : s.MemoryOk)
include h

/-! Register rows and BAR2. -/

theorem keepsMemory_pathWrite {p : Path} {off : Nat} {v : Word} : KeepsMemory (s.pathWrite p off v) := by
  unfold State.pathWrite
  split
  · exact h.stay
  · split
    · exact (h.quiet (by simp +decide)).done
    · dsimp only
      have hwrite := (h.quiet (t := s.respond p (s.verdict p off true) []) (by simp +decide)).writeAt p s.self off v
      exact (hwrite.quiet (by simp +decide)).done

theorem execXchkRowCompare_keepsMemory {w : Fin 8} : KeepsMemory (execXchkRowCompare w s) :=
  StaysWithin.keepsMemory (execXchkRowCompare_within.mono (by decide)) h

omit h in
theorem keepsMemory_compareMet {t : State} {w : Fin 8} (ht : t.MemoryOk) : KeepsMemory (s.compareMet t w) := by
  unfold State.compareMet
  have hrow := execXchkRowCompare_keepsMemory ht (w := w)
  split
  · next u r hu hr =>
    extract_lets old
    have hkept := hrow u hu
    split
    · exact (hkept.quiet (by simp +decide)).done
    · exact hkept.done
  · exact hrow

theorem keepsMemory_formWrite {p : Path} {off : Nat} {v : Word} {f : Form} : KeepsMemory (s.formWrite p off v f) := by
  unfold State.formWrite
  extract_lets o
  have ho : KeepsMemory o := by
    simp only [o]
    split
    · exact keepsMemory_pathWrite h
    · exact StaysWithin.keepsMemory (staysWithin_badForm.mono (by decide)) h
  clear_value o
  split
  · next w u hw =>
    exact keepsMemory_compareMet (ho u rfl)
  · exact ho

theorem execEvrCursorWrite_keepsMemory {p : Path} {lo hi : Word} : KeepsMemory (execEvrCursorWrite p lo hi s) := by
  unfold execEvrCursorWrite
  have hlo : KeepsMemory (s.pathWrite p cursorLo lo) := keepsMemory_pathWrite h
  split
  · next u hu => exact keepsMemory_pathWrite (hlo u hu)
  · exact hlo

omit h in
theorem keepsMemory_ite {c : Prop} [Decidable c] {a b : Out} (ha : c → KeepsMemory a) (hb : ¬c → KeepsMemory b) :
    KeepsMemory (if c then a else b) := by
  split
  · exact ha ‹_›
  · exact hb ‹_›

theorem State.MemoryOk.barReadDenied (fn : Fin 2) (a n : Nat) : (s.barReadDenied fn a n).MemoryOk :=
  h.quiet ((onlyChanges_barReadDenied (by decide)).2 (onlyChanges_refl _ s))

theorem execBar2Read_keepsMemory {fn : Fin 2} {off len : Nat} : KeepsMemory (execBar2Read fn off len s) := by
  unfold execBar2Read
  refine keepsMemory_ite (fun _ => h.stay) fun _ => keepsMemory_ite (fun _ => (h.barReadDenied _ _ _).done) fun _ => ?_
  split
  · exact ((h.answer none).quiet ((onlyChanges_barViolate (by decide)).2 (onlyChanges_refl _ _))).done
  · refine keepsMemory_ite (fun _ => ?_) fun _ => (h.barReadDenied _ _ _).done
    have hread : (s.touch [(s.barAddress fn off, len)]).MemoryOk := State.touch_ok h _ _
    exact (hread.quiet ((onlyChanges_respond (by decide)).2 ((onlyChanges_answer (by decide)).2 (onlyChanges_refl _ _)))).done

theorem State.MemoryOk.stageWrite (fn : Fin 2) (off : Nat) (data : List Byte) : (s.stageWrite fn off data).MemoryOk := by
  unfold State.stageWrite
  split
  · exact State.writeBytes_ok (h.quiet (by simp +decide)) _ _ _ _
  split
  · exact h.quiet (by simp +decide)
  · exact h.quiet (by simp +decide)

theorem execBar2Write_keepsMemory {fn : Fin 2} {off : Nat} {data : List Byte} : KeepsMemory (execBar2Write fn off data s) := by
  unfold execBar2Write
  extract_lets p a
  split
  · exact h.stay
  split
  · exact (h.stageWrite fn off data).done
  split
  · exact (h.quiet (by simp +decide)).done
  split
  · exact (State.writeBytes_ok (h.quiet (by simp +decide)) _ _ _ _).done
  · exact (h.quiet (by simp +decide)).done

theorem execReferenceClockLoss_keepsMemory {clock : RefClock} : KeepsMemory (execReferenceClockLoss clock s) := by
  unfold execReferenceClockLoss
  split
  · exact (h.quiet (by simp +decide)).done
  · next east =>
    unfold State.retrainDie
    extract_lets u
    have hu : u.MemoryOk := State.foldl_ok _ (fun v n hv => State.modStack_ok hv n _ (hv.1 n)) (dieStacks east) h
    clear_value u
    refine State.MemoryOk.done (State.foldl_ok _ (fun v n hv => ?_) (dieStash east) hu)
    exact hv.modStc n fun _ => rfl
  · exact (h.quiet (by simp +decide)).done

/-! Loading from the host. -/

theorem State.MemoryOk.hostTake (f : Frame) : (s.hostTake f).1.MemoryOk := by
  unfold State.hostTake
  extract_lets g
  split
  · exact h
  · split
    · exact h
    split
    · dsimp only
      split
      · exact h.quiet (by simp +decide)
      · exact h
    split
    · dsimp only
      split
      · exact State.writeBytes_ok h _ _ _ _
      · exact h
    dsimp only
    split
    · exact h.of_eq rfl rfl rfl
    · exact h

omit h in
theorem State.MemoryOk.hostFrames (fuel : Nat) :
    ∀ {s : State} (bs : List Byte), s.MemoryOk → (s.hostFrames fuel bs).1.MemoryOk := by
  induction fuel with
  | zero => exact fun _ h => h
  | succ m ih =>
    intro s bs h
    unfold State.hostFrames
    split
    · exact h
    · split
      · exact h
      · next f rest hf =>
        have htook := h.hostTake f
        split
        · next u hu =>
          rw [hu] at htook
          exact ih rest htook
        · next u hu =>
          rw [hu] at htook
          exact htook

theorem State.MemoryOk.loadBuffer (c b : Nat) (plain : List Byte) : (s.loadBuffer c b plain).MemoryOk := by
  unfold State.loadBuffer
  split
  next u ok hu =>
    have hframes := State.MemoryOk.hostFrames (plain.length / 64 + 1) plain h
    rw [hu] at hframes
    dsimp only at hframes
    extract_lets s1 s2
    have h1 : s1.MemoryOk := by
      simp only [s1]
      split
      · exact hframes
      · exact h
    clear_value s1
    have h2 : s2.MemoryOk := h1.quiet (by simp +decide [s2])
    clear_value s2
    refine h2.quiet ?_
    split
    · split <;> simp +decide
    · simp +decide

theorem execIngestBufferReady_keepsMemory : KeepsMemory (execIngestBufferReady s) := by
  unfold execIngestBufferReady
  split
  · exact h.stay
  · next c p tag hrun =>
    split
    · next e ch hch =>
      split
      · exact h.stay
      · next b hb =>
        extract_lets n sealed lost1 lost2 lost3
        split
        · have hwrite : (s.writeBytes (ingBuffer e b + 64) ((s.freeCodes n).map (BitVec.ofNat 8)) false).MemoryOk :=
            State.writeBytes_ok h _ _ _ _
          exact (hwrite.quiet (by simp +decide [lost3, lost2, lost1])).done
        · next plain hplain =>
          extract_lets s1 s2 s3 s4
          have h1 : s1.MemoryOk := by
            simp only [s1]
            split
            · exact State.writeBytes_ok h _ _ _ _
            · exact h
          clear_value s1
          have h3 : s3.MemoryOk := h1.quiet (by simp +decide [s3, s2])
          clear_value s3
          have h4 : s4.MemoryOk := by
            simp only [s4]
            split
            · exact h3.loadBuffer _ _ _
            · exact h3.signalNow _
          clear_value s4
          exact (h4.quiet (by simp +decide)).done
    · exact h.stay

/-! Zeroing, resets and bring-up. -/

omit h in
theorem lineMemZero_ok : LineMem.zero.Ok := ⟨by decide, by decide⟩

theorem State.MemoryOk.dropTables : s.dropTables.MemoryOk :=
  h.of_stores rfl rfl fun c => .inr (congrArg Core.store (vector_get_map Core.wiped s.cores c))

theorem State.MemoryOk.zeroFill : s.zeroFill.MemoryOk := by
  obtain ⟨-, -, hcores⟩ := h.dropTables
  refine ⟨fun n => ?_, fun n => ?_, hcores⟩
  · have hn : s.zeroFill.stack n = { s.stack n with arr := LineMem.zero } := vector_get_map _ _ _
    rw [hn]
    exact lineMemZero_ok
  · have hn : s.zeroFill.stc n = { s.stc n with arr := LineMem.zero, key := none, keyReady := false } := vector_get_map _ _ _
    rw [hn]
    exact ⟨lineMemZero_ok, rfl⟩

theorem execUnlockComplete_keepsMemory : KeepsMemory (execUnlockComplete s) := by
  unfold execUnlockComplete
  split
  · exact h.stay
  · extract_lets u
    have hu : u.MemoryOk := h.zeroFill.quiet (by simp +decide [u])
    clear_value u
    split
    · exact (hu.quiet (by simp +decide)).done
    · exact hu.done

theorem State.MemoryOk.trained (env : Phase5Env) : (s.trained env).MemoryOk := by
  obtain ⟨hstacks, -, hcores⟩ := h
  have htrain (x : Stack) (hx : x.arr.Ok) (failed fill : Bool) : (x.train failed fill).arr.Ok := by
    unfold Stack.train
    dsimp only
    split
    · exact lineMemZero_ok
    · exact hx
  refine ⟨fun n => ?_, fun n => ?_, fun c => ?_⟩
  · unfold State.stack
    rw [trained_mem]
    unfold State.trainStacks
    dsimp only
    split
    · split
      · rw [vector_get_map]
        exact htrain _ (hstacks n) _ _
      · exact hstacks n
    · rw [vector_get_ofFn]
      exact htrain _ (hstacks n) _ _
  · obtain ⟨harr, -, -⟩ := trained_stash s env n
    rw [harr]
    exact ⟨lineMemZero_ok, rfl⟩
  · have hc : (s.trained env).core c = s.core c := by
      unfold State.trained State.trainStash State.trainStacks
      dsimp only
      split
      · split <;> rfl
      · rfl
    rw [hc]
    exact hcores c

theorem execPhase5_keepsMemory {env : Phase5Env} : KeepsMemory (execPhase5 env s) := by
  have htrained := h.trained env
  unfold execPhase5
  split
  · exact h.stay
  · split
    · exact (h.quiet (by simp +decide)).done
    · change KeepsMemory (if (s.trained env).sec.zeroiseFlag then done (s.trained env).endUnlock
        else done ((s.trained env).enterPhase 6))
      generalize s.trained env = u at htrained ⊢
      split
      · unfold State.endUnlock
        exact (htrained.dropTables.quiet (by simp +decide)).done
      · exact (htrained.quiet (by simp +decide)).done

end
end Sys2Proof.Machine
end

section
/-! SUPPORT. The start of a plan, the taking of a reset, and every step keep all memory in canonical form. -/

namespace Sys2Proof.Machine

/-! Writes and zeros over a whole region. -/

section
variable {m : LineMem}

theorem LineMem.Keeps.refl (m : LineMem) : m.Keeps m := ⟨rfl, rfl, rfl, rfl⟩

theorem LineMem.keeps_foldl {α : Type} {f : LineMem → α → LineMem} (hf : ∀ (m : LineMem) a, m.Keeps (f m a)) (l : List α)
    (m : LineMem) :
    m.Keeps (l.foldl f m) := by
  induction l generalizing m with
  | nil => exact .refl m
  | cons a l ih => exact (hf m a).trans (ih _)

theorem LineMem.keeps_foldl_fst {α β : Type} {f : LineMem × β → α → LineMem × β}
    (hf : ∀ (z : LineMem × β) a, z.1.Keeps (f z a).1) (l : List α)
    (z : LineMem × β) : z.1.Keeps (l.foldl f z).1 := by
  induction l generalizing z with
  | nil => exact .refl z.1
  | cons a l ih => exact (hf z a).trans (ih _)

theorem LineMem.writeGroups_keeps (m : LineMem) (first n max : Nat) : m.Keeps (m.writeGroups first n max).1 := by
  unfold LineMem.writeGroups
  split
  · exact .refl m
  · refine keeps_foldl_fst (fun z i => ?_) _ (m, LineEv.none)
    exact (touchGroup_keeps _ _ _ _).trans (turn_keeps _ _ _)

theorem memWf_filter {x : List (Nat × Byte)} (h : memWf x) (p : Nat × Byte → Bool) : memWf (x.filter p) :=
  ⟨h.1.filter p, fun e he => h.2 e (List.mem_filter.1 he).1⟩

theorem LineMem.wipe_ok (h : m.Ok) (lo n : Nat) : (m.wipe lo n).Ok := by
  unfold LineMem.wipe
  extract_lets keep u
  have hu : u.Ok := ⟨memWf_filter h.1 _, memWf_filter h.2 _⟩
  refine (keeps_foldl (fun v g => keeps_foldl (fun w i => ?_) _ v) _ u).ok hu
  dsimp only
  split
  · exact .refl w
  · exact w.setPoison_keeps _ _

theorem LineMem.evictAll_keeps (m : LineMem) : m.Keeps (m.cache.foldl (fun (acc : LineMem × LineEv) g =>
    let (a, e) := acc.1.evict g; (a, acc.2.plus e)) (m, LineEv.none)).1 := by
  refine keeps_foldl_fst ?_ _ (m, LineEv.none)
  exact fun z g => z.1.evict_keeps g

end

section
variable {s : State} (h : s.MemoryOk)
include h

/-! The start of a plan. -/

theorem State.MemoryOk.loadZeros : s.loadZeros.MemoryOk := by
  unfold State.loadZeros
  refine State.foldl_ok _ (fun u l hu => ?_) _ h
  dsimp only
  split
  · next r hr =>
    exact State.modStack_ok hu _ _ (LineMem.wipe_ok ((LineMem.writeGroups_keeps _ _ _ _).ok (hu.1 _)) _ _)
  · exact hu

theorem State.MemoryOk.startRun : s.startRun.MemoryOk := by
  unfold State.startRun
  extract_lets p s1 s2 s3
  have h1 : s1.MemoryOk := h.of_eq rfl rfl rfl
  clear_value s1
  have h3 : s3.MemoryOk := h1.quiet (by simp +decide [s3, s2])
  exact h3.loadZeros

theorem State.MemoryOk.startPlan : s.startPlan.MemoryOk := by
  unfold State.startPlan
  extract_lets core s1 s2 role s3 s4
  have h1 : s1.MemoryOk := by
    refine h.of_stores rfl rfl fun c => .inl ?_
    have hc : s1.core c = (s.core c).start (s.prog c) core := vector_get_ofFn _ c
    rw [hc]
    rfl
  clear_value s1
  have h2 : s2.MemoryOk := by
    simp only [s2]
    split
    · exact h1
    · exact h1.startRun
  clear_value s2 role
  have h4 : s4.MemoryOk := h2.quiet (by simp +decide [s4, s3])
  clear_value s4
  split
  · exact h4.signalNow _
  · exact h4

theorem execPhase9_keepsMemory : KeepsMemory (execPhase9 s) := by
  unfold execPhase9
  split
  · exact h.stay
  · extract_lets s1 s2
    have h2 : s2.MemoryOk := h.quiet (by simp +decide [s2, s1])
    exact h2.startPlan.done

/-! The taking of a reset. -/

theorem State.MemoryOk.selfRefresh : s.selfRefresh.MemoryOk := by
  unfold State.selfRefresh
  extract_lets u
  have hu : u.MemoryOk := State.finishEntries_ok h
  clear_value u
  obtain ⟨hstacks, hrest⟩ := hu
  refine ⟨fun n => ?_, hrest⟩
  unfold State.stack
  rw [vector_get_map]
  exact (LineMem.evictAll_keeps _).ok (hstacks n)

theorem State.MemoryOk.coreScope : s.coreScope.MemoryOk := by
  obtain ⟨hstacks, -, -⟩ := h
  refine ⟨hstacks, fun n => ?_, fun c => ?_⟩
  · have hn : s.coreScope.stc n = (s.stc n).cleared := vector_get_map _ _ n
    rw [hn]
    exact ⟨lineMemZero_ok, rfl⟩
  · have hc : s.coreScope.core c = (s.core c).cleared := vector_get_map _ _ c
    rw [hc]
    exact ⟨List.Pairwise.nil, fun _ he => absurd he List.not_mem_nil⟩

theorem State.MemoryOk.wideScope (cold powerOn : Bool) : (s.wideScope cold powerOn).MemoryOk := by
  obtain ⟨-, -, hreset⟩ := resetIsGood
  obtain ⟨-, hstash, hcores⟩ := hreset
  refine ⟨fun n => ?_, hstash, hcores⟩
  have hn : (s.wideScope cold powerOn).stack n = (s.stack n).cleared := vector_get_map _ _ n
  rw [hn]
  exact (h.1 n).of_eq rfl rfl

theorem State.MemoryOk.applyScope (k : Taking) : (s.applyScope k).MemoryOk := by
  unfold State.applyScope
  extract_lets u
  have hu : u.MemoryOk := by
    simp only [u]
    split
    · exact h.coreScope
    · exact h.wideScope _ _
    · exact h.wideScope _ _
  exact hu.quiet (by simp +decide)

theorem execResetTake_keepsMemory : KeepsMemory (execResetTake s) := by
  unfold execResetTake
  split
  · exact h.stay
  · next k hk =>
    split
    · exact h.stay
    · extract_lets s1 s2 k2 s3 s4 k4
      have h1 : s1.MemoryOk := by
        simp only [s1]
        split
        · exact State.MemoryOk.close (h.quiet (by simp +decide))
        · exact h
      clear_value s1
      split
      · exact h1.stay
      · have h2 : s2.MemoryOk := by
          simp only [s2]
          split
          · exact h1.quiet (by simp +decide)
          · split
            · exact h1.quiet (by simp +decide)
            · exact h1.quiet (by simp +decide)
        clear_value s2
        have h3 : s3.MemoryOk := by
          simp only [s3]
          split
          · exact h2.selfRefresh
          · exact h2
        clear_value s3
        have h4 : s4.MemoryOk := h3.applyScope _
        clear_value s4
        exact (h4.quiet (by simp +decide)).done

end

/-! Every command and every step. -/

/-- Every command keeps all memory in canonical form: those that may touch memory by their own lemmas, the others by their frame. -/
theorem exec_keepsMemory (i : Instr) {s : State} (h : s.MemoryOk) : KeepsMemory (exec i s) := by
  by_cases hquiet : writes i ⊆ partsQuiet
  · exact (exec_staysWithin i s |>.mono hquiet).keepsMemory h
  cases i
  all_goals unfold exec
  case registerWrite | loWrite | hiWrite => exact keepsMemory_formWrite h
  case vioStatusClear | hpApertureWrite | mbRegWrite | perfClearCores | perfClearDraught | perfClearMemory |
      perfClearStash | perfClearLinks | perfClearSlipstream | perfClearViolations | veerHistSelWrite | rstHistSelWrite |
      hltCanarySelWrite =>
    exact keepsMemory_pathWrite h
  case evrCursorWrite => exact execEvrCursorWrite_keepsMemory h
  case bar2Read => exact execBar2Read_keepsMemory h
  case bar2Write | stagingLengthWrite => exact execBar2Write_keepsMemory h
  case fetchOperation => exact keepsMemory_fetchStep h
  case fillRow | fillCol | draught => exact keepsMemory_fetchRow h
  case gather => exact execGather_keepsMemory h
  case scatter => exact execScatter_keepsMemory h
  case merge => exact execMerge_keepsMemory h
  case compact => exact execCompact_keepsMemory h
  case expand => exact execExpand_keepsMemory h
  case eddyTile => exact execEddyTile_keepsMemory h
  case predict => exact execPredict_keepsMemory h
  case verify => exact execVerify_keepsMemory h
  case route => exact execRoute_keepsMemory h
  case tcopy => exact execTcopy_keepsMemory h
  case pcopy => exact execPcopy_keepsMemory h
  case copy => exact execCopy_keepsMemory h
  case convert => exact execConvert_keepsMemory h
  case vecAdd => exact execVecAdd_keepsMemory h
  case vecSub => exact execVecSub_keepsMemory h
  case vecMul => exact execVecMul_keepsMemory h
  case vecFma => exact execVecFma_keepsMemory h
  case vecFunc => exact execVecFunc_keepsMemory h
  case vecMax => exact execVecMax_keepsMemory h
  case vecMin => exact execVecMin_keepsMemory h
  case vecSum => exact execVecSum_keepsMemory h
  case vecDot => exact execVecDot_keepsMemory h
  case vecSelect => exact execVecSelect_keepsMemory h
  case vecDropout => exact execVecDropout_keepsMemory h
  case move | mxStore | compress => exact keepsMemory_startItem h
  case dataFrame | chunkEnd | chunkAck | chunkNak | stepEnd | stepAck | abortFrame => exact keepsMemory_takesFrame h
  case writePacket | writeAck | readReq | readData | errorPacket | peerRegRead | peerRegWrite | regResp | heartbeat =>
    exact keepsMemory_takes h
  case signalPacket | fenceReport | fenceClose | memberGrant | memberDeny => exact keepsMemory_takesFence h
  case report | memberReqAttach | memberReqDetach | memberReqTakeover => exact keepsMemory_takesAll h
  case retryOrder | retryDone | haltOrder => exact keepsMemory_abandons h
  case predictComplete => exact execPredictComplete_keepsMemory h
  case vectorOperationComplete => exact execVectorOperationComplete_keepsMemory h
  case copyOperationComplete => exact execCopyOperationComplete_keepsMemory h
  case eddyOperationComplete => exact execEddyOperationComplete_keepsMemory h
  case dispatchPair => exact execDispatchPair_keepsMemory h
  case routeComplete => exact execRouteComplete_keepsMemory h
  case vaneSignal => exact execVaneSignal_keepsMemory h
  case vaneSignalTakesEffect => exact execVaneSignalTakesEffect_keepsMemory h
  case vaneWait => exact execVaneWait_keepsMemory h
  case drainRowWrite => exact execDrainRowWrite_keepsMemory h
  case accLoadRow => exact execAccLoadRow_keepsMemory h
  case draughtDescComplete => exact execDraughtDescComplete_keepsMemory h
  case localFence => exact execLocalFence_keepsMemory h
  case commit => exact execCommit_keepsMemory h
  case loadComplete => exact execLoadComplete_keepsMemory h
  case groupUpdateComplete => exact execGroupUpdateComplete_keepsMemory h
  case chunkSend => exact execChunkSend_keepsMemory h
  case hbmRead => exact execHbmRead_keepsMemory h
  case hbmWrite => exact execHbmWrite_keepsMemory h
  case correctionWriteBack => exact execCorrectionWriteBack_keepsMemory h
  case wcEntryFinish => exact execWcEntryFinish_keepsMemory h
  case checkLineEvict => exact execCheckLineEvict_keepsMemory h
  case stackFault => exact execStackFault_keepsMemory h
  case stashRead => exact execStashRead_keepsMemory h
  case stashWrite => exact execStashWrite_keepsMemory h
  case shard => exact execShard_keepsMemory h
  case restoreChunk => exact execRestoreChunk_keepsMemory h
  case unlockComplete => exact execUnlockComplete_keepsMemory h
  case ingestBufferReady => exact execIngestBufferReady_keepsMemory h
  case phase5 => exact execPhase5_keepsMemory h
  case phase9 => exact execPhase9_keepsMemory h
  case referenceClockLoss => exact execReferenceClockLoss_keepsMemory h
  case resetTake => exact execResetTake_keepsMemory h
  all_goals exact absurd (by simp +decide [writes]) hquiet

theorem step_keepsMemory {s t : State} (h : s.MemoryOk) (ht : step s = .next t) : t.MemoryOk := by
  unfold step at ht
  split at ht
  · rw [← Host.Outcome.next.inj ht]
    exact h.quiet (by simp +decide)
  · next i rest hpending =>
    have hrest : ({ s with pending := rest } : State).MemoryOk := h.of_eq rfl rfl rfl
    exact exec_keepsMemory i hrest t ht

/-- Settles O37: an empty queue's tick leaves every byte, and every command keeps the form. -/
theorem memoryStaysCanonical : Obligations.MemoryStaysCanonical := by
  unfold Obligations.MemoryStaysCanonical
  exact fun _ _ => step_keepsMemory

end Sys2Proof.Machine
end
